-- ==== Sys2Proof/Word.lean ====
section
/-! DEFINITION. The words of the QHL-9600 (R1, R2): bytes, and a sparse table with one canonical form, used for
every numbered collection of the module (registers, rooms, objects, memory bytes). -/

namespace Sys2Proof

/-- One byte. -/
abbrev Byte := BitVec 8

/-- A payload, a packet or any other run of bytes, lowest address first (R1). -/
abbrev Bytes := List Byte

/-- A 64-bit word: a TVX instruction (Tables 5.1, 5.2), a mask register or a generator's state. -/
abbrev W64 := BitVec 64

/-- A 32-bit word: an FP32 or I32 element. -/
abbrev W32 := BitVec 32

/-- A sparse table by number. The canonical form lists numbers strictly rising and no value equal to the
default that an unlisted number reads as. -/
abbrev Tbl (α : Type) := List (Nat × α)

/-- A memory: a table of bytes by byte address, `Host.Cell` by `Host.Cell`. An unlisted address reads 0. -/
abbrev Mem := List (Nat × BitVec 8)

end Sys2Proof
end

