-- ==== Sys2Proof/Types.lean ====
section
/-! DEFINITION. The operand types of the module's commands and events: command headers (Table 12.4), TVX fields
(Table 5.2), rows and blocks of the array (chapter 3), fabric messages (Tables 11.4 to 11.6) and the outcomes an
event brings with it from outside the module. -/

namespace Sys2Proof

/-- The header of a Kualne command packet (Table 12.4) with the function it came from and its stamp (R317). -/
structure CmdHdr where
  fn : Nat
  session : Nat
  sgen : Nat
  seq : Nat
  deadline : Nat
  hostTag : Nat
  crc : Nat
  stamp : Nat
  deriving DecidableEq, Repr, Inhabited

/-- What a read of host memory gave the command that made it (R375, R377): the bytes, or a failed access. -/
inductive HostRead where
  | data (bytes : Bytes)
  | failed
  deriving DecidableEq, Repr, Inhabited

/-- The fields of a TVX instruction other than its op (Table 5.2). -/
structure TvxArgs where
  mb : Nat
  ml : Nat
  rm : Nat
  immUse : Nat
  scalar : Bool
  n : Nat
  imm : W32
  deriving DecidableEq, Repr, Inhabited

/-- The fields of a STREAM instruction (Table 5.1). -/
structure StreamArgs where
  slot : Nat
  format : Nat
  object : Nat
  base : Nat
  contiguous : Bool
  vstride : Nat
  q : Nat
  deriving DecidableEq, Repr, Inhabited

/-- The array modes (Table 3.1), in the order of Table 4.4. -/
inductive Mode where
  | w4a8 | i8 | w4bf | w4t | bf16
  deriving DecidableEq, Repr, Inhabited

/-- The accumulator formats (R65). -/
inductive AccFmt where
  | wa40 | fp32
  deriving DecidableEq, Repr, Inhabited

/-- One entry of a layer's outlier list (Table 3.6): channel, matrix and one BF16 weight per output column. -/
structure Outlier where
  k : Nat
  matrix : Nat
  weights : List (BitVec 16)
  deriving DecidableEq, Repr, Inhabited

/-- What the weight-load path brings in for one 128 by 128 block: its mode, G or B (0 in W4T and BF16), its place along
K, the K and N of the accumulation, its stored bytes (Table 3.3 for W4 modes; I8 values then BF16 scales for I8;
256 bytes per column for BF16), the matrix in use and the layer's outlier list, and the E_w shift of R131. -/
structure WBlock where
  mode : Mode
  size : Nat
  storedG : Nat
  block : Nat
  kDim : Nat
  nDim : Nat
  tile0 : Nat
  bytes : Bytes
  matrix : Nat
  outliers : List Outlier
  shift : Int
  deriving DecidableEq, Repr, Inhabited

/-- One streamed row of one 128-lane block: which tracker and row it feeds, its 128 stored values (8-bit values in
W4A8 and I8, BF16 patterns otherwise), the row's I8 block scales, and the outlier side-row of R53. -/
structure RowData where
  tracker : Nat
  row : Nat
  values : List (BitVec 16)
  scales : List (BitVec 16)
  side : List (BitVec 16)
  deriving DecidableEq, Repr, Inhabited

/-- What an instruction stream names when it opens an accumulation or a chain link (R65, R74 to R76). -/
structure OpenArgs where
  tracker : Nat
  mode : Mode
  size : Nat
  fmt : AccFmt
  rows : Nat
  blocks : Nat
  kDim : Nat
  nDim : Nat
  tile0 : Nat
  chain : Bool
  outliers : List Outlier
  matrix : Nat
  deriving DecidableEq, Repr, Inhabited

/-- Where a drain writes: the tile store, or (R153) a gradient object's segment. -/
inductive DrainTo where
  | tile (addr : Nat)
  | gradient (object : Nat) (offset : Nat) (first : Bool) (k : Nat)
  deriving DecidableEq, Repr, Inhabited

/-- What a drain instruction names (R78, R79): tracker, output format (BF16 or FP32), FP32 row scales (none: 1),
destination, watch tag (R118) and sync flag (R106). -/
structure DrainArgs where
  tracker : Nat
  bf16 : Bool
  scales : Option (List W32)
  dest : DrainTo
  tag : Nat
  flag : Option Nat
  deriving DecidableEq, Repr, Inhabited

/-- Header of a fabric message (Table 11.4), less its type, which the command names. `ok` is false where the CRC
fails, a reserved field is non-zero or the length disagrees with its frames (R273). -/
structure MsgHdr where
  port : Nat
  hop : Nat
  length : Nat
  dst : Nat
  src : Nat
  ref : Nat
  refGen : Nat
  offset : Nat
  ok : Bool
  deriving DecidableEq, Repr, Inhabited

/-- One neighbour of an ENTRY (Table 11.6). -/
structure Neighbour where
  identity : Nat
  port : Nat
  lanes : Nat
  farPort : Nat
  deriving DecidableEq, Repr, Inhabited

/-- One accusation of an ENTRY. -/
structure Accusation where
  identity : Nat
  reason : Nat
  rounds : Nat
  deriving DecidableEq, Repr, Inhabited

/-- One base of an ENTRY. -/
structure EntryBase where
  rootPrefix : Nat
  state : Nat
  number : Nat
  deriving DecidableEq, Repr, Inhabited

/-- The body of an ENTRY (Table 11.6). -/
structure EntryBody where
  count : Nat
  timeState : Nat
  absenceM : Nat
  uncertainty : Nat
  interval : Nat
  epoch : Nat
  digest : Nat
  heartbeat : Nat
  neighbours : List Neighbour
  accusations : List Accusation
  absences : List Nat
  bases : List EntryBase
  deriving DecidableEq, Repr, Inhabited

/-- The fields of a link frame that the link layer reads (Table 11.3). -/
structure Frame where
  cls : Nat
  first : Bool
  last : Bool
  seq : Nat
  ack : Nat
  creditClass : Nat
  creditReturn : Nat
  payload : Bytes
  crcOk : Bool
  deriving DecidableEq, Repr, Inhabited

/-- The body of a HELLO frame (R267). -/
structure HelloBody where
  identity : Nat
  port : Nat
  lanes : Nat
  credits : List Nat
  replayDepth : Nat
  version : Nat
  reservedZero : Bool
  deriving DecidableEq, Repr, Inhabited

/-- What an uncorrectable memory error falls in (Table 8.8). -/
inductive ErrPlace where
  | windowSlot (wing slot : Nat)
  | object (number : Nat)
  | moveDest (number : Nat)
  | room (number : Nat)
  | swap (wing context : Nat)
  /-- An adapter's image at its Loft home. -/
  | image (handle : Nat)
  /-- A line of the CXL.mem region, by its region address. -/
  | region (line : Nat)
  | empty
  deriving DecidableEq, Repr, Inhabited

/-- What a host completion answers (Table 14.4). -/
inductive HostAccess where
  | ringRead
  | replyWrite
  | noticeWrite
  | objectWrite (object : Nat)
  | objectRead (object : Nat)
  | adapterRead (handle : Nat)
  | objectMove (object : Nat)
  | objectCreate (object : Nat)
  | adapterLoad (room : Nat)
  | reload (room : Nat)
  | baseInstall (base : Nat)
  | firmware
  | translation (page : Nat)
  deriving DecidableEq, Repr, Inhabited

/-- The registers a plain write may name (R382, R483). -/
inductive RegSpace where
  | bar0
  | i3c
  deriving DecidableEq, Repr, Inhabited

/-- The sources that wake the keeper from doze (Table 17.7). -/
inductive WakeSource where
  | alarm | pin | thermal | hardware | waylink | doorbell | config | doe
  deriving DecidableEq, Repr, Inhabited

/-- What a boot step found when it completed (R462, R465): the parts that failed training, Loft channels whose DIMMs
do not match, stacks that failed, and the bases whose stored root does not recompute. -/
structure BootFound where
  failedPcs : List Nat
  badLoft : List Nat
  failedStacks : List Nat
  badRoots : List Nat
  linkWidth : Nat
  linkRate : Nat
  cacheNegotiated : Bool
  memNegotiated : Bool
  loftDimms : Nat
  loftDimmGiB : Nat
  /-- Bytes per µs of one Loft channel: 8 for each MT/s of its DIMMs (R413). -/
  loftRate : Nat
  deriving DecidableEq, Repr, Inhabited

/-- A shard of a base manifest that is checked for its outlier lists (R52, R211). -/
structure LayerRow where
  offset : Nat
  length : Nat
  outlierOffset : Nat
  deriving DecidableEq, Repr, Inhabited

end Sys2Proof
end

