-- ==== Sys2Proof/Syntax.lean ====
section
/-! DEFINITION. The module's commands and events: one constructor per row of the spec's opcode table, with the row's
operands. The docstring of a constructor gives its row's mnemonic and rule. -/

namespace Sys2Proof

/-- A command from the host, a fabric event, a timetable entry, an instruction of a TVX program, an event at a pin or a
completion of work under way: each changes the module's state as its rule says. -/
inductive Instr where
  /-- MPCLK_EDGE (R15). -/
  | mpclkEdge (dt : Nat) (offset : Int)
  /-- LOCAL_MILEPOST_EDGE (R15). -/
  | localMilepostEdge
  /-- MPCLK_LOSS (R24). -/
  | mpclkLoss (missing : Nat)
  /-- MPCLK_REQUALIFY (R28). -/
  | mpclkRequalify
  /-- SLEW_DONE (R28). -/
  | slewDone
  /-- COUNT_ADOPT (R20). -/
  | countAdopt
  /-- HOLDOVER_LIMIT (R25). -/
  | holdoverLimit
  /-- TIME_UNSET_REMINDER (R23). -/
  | timeUnsetReminder
  /-- ROLL_CALL (R277). -/
  | rollCall
  /-- FAILOVER (R296). -/
  | failover
  /-- FENCE_ENTRY (R443). -/
  | fenceEntry (wing : Nat)
  /-- STAGE_END (R247). -/
  | stageEnd (wing : Nat)
  /-- SCRUB (R412). -/
  | scrub (wing : Nat)
  /-- STAGE_START (R248). -/
  | stageStart (wing : Nat)
  /-- CELLAR_SLOT (R224). -/
  | cellarSlot
  /-- COLLECTIVE (R289). -/
  | collective (collective : Nat)
  /-- TICKET_EXPIRY (R257). -/
  | ticketExpiry (wing : Nat)
  /-- DIGEST_SWEEP (R225). -/
  | digestSweep
  /-- ARRAY_ROW (R37). -/
  | arrayRow (tile : Nat) (row : RowData)
  /-- SHADOW_LOAD (R36). -/
  | shadowLoad (tile : Nat) (block : WBlock)
  /-- BLOCK_SWAP (R36). -/
  | blockSwap (tile : Nat)
  /-- ARRAY_PARITY_ERROR (R62). -/
  | arrayParityError (tile : Nat)
  /-- ACC_OPEN (R76). -/
  | accOpen (tile : Nat) (args : OpenArgs)
  /-- PROMOTION (R69). -/
  | promotion (tile tracker row col : Nat) (corrected : Bool)
  /-- DRAIN (R79). -/
  | drain (tile : Nat) (args : DrainArgs)
  /-- ACC_ECC_ERROR (R84). -/
  | accEccError (tile : Nat) (corrected : Bool)
  /-- NOP (R92). -/
  | nop (tile : Nat) (args : TvxArgs)
  /-- END (R92). -/
  | endProgram (tile : Nat) (args : TvxArgs)
  /-- LOOP (R92). -/
  | loop (tile : Nat) (args : TvxArgs)
  /-- WAIT (R106). -/
  | wait (tile : Nat) (args : TvxArgs)
  /-- POST (R106). -/
  | post (tile : Nat) (args : TvxArgs)
  /-- TAG (R98). -/
  | tag (tile : Nat) (args : TvxArgs)
  /-- SLD (R92). -/
  | sld (tile : Nat) (args : TvxArgs)
  /-- STREAM (R88). -/
  | stream (tile : Nat) (args : StreamArgs)
  /-- ADD (R95). -/
  | add (tile : Nat) (args : TvxArgs)
  /-- SUB (R95). -/
  | sub (tile : Nat) (args : TvxArgs)
  /-- MUL (R95). -/
  | mul (tile : Nat) (args : TvxArgs)
  /-- FMA (R95). -/
  | fma (tile : Nat) (args : TvxArgs)
  /-- MIN (R95). -/
  | min (tile : Nat) (args : TvxArgs)
  /-- MAX (R95). -/
  | max (tile : Nat) (args : TvxArgs)
  /-- ABS (R92). -/
  | abs (tile : Nat) (args : TvxArgs)
  /-- NEG (R92). -/
  | neg (tile : Nat) (args : TvxArgs)
  /-- SEL (R92). -/
  | sel (tile : Nat) (args : TvxArgs)
  /-- CMP (R92). -/
  | cmp (tile : Nat) (args : TvxArgs)
  /-- EXP2 (R96). -/
  | exp2 (tile : Nat) (args : TvxArgs)
  /-- LOG2 (R96). -/
  | log2 (tile : Nat) (args : TvxArgs)
  /-- RCP (R96). -/
  | rcp (tile : Nat) (args : TvxArgs)
  /-- SQRT (R96). -/
  | sqrt (tile : Nat) (args : TvxArgs)
  /-- RSQRT (R96). -/
  | rsqrt (tile : Nat) (args : TvxArgs)
  /-- TANH (R96). -/
  | tanh (tile : Nat) (args : TvxArgs)
  /-- CVT (R97). -/
  | cvt (tile : Nat) (args : TvxArgs)
  /-- QUANT (R99). -/
  | quant (tile : Nat) (args : TvxArgs)
  /-- IADD (R100). -/
  | iadd (tile : Nat) (args : TvxArgs)
  /-- IAND (R100). -/
  | iand (tile : Nat) (args : TvxArgs)
  /-- IOR (R100). -/
  | ior (tile : Nat) (args : TvxArgs)
  /-- IXOR (R100). -/
  | ixor (tile : Nat) (args : TvxArgs)
  /-- ISHL (R100). -/
  | ishl (tile : Nat) (args : TvxArgs)
  /-- ISHR (R100). -/
  | ishr (tile : Nat) (args : TvxArgs)
  /-- MSET (R94). -/
  | mset (tile : Nat) (args : TvxArgs)
  /-- MAND (R92). -/
  | mand (tile : Nat) (args : TvxArgs)
  /-- MOR (R92). -/
  | mor (tile : Nat) (args : TvxArgs)
  /-- MXOR (R92). -/
  | mxor (tile : Nat) (args : TvxArgs)
  /-- MNOT (R92). -/
  | mnot (tile : Nat) (args : TvxArgs)
  /-- GSEED (R104). -/
  | gseed (tile : Nat) (args : TvxArgs)
  /-- RAND (R105). -/
  | rand (tile : Nat) (args : TvxArgs)
  /-- DROP (R105). -/
  | drop (tile : Nat) (args : TvxArgs)
  /-- RTZ (R101). -/
  | rtz (tile : Nat) (args : TvxArgs)
  /-- RTACC (R101). -/
  | rtacc (tile : Nat) (args : TvxArgs)
  /-- RTRED (R102). -/
  | rtred (tile : Nat) (args : TvxArgs)
  /-- RTOUT (R102). -/
  | rtout (tile : Nat) (args : TvxArgs)
  /-- UPDATE_JOB_START (R115). -/
  | updateJobStart (job handle : Nat)
  /-- UPDATE_SLICE (R111). -/
  | updateSlice (quarter : Nat)
  /-- UPDATE_COMMIT (R115). -/
  | updateCommit (job handle : Nat)
  /-- PASS_ADMIT (R349). -/
  | passAdmit (wing context : Nat)
  /-- FORWARD_PASS_END (R125). -/
  | forwardPassEnd (wing context : Nat)
  /-- BACKWARD_PASS_END (R124). -/
  | backwardPassEnd (wing context : Nat)
  /-- STEP_COMMIT (R121). -/
  | stepCommit (wing context : Nat)
  /-- PASS_END (R157). -/
  | passEnd (wing context : Nat)
  /-- POINT_ARRIVAL (R144). -/
  | pointArrival (room : Nat) (block : Bytes)
  /-- REPLACEMENT_COMMIT (R145). -/
  | replacementCommit (handle : Nat)
  /-- CHECKOUT_MOVE_COMMIT (R159). -/
  | checkoutMoveCommit (room : Nat)
  /-- ADAPTER_READ_DONE (R356). -/
  | adapterReadDone (handle : Nat)
  /-- OBJECT_MOVE_COMMIT (R184). -/
  | objectMoveCommit (object : Nat)
  /-- OBJECT_FILL_DONE (R185). -/
  | objectFillDone (object : Nat)
  /-- OBJECT_TRANSFER_DONE (R354). -/
  | objectTransferDone (object : Nat) (bytes : Bytes)
  /-- SHARD_FETCH (R194). -/
  | shardFetch (wing : Nat)
  /-- SHARD_ARRIVAL (R220). -/
  | shardArrival (wing shard : Nat) (digest : Nat)
  /-- HBM_CORRECTED_ERROR (R177). -/
  | hbmCorrectedError (pc addr : Nat)
  /-- HBM_UNCORRECTABLE_ERROR (R203). -/
  | hbmUncorrectableError (pc addr : Nat) (place : ErrPlace)
  /-- LOFT_CORRECTED_ERROR (R178). -/
  | loftCorrectedError (channel addr : Nat)
  /-- LOFT_UNCORRECTABLE_ERROR (R203). -/
  | loftUncorrectableError (channel addr : Nat) (place : ErrPlace)
  /-- LOFT_CHANNEL_LOSS (R435). -/
  | loftChannelLoss (channel : Nat)
  /-- STORE_CORRECTED_ERROR (R172). -/
  | storeCorrectedError (quarterStore : Bool) (unit : Nat)
  /-- STORE_ECC_ERROR (R172). -/
  | storeEccError (quarterStore : Bool) (unit word : Nat) (reader : Option (Nat × Nat))
  /-- SECURE_STORE_KEY_ERROR (R174). -/
  | secureStoreKeyError (slot : Nat)
  /-- SHARD_PROGRAM_DONE (R215). -/
  | shardProgramDone (shard : Nat) (ok : Bool) (digest : Nat)
  /-- SHARD_READBACK_DONE (R215). -/
  | shardReadbackDone (shard : Nat) (digest : Nat) (outlierListsOk : Bool)
  /-- SWEEP_READ_DONE (R225). -/
  | sweepReadDone (shard : Nat) (digest : Nat)
  /-- SHARD_ERASE_DONE (R219). -/
  | shardEraseDone (shard : Nat)
  /-- HOLDER_TIMEOUT (R227). -/
  | holderTimeout (shard : Nat)
  /-- SWITCH_EDGE (R250). -/
  | switchEdge (wing : Nat)
  /-- PARK_THRESHOLD (R255). -/
  | parkThreshold (wing : Nat)
  /-- SWAP_OUT_START (R259). -/
  | swapOutStart (wing : Nat)
  /-- SWAP_IN_START (R260). -/
  | swapInStart (wing : Nat)
  /-- SWAP_COMMIT (R258). -/
  | swapCommit (wing : Nat)
  /-- WING_REMOVE_DONE (R240). -/
  | wingRemoveDone (wing : Nat)
  /-- TRAINING_PHASE_DONE (R267). -/
  | trainingPhaseDone (port : Nat) (lanes : Nat)
  /-- TRAINING_PHASE_OVERRUN (R267). -/
  | trainingPhaseOverrun (port : Nat)
  /-- TRAINING_RETRY (R267). -/
  | trainingRetry (port : Nat)
  /-- HELLO (R267). -/
  | hello (port : Nat) (body : HelloBody)
  /-- LANE_LOCK_LOSS (R268). -/
  | laneLockLoss (port lane : Nat) (locked : Nat)
  /-- UNCORRECTABLE_CODEWORD (R268). -/
  | uncorrectableCodeword (port : Nat) (locked : Nat)
  /-- DATA_FRAME (R271). -/
  | dataFrame (port : Nat) (frame : Frame)
  /-- RETRY_FRAME (R271). -/
  | retryFrame (port : Nat) (frame : Frame)
  /-- IDLE_FRAME (R269). -/
  | idleFrame (port : Nat) (frame : Frame)
  /-- ACK_TIMEOUT (R271). -/
  | ackTimeout (port : Nat)
  /-- LINK_RETRAIN_DONE (R271). -/
  | linkRetrainDone (port : Nat) (ok : Bool)
  /-- ENTRY (R277). -/
  | entry (hdr : MsgHdr) (body : EntryBody) (nearEdge : Bool)
  /-- ROLL_CALL_CLOSE (R279). -/
  | rollCallClose
  /-- RING_BLOCK (R292). -/
  | ringBlock (hdr : MsgHdr) (wing ticket leg step : Nat) (data : Bytes)
  /-- RING_DONE (R292). -/
  | ringDone (hdr : MsgHdr) (wing ticket leg : Nat)
  /-- MIRROR_WRITE (R293). -/
  | mirrorWrite (hdr : MsgHdr) (leg party : Nat) (data : Bytes)
  /-- MIRROR_ACK (R293). -/
  | mirrorAck (hdr : MsgHdr) (leg : Nat)
  /-- MIRROR_ACK_TIMEOUT (R294). -/
  | mirrorAckTimeout (ring leg : Nat)
  /-- BCAST_DATA (R285). -/
  | bcastData (hdr : MsgHdr) (shard : Nat) (last : Bool) (digest : Nat)
  /-- BCAST_ACK (R285). -/
  | bcastAck (hdr : MsgHdr) (shard : Nat)
  /-- REDUCE_DATA (R288). -/
  | reduceData (hdr : MsgHdr) (back : Bool) (data : Bytes)
  /-- COLLECTIVE_COMMIT (R289). -/
  | collectiveCommit (collective : Nat)
  /-- SHARD_REQUEST (R227). -/
  | shardRequest (hdr : MsgHdr) (root shard : Nat)
  /-- SHARD_DATA (R227). -/
  | shardData (hdr : MsgHdr) (shard : Nat) (paced : Bool) (digest : Nat)
  /-- NOT_HELD (R227). -/
  | notHeld (hdr : MsgHdr) (shard : Nat)
  /-- REMOTE_READ (R273). -/
  | remoteRead (hdr : MsgHdr) (object addr len : Nat)
  /-- REMOTE_DATA (R256). -/
  | remoteData (hdr : MsgHdr) (ticket : Nat) (data : Bytes)
  /-- RELAY_TIMEOUT (R274). -/
  | relayTimeout (port : Nat)
  /-- FABRIC_PARAMS_APPLY (R358). -/
  | fabricParamsApply
  /-- CMD_DOORBELL (R303). -/
  | cmdDoorbell (fn value : Nat) (words : List Nat)
  /-- REPLY_HEAD_WRITE (R303). -/
  | replyHeadWrite (fn value : Nat)
  /-- NOTICE_HEAD_WRITE (R303). -/
  | noticeHeadWrite (fn value : Nat)
  /-- CMD_WINDOW_WRITE (R305). -/
  | cmdWindowWrite (fn offset : Nat) (data : Bytes)
  /-- REPLY_WINDOW_READ (R305). -/
  | replyWindowRead (fn width : Nat)
  /-- NOTICE_WINDOW_READ (R305). -/
  | noticeWindowRead (fn width : Nat)
  /-- PACKET_ARRIVAL_TIMEOUT (R311). -/
  | packetArrivalTimeout (fn : Nat)
  /-- GAP_NOTICE_TIMEOUT (R326). -/
  | gapNoticeTimeout (fn session : Nat)
  /-- GAP_SKIP_TIMEOUT (R326). -/
  | gapSkipTimeout (fn session : Nat)
  /-- LEASE_EXPIRY (R331). -/
  | leaseExpiry (fn session : Nat)
  /-- LAPSE_HOLD_EXPIRY (R331). -/
  | lapseHoldExpiry (fn session : Nat)
  /-- PROBATION_END (R328). -/
  | probationEnd (fn session : Nat)
  /-- NO_OP (R340). -/
  | noOp (h : CmdHdr) (p : Bytes)
  /-- SESSION_OPEN (R323). -/
  | sessionOpen (h : CmdHdr) (p : Bytes)
  /-- SESSION_RESUME (R333). -/
  | sessionResume (h : CmdHdr) (p : Bytes)
  /-- SESSION_STATUS (R340). -/
  | sessionStatus (h : CmdHdr) (p : Bytes)
  /-- SESSION_SET (R324). -/
  | sessionSet (h : CmdHdr) (p : Bytes)
  /-- SESSION_CLOSE (R331). -/
  | sessionClose (h : CmdHdr) (p : Bytes)
  /-- FUNCTION_STATUS (R340). -/
  | functionStatus (h : CmdHdr) (p : Bytes)
  /-- TIME_SEED (R21). -/
  | timeSeed (h : CmdHdr) (p : Bytes)
  /-- TIME_READ (R340). -/
  | timeRead (h : CmdHdr) (p : Bytes)
  /-- WING_CREATE (R233). -/
  | wingCreate (h : CmdHdr) (p : Bytes)
  /-- WING_RESIZE (R236). -/
  | wingResize (h : CmdHdr) (p : Bytes)
  /-- WING_REMOVE (R240). -/
  | wingRemove (h : CmdHdr) (p : Bytes)
  /-- WING_REASSIGN (R241). -/
  | wingReassign (h : CmdHdr) (p : Bytes)
  /-- WING_STATUS (R340). -/
  | wingStatus (h : CmdHdr) (p : Bytes)
  /-- STALL_READ (R201). -/
  | stallRead (h : CmdHdr) (p : Bytes)
  /-- CONTEXT_CREATE (R243). -/
  | contextCreate (h : CmdHdr) (p : Bytes)
  /-- CONTEXT_SET (R243). -/
  | contextSet (h : CmdHdr) (p : Bytes)
  /-- CONTEXT_DESTROY (R347). -/
  | contextDestroy (h : CmdHdr) (p : Bytes)
  /-- PROGRAM_LOAD (R93). -/
  | programLoad (h : CmdHdr) (p : Bytes) (host : HostRead)
  /-- PROGRAM_FREE (R347). -/
  | programFree (h : CmdHdr) (p : Bytes)
  /-- PASS_TRAIN (R348). -/
  | passTrain (h : CmdHdr) (p : Bytes)
  /-- PASS_SERVE (R350). -/
  | passServe (h : CmdHdr) (p : Bytes)
  /-- SERVE_OPEN (R351). -/
  | serveOpen (h : CmdHdr) (p : Bytes)
  /-- SERVE_APPEND (R350). -/
  | serveAppend (h : CmdHdr) (p : Bytes)
  /-- SERVE_CLOSE (R350). -/
  | serveClose (h : CmdHdr) (p : Bytes)
  /-- UPDATE_RUN (R352). -/
  | updateRun (h : CmdHdr) (p : Bytes)
  /-- WATCH_READ (R123). -/
  | watchRead (h : CmdHdr) (p : Bytes)
  /-- WATCH_SET (R119). -/
  | watchSet (h : CmdHdr) (p : Bytes)
  /-- WATCH_RESET (R123). -/
  | watchReset (h : CmdHdr) (p : Bytes)
  /-- DETECTOR_SET (R126). -/
  | detectorSet (h : CmdHdr) (p : Bytes)
  /-- DETECTOR_RELEASE (R129). -/
  | detectorRelease (h : CmdHdr) (p : Bytes)
  /-- OBJECT_CREATE (R353). -/
  | objectCreate (h : CmdHdr) (p : Bytes)
  /-- OBJECT_MOVE (R184). -/
  | objectMove (h : CmdHdr) (p : Bytes)
  /-- OBJECT_RESIZE (R185). -/
  | objectResize (h : CmdHdr) (p : Bytes)
  /-- OBJECT_FREE (R186). -/
  | objectFree (h : CmdHdr) (p : Bytes)
  /-- OBJECT_STATUS (R340). -/
  | objectStatus (h : CmdHdr) (p : Bytes)
  /-- OBJECT_WRITE (R354). -/
  | objectWrite (h : CmdHdr) (p : Bytes)
  /-- OBJECT_READ (R354). -/
  | objectRead (h : CmdHdr) (p : Bytes)
  /-- WINDOW_SET (R191). -/
  | windowSet (h : CmdHdr) (p : Bytes)
  /-- ADAPTER_LOAD (R144). -/
  | adapterLoad (h : CmdHdr) (p : Bytes) (host : HostRead)
  /-- ROOM_PIN (R158). -/
  | roomPin (h : CmdHdr) (p : Bytes)
  /-- CHECKOUT (R159). -/
  | checkout (h : CmdHdr) (p : Bytes)
  /-- ADAPTER_DELETE (R163). -/
  | adapterDelete (h : CmdHdr) (p : Bytes)
  /-- ADAPTER_READ (R356). -/
  | adapterRead (h : CmdHdr) (p : Bytes)
  /-- ADAPTER_STATUS (R340). -/
  | adapterStatus (h : CmdHdr) (p : Bytes)
  /-- BASE_INSTALL (R213). -/
  | baseInstall (h : CmdHdr) (p : Bytes) (host : HostRead)
  /-- INSTALL_CANCEL (R216). -/
  | installCancel (h : CmdHdr) (p : Bytes)
  /-- BASE_REMOVE (R218). -/
  | baseRemove (h : CmdHdr) (p : Bytes)
  /-- BASE_SELECT (R230). -/
  | baseSelect (h : CmdHdr) (p : Bytes)
  /-- SWEEP_SET (R225). -/
  | sweepSet (h : CmdHdr) (p : Bytes)
  /-- CELLAR_STATUS (R340). -/
  | cellarStatus (h : CmdHdr) (p : Bytes)
  /-- FABRIC_SET (R358). -/
  | fabricSet (h : CmdHdr) (p : Bytes) (host : HostRead)
  /-- COLLECTIVE_SET (R359). -/
  | collectiveSet (h : CmdHdr) (p : Bytes)
  /-- COLLECTIVE_POST (R289). -/
  | collectivePost (h : CmdHdr) (p : Bytes)
  /-- RING_SET (R291). -/
  | ringSet (h : CmdHdr) (p : Bytes) (host : HostRead)
  /-- RING_STATUS (R340). -/
  | ringStatus (h : CmdHdr) (p : Bytes)
  /-- FABRIC_STATUS (R340). -/
  | fabricStatus (h : CmdHdr) (p : Bytes)
  /-- PORT_RETRAIN (R267). -/
  | portRetrain (h : CmdHdr) (p : Bytes)
  /-- MIRROR_AREA_SET (R360). -/
  | mirrorAreaSet (h : CmdHdr) (p : Bytes)
  /-- PASSPORT_GET (R403). -/
  | passportGet (h : CmdHdr) (p : Bytes) (host : HostRead)
  /-- KEY_RELEASE (R406). -/
  | keyRelease (h : CmdHdr) (p : Bytes)
  /-- PARTY_KEY_LOAD (R406). -/
  | partyKeyLoad (h : CmdHdr) (p : Bytes)
  /-- PARTY_KEY_REMOVE (R407). -/
  | partyKeyRemove (h : CmdHdr) (p : Bytes)
  /-- PARTY_BIND (R378). -/
  | partyBind (h : CmdHdr) (p : Bytes)
  /-- LIFE_CYCLE_SET (R394). -/
  | lifeCycleSet (h : CmdHdr) (p : Bytes)
  /-- FAULT_LOG_READ (R423). -/
  | faultLogRead (h : CmdHdr) (p : Bytes)
  /-- TILE_MAP (R424). -/
  | tileMap (h : CmdHdr) (p : Bytes)
  /-- PC_RETIRE (R428). -/
  | pcRetire (h : CmdHdr) (p : Bytes)
  /-- LOFT_EVACUATE (R432). -/
  | loftEvacuate (h : CmdHdr) (p : Bytes)
  /-- WING_FENCE (R443). -/
  | wingFence (h : CmdHdr) (p : Bytes)
  /-- FIRMWARE_HANDOVER (R439). -/
  | firmwareHandover (h : CmdHdr) (p : Bytes) (host : HostRead)
  /-- DOMAIN_SET (R362). -/
  | domainSet (h : CmdHdr) (p : Bytes)
  /-- VF_SET (R362). -/
  | vfSet (h : CmdHdr) (p : Bytes)
  /-- TALLY_READ (R364). -/
  | tallyRead (h : CmdHdr) (p : Bytes)
  /-- TALLY_CLOSE (R364). -/
  | tallyClose (h : CmdHdr) (p : Bytes)
  /-- PERST_N_ASSERT (R461). -/
  | perstNAssert
  /-- PERST_N_DEASSERT (R462). -/
  | perstNDeassert
  /-- CONFIG_REQUEST (R369). `ats` is the value of the ATS Enable bit, where the request writes it (R375). -/
  | configRequest (fn : Nat) (ats : Option Bool)
  /-- FLR (R373). -/
  | flr (fn : Nat)
  /-- VF_ENABLE_CLEAR (R374). -/
  | vfEnableClear
  /-- BUS_MASTER_ENABLE_CLEAR (R374). -/
  | busMasterEnableClear (fn : Nat)
  /-- LINK_LOSS (R374). -/
  | linkLoss
  /-- FUNCTION_RESET_DONE (R373). -/
  | functionResetDone (fn : Nat)
  /-- HOST_COMPLETION (R376). -/
  | hostCompletion (fn gen : Nat) (ok : Bool) (access : HostAccess)
  /-- ATS_INVALIDATE (R375). -/
  | atsInvalidate (fn page : Nat)
  /-- FN_CTRL_APPLY (R379). -/
  | fnCtrlApply (fn value : Nat)
  /-- DECODER_COMMIT (R388). `lock` is the decoder's Lock-on-commit bit. -/
  | decoderCommit (decoder base size : Nat) (lock : Bool)
  /-- DECODER_UNCOMMIT (R388). -/
  | decoderUncommit (decoder : Nat)
  /-- CXL_MEM_READ (R389). -/
  | cxlMemRead (addr : Nat)
  /-- CXL_MEM_WRITE (R389). -/
  | cxlMemWrite (addr : Nat) (data : Bytes)
  /-- IDE_INTEGRITY_FAILURE (R390). -/
  | ideIntegrityFailure (stream : Nat)
  /-- PASSPORT_REQUEST (R404). -/
  | passportRequest (length : Nat) (nonce : Bytes)
  /-- IDE_KEYS (R404). -/
  | ideKeys (wrapper message : Bytes)
  /-- DEBUG_UNLOCK (R404). -/
  | debugUnlock (token : Bytes)
  /-- DOE_DISCOVERY (R391). -/
  | doeDiscovery (index : Nat)
  /-- DOE_ABORT (R391). -/
  | doeAbort
  /-- PORTER_KEEPER_RESET (R438). -/
  | porterKeeperReset (key arg : Nat)
  /-- PORTER_SECURE_WIPE (R399). -/
  | porterSecureWipe (key arg : Nat)
  /-- PORTER_WING_FENCE (R443). -/
  | porterWingFence (key arg : Nat)
  /-- PORTER_POWER_OFF (R444). -/
  | porterPowerOff (key arg : Nat)
  /-- MP_COUNT_READ (R384). -/
  | mpCountRead
  /-- LOW_HALF_READ (R382). -/
  | lowHalfRead (fn offset : Nat)
  /-- REGISTER_WRITE (R382). -/
  | registerWrite (space : RegSpace) (fn offset width value : Nat)
  /-- MESH_BREAK (R400). -/
  | meshBreak
  /-- SUPPLY_EXCURSION (R400). -/
  | supplyExcursion (ns : Nat)
  /-- CLOCK_EXCURSION (R400). -/
  | clockExcursion (ns : Nat)
  /-- THERMAL_EXCURSION (R400). -/
  | thermalExcursion (eighths : Int)
  /-- TAMPER_IN (R400). -/
  | tamperIn (ns : Nat)
  /-- AK_REDRAW_DONE (R401). -/
  | akRedrawDone
  /-- SCRUB_DONE (R416). -/
  | scrubDone (wing : Nat)
  /-- COUNTER_SNAPSHOT (R420). -/
  | counterSnapshot
  /-- JOURNAL_WRITE (R437). -/
  | journalWrite
  /-- JOURNAL_WRITE_DONE (R437). -/
  | journalWriteDone
  /-- WATCHDOG_EXPIRY (R438). -/
  | watchdogExpiry (core : Nat)
  /-- KEEPER_CACHE_ERROR (R438). -/
  | keeperCacheError (core : Nat)
  /-- KEEPER_RESTART_DONE (R438). -/
  | keeperRestartDone
  /-- KEEPER_MEMORY_ERROR (R436). -/
  | keeperMemoryError (banksBad : Nat)
  /-- HANDOVER_TAKEOVER (R440). -/
  | handoverTakeover
  /-- HANDOVER_TIMEOUT (R441). -/
  | handoverTimeout
  /-- IMAGE_STORE_WRITE (R441). -/
  | imageStoreWrite
  /-- SPARE_SWITCH (R425). -/
  | spareSwitch (tile : Nat) (badWords : List Nat)
  /-- PC_RETIRE_DONE (R428). -/
  | pcRetireDone (pc : Nat)
  /-- LOFT_EVACUATE_DONE (R433). -/
  | loftEvacuateDone (channel : Nat)
  /-- LOFT_RETURN_DONE (R434). -/
  | loftReturnDone (channel : Nat) (dimmsMatch : Bool)
  /-- PFAIL_N_ASSERT (R445). -/
  | pfailNAssert
  /-- THERMAL_WARNING_CROSS (R487). -/
  | thermalWarningCross (part : Nat) (eighths : Int)
  /-- THERMAL_WARNING_CLEAR (R487). -/
  | thermalWarningClear
  /-- THERMAL_TRIP (R487). -/
  | thermalTrip (part : Nat) (eighths : Int)
  /-- SENSOR_FAULT (R487). -/
  | sensorFault (part : Nat) (sensor : Nat)
  /-- VIN_RISE_ALWAYS_ON (R448). -/
  | vinRiseAlwaysOn
  /-- ALWAYS_ON_UP (R460). -/
  | alwaysOnUp (maddr : Nat)
  /-- VIN_FALL_ALWAYS_OFF (R448). -/
  | vinFallAlwaysOff
  /-- VIN_GOOD (R448). -/
  | vinGood
  /-- VIN_HIGH (R448). -/
  | vinHigh
  /-- VIN_OVER (R448). -/
  | vinOver
  /-- VIN_LOW (R448). -/
  | vinLow
  /-- VIN_LOW_NO_WARN (R448). -/
  | vinLowNoWarn
  /-- VIN_BELOW_HOLDUP (R448). -/
  | vinBelowHoldup
  /-- VOLTAGE_RECORD_REPEAT (R448). -/
  | voltageRecordRepeat
  /-- DOMAIN_POWER_GOOD (R452). -/
  | domainPowerGood (domain : Nat)
  /-- POWER_GOOD_TIMEOUT (R452). -/
  | powerGoodTimeout (domain : Nat)
  /-- DOMAIN_SEQUENCE_DONE (R452). -/
  | domainSequenceDone (domain : Nat)
  /-- DOZE_REQUEST (R458). -/
  | dozeRequest
  /-- DOZE_WAKE (R458). -/
  | dozeWake (source : WakeSource)
  /-- WAKE_ALARM (R457). -/
  | wakeAlarm
  /-- BOOT_STEP_DONE (R462). -/
  | bootStepDone (found : BootFound)
  /-- BOOT_STEP_OVERRUN (R464). -/
  | bootStepOverrun (reason : Nat)
  /-- RETRY_WAIT_END (R465). -/
  | retryWaitEnd
  /-- I3C_SETDASA (R482). -/
  | i3cSetdasa (staticAddr dynAddr : Nat)
  /-- I3C_ENTDAA (R482). -/
  | i3cEntdaa (dynAddr : Nat)
  /-- I3C_RSTDAA (R482). -/
  | i3cRstdaa
  /-- I3C_GETSTATUS (R482). -/
  | i3cGetstatus
  /-- JTAG_BYPASS (R485). -/
  | jtagBypass
  /-- JTAG_IDCODE (R485). -/
  | jtagIdcode
  /-- JTAG_EXTEST (R417). -/
  | jtagExtest
  /-- JTAG_SAMPLE (R417). -/
  | jtagSample
  /-- JTAG_PRELOAD (R417). -/
  | jtagPreload (value : List Bool)
  /-- JTAG_DEBUG (R417). -/
  | jtagDebug (code : Nat)
  /-- VF_ENABLE_SET (R372). -/
  | vfEnableSet (numVfs : Nat)
  /-- BUS_MASTER_ENABLE_SET (R375). -/
  | busMasterEnableSet (fn : Nat)
  /-- LINK_UP (R368). -/
  | linkUp (width rate : Nat) (cache mem : Bool)
  /-- SNOOP (R387). -/
  | snoop (addr : Nat)
  deriving DecidableEq, Repr

end Sys2Proof
end

