-- ==== Sys2Proof/Decode.lean ====
section
/-! DEFINITION. The words of the opcode table. The module is a block: it takes commands and events, and the table gives no
row any bits, so no word spells one (R337: a host's command carries its code in a packet, read in Machine/Codec.lean). -/

namespace Sys2Proof

/-- The command that a word spells by the table's bits: none, for the table gives no row bits. -/
def decodeTableWord (_nbits _w : Nat) : Option Instr := none

end Sys2Proof
end

