-- ==== Sys2Proof/Codes.lean ====
section
/-! DEFINITION. The status, notice and fault-log codes of chapter 19 (Tables 19.2 to 19.4), each with its value. -/

namespace Sys2Proof

/-- A reply status or the ending status of a session, pass or context (Table 19.2). -/
inductive Status where
  /-- 0x0000, set by Every command. -/
  | ok
  /-- 0x0001, set by R332. -/
  | accepted
  /-- 0x0002, set by R332, R362. -/
  | deferred
  /-- 0x0003, set by R362, R440. -/
  | complete
  /-- 0x0004, set by R362, R470. -/
  | superseded
  /-- 0x0005, set by R237. -/
  | resizePending
  /-- 0x0101, set by R327. -/
  | malformed
  /-- 0x0102, set by R341, R378. -/
  | notPermitted
  /-- 0x0103, set by R164, R329. -/
  | staleGeneration
  /-- 0x0104, set by R329, R333. -/
  | sessionUnknown
  /-- 0x0105, set by R323. -/
  | sessionLimit
  /-- 0x0106, set by R332, Table 12.10. -/
  | sessionBusy
  /-- 0x0107, set by R325. -/
  | seqOutOfWindow
  /-- 0x0108, set by R325. -/
  | seqReused
  /-- 0x0109, set by R326. -/
  | seqSkipped
  /-- 0x010A, set by R325. -/
  | seqTooOld
  /-- 0x010B, set by R326. -/
  | gapOverflow
  /-- 0x010C, set by R328. -/
  | probation
  /-- 0x010D, set by R330. -/
  | expired
  /-- 0x010E, set by R333. -/
  | replayUnavailable
  /-- 0x010F, set by R344. -/
  | minimalMode
  /-- 0x0110, set by R371. -/
  | functionAbsent
  /-- 0x0111, set by R377. -/
  | hostAccessFault
  /-- 0x0112, set by R329. -/
  | sessionLapsed
  /-- 0x0201, set by R21. -/
  | timeRefused
  /-- 0x0202, set by R30. -/
  | timeUnset
  /-- 0x0203, set by R30. -/
  | timetableFull
  /-- 0x0204, set by R30, R358. -/
  | tooLate
  /-- 0x0301, set by Table 13.3, R241. -/
  | wingBusy
  /-- 0x0302, set by R233, R409. -/
  | wingResourceBusy
  /-- 0x0303, set by R233, R450. -/
  | tileUnavailable
  /-- 0x0304, set by R233. -/
  | cellarSlotsFull
  /-- 0x0305, set by R233, R346. -/
  | wingBad
  /-- 0x0306, set by R236, R240. -/
  | resourceOccupied
  /-- 0x0307, set by R238, R426. -/
  | wingShape
  /-- 0x0308, set by R241, R415. -/
  | wingScrubbing
  /-- 0x0309, set by R348. -/
  | wingSealed
  /-- 0x030A, set by R443. -/
  | wingFenced
  /-- 0x030B, set by R240. -/
  | wingGone
  /-- 0x0401, set by R243. -/
  | contextBad
  /-- 0x0402, set by Table 13.5. -/
  | contextBusy
  /-- 0x0403, set by R348. -/
  | contextKind
  /-- 0x0404, set by R347. -/
  | contextGone
  /-- 0x0405, set by R93, R118. -/
  | programBad
  /-- 0x0406, set by R347. -/
  | programTableFull
  /-- 0x0407, set by R348. -/
  | programUnknown
  /-- 0x0408, set by R347. -/
  | programBusy
  /-- 0x0409, set by R348. -/
  | tableBad
  /-- 0x040A, set by R351. -/
  | serveLimit
  /-- 0x040B, set by Table 13.8. -/
  | serveEnded
  /-- 0x0501, set by R135, R144. -/
  | adapterBad
  /-- 0x0502, set by R161, R163. -/
  | adapterGone
  /-- 0x0503, set by R129. -/
  | adapterHeld
  /-- 0x0504, set by R147. -/
  | adapterListLong
  /-- 0x0505, set by R355. -/
  | adapterBusy
  /-- 0x0506, set by R356. -/
  | adapterSpace
  /-- 0x0507, set by R356. -/
  | hostHome
  /-- 0x0508, set by R145, R159. -/
  | roomBusy
  /-- 0x0509, set by R159. -/
  | roomPinned
  /-- 0x050A, set by R158. -/
  | roomLeaving
  /-- 0x050B, set by R162. -/
  | roomPoolFull
  /-- 0x050C, set by R111. -/
  | updateBindBad
  /-- 0x050D, set by R116. -/
  | updateFault
  /-- 0x050E, set by R352. -/
  | rebiasRange
  /-- 0x050F, set by R148. -/
  | tagDenied
  /-- 0x0601, set by R186, R353. -/
  | placeDenied
  /-- 0x0602, set by R176. -/
  | placeNoSpace
  /-- 0x0603, set by R180, R407. -/
  | keyAbsent
  /-- 0x0604, set by R186, R345. -/
  | objectBusy
  /-- 0x0605, set by R186. -/
  | objectMoving
  /-- 0x0606, set by R186. -/
  | objectDamaged
  /-- 0x0607, set by R188. -/
  | objectNotResident
  /-- 0x0608, set by R353. -/
  | objectLimit
  /-- 0x0609, set by R354. -/
  | objectRange
  /-- 0x060A, set by R191. -/
  | windowSmall
  /-- 0x0701, set by R211. -/
  | manifestBad
  /-- 0x0702, set by R211, R357. -/
  | baseTooLarge
  /-- 0x0703, set by R213, R218, R230. -/
  | baseBusy
  /-- 0x0704, set by R211. -/
  | cellarFull
  /-- 0x0705, set by R52, R211. -/
  | outlierListBad
  /-- 0x0706, set by R216. -/
  | installIncomplete
  /-- 0x0707, set by Table 13.12. -/
  | notInstalling
  /-- 0x0708, set by R230. -/
  | baseNotReady
  /-- 0x0709, set by R406. -/
  | baseNotInstalled
  /-- 0x070A, set by R217. -/
  | keyRootMismatch
  /-- 0x0801, set by R359. -/
  | notMember
  /-- 0x0802, set by R300, R359. -/
  | peerAbsent
  /-- 0x0803, set by R287. -/
  | collectiveNotAdjacent
  /-- 0x0804, set by R359. -/
  | collectiveBusy
  /-- 0x0805, set by R359. -/
  | collectiveShape
  /-- 0x0806, set by R290. -/
  | collectiveFailed
  /-- 0x0807, set by R291. -/
  | ringNotAdjacent
  /-- 0x0808, set by R359. -/
  | ringBusy
  /-- 0x0809, set by Table 13.13. -/
  | portOff
  /-- 0x080A, set by R294. -/
  | mirrorRefused
  /-- 0x0901, set by R403. -/
  | passportSpace
  /-- 0x0902, set by R406. -/
  | keyRefused
  /-- 0x0903, set by R406. -/
  | keyPresent
  /-- 0x0904, set by R361. -/
  | partyBound
  /-- 0x0905, set by R394. -/
  | lifeCycleRefused
  /-- 0x0A01, set by R424. -/
  | spareNone
  /-- 0x0A02, set by R428. -/
  | pcRetired
  /-- 0x0A03, set by R432. -/
  | loftNoSpace
  /-- 0x0A04, set by R434. -/
  | dimmMismatch
  /-- 0x0A05, set by R439, R441. -/
  | firmwareBad
  /-- 0x0A06, set by R363, R451. -/
  | domainBusy
  /-- 0x0A07, set by R452. -/
  | domainFault
  /-- 0x0B01, set by R364. -/
  | periodNone
  /-- 0x1001, set by R401. -/
  | secureWiped
  /-- 0x1002, set by R62. -/
  | arrayParity
  /-- 0x1003, set by R84. -/
  | accEcc
  /-- 0x1004, set by R172. -/
  | storeEcc
  /-- 0x1005, set by Table 8.8. -/
  | hbmUncorrectable
  /-- 0x1006, set by Table 8.8. -/
  | loftUncorrectable
  /-- 0x1007, set by Table 8.8. -/
  | kvLost
  /-- 0x1008, set by R261, R265. -/
  | contextLost
  /-- 0x1009, set by R83. -/
  | accRestoreBad
  /-- 0x100A, set by R108. -/
  | vecRestoreBad
  /-- 0x100B, set by R229. -/
  | shardLost
  /-- 0x100C, set by R281. -/
  | fabricWithdrawn
  /-- 0x100D, set by R297. -/
  | ringLost
  /-- 0x100E, set by R296. -/
  | legMoved
  /-- 0x100F, set by R257. -/
  | ticketExpired
  /-- 0x1010, set by R39, R41. -/
  | modeMixed
  /-- 0x1011, set by R74. -/
  | kTooLong
  /-- 0x1012, set by R76. -/
  | accOvercommit
  /-- 0x1013, set by R90. -/
  | vecRange
  /-- 0x1014, set by R90. -/
  | vecOverlap
  /-- 0x1015, set by R97. -/
  | vecFormat
  /-- 0x1016, set by R171. -/
  | storeBounds
  /-- 0x1017, set by R335. -/
  | powerLost
  deriving DecidableEq, Repr, Inhabited

/-- The 16-bit value of each Status. -/
def Status.value : Status → Nat
  | .ok => 0x0000
  | .accepted => 0x0001
  | .deferred => 0x0002
  | .complete => 0x0003
  | .superseded => 0x0004
  | .resizePending => 0x0005
  | .malformed => 0x0101
  | .notPermitted => 0x0102
  | .staleGeneration => 0x0103
  | .sessionUnknown => 0x0104
  | .sessionLimit => 0x0105
  | .sessionBusy => 0x0106
  | .seqOutOfWindow => 0x0107
  | .seqReused => 0x0108
  | .seqSkipped => 0x0109
  | .seqTooOld => 0x010A
  | .gapOverflow => 0x010B
  | .probation => 0x010C
  | .expired => 0x010D
  | .replayUnavailable => 0x010E
  | .minimalMode => 0x010F
  | .functionAbsent => 0x0110
  | .hostAccessFault => 0x0111
  | .sessionLapsed => 0x0112
  | .timeRefused => 0x0201
  | .timeUnset => 0x0202
  | .timetableFull => 0x0203
  | .tooLate => 0x0204
  | .wingBusy => 0x0301
  | .wingResourceBusy => 0x0302
  | .tileUnavailable => 0x0303
  | .cellarSlotsFull => 0x0304
  | .wingBad => 0x0305
  | .resourceOccupied => 0x0306
  | .wingShape => 0x0307
  | .wingScrubbing => 0x0308
  | .wingSealed => 0x0309
  | .wingFenced => 0x030A
  | .wingGone => 0x030B
  | .contextBad => 0x0401
  | .contextBusy => 0x0402
  | .contextKind => 0x0403
  | .contextGone => 0x0404
  | .programBad => 0x0405
  | .programTableFull => 0x0406
  | .programUnknown => 0x0407
  | .programBusy => 0x0408
  | .tableBad => 0x0409
  | .serveLimit => 0x040A
  | .serveEnded => 0x040B
  | .adapterBad => 0x0501
  | .adapterGone => 0x0502
  | .adapterHeld => 0x0503
  | .adapterListLong => 0x0504
  | .adapterBusy => 0x0505
  | .adapterSpace => 0x0506
  | .hostHome => 0x0507
  | .roomBusy => 0x0508
  | .roomPinned => 0x0509
  | .roomLeaving => 0x050A
  | .roomPoolFull => 0x050B
  | .updateBindBad => 0x050C
  | .updateFault => 0x050D
  | .rebiasRange => 0x050E
  | .tagDenied => 0x050F
  | .placeDenied => 0x0601
  | .placeNoSpace => 0x0602
  | .keyAbsent => 0x0603
  | .objectBusy => 0x0604
  | .objectMoving => 0x0605
  | .objectDamaged => 0x0606
  | .objectNotResident => 0x0607
  | .objectLimit => 0x0608
  | .objectRange => 0x0609
  | .windowSmall => 0x060A
  | .manifestBad => 0x0701
  | .baseTooLarge => 0x0702
  | .baseBusy => 0x0703
  | .cellarFull => 0x0704
  | .outlierListBad => 0x0705
  | .installIncomplete => 0x0706
  | .notInstalling => 0x0707
  | .baseNotReady => 0x0708
  | .baseNotInstalled => 0x0709
  | .keyRootMismatch => 0x070A
  | .notMember => 0x0801
  | .peerAbsent => 0x0802
  | .collectiveNotAdjacent => 0x0803
  | .collectiveBusy => 0x0804
  | .collectiveShape => 0x0805
  | .collectiveFailed => 0x0806
  | .ringNotAdjacent => 0x0807
  | .ringBusy => 0x0808
  | .portOff => 0x0809
  | .mirrorRefused => 0x080A
  | .passportSpace => 0x0901
  | .keyRefused => 0x0902
  | .keyPresent => 0x0903
  | .partyBound => 0x0904
  | .lifeCycleRefused => 0x0905
  | .spareNone => 0x0A01
  | .pcRetired => 0x0A02
  | .loftNoSpace => 0x0A03
  | .dimmMismatch => 0x0A04
  | .firmwareBad => 0x0A05
  | .domainBusy => 0x0A06
  | .domainFault => 0x0A07
  | .periodNone => 0x0B01
  | .secureWiped => 0x1001
  | .arrayParity => 0x1002
  | .accEcc => 0x1003
  | .storeEcc => 0x1004
  | .hbmUncorrectable => 0x1005
  | .loftUncorrectable => 0x1006
  | .kvLost => 0x1007
  | .contextLost => 0x1008
  | .accRestoreBad => 0x1009
  | .vecRestoreBad => 0x100A
  | .shardLost => 0x100B
  | .fabricWithdrawn => 0x100C
  | .ringLost => 0x100D
  | .legMoved => 0x100E
  | .ticketExpired => 0x100F
  | .modeMixed => 0x1010
  | .kTooLong => 0x1011
  | .accOvercommit => 0x1012
  | .vecRange => 0x1013
  | .vecOverlap => 0x1014
  | .vecFormat => 0x1015
  | .storeBounds => 0x1016
  | .powerLost => 0x1017

/-- A notice type (Table 19.3). -/
inductive Notice where
  /-- 0x0101, set by R303. -/
  | doorbellBad
  /-- 0x0102, set by R305. -/
  | cmdOverrun
  /-- 0x0103, set by R311. -/
  | malformedPacket
  /-- 0x0104, set by R311. -/
  | ringStopped
  /-- 0x0105, set by R380. -/
  | ringFault
  /-- 0x0106, set by R326. -/
  | seqGap
  /-- 0x0107, set by R328. -/
  | sessionProbation
  /-- 0x0108, set by R328. -/
  | sessionEvicted
  /-- 0x0109, set by Table 12.10. -/
  | sessionLapsed
  /-- 0x010A, set by Table 12.10. -/
  | sessionClosed
  /-- 0x010B, set by R334. -/
  | keeperRestarted
  /-- 0x010C, set by R373. -/
  | functionState
  /-- 0x010D, set by R440. -/
  | firmwareChanged
  /-- 0x010E, set by R462. -/
  | moduleReady
  /-- 0x0201, set by R20. -/
  | timeLocked
  /-- 0x0202, set by R22. -/
  | timeSplit
  /-- 0x0203, set by R23. -/
  | timeUnset
  /-- 0x0204, set by R24. -/
  | timeHoldover
  /-- 0x0205, set by R25. -/
  | timeAdrift
  /-- 0x0301, set by R238, R426. -/
  | wingResized
  /-- 0x0302, set by R239. -/
  | resizeSuperseded
  /-- 0x0303, set by R240. -/
  | wingRemoved
  /-- 0x0304, set by R443. -/
  | wingFenced
  /-- 0x0305, set by R416. -/
  | scrubDone
  /-- 0x0401, set by R124. -/
  | watchLimit
  /-- 0x0402, set by R127. -/
  | lossSpike
  /-- 0x0501, set by R144. -/
  | adapterDigest
  /-- 0x0502, set by R166. -/
  | adapterDamaged
  /-- 0x0503, set by R160. -/
  | checkoutDone
  /-- 0x0504, set by R162. -/
  | roomPoolFull
  /-- 0x0601, set by Table 8.8. -/
  | objectDamaged
  /-- 0x0602, set by Table 8.8, R389. -/
  | loftChannelDown
  /-- 0x0603, set by R174. -/
  | keyLost
  /-- 0x0701, set by R226. -/
  | shardQuarantined
  /-- 0x0702, set by R228. -/
  | shardRestored
  /-- 0x0703, set by R215. -/
  | shardRetired
  /-- 0x0704, set by R216. -/
  | installDone
  /-- 0x0705, set by R219. -/
  | cellarWear
  /-- 0x0706, set by R229. -/
  | cellarStackDown
  /-- 0x0707, set by R231. -/
  | manifestBad
  /-- 0x0801, set by R279. -/
  | membership
  /-- 0x0802, set by R282. -/
  | viewSplit
  /-- 0x0803, set by R279. -/
  | viewFull
  /-- 0x0804, set by R283. -/
  | peerErring
  /-- 0x0805, set by R284. -/
  | duplicateIdentity
  /-- 0x0806, set by R281. -/
  | fabricWithdrawn
  /-- 0x0807, set by R268. -/
  | portDegraded
  /-- 0x0808, set by R271. -/
  | portDown
  /-- 0x0809, set by R298. -/
  | legTaken
  /-- 0x080A, set by R297. -/
  | legLost
  /-- 0x080B, set by R295. -/
  | legMirrored
  /-- 0x080C, set by R294. -/
  | mirrorLost
  /-- 0x080D, set by R298. -/
  | takeoverNoSpace
  /-- 0x080E, set by R267. -/
  | portLoopback
  /-- 0x080F, set by R267. -/
  | portHelloBad
  /-- 0x0810, set by R267. -/
  | portNotAllowed
  /-- 0x0901, set by R396. -/
  | lifeCycle
  /-- 0x0902, set by R401. -/
  | secureWiped
  /-- 0x0A01, set by R419. -/
  | tileSuspect
  /-- 0x0A02, set by R419. -/
  | pcSuspect
  /-- 0x0A03, set by R419. -/
  | loftSuspect
  /-- 0x0A04, set by R419. -/
  | keeperMemorySuspect
  /-- 0x0A05, set by R425. -/
  | tileMapped
  /-- 0x0A06, set by R426. -/
  | tileUnavailable
  /-- 0x0A07, set by R428. -/
  | pcRetired
  /-- 0x0A08, set by R430. -/
  | pcRetireBlocked
  /-- 0x0A09, set by R487. -/
  | thermalWarning
  deriving DecidableEq, Repr, Inhabited

/-- The 16-bit value of each Notice. -/
def Notice.value : Notice → Nat
  | .doorbellBad => 0x0101
  | .cmdOverrun => 0x0102
  | .malformedPacket => 0x0103
  | .ringStopped => 0x0104
  | .ringFault => 0x0105
  | .seqGap => 0x0106
  | .sessionProbation => 0x0107
  | .sessionEvicted => 0x0108
  | .sessionLapsed => 0x0109
  | .sessionClosed => 0x010A
  | .keeperRestarted => 0x010B
  | .functionState => 0x010C
  | .firmwareChanged => 0x010D
  | .moduleReady => 0x010E
  | .timeLocked => 0x0201
  | .timeSplit => 0x0202
  | .timeUnset => 0x0203
  | .timeHoldover => 0x0204
  | .timeAdrift => 0x0205
  | .wingResized => 0x0301
  | .resizeSuperseded => 0x0302
  | .wingRemoved => 0x0303
  | .wingFenced => 0x0304
  | .scrubDone => 0x0305
  | .watchLimit => 0x0401
  | .lossSpike => 0x0402
  | .adapterDigest => 0x0501
  | .adapterDamaged => 0x0502
  | .checkoutDone => 0x0503
  | .roomPoolFull => 0x0504
  | .objectDamaged => 0x0601
  | .loftChannelDown => 0x0602
  | .keyLost => 0x0603
  | .shardQuarantined => 0x0701
  | .shardRestored => 0x0702
  | .shardRetired => 0x0703
  | .installDone => 0x0704
  | .cellarWear => 0x0705
  | .cellarStackDown => 0x0706
  | .manifestBad => 0x0707
  | .membership => 0x0801
  | .viewSplit => 0x0802
  | .viewFull => 0x0803
  | .peerErring => 0x0804
  | .duplicateIdentity => 0x0805
  | .fabricWithdrawn => 0x0806
  | .portDegraded => 0x0807
  | .portDown => 0x0808
  | .legTaken => 0x0809
  | .legLost => 0x080A
  | .legMirrored => 0x080B
  | .mirrorLost => 0x080C
  | .takeoverNoSpace => 0x080D
  | .portLoopback => 0x080E
  | .portHelloBad => 0x080F
  | .portNotAllowed => 0x0810
  | .lifeCycle => 0x0901
  | .secureWiped => 0x0902
  | .tileSuspect => 0x0A01
  | .pcSuspect => 0x0A02
  | .loftSuspect => 0x0A03
  | .keeperMemorySuspect => 0x0A04
  | .tileMapped => 0x0A05
  | .tileUnavailable => 0x0A06
  | .pcRetired => 0x0A07
  | .pcRetireBlocked => 0x0A08
  | .thermalWarning => 0x0A09

/-- A log-only fault-log code (Table 19.4). -/
inductive LogCode where
  /-- 0xF001, set by R420. -/
  | counterSnapshot
  /-- 0xF002, set by R438. -/
  | keeperWatchdog
  /-- 0xF003, set by R448. -/
  | inputHigh
  /-- 0xF004, set by R448. -/
  | inputLow
  /-- 0xF005, set by R448. -/
  | inputLowNoWarn
  /-- 0xF006, set by R448. -/
  | inputOver
  /-- 0xF007, set by R487. -/
  | thermalTrip
  /-- 0xF008, set by R464. -/
  | failedStart
  /-- 0xF009, set by R467, at entry to minimal mode only. -/
  | minimalMode
  /-- 0xF00A, set by R462, for a channel made DOWN at start-up only. -/
  | dimmMismatch
  /-- 0xF00B, set by R487. -/
  | sensorFault
  /-- 0xF00C, set by R172, R419, R495. -/
  | quarterStoreEcc
  deriving DecidableEq, Repr, Inhabited

/-- The 16-bit value of each LogCode. -/
def LogCode.value : LogCode → Nat
  | .counterSnapshot => 0xF001
  | .keeperWatchdog => 0xF002
  | .inputHigh => 0xF003
  | .inputLow => 0xF004
  | .inputLowNoWarn => 0xF005
  | .inputOver => 0xF006
  | .thermalTrip => 0xF007
  | .failedStart => 0xF008
  | .minimalMode => 0xF009
  | .dimmMismatch => 0xF00A
  | .sensorFault => 0xF00B
  | .quarterStoreEcc => 0xF00C

/-- The severity of each log-only code (Table 19.4). -/
def LogCode.severity : LogCode → Nat
  | .counterSnapshot => 0
  | .keeperWatchdog => 3
  | .inputHigh => 1
  | .inputLow => 1
  | .inputLowNoWarn => 3
  | .inputOver => 3
  | .thermalTrip => 3
  | .failedStart => 3
  | .minimalMode => 3
  | .dimmMismatch => 2
  | .sensorFault => 1
  | .quarterStoreEcc => 2

end Sys2Proof
end

