-- ==== Sys2Proof/Machine/Parts.lean ====
section
/-! DEFINITION. The kinds of thing the module's state holds, as plain data: one structure per part the spec names. A
default value of each says what an unlisted number of a table reads as. Widths of counters and fields are those of the
tables cited; operations keep them. -/

namespace Sys2Proof.Machine

open Sys2Proof

/-! ### Time (chapter 2) -/

/-- The time states of Table 2.1. -/
inductive TimeSt where
  | unset | locked | holdover | adrift | relock
  deriving DecidableEq, Repr, Inhabited

/-- One LOCKED peer's stamp heard in the roll call now under way (R20). -/
structure Heard where
  peer : Nat
  stamp : Nat
  deriving DecidableEq, Repr, Inhabited

/-- The milepost counter, its oscillator and the MPCLK qualifier, all in the always-on domain (R15 to R29). -/
structure Clock where
  count : Nat
  st : TimeSt
  /-- Local edge minus nearest MPCLK edge, ns (R17). -/
  offset : Int
  /-- Whether an MPCLK edge came within the last milepost; without one the offset reads 0 (R17). -/
  edgeSeen : Bool
  qualified : Bool
  goodRun : Nat
  badRun : Nat
  glitches : Nat
  /-- Count at the last good edge before the first loss (R25, R28). -/
  lastGood : Nat
  holdoverFlag : Bool
  fromAdrift : Bool
  slewed : Bool
  /-- Count at which the slew ended (R28). -/
  slewAt : Nat
  /-- Edges for which the check of R28 still holds the count. -/
  holdFor : Nat
  /-- The check has been made; the next edge enters LOCKED (R28). -/
  lockNext : Bool
  everLocked : Bool
  /-- A frame from a LOCKED peer has come since the ports came up (R21). -/
  lockedHeard : Bool
  seed : Option Nat
  heard : List Heard
  echo : Bool
  deriving DecidableEq, Repr, Inhabited

/-- The timetable classes in rank order (Table 2.2). -/
inductive TtClass where
  | rollCall | failover | fence | stageEnd | scrub | stageStart | cellarSlot | collective | ticketExpiry | digestSweep
  deriving DecidableEq, Repr, Inhabited

/-- One timetable entry: its milepost, its class, its wing if it has one, and what it names (a collective). -/
structure TtEntry where
  mp : Nat
  cls : TtClass
  wing : Option Nat
  arg : Nat
  /-- Counted as late already (R31). -/
  late : Bool
  deriving DecidableEq, Repr, Inhabited

/-- The timetable (R29 to R32): entries set, entries due at the edge just passed in the order of R32, and the lateness
counter of R31. -/
structure Timetable where
  entries : List TtEntry
  due : List TtEntry
  late : Nat
  deriving DecidableEq, Repr, Inhabited

/-! ### Host sessions, packets and queues (chapter 12) -/

/-- One arrived and stamped command packet (R311, R317): its header, its code and its payload. -/
structure Packet where
  hdr : CmdHdr
  code : Nat
  payload : Bytes
  /-- Whether the header's reserved fields were 0 (R338). -/
  clean : Bool
  deriving DecidableEq, Repr, Inhabited

/-- One reply (Table 12.5). -/
structure Reply where
  code : Nat
  status : Status
  session : Nat
  sgen : Nat
  seq : Nat
  version : Nat
  milepost : Nat
  hostTag : Nat
  final : Bool
  replayed : Bool
  payload : Bytes
  deriving DecidableEq, Repr, Inhabited

/-- One notice (Table 12.6), its body as the values its rule names. -/
structure NoticeMsg where
  type : Notice
  timeState : TimeSt
  wing : Option Nat
  wingStatus : Nat
  wingGen : Nat
  seq : Nat
  version : Nat
  milepost : Nat
  party : Option Nat
  body : List Nat
  deriving DecidableEq, Repr, Inhabited

/-- The mark a sequence number below E carries (R325). -/
inductive Mark where
  | absent
  | cached (crc : Nat) (reply : Reply)
  | executing (crc : Nat) (interim : Option Reply)
  | skipped
  /-- It changed nothing: its code and its host tag, which its reply repeats (Table 12.5). -/
  | nothing (code tag : Nat)
  deriving DecidableEq, Repr, Inhabited

/-- Host session states (Table 12.8). -/
inductive SessSt where
  | closed | opened | probation | lapsed
  deriving DecidableEq, Repr, Inhabited

/-- A host session (R322, Tables 12.7 to 12.10). -/
structure Session where
  st : SessSt
  gen : Nat
  next : Nat
  lease : Nat
  lapseHold : Nat
  gap : Nat
  /-- Milepost at which the lease runs out. -/
  leaseEnd : Nat
  lapsedAt : Nat
  before : SessSt
  marks : Tbl Mark
  held : Tbl (Option Packet)
  /-- The held number whose gap has been noticed (R326); 0 for none. -/
  gapNoticed : Nat
  malformed : List Nat
  lastMalformed : Nat
  longs : Nat
  deriving DecidableEq, Repr, Inhabited

/-- Which command a long piece of work answers to (R332). -/
structure CmdRef where
  fn : Nat
  session : Nat
  sgen : Nat
  seq : Nat
  hostTag : Nat
  code : Nat
  crc : Nat
  deriving DecidableEq, Repr, Inhabited

/-- Function states (Table 14.3). -/
inductive FnSt where
  | absent | disabled | enabled | resetting
  deriving DecidableEq, Repr, Inhabited

/-- What a vf-set request asks (Table 13.16). -/
inductive VfAct where
  | disable | enable | reset
  deriving DecidableEq, Repr, Inhabited

/-- A running or queued vf-set request (R362). -/
structure VfReq where
  act : VfAct
  ref : CmdRef
  deriving DecidableEq, Repr, Inhabited

/-- One queue word, checked and corrected (R307), that waits to be taken into a packet: its bits, its arrival milepost,
and whether it could be read. -/
structure CmdWord where
  bits : Nat
  at_ : Nat
  ok : Bool
  deriving DecidableEq, Repr, Inhabited

/-- The queue counters of a function (Table 12.2), in table order. -/
structure QCounters where
  corrected : Nat
  uncorrectable : Nat
  headerFailures : Nat
  malformed : Nat
  internalCorrected : Nat
  internalUncorrectable : Nat
  doorbellFaults : Nat
  deriving DecidableEq, Repr, Inhabited

/-- A session-open reply kept by host tag (R323). -/
structure OpenReply where
  hostTag : Nat
  reply : Reply
  deriving DecidableEq, Repr, Inhabited

/-- A status page (R386): its snapshot sequence, the milepost and version of the snapshot, and its fields in order. -/
structure Page where
  seq : Nat
  milepost : Nat
  version : Nat
  fields : List Nat
  deriving DecidableEq, Repr, Inhabited

/-- One function: its state and registers (Tables 14.3, 14.13 to 14.16) and its three queues (chapter 12). -/
structure Fn where
  st : FnSt
  before : FnSt
  gen : Nat
  bme : Bool
  ats : Bool
  /-- FN_CTRL.MODE as written: true is window. -/
  modeReg : Bool
  /-- ACTIVE_MODE: true is window. -/
  window : Bool
  ringSizes : Nat
  cmdBase : Nat
  replyBase : Nat
  noticeBase : Nat
  /-- Log2 of the sizes of the rings in force. -/
  cmdLog : Nat
  replyLog : Nat
  noticeLog : Nat
  cmdProd : Nat
  cmdHead : Nat
  replyTail : Nat
  replyHead : Nat
  noticeTail : Nat
  noticeHead : Nat
  cfgBad : Bool
  stopped : Bool
  /-- A ring access has failed: replies and notices are not written until the next valid APPLY (R380). -/
  faulted : Bool
  msix : Mem
  msixPending : Nat
  /-- Vectors raised in this milepost, and to be raised again at the next edge (R316), bit 0 reply, bit 1 notice. -/
  raised : Nat
  again : Nat
  /-- Words taken from the ring or the window and not yet made into a packet. -/
  words : List CmdWord
  /-- 8-byte parts of the window word being written (R305). -/
  part : List Nat
  failures : List Nat
  /-- Queue words waiting to be read by the host, in the window queue or the ring: a packet and the word's index. -/
  replyWords : List (Reply × Nat)
  noticeWords : List (NoticeMsg × Nat)
  /-- Replies that wait for room in the reply queue (R304). -/
  replyWait : List Reply
  noticeSeq : Nat
  counters : QCounters
  stale : Nat
  opens : List OpenReply
  /-- Latched high half: register offset, value, milepost (R382). -/
  latch : Option (Nat × Nat × Nat)
  atc : List Nat
  vfRun : Option VfReq
  vfQueue : Option VfReq
  page : Page
  deriving DecidableEq, Repr, Inhabited

/-! ### Objects, rooms and handles (chapters 7, 8) -/

/-- Object kinds (Table 8.3). -/
inductive Kind where
  | room | gradient | moment | kv | activation | save | mirror | scratch | baseCopy
  deriving DecidableEq, Repr, Inhabited

/-- Where an object may live (Table 13.9). -/
inductive Tier where
  | hbm | quarter | loft | host
  deriving DecidableEq, Repr, Inhabited

/-- Object states (R187). -/
inductive ObjSt where
  | home | moving | damaged | absent
  deriving DecidableEq, Repr, Inhabited

/-- A place of an object: tier, unit set, start of its range in each unit of the set in ascending order (one start for
all in HBM, R176; its own in each Loft channel, R178), length in each unit, and host address. -/
structure Place where
  tier : Tier
  set : Nat
  starts : List Nat
  len : Nat
  host : Nat
  hostFn : Nat
  deriving DecidableEq, Repr, Inhabited

/-- What long work an object is under. -/
inductive ObjWork where
  | none
  | create (ref : CmdRef)
  | move (dest : Place) (size : Nat) (ref : Option CmdRef)
  | grow (size : Nat) (dest : Place) (ref : CmdRef)
  | retire (dest : Place)
  | evacuate (dest : Place)
  | write (offset length host : Nat) (ref : CmdRef)
  | read (offset length host : Nat) (ref : CmdRef)
  | saveCreate (wing context : Nat) (ref : CmdRef)
  deriving DecidableEq, Repr, Inhabited

/-- One object (R183). A live object has `live` set; an unlisted number reads as one that was never used. -/
structure Obj where
  live : Bool
  gen : Nat
  kind : Kind
  owner : Option Nat
  wing : Nat
  size : Nat
  st : ObjSt
  place : Place
  work : ObjWork
  content : Mem
  refs : Nat
  base : Nat
  firstShard : Nat
  shards : Nat
  /-- Update or retirement bookkeeping: the object waits for space (R430). -/
  blocked : Bool
  deriving DecidableEq, Repr, Inhabited

/-- Room states (Table 7.4, Table 13.11). -/
inductive RoomSt where
  | free | loading | ready | updating | leaving
  deriving DecidableEq, Repr, Inhabited

/-- A checkout that a room is under: its command, and whether it was forced. -/
structure Checkout where
  ref : CmdRef
  forced : Bool
  deriving DecidableEq, Repr, Inhabited

/-- One room (R143). -/
structure Room where
  gen : Nat
  st : RoomSt
  handle : Nat
  wing : Nat
  place : Place
  mib : Nat
  pinned : Bool
  refs : Nat
  /-- Points of the image whose digest has matched so far (R144). -/
  arrived : Nat
  checkouts : List Checkout
  /-- A checkout that waits for an update or an adapter-read (R159, Table 13.18). -/
  waiting : List Checkout
  discard : Bool
  deriving DecidableEq, Repr, Inhabited

/-- Adapter handle states (Table 7.4). -/
inductive HandleSt where
  | unused | home | loading | resident | leaving | damaged | absent
  deriving DecidableEq, Repr, Inhabited

/-- One insertion point of an adapter (Table 7.2), with its digest. -/
structure Point where
  layer : Nat
  position : Nat
  b : Int
  k : Nat
  tagZ : Nat
  tagY : Nat
  tagG : Nat
  digest : Bytes
  deriving DecidableEq, Repr, Inhabited

/-- An adapter image's header (Table 7.1) and point table. -/
structure Image where
  rank : Nat
  phi : Nat
  biases : Bool
  width : Nat
  owner : Nat
  points : List Point
  deriving DecidableEq, Repr, Inhabited

/-- Loss-spike detector state and configuration (R126, Table 6.3). FP32 values as patterns. -/
structure Detector where
  m : W32
  n : Nat
  c : Nat
  held : Bool
  a : Nat
  mu : W32
  delta : W32
  warmup : Nat
  action : Nat
  spikes : Nat
  deriving DecidableEq, Repr, Inhabited

/-- An adapter load under way: the source (host buffer or Loft), the command, and the room it fills. -/
structure Load where
  fromLoft : Bool
  ref : Option CmdRef
  room : Nat
  image : Image
  first : Bool
  /-- The handle's state before the load, to which a failed load returns it. -/
  before : HandleSt
  /-- Point blocks whose digests have matched, in point order. -/
  blocks : List Bytes
  /-- A reload that R161 starts for a serving session. -/
  reload : Bool
  deriving DecidableEq, Repr, Inhabited

/-- One adapter handle (R141, R142). -/
structure Handle where
  st : HandleSt
  gen : Nat
  owner : Nat
  homeHost : Bool
  hostAddr : Nat
  hostFn : Nat
  loftSet : Nat
  /-- The range of the image at its Loft home, while it lies there. -/
  home : Place
  room : Nat
  /-- The number of the image's ROOM object (R183, log entry 51). -/
  obj : Nat
  image : Image
  /-- The image's bytes at the home (Loft) or in the room: its point blocks in order. -/
  blocks : List Bytes
  det : Detector
  load : Option Load
  /-- The adapter-reads under way (R356). -/
  reading : List CmdRef
  deriving DecidableEq, Repr, Inhabited

/-! ### Wings, contexts and programs (chapter 10) -/

/-- Context states (Table 10.5). -/
inductive CtxSt where
  | running | runnable | blocked | out | swappingOut | swappingIn
  deriving DecidableEq, Repr, Inhabited

/-- Blocked reasons (Table 10.6). -/
inductive Blocked where
  | none | idle | parked | roomWait
  deriving DecidableEq, Repr, Inhabited

/-- Whether a context has become a training or a serving context (R348). -/
inductive CtxKind where
  | fresh | train | serve
  deriving DecidableEq, Repr, Inhabited

/-- A serving session (R161, R351). -/
structure Serve where
  live : Bool
  gen : Nat
  party : Nat
  handle : Option Nat
  handleGen : Nat
  room : Nat
  roomGen : Nat
  kv : Nat
  kvGen : Nat
  promptLeft : Nat
  tokens : Nat
  order : Nat
  ended : Option Status
  deriving DecidableEq, Repr, Inhabited

/-- One adapter of a pass table (Table 13.7). -/
structure PassAdapter where
  handle : Nat
  gen : Nat
  g : Nat
  gGen : Nat
  s1 : Option (Nat × Nat)
  s2 : Option (Nat × Nat)
  deriving DecidableEq, Repr, Inhabited

/-- One row of a pass table. -/
structure PassRow where
  party : Nat
  tag : Nat
  input : Nat
  deriving DecidableEq, Repr, Inhabited

/-- A pass table (Table 13.7) as read at acceptance (R345). -/
structure PassTable where
  adapters : List PassAdapter
  parties : List Nat
  layers : Nat
  scalars : List (List W32)
  rows : List PassRow
  deriving DecidableEq, Repr, Inhabited

/-- A queued pass command (R348, R350). -/
structure PassCmd where
  train : Bool
  ref : CmdRef
  tileCount : Nat
  table : PassTable
  tableObj : Nat
  forward : Nat
  backward : Nat
  update : Option Nat
  sr : Bool
  lossTile : Nat
  lossAddr : Nat
  step : Nat
  passesLeft : Nat
  passesRun : Nat
  tokens : Nat
  /-- The end milepost of the last pass run (Table 13.8). -/
  lastEnd : Nat
  deriving DecidableEq, Repr, Inhabited

/-- Where an admitted pass stands. -/
inductive PassPhase where
  | forward | backward | updating | done
  deriving DecidableEq, Repr, Inhabited

/-- One row taken into a serving pass: the session, its rows, and whether they end its prompt or decode a token. -/
structure ServeTake where
  session : Nat
  rows : Nat
  decode : Bool
  lastChunk : Bool
  deriving DecidableEq, Repr, Inhabited

/-- An admitted pass (R349). -/
structure Pass where
  cmd : PassCmd
  phase : PassPhase
  admitted : Nat
  rows : List PassRow
  denied : Nat
  takes : List ServeTake
  rooms : List Nat
  objects : List Nat
  /-- Handles whose update is withheld in this step (R128, R124, R290). -/
  withheld : List Nat
  /-- Handles that enter HELD at the commit (R128). -/
  stops : List Nat
  holdStep : Bool
  updated : List Nat
  /-- Detector configurations in force when the pass started (R130). -/
  detectors : List (Nat × Detector)
  /-- Handles whose update faulted or whose adapter was damaged in the step. -/
  faulted : List Nat
  deriving DecidableEq, Repr, Inhabited

/-- A completion held for a parked context (R256): destination object or region, offset, data and the flag. -/
structure HeldDone where
  ticket : Nat
  flag : Option Nat
  deriving DecidableEq, Repr, Inhabited

/-- A saved record of a context (Tables 4.4 and 5.5): its logical tile, its tracker (none: the vector engine's record), where
its bytes lie in the context's save area, and what the instruction stream names beside it (R83: K, N and the outlier list
come with the stream, not with the record). -/
structure SaveRec where
  tile : Nat
  tracker : Option Nat
  offset : Nat
  length : Nat
  stream : OpenArgs
  deriving DecidableEq, Repr, Inhabited

/-- One context (R243 to R246). -/
structure Ctx where
  live : Bool
  gen : Nat
  latency : Bool
  runLen : Nat
  region : Nat
  accBudget : Nat
  trackers : Nat
  slices : Nat
  saveObj : Nat
  saveGen : Nat
  idleHint : Nat
  rowTarget : Nat
  chunkLimit : Nat
  /-- Parameters changed by context-set that take effect at the next boundary (R243). -/
  nextLatency : Bool
  nextRunLen : Nat
  nextIdleHint : Nat
  resident : Bool
  granule : Nat
  st : CtxSt
  blocked : Blocked
  since : Nat
  runnableAt : Nat
  kind : CtxKind
  serves : Tbl Serve
  decodePtr : Nat
  queue : List PassCmd
  pass : Option Pass
  held : List HeldDone
  saves : List SaveRec
  /-- The status with which the context's pass ends when it resumes (R257, R203). -/
  ending : Option Status
  stagesRun : Nat
  deriving DecidableEq, Repr, Inhabited

/-- A held TVX program (R347). -/
structure Program where
  live : Bool
  update : Bool
  words : List W64
  digest : Bytes
  deriving DecidableEq, Repr, Inhabited

/-- One bank of watch counters (Table 6.1). -/
structure Bank where
  written : Nat
  zero : Nat
  saturated : Nat
  nan : Nat
  accSat : Nat
  deriving DecidableEq, Repr, Inhabited

/-- One watch-table entry (R119, Table 6.2). -/
structure Watch where
  cur : Bank
  last : Bank
  run : Bank
  satLimit : Nat
  full : Bool
  satAction : Nat
  nanAction : Nat
  deriving DecidableEq, Repr, Inhabited

/-- The stall record of a wing (Table 8.7). Times and events are indexed by cause value 1 to 5, less 1. -/
structure Stall where
  time : Tbl Nat
  events : Tbl Nat
  fetched : Nat
  refetched : Nat
  reloadsLoft : Nat
  reloadsHost : Nat
  reloadBytes : Nat
  ahead : Nat
  aheadLow : Nat
  deriving DecidableEq, Repr, Inhabited

/-- A slot of the weight window (R191, R192). -/
structure Slot where
  base : Nat
  shard : Nat
  arrived : Bool
  verified : Bool
  deriving DecidableEq, Repr, Inhabited

/-- A wing's weight window (R191 to R197). -/
structure Window where
  slots : Nat
  nextSlots : Nat
  set : Nat
  /-- The ranges of its slots, one place for each. -/
  places : List Place
  ring : List Slot
  /-- The base the plan was built for (R195, R230). -/
  base : Nat
  plan : List Nat
  /-- Whether the plan sweeps backward. -/
  backward : Bool
  deriving DecidableEq, Repr, Inhabited

/-- The counters of Table 14.18: denied rows, bounds faults, late tickets, swaps out, swaps in, swap bytes. -/
structure WingCounters where
  denied : Nat
  bounds : Nat
  late : Nat
  swapsOut : Nat
  swapsIn : Nat
  swapBytes : Nat
  deriving DecidableEq, Repr, Inhabited

/-- A scrub under way (R412, R416). -/
structure Scrub where
  start : Nat
  length : Nat
  newParty : Option Nat
  ref : Option CmdRef
  deriving DecidableEq, Repr, Inhabited

/-- A swap under way (R258). -/
structure Swap where
  context : Nat
  out : Bool
  bytes : Nat
  deriving DecidableEq, Repr, Inhabited

/-- A tile change under way (R237). -/
structure TileChange where
  tiles : Nat
  forced : Bool
  deriving DecidableEq, Repr, Inhabited

/-- One wing (R232, Table 10.1). -/
structure Wing where
  live : Bool
  gen : Nat
  sealed : Bool
  base : Nat
  party : Nat
  stage : Nat
  nextStage : Nat
  park : Nat
  ticketLife : Nat
  weight : Nat
  slotMap : Nat
  nextWeight : Nat
  nextSlotMap : Nat
  tiles : Nat
  pcs : Nat
  slices : Nat
  loft : Nat
  ports : Nat
  removing : Option CmdRef
  /-- Step 1 of the removal is taken (R240). -/
  leaving : Bool
  /-- No stage has run since a scrub of the wing ended (R415). -/
  clean : Bool
  /-- A sealed wing come back at power-up, to be scrubbed before its first stage (R265). -/
  mustScrub : Bool
  fenced : Bool
  scrub : Option Scrub
  /-- A wing-reassign whose SCRUB entry is set but has not acted (R241). -/
  reassign : Option (Nat × CmdRef)
  switching : Bool
  swap : Option Swap
  change : Option TileChange
  running : Option Nat
  /-- The next-context register: its value (none: no context), and whether it is fresh (R248). -/
  nextCtx : Option Nat
  nextFresh : Bool
  wantSwitch : Bool
  ptrLatency : Nat
  ptrBest : Nat
  stageStart : Nat
  /-- The next boundary where it is not the next multiple of the stage length (R247); else 0. -/
  boundary : Nat
  contexts : Tbl Ctx
  programs : Tbl Program
  watch : Tbl Watch
  window : Window
  stall : Stall
  counters : WingCounters
  baseStall : Stall
  baseCounters : WingCounters
  /-- Rows run and their parties' held time not yet charged, in units of 2^-16 mp (R264). -/
  createdAt : Nat
  deriving DecidableEq, Repr, Inhabited

/-- Ticket states (R256, R257). -/
inductive TicketSt where
  | open_ | parked | complete | expired
  deriving DecidableEq, Repr, Inhabited

/-- A ticket of the ticket table (R255). -/
structure Ticket where
  live : Bool
  st : TicketSt
  wing : Nat
  context : Nat
  ctxGen : Nat
  peer : Nat
  object : Option Nat
  offset : Nat
  deadline : Nat
  flag : Option Nat
  deriving DecidableEq, Repr, Inhabited

/-! ### Compute tiles (chapters 3 to 5) -/

/-- An exact value m × 2^e, or a poisoned one (the canonical NaN of R59). -/
inductive Exact where
  | num (m : Int) (e : Int)
  | nan
  deriving DecidableEq, Repr, Inhabited

/-- The part of a term (R61). -/
inductive TermPart where
  | whole | h | l | hh | hl | lh | ll
  | outlier (position : Nat)
  deriving DecidableEq, Repr, Inhabited

/-- One term handed to the accumulator (R61): its row, column, block, sub-block and part, and its exact value. -/
structure Term where
  tracker : Nat
  row : Nat
  col : Nat
  block : Nat
  sub : Nat
  part : TermPart
  value : Exact
  deriving DecidableEq, Repr, Inhabited

/-- A weight block prepared in the shadow or in use (R36): its cells by column then lane, its group scales, which
columns' groups are poisoned (R59), its E12 or alignment exponents, and the outliers of its lanes. -/
structure Cells where
  mode : Mode
  size : Nat
  block : Nat
  kDim : Nat
  nDim : Nat
  /-- Stationary integers per column, 128 lanes each (for BF16 the aligned M, split when used). -/
  cols : List (List Int)
  /-- Per column and group: W4 or I8 scale patterns. -/
  scales : List (List (BitVec 16))
  /-- Per column and group (or block): stationary exponent X or E_w. -/
  exps : List (List Int)
  /-- Per column and group: poisoned. -/
  bad : List (List Bool)
  outliers : List (Nat × Outlier)
  deriving DecidableEq, Repr, Inhabited

/-- One element of an open accumulation: its pattern, the block and the step within the block that come next. -/
structure Elem where
  bits : Nat
  block : Nat
  idx : Nat
  deriving DecidableEq, Repr, Inhabited

/-- One open accumulation, held by a tracker (R65, R74 to R78). -/
structure Acc where
  live : Bool
  mode : Mode
  size : Nat
  fmt : AccFmt
  rows : Nat
  blocks : Nat
  kDim : Nat
  nDim : Nat
  /-- Output column of the tile's first column. -/
  tile0 : Nat
  link : Nat
  chained : Bool
  matrix : Nat
  outliers : List Outlier
  elems : Tbl Elem
  /-- Elements whose last block, outlier terms included, has been added. -/
  done : Nat
  sat : Nat
  closed : Bool
  closedAt : Nat
  deriving DecidableEq, Repr, Inhabited

/-- One TVX stream descriptor (R88, R89). -/
structure Stream where
  args : StreamArgs
  pos : Nat
  deriving DecidableEq, Repr, Inhabited

/-- One entry of the loop stack. -/
structure LoopFrame where
  first : Nat
  len : Nat
  left : Nat
  deriving DecidableEq, Repr, Inhabited

/-- The state of a vector or update engine (R87). -/
structure Engine where
  program : List W64
  pc : Nat
  running : Bool
  streams : Tbl Stream
  masks : Tbl W64
  scalars : Tbl W32
  flags : Nat
  loops : List LoopFrame
  tile : Tbl W32
  gens : Tbl (W64 × W64)
  tag : Nat
  party : Nat
  step : Nat
  slice : Nat
  deriving DecidableEq, Repr, Inhabited

/-- One physical compute tile. -/
structure Tile where
  supplyOff : Bool
  gate : Bool
  owner : Option (Nat × Nat)
  stopped : Bool
  active : Option Cells
  shadow : Option Cells
  /-- A swap has been asked for and waits for the shadow (R64). -/
  terms : List Term
  accs : Tbl Acc
  waiting : Option OpenArgs
  closings : Nat
  engine : Engine
  store : Mem
  corrected : Nat
  uncorrected : Nat
  parity : Nat
  suspectSince : List Nat
  parityAt : List Nat
  /-- The spare being prepared for this tile (R425). -/
  spare : Option Nat
  mapRef : Option CmdRef
  deriving DecidableEq, Repr, Inhabited

/-- What serves a logical tile (R7). -/
inductive Serves where
  | atReset
  | phys (tile : Nat)
  | unavailable
  deriving DecidableEq, Repr, Inhabited

/-- A mapping that waits: for the end of its wing's scrub (R427), or for the mapping of the same logical tile under way
(Table 16.10). Without a command it is the module's own. -/
structure MapReq where
  tile : Nat
  /-- Map the tile out without a spare. -/
  out : Bool
  ref : Option CmdRef
  deriving DecidableEq, Repr, Inhabited

/-- An update job on one adapter (R111 to R116). -/
structure Job where
  live : Bool
  wing : Nat
  handle : Nat
  words : List W64
  adapter : PassAdapter
  scalars : List (List W32)
  layers : Nat
  sr : Bool
  step : Nat
  rebias : Bool
  started : Bool
  nextSlice : Nat
  fault : Option Nat
  /-- The update-run it belongs to, or none for the step of a pass in wing and context. -/
  ref : Option CmdRef
  context : Nat
  deriving DecidableEq, Repr, Inhabited

/-- An update-run command's progress. -/
structure UpdateRun where
  ref : CmdRef
  left : Nat
  done : Nat
  faulted : Nat
  /-- Its table object (R345). -/
  table : Nat
  deriving DecidableEq, Repr, Inhabited

/-- One quarter: its quarter store's counters, its update engine's rotating pointer. -/
structure Quarter where
  corrected : Nat
  uncorrected : Nat
  pointer : Nat
  deriving DecidableEq, Repr, Inhabited

/-! ### Pseudo-channels and the Loft (chapters 8, 16) -/

/-- One HBM pseudo-channel. -/
structure Pc where
  retired : Bool
  retiring : Bool
  ref : Option CmdRef
  corrected : Nat
  uncorrected : Nat
  correctedAt : List (Nat × Nat)
  uncorrectedAt : List Nat
  deriving DecidableEq, Repr, Inhabited

/-- Loft channel states (Table 16.5). -/
inductive LoftSt where
  | inService | evacuating | evacuated | returning | down
  deriving DecidableEq, Repr, Inhabited

/-- One Loft channel. -/
structure Loft where
  st : LoftSt
  ref : Option CmdRef
  corrected : Nat
  correctedAt : List (Nat × Nat)
  uncorrected : Nat
  /-- Size of its mirror area (R360). -/
  mirror : Nat
  downNoticed : Bool
  /-- Its part of the CXL.mem region lies on the other fifteen channels, until it returns to service (R432, R433). -/
  redirect : Bool
  deriving DecidableEq, Repr, Inhabited

/-! ### The Cellar (chapter 9) -/

/-- Shard states (Table 9.1). -/
inductive ShardSt where
  | free | writing | valid | quarantined | invalid | retired
  deriving DecidableEq, Repr, Inhabited

/-- One Cellar shard: its metadata (R206) and the digest of the ciphertext it holds (R210). -/
structure Shard where
  st : ShardSt
  base : Nat
  index : Nat
  programs : Nat
  digest : Nat
  /-- A program of it has failed once already (R215). -/
  retried : Bool
  erasing : Bool
  /-- Its data has come and is being programmed. -/
  incoming : Bool
  /-- It is being rewritten by R228. -/
  rewrite : Bool
  deriving DecidableEq, Repr, Inhabited

/-- Base states (R212). -/
inductive BaseSt where
  | empty | installing | installed | ready
  deriving DecidableEq, Repr, Inhabited

/-- Install roles (R213). -/
inductive Role where
  | source | sink | fill
  deriving DecidableEq, Repr, Inhabited

/-- A base-install under way. -/
structure Install where
  role : Role
  ident : Nat
  ref : CmdRef
  host : Nat
  hostFn : Nat
  /-- A SOURCE's next image shard to send (R286). -/
  sent : Nat
  /-- The identity of the SOURCE whose broadcast a SINK has joined. -/
  source : Option Nat
  deriving DecidableEq, Repr, Inhabited

/-- One base: its manifest's fields (Table 9.2), its region (R205) and its state. -/
structure Base where
  st : BaseSt
  row0 : Nat
  shards : Nat
  layers : Nat
  serial : Nat
  dModel : Nat
  largest : Nat
  root : Nat
  rootBytes : Bytes
  table : List LayerRow
  digests : List Nat
  install : Option Install
  rootBad : Bool
  /-- A layer's outlier list breaks R52: the base cannot be used (R211). -/
  outlierBad : Bool
  deriving DecidableEq, Repr, Inhabited

/-- A shard request under way (R227): the shard, holders asked, the last one, when, and whether for the paced rewrite. -/
structure Request where
  shard : Nat
  asked : List Nat
  last : Option Nat
  since : Nat
  paced : Bool
  deriving DecidableEq, Repr, Inhabited

/-- The Cellar's schedules and counters (R221 to R229). -/
structure Cellar where
  shards : Tbl Shard
  bases : Tbl Base
  interval : Nat
  nextShard : Nat
  nextVisit : Nat
  overdue : Nat
  skipped : Nat
  visiting : Option Nat
  requests : List Request
  lastHolder : Tbl Nat
  frame : Nat
  pointer : Nat
  deriving DecidableEq, Repr, Inhabited

/-! ### The fabric (chapter 11) -/

/-- Port states (Table 11.2). -/
inductive PortSt where
  | off | down | training | up | degraded | held
  deriving DecidableEq, Repr, Inhabited

/-- Why a port is HELD (R267). -/
inductive HeldWhy where
  | loopback | helloBad | notAllowed
  deriving DecidableEq, Repr, Inhabited

/-- One message handed to the link layer: its type (Table 11.5), its header and the values of its body. -/
structure OutMsg where
  type : Nat
  dst : Nat
  src : Nat
  hop : Nat
  ref : Nat
  refGen : Nat
  offset : Nat
  body : List Nat
  data : Bytes
  deriving DecidableEq, Repr, Inhabited

/-- A frame of a message given to a port (R269): its number once sent, how often it has been sent, its class and flags, the
message it belongs to, and its payload. -/
structure TxFrame where
  seq : Nat
  sends : Nat
  cls : Nat
  first : Bool
  last : Bool
  msg : Nat
  payload : Bytes
  deriving DecidableEq, Repr, Inhabited

/-- A message a port keeps until every frame of it has been acknowledged (R276). -/
structure KeptMsg where
  id : Nat
  at_ : Nat
  msg : OutMsg
  deriving DecidableEq, Repr, Inhabited

/-- One Waylink port (R266 to R271). -/
structure Port where
  st : PortSt
  /-- The training phase under way, 1 to 4 (R267). -/
  phase : Nat
  /-- A retrain of the link layer is under way: HELLO is not repeated (R271). -/
  retraining : Bool
  held : Option (HeldWhy × Nat)
  lanes : Nat
  /-- Degraded to 4 lanes until a port-retrain (R268), and which half it keeps. -/
  narrow : Bool
  lowHalf : Bool
  /-- Milepost at which training starts again after an overrun (R267). -/
  retryAt : Option Nat
  peer : Option Nat
  farPort : Nat
  rxNext : Nat
  txNext : Nat
  /-- Unacknowledged frames, oldest first (R271). -/
  replay : List TxFrame
  /-- Frames that wait for a credit or for room in the replay buffer (R270). -/
  wait : List TxFrame
  kept : List KeptMsg
  nextMsg : Nat
  credits : Tbl Nat
  /-- Payloads of the message being received, by class. -/
  rx : Tbl (List Bytes)
  /-- Frames of each class's buffer freed since the last return (R270). -/
  owed : Tbl Nat
  corrected : Nat
  uncorrected : Nat
  uncorrectedAt : List Nat
  symbols : Tbl Nat
  /-- DATA frames discarded while its wing is fenced or scrubbed (R414, R443). -/
  discarded : Nat
  deriving DecidableEq, Repr, Inhabited

/-- What this module knows of another's entries (R277, R279). -/
structure Member where
  /-- Whether an entry was heard in each of the last 8 rounds, bit 0 the newest. -/
  heard : Nat
  /-- Rounds since one was heard. -/
  missed : Nat
  last : Option EntryBody
  deriving DecidableEq, Repr, Inhabited

/-- A collective group (R287). -/
structure Group where
  live : Bool
  gen : Nat
  members : List Nat
  post : Option CmdRef
  wing : Nat
  context : Nat
  allReduce : Bool
  destBf16 : Bool
  source : Nat
  dest : Nat
  staging : Nat
  start : Nat
  started : Bool
  /-- Elements this member has summed and sent on so far. -/
  summed : Nat
  /-- Elements of the result it has staged. -/
  staged : Nat
  /-- The ticket of the block it waits for. -/
  ticket : Option Nat
  complete : Bool
  deriving DecidableEq, Repr, Inhabited

/-- One leg of a ring (R291). -/
structure Leg where
  owner : Nat
  mirrorSet : Nat
  takeover : Nat
  deriving DecidableEq, Repr, Inhabited

/-- A ring (R291 to R298). -/
structure Ring where
  live : Bool
  gen : Nat
  wing : Nat
  wingGen : Nat
  legs : List Leg
  /-- Legs mirrored by their successors, one bit per leg. -/
  mirrored : Nat
  /-- Legs waiting for a MIRROR_ACK of a pass, with the milepost of the oldest write. -/
  awaiting : Tbl (Option Nat)
  /-- Legs being re-mirrored, with the byte offset of the write that waits to be acknowledged (R295). -/
  remirror : Tbl (Option Nat)
  /-- KV objects of the legs owned here, and MIRROR objects held here, by leg. -/
  kv : Tbl (Option Nat)
  mirror : Tbl (Option Nat)
  /-- Legs taken whose move into the takeover set is under way. -/
  taking : List Nat
  /-- Blocks received, by leg: step. -/
  blocks : Tbl Nat
  deriving DecidableEq, Repr, Inhabited

/-- A pending fabric-set (R358). -/
structure FabricNext where
  interval : Nat
  absenceM : Nat
  allow : Option (List Nat)
  at_ : Nat
  deriving DecidableEq, Repr, Inhabited

/-- The fabric parameters the ledger keeps (R34, R272, R278, R358). -/
structure FabricParams where
  interval : Nat
  absenceM : Nat
  allow : List Nat
  next : Option FabricNext
  deriving DecidableEq, Repr, Inhabited

/-- A message received in the last 1,000,000 mp, by which a repeat is known (R273). -/
structure SeenMsg where
  at_ : Nat
  src : Nat
  type : Nat
  ref : Nat
  refGen : Nat
  offset : Nat
  deriving DecidableEq, Repr, Inhabited

/-- A routed message that waits for a path (R274). -/
structure StuckMsg where
  at_ : Nat
  msg : OutMsg
  deriving DecidableEq, Repr, Inhabited

/-- A port-retrain that waits for its ports (Table 13.13). -/
structure Retrain where
  ports : Nat
  ref : CmdRef
  deriving DecidableEq, Repr, Inhabited

/-- A shard of a broadcast that members below have acknowledged (R285). -/
structure BcastAck where
  ident : Nat
  shard : Nat
  child : Nat
  deriving DecidableEq, Repr, Inhabited

/-- A broadcast heard (R285): its install identifier and its SOURCE. -/
structure Bcast where
  ident : Nat
  source : Nat
  deriving DecidableEq, Repr, Inhabited

/-- An entry heard (R277), and whether it came inside the window of R27. -/
structure HeardEntry where
  src : Nat
  onTime : Bool
  body : EntryBody
  deriving DecidableEq, Repr, Inhabited

/-- A roll call under way and the module's membership (R277 to R286). -/
structure Fabric where
  epoch : Nat
  view : List Nat
  /-- Withdrawn and not yet a member again (R281), with the rounds it has sent entries in since. -/
  withdrawn : Bool
  joined : Nat
  /-- The roll call that has begun and not closed (R279). -/
  round : Option Nat
  /-- Entries heard of rounds not yet closed. -/
  entries : List HeardEntry
  members : Tbl Member
  accusing : List Accusation
  /-- Identities marked absent, with the rounds left (Table 11.6). -/
  absences : List (Nat × Nat)
  /-- Identities found in a DUPLICATE in this round (R284). -/
  duplicates : List Nat
  /-- Members that have left since the last FAILOVER entry acted (R296). -/
  departed : List Nat
  heartbeat : Nat
  /-- Rounds since the keeper last refreshed the body (R278), whether the hardware has stopped, and rounds with none sent. -/
  staleRounds : Nat
  stopped : Bool
  unsent : Nat
  /-- The last entry this module sent. -/
  sent : Option EntryBody
  /-- Messages discarded in this round, by the neighbour that delivered them (R283). -/
  malformed : Tbl Nat
  seen : List SeenMsg
  stuck : List StuckMsg
  relayDiscards : Nat
  retrains : List Retrain
  bcasts : List Bcast
  bcastAcks : List BcastAck
  deriving DecidableEq, Repr, Inhabited

/-! ### Security (chapter 15) -/

/-- Life-cycle states (Table 15.1). -/
inductive Life where
  | manufacture | provisioned | deployed | return_ | scrapped
  deriving DecidableEq, Repr, Inhabited

/-- Wipe causes (Table 15.6). -/
inductive WipeCause where
  | mesh | supply | clock | thermal | tamperIn | porter | lifeCycle
  deriving DecidableEq, Repr, Inhabited

/-- A base key with its bound root. -/
structure BaseKey where
  key : Bytes
  root : Bytes
  deriving DecidableEq, Repr, Inhabited

/-- A passport digest with its used flag (R399). -/
structure PassportMark where
  digest : Bytes
  used : Bool
  deriving DecidableEq, Repr, Inhabited

/-- A party-key-remove under way. -/
structure KeyRemoval where
  party : Nat
  ref : CmdRef
  deriving DecidableEq, Repr, Inhabited

/-- A passport asked for while no attestation key exists (R401): its command, or none for the DOE mailbox, and what the reply
needs. -/
structure WaitingPassport where
  ref : Option CmdRef
  nonce : Bytes
  capacity : Nat
  hostOk : Bool
  deriving DecidableEq, Repr, Inhabited

/-- The secure store, the key unit and the fuses (R393 to R401). -/
structure Secure where
  life : Life
  transitions : Nat
  tamper : Nat
  baseKeys : Tbl (Option BaseKey)
  partyKeys : Tbl (Option Bytes)
  loftKey : Bytes
  loftEpoch : Nat
  ak : Option Bytes
  akPub : Bytes
  rk : Option Bytes
  rkPub : Bytes
  ideKeys : Tbl Bytes
  ideIo : Bool
  ideCm : Bool
  passports : List PassportMark
  waitingPassports : List WaitingPassport
  wipedSinceStart : Bool
  debug : Bool
  removals : List KeyRemoval
  deriving DecidableEq, Repr, Inhabited

/-! ### Service, power and management (chapters 16 to 18) -/

/-- One fault-log record (Table 16.3). -/
structure LogRec where
  number : Nat
  code : Nat
  severity : Nat
  timeState : TimeSt
  milepost : Nat
  version : Nat
  placeKind : Nat
  place : Nat
  wing : Option Nat
  party : Option Nat
  address : Nat
  object : Option Nat
  count : Nat
  detail : List Nat
  deriving DecidableEq, Repr, Inhabited

/-- A firmware handover under way (R439 to R441). -/
inductive Handover where
  | none
  | checked (image : Bytes) (ref : CmdRef)
  | restarting (image : Bytes) (ref : CmdRef) (since : Nat)
  | running (image : Bytes) (journaled : Bool)
  /-- It did not resume, or a reset overtook it: its command still gets FIRMWARE_BAD (R441, Table 16.10). -/
  | failed (ref : CmdRef)
  deriving DecidableEq, Repr, Inhabited

/-- The keeper, its journal and the fault log (R419 to R441). -/
structure Keeper where
  up : Bool
  resetting : Bool
  /-- Milepost at which the reset under way began. -/
  since : Nat
  doze : Bool
  alarm : Option Nat
  image : Bytes
  /-- Effects that hardware has had while the keeper did not run, which it records when it next runs (R442). -/
  unrecorded : Nat
  handover : Handover
  log : List LogRec
  journalLog : List LogRec
  logNext : Nat
  memCorrected : Nat
  memCorrectedAt : List Nat
  /-- Durable firmware image in the image store. -/
  stored : Bytes
  /-- Parts whose counters changed since the last snapshot: place kind and place (R420). -/
  changed : List (Nat × Nat)
  deriving DecidableEq, Repr, Inhabited

/-- STAT values (Table 17.5). -/
inductive StatV where
  | starting | waiting | boot | ready | keeperReset | minimal | powerFail | poweredOff | tripped
  deriving DecidableEq, Repr, Inhabited

/-- What a domain does (R452). -/
inductive DomSt where
  | off | rising | settling | on | falling
  deriving DecidableEq, Repr, Inhabited

/-- A domain-set request (R362): on or off, the tile mask, and its command. -/
structure DomReq where
  on : Bool
  mask : Nat
  ref : CmdRef
  deriving DecidableEq, Repr, Inhabited

/-- One power domain. -/
structure Domain where
  st : DomSt
  run : Option DomReq
  queue : Option DomReq
  /-- The running request's sequence has ended; the keeper has still to record it (R472). -/
  ended : Bool
  deriving DecidableEq, Repr, Inhabited

/-- The range the input voltage lies in (Table 17.1). -/
inductive Vin where
  | off | alwaysOn | good | high | over | low | noWarn | belowHoldup
  deriving DecidableEq, Repr, Inhabited

/-- The Porter's view of power, reset and start-up (chapter 17). -/
structure Power where
  alwaysOn : Bool
  vin : Vin
  vinSince : Nat
  perst : Bool
  stat : StatV
  faultN : Bool
  /-- Step of the start now running: 1 to 5; 0 when no start runs. -/
  step : Nat
  bootStep : Nat
  failed : Nat
  minimal : Bool
  minReason : Nat
  retryWait : Bool
  ready : Bool
  memActive : Bool
  domains : Tbl Domain
  /-- No start begins until PERST_N has been asserted and deasserted (R448, R468). -/
  startsHeld : Bool
  /-- Cellar stacks that failed at the start now running, told at READY (R229). -/
  stacksDown : List Nat
  deriving DecidableEq, Repr, Inhabited

/-- The Porter's operation register (Tables 14.11, 14.12). -/
structure PorterOp where
  /-- The operation that runs, while BUSY reads 1. -/
  running : Option Nat
  lastOp : Nat
  result : Nat
  accepted : Nat
  deriving DecidableEq, Repr, Inhabited

/-- The milepost-read snapshot (R384). -/
structure Snapshot where
  count : Nat
  st : TimeSt
  uncertainty : Nat
  phase : Int
  deriving DecidableEq, Repr, Inhabited

/-- The management bus target, the thermal sensors and the test access port (chapter 18). -/
structure Mgmt where
  maddr : Nat
  dynAddr : Option Nat
  ibiEnable : Nat
  ibi : Option Nat
  temps : Tbl Int
  warned : List Nat
  warning : Bool
  tripped : Bool
  sensorBad : List (Nat × Nat)
  flogIndex : Nat
  jtagIr : Nat
  boundary : List Bool
  boundaryDriven : Bool
  lastRead : Bytes
  deriving DecidableEq, Repr, Inhabited

/-- One HDM decoder (R388). -/
structure Decoder where
  base : Nat
  size : Nat
  committed : Bool
  error : Bool
  locked : Bool
  deriving DecidableEq, Repr, Inhabited

/-- The CXL port (R366 to R392). -/
structure Link where
  up : Bool
  width : Nat
  rate : Nat
  cache : Bool
  mem : Bool
  numVfs : Nat
  vfEnable : Bool
  staleTotal : Nat
  decoders : Tbl Decoder
  region : Mem
  /-- Region lines written since the Loft key was last drawn (R401). -/
  written : List Nat
  /-- Region lines that hold an uncorrectable error: they read as poison until written again (R389). -/
  poisoned : List Nat
  /-- The Loft key was redrawn while the region stayed: lines not written since read as poison (R401). -/
  poisonAll : Bool
  loftDimms : Nat
  loftDimmGiB : Nat
  /-- Bytes per µs of one Loft channel: 8 for each MT/s of its DIMMs (R413). -/
  loftRate : Nat
  doeError : Bool
  doeResponse : Bytes
  snoop : Option Nat
  /-- Whether the last CXL.mem read returned poison (R389). -/
  poison : Bool
  cfgAnswer : Nat
  ideError : List Nat
  deriving DecidableEq, Repr, Inhabited

/-- A party's tally counts in one period (Table 13.17). -/
structure Counts where
  tokens : Nat
  rows : Nat
  tileStages : Nat
  bytes : Nat
  held : Nat
  reload : Nat
  deriving DecidableEq, Repr, Inhabited

/-- The tally (R264, R364). -/
structure Tally where
  period : Nat
  start : Nat
  cur : Tbl Counts
  last : Option (Nat × Nat × Nat)
  lastCounts : Tbl Counts
  deriving DecidableEq, Repr, Inhabited

end Sys2Proof.Machine
end

