-- ==== Sys2Proof/Machine/Table.lean ====
section
/-! DEFINITION. Reading and writing a sparse table, kept in its canonical form: numbers strictly rising, no entry equal
to what an unlisted number reads as. Memories are tables of bytes. -/

namespace Sys2Proof

/-- The entry of a number, if the table lists it. -/
def tlook {α : Type} : Tbl α → Nat → Option α
  | [], _ => none
  | (j, x) :: t, i => if j = i then some x else tlook t i

/-- What a number reads as, with the value an unlisted number reads as. -/
def tgetD {α : Type} (d : α) (t : Tbl α) (i : Nat) : α := (tlook t i).getD d

/-- What a number reads as where an unlisted one reads as the type's blank value. -/
def tget {α : Type} [Inhabited α] (t : Tbl α) (i : Nat) : α := tgetD default t i

/-- The table without a number. -/
def terase {α : Type} : Tbl α → Nat → Tbl α
  | [], _ => []
  | (j, x) :: t, i => if j = i then terase t i else (j, x) :: terase t i

/-- The table with an entry put before the first larger number. -/
def tinsert {α : Type} : Tbl α → Nat → α → Tbl α
  | [], i, v => [(i, v)]
  | (j, x) :: t, i, v => if i < j then (i, v) :: (j, x) :: t else (j, x) :: tinsert t i v

/-- The table with a number's value changed; the value an unlisted number reads as removes the entry. -/
def tputD {α : Type} [DecidableEq α] (d : α) (t : Tbl α) (i : Nat) (v : α) : Tbl α :=
  if v = d then terase t i else tinsert (terase t i) i v

/-- `tputD` with the type's blank value. -/
def tput {α : Type} [DecidableEq α] [Inhabited α] (t : Tbl α) (i : Nat) (v : α) : Tbl α := tputD default t i v

/-- The table with a number's value changed by a function of it. -/
def tmod {α : Type} [DecidableEq α] [Inhabited α] (t : Tbl α) (i : Nat) (f : α → α) : Tbl α := tput t i (f (tget t i))

/-- The table with every listed value changed by a function of its number and it. -/
def tmap {α : Type} [DecidableEq α] [Inhabited α] (f : Nat → α → α) (t : Tbl α) : Tbl α :=
  t.foldl (fun u p => tput u p.1 (f p.1 p.2)) []

/-- Numbers strictly rising from a bound. -/
def trising {α : Type} : Nat → Tbl α → Bool
  | _, [] => true
  | b, (i, _) :: t => decide (b ≤ i) && trising (i + 1) t

/-- The canonical form of a table. -/
def twf {α : Type} [DecidableEq α] (d : α) (t : Tbl α) : Bool := trising 0 t && t.all (fun p => decide (p.2 ≠ d))

/-- The entries of a table that satisfy a test, with their numbers. -/
def tfilter {α : Type} (t : Tbl α) (f : Nat → α → Bool) : List (Nat × α) := t.filter (fun p => f p.1 p.2)

/-- The numbers below a bound at which a test holds, ascending. -/
def upTo (n : Nat) (f : Nat → Bool) : List Nat := (List.range n).filter f

/-- The lowest number below a bound at which a test holds. -/
def lowest (n : Nat) (f : Nat → Bool) : Option Nat := (List.range n).find? f

/-- The lowest number from `n` up that a table in its order does not list as in use. -/
def freeNumber {α : Type} (used : α → Bool) : Tbl α → Nat → Nat
  | [], n => n
  | (j, x) :: t, n => if n < j then n else if used x then freeNumber used t (j + 1) else j

/-- The memory form of R-rules over bytes: a memory whose unlisted bytes read 0. -/
def Memory.wf (m : Mem) : Bool := twf (0 : BitVec 8) m

/-- One byte of a memory. -/
def mread (m : Mem) (a : Nat) : BitVec 8 := tgetD 0 m a

/-- A memory with one byte written. -/
def mwrite (m : Mem) (a : Nat) (b : BitVec 8) : Mem := tputD 0 m a b

/-- A memory with a run of bytes written from an address up. -/
def mstore : Mem → Nat → Bytes → Mem
  | m, _, [] => m
  | m, a, b :: bs => mstore (mwrite m a b) (a + 1) bs

/-- A run of bytes read from an address up. -/
def mload (m : Mem) (a n : Nat) : Bytes := (List.range n).map (fun i => mread m (a + i))

/-- The part of a memory outside a range. -/
def mclear (m : Mem) (a n : Nat) : Mem := m.filter (fun c => decide (c.1 < a) || decide (a + n ≤ c.1))

/-- The part of a memory inside a range, its addresses counted from the range's start. -/
def mslice (m : Mem) (a n : Nat) : Mem :=
  (m.filter (fun c => decide (a ≤ c.1) && decide (c.1 < a + n))).map (fun c => (c.1 - a, c.2))

/-! ### Numbers as bytes and bits (R1, R2) -/

/-- The little-endian bytes of a number (R1). -/
def leBytes : Nat → Nat → Bytes
  | 0, _ => []
  | k + 1, v => BitVec.ofNat 8 v :: leBytes k (v / 256)

/-- The number that bytes spell, little-endian (R1). -/
def leNat : Bytes → Nat
  | [] => 0
  | b :: bs => b.toNat + 256 * leNat bs

/-- The field of `n` bytes at an offset of a payload, as a number. -/
def field (p : Bytes) (off n : Nat) : Nat := leNat ((p.drop off).take n)

/-- The field of `n` bytes at an offset, as bytes. -/
def fieldBytes (p : Bytes) (off n : Nat) : Bytes := (p.drop off).take n

/-- Bits `lo` to `lo + n - 1` of a number (R2). -/
def bits (v lo n : Nat) : Nat := (v >>> lo) % 2 ^ n

/-- How many of a number's low `n` bits are set. -/
def popCount (n v : Nat) : Nat := ((List.range n).filter (fun i => v.testBit i)).length

/-- Signed value of a two's-complement number of `n` bits. -/
def signed (n v : Nat) : Int := if v % 2 ^ n < 2 ^ (n - 1) then ((v % 2 ^ n : Nat) : Int) else ((v % 2 ^ n : Nat) : Int) - ((2 ^ n : Nat) : Int)

/-- Two's-complement number of `n` bits of an integer. -/
def unsigned (n : Nat) (v : Int) : Nat := (v % ((2 ^ n : Nat) : Int)).toNat

/-- The numbers of a mask's set bits among the low `n`, ascending. -/
def maskList (n m : Nat) : List Nat := (List.range n).filter (fun i => m.testBit i)

/-- The mask of a list of bit numbers. -/
def listMask (l : List Nat) : Nat := l.foldl (fun m i => m ||| 2 ^ i) 0

/-- Whether two masks share a bit. -/
def overlap (a b : Nat) : Bool := decide (a &&& b ≠ 0)

/-- Whether the bits of one mask are all in another. -/
def within (a b : Nat) : Bool := decide (a &&& b = a)

/-- A mask less another's bits. -/
def without (a b : Nat) : Nat := a ^^^ (a &&& b)

/-- Quotient rounded up. -/
def ceilDiv (a b : Nat) : Nat := (a + b - 1) / b

/-- Insertion by a strict order: before the first element that it precedes. -/
def insertBy {α : Type} (lt : α → α → Bool) (x : α) : List α → List α
  | [] => [x]
  | y :: ys => if lt x y then x :: y :: ys else y :: insertBy lt x ys

/-- A list put in order by insertion; equal elements keep their order. -/
def sortBy {α : Type} (lt : α → α → Bool) : List α → List α
  | [] => []
  | x :: xs =>
    let rest := sortBy lt xs
    -- x stood before every element of the rest: it goes before its equals
    insertFirst lt x rest
where
  insertFirst {α : Type} (lt : α → α → Bool) (x : α) : List α → List α
    | [] => [x]
    | y :: ys => if lt y x then y :: insertFirst lt x ys else x :: y :: ys

end Sys2Proof
end

