-- ==== Sys2Proof/Machine/Numerics.lean ====
section
/-! DEFINITION. Exact numbers and the module's one rounding: to nearest, ties to even, into FP32, BF16 or WA40 (R42, R65
to R70, R79, R95). A format is named by its fraction bits: 23, 7 or 31; all share the exponent range of FP32. -/

namespace Sys2Proof.Machine

open Sys2Proof

/-! ### Exact numbers -/

/-- An integer times a power of two not below 0. -/
def shl (m : Int) (k : Nat) : Int := m * ((2 ^ k : Nat) : Int)

/-- The exact sum; NaN where either is (R70). -/
def Exact.add : Exact → Exact → Exact
  | .num m e, .num n f =>
    if e ≤ f then .num (m + shl n (f - e).toNat) e else .num (shl m (e - f).toNat + n) f
  | _, _ => .nan

/-- The exact product; NaN where either is. -/
def Exact.mul : Exact → Exact → Exact
  | .num m e, .num n f => .num (m * n) (e + f)
  | _, _ => .nan

/-- The exact zero. -/
def Exact.zero : Exact := .num 0 0

/-- n ÷ 2^k rounded to nearest, ties to even. -/
def rneShift (n k : Nat) : Nat :=
  if k = 0 then n
  else
    let q := n / 2 ^ k
    let r := n % 2 ^ k
    if 2 ^ (k - 1) < r ∨ (r = 2 ^ (k - 1) ∧ q % 2 = 1) then q + 1 else q

/-- A magnitude m × 2^e rounded to nearest even into a format of `F` fraction bits, as the bits below the sign with no
bound above: 255 × 2^F or more means 2^128 or more. Subnormals keep the format's spacing 2^(-126-F). -/
def roundBits (F m : Nat) (e : Int) : Nat :=
  if m = 0 then 0
  else
    let qmin : Int := -126 - F
    let q0 : Int := (Nat.log2 m : Int) + e - F
    let q : Int := if qmin ≤ q0 then q0 else qmin
    let sig := if e ≤ q then rneShift m (q - e).toNat else m * 2 ^ (e - q).toNat
    sig + (q - qmin).toNat * 2 ^ F

/-- Bits below the sign of the largest finite magnitude. -/
def maxFinite (F : Nat) : Nat := 255 * 2 ^ F - 1

/-- The canonical NaN of a format (R66). -/
def canonNaN (F : Nat) : Nat := 255 * 2 ^ F + 2 ^ (F - 1)

/-- What a rounding writes: the element's bits, and whether it saturated. -/
structure Rounded where
  bits : Nat
  sat : Bool
  nan : Bool
  deriving DecidableEq, Repr, Inhabited

/-- An exact value rounded once; a magnitude of 2^128 or more becomes the largest finite one with its sign. A zero result is
+0, as an accumulator and a drain write it (R69, R79). -/
def roundExact (F : Nat) : Exact → Rounded
  | .nan => { bits := canonNaN F, sat := false, nan := true }
  | .num m e =>
    let b := roundBits F m.natAbs e
    let s := if m < 0 then 2 ^ (F + 8) else 0
    if b = 0 then { bits := 0, sat := false, nan := false }
    else if maxFinite F < b then { bits := s + maxFinite F, sat := true, nan := false }
    else { bits := s + b, sat := false, nan := false }

/-! ### Formats -/

/-- Sign bit of an element. -/
def fpSign (F v : Nat) : Bool := v.testBit (F + 8)
/-- Exponent field of an element. -/
def fpExp (F v : Nat) : Nat := bits v F 8
/-- Fraction field of an element. -/
def fpFrac (F v : Nat) : Nat := v % 2 ^ F

/-- Whether an element's exponent field is 255. -/
def fpNonFinite (F v : Nat) : Bool := decide (fpExp F v = 255)

/-- An element's significand magnitude: 2^F + f, or f where the exponent field is 0 (R42). -/
def fpSig (F v : Nat) : Nat := if fpExp F v = 0 then fpFrac F v else 2 ^ F + fpFrac F v

/-- An element's exponent as R42 counts it: e, or 1 where the field is 0. -/
def fpE (F v : Nat) : Nat := if fpExp F v = 0 then 1 else fpExp F v

/-- The exact value of an element; exponent field 255 is NaN (R57, R59, R95). -/
def fpValue (F v : Nat) : Exact :=
  if fpNonFinite F v then .nan
  else
    let s : Int := fpSig F v
    .num (if fpSign F v then -s else s) ((fpE F v : Int) - 127 - F)

/-- The exact value of a BF16 pattern. -/
def bf16Value (v : BitVec 16) : Exact := fpValue 7 v.toNat
/-- The exact value of an FP32 pattern. -/
def fp32Value (v : W32) : Exact := fpValue 23 v.toNat

/-- Fraction bits of an accumulator format (R65). -/
def accFrac : AccFmt → Nat
  | .wa40 => 31
  | .fp32 => 23

/-- Bytes of an accumulator element. -/
def accBytes : AccFmt → Nat
  | .wa40 => 5
  | .fp32 => 4

/-- One promotion (R69, R70): the sum rounded once; once NaN, always NaN. The flag says whether it saturated. -/
def promote (f : AccFmt) (acc : Nat) (g : Exact) : Rounded :=
  if fpNonFinite (accFrac f) acc then { bits := canonNaN (accFrac f), sat := false, nan := true }
  else roundExact (accFrac f) ((fpValue (accFrac f) acc).add g)

/-! ### BF16 alignment (R42, R46, R47) -/

/-- The aligned integer M of a BF16 value in a block of largest exponent E (R46). -/
def alignBf16 (E : Nat) (v : BitVec 16) : Int :=
  let s := fpSig 7 v.toNat
  let d := E - fpE 7 v.toNat
  let m := if d ≤ 7 then s * 2 ^ (7 - d) else rneShift s (d - 7)
  if fpSign 7 v.toNat then -(m : Int) else (m : Int)

/-- The largest exponent of a block's values (R46). -/
def blockExp (vs : List (BitVec 16)) : Nat := vs.foldl (fun E v => Nat.max E (fpE 7 v.toNat)) 1

/-- The high half of an aligned integer (R47). -/
def highHalf (m : Int) : Int := m / 256
/-- The low half of an aligned integer (R47). -/
def lowHalf (m : Int) : Int := m - 256 * highHalf m

/-- An exact sum of products, as the adder tree forms it (R35, R44). -/
def dot (ws xs : List Int) : Int := (ws.zip xs).foldl (fun a p => a + p.1 * p.2) 0

end Sys2Proof.Machine
end

