-- ==== Sys2Proof/Config.lean ====
section
/-! DEFINITION. What the spec leaves to a standard it names or to an implementation, as constants with no body:
nothing in Lean can evaluate them, and every claim holds whatever they are (assumption log entries 3 to 6). -/

namespace Sys2Proof.Config

/-- ML-DSA-65 verification of a Quinkeile token (R395): key index, signed bytes, signature. -/
opaque tokenVerify : Nat → Bytes → Bytes → Bool

/-- ML-DSA-65 signing with a context string (R398, R403): private key, context, message. -/
opaque mlDsaSign : Bytes → Bytes → Bytes → Bytes

/-- The certificate of the device identity key: its key index and Quinkeile's signature (R398, Table 15.7). -/
opaque dikCertificate : Nat × Bytes

/-- The device identity key's private key, which exists while it signs (R398). -/
opaque dikSecret : Bytes

/-- The keeper's ROM image, which runs in minimal mode (R467). -/
opaque romImage : Bytes

/-- The type byte of an ERROR response, which R404 does not state. -/
opaque doeErrorType : Nat

/-- IDCODE of a stepping other than B0 (R485). -/
opaque idcode : Nat

/-- The levels of the pins that SAMPLE captures (R485), for each draw. -/
opaque pinSample : Nat → List Bool

/-- The device identity key's public key (R398). -/
opaque dikPublic : Bytes

/-- The eight die records in the fuses (R397, Table 15.4). -/
opaque dieRecords : Bytes

/-- The stepping's letter and digit in MOD_ID (Table 14.7). -/
opaque stepping : Nat × Nat

/-- ML-KEM-1024 decapsulation (R405): private key and ciphertext. -/
opaque mlKemDecaps : Bytes → Bytes → Bytes

/-- Whether a keeper image passes the checks of R439: its signature, its security version and its ledger formats. -/
opaque imageAccepted : Bytes → Bool

/-- The firmware version that an image carries (Table 15.7). -/
opaque imageVersion : Bytes → Nat

/-- The keeper image a module is delivered with. -/
opaque shippedImage : Bytes

/-- Quinkeile's vendor ID in a DOE discovery response (R391). -/
opaque doeVendor : Nat

/-- The IDE_KM response to an unmasked message and its keys (R390, R404). -/
opaque ideKmResponse : Bytes → Bytes

/-- A free number, fresh for each value of the counter State holds. -/
opaque freeNat : Nat → Nat

/-- A free run of bytes, as of a random bit generator: counter and length. -/
opaque freeBytes : Nat → Nat → Bytes

/-- The bytes of a line of the CXL.mem region that nothing has written, by the Loft key's epoch and the line (R389). -/
opaque regionBytes : Nat → Nat → Bytes

/-- A free byte of an update engine's scratch before its slice writes it (R110, R111): the slice's draw and the address. -/
opaque freeScratch : Nat → Nat → BitVec 8

/-- Public key of a drawn private key (R398). -/
opaque publicKey : Bytes → Bytes

/-- The 64 bits of the module's fabric identity, fixed at manufacture (R272). -/
opaque identityBits : BitVec 64

/-- The module's fabric identity (R272). -/
def identity : Nat := identityBits.toNat

end Sys2Proof.Config
end

