-- ==== Sys2Proof/Machine/State.lean ====
section
/-! DEFINITION. The state of the module: every register, table, queue, buffer, engine and pin the spec gives it, the
ledger apart from the hardware (R319), and the queue of commands and events that wait. -/

namespace Sys2Proof.Machine

open Sys2Proof

/-- What the ledger records (R319): each committed record raises `version` by 1 and changes these together. -/
structure Led where
  version : Nat
  /-- Host sessions, by function × 16 + session number (R322). -/
  sessions : Tbl Session
  /-- Long commands without their final replies, in the order of their acceptances (R332). -/
  longs : List CmdRef
  wings : Tbl Wing
  objects : Tbl Obj
  rooms : Tbl Room
  handles : Tbl Handle
  tileMap : Tbl Serves
  pcs : Tbl Pc
  lofts : Tbl Loft
  rings : Tbl Ring
  groups : Tbl Group
  /-- The function a party is bound to (R361). -/
  binds : Tbl (Option Nat)
  /-- Physical tiles mapped out: never used again (R424). -/
  faultMap : Tbl Bool
  /-- Mappings that wait, in their order. -/
  maps : List MapReq
  /-- Physical tiles whose supply domain-set has turned off (R450), and domains it has turned off, by number. -/
  tilesOff : Tbl Bool
  domainsOff : Tbl Bool
  fab : FabricParams
  tally : Tally
  sweep : Nat
  deriving DecidableEq, Repr, Inhabited

/-- The module's state. -/
structure State where
  clock : Clock
  tt : Timetable
  led : Led
  /-- The ledger as the last journal write that completed left it (R321, R437). -/
  durable : Led
  /-- The journal write under way, with the ledger and the fault log it writes. -/
  writing : Option (Led × List LogRec)
  fns : Tbl Fn
  /-- The wing status pages (Table 14.18). -/
  wingPages : Tbl Page
  /-- Stamped command packets that wait for the keeper, in the order of R318. -/
  stamped : List Packet
  tickets : Tbl Ticket
  tiles : Tbl Tile
  quarters : Tbl Quarter
  /-- Quarter-store bytes, at quarter × 64 MiB + address (R170). -/
  qmem : Mem
  /-- Update engines, by quarter (R110). -/
  updEngines : Tbl Engine
  jobs : Tbl Job
  runs : List UpdateRun
  cellar : Cellar
  ports : Tbl Port
  fabric : Fabric
  secure : Secure
  keeper : Keeper
  power : Power
  porter : PorterOp
  snapshot : Snapshot
  mgmt : Mgmt
  link : Link
  /-- How many free values have been drawn. -/
  free : Nat
  /-- Commands and events that wait, first in, first out. -/
  pending : List Instr
  deriving DecidableEq, Repr, Inhabited

/-- Why the machine stops with a fault. -/
inductive Fault where
  /-- Raised by an event that names a part outside Table 0.5 (a tile above 135, a port above 35 ...). No such part
  exists, so no such event does: safe. -/
  | noSuchPart
  deriving DecidableEq, Repr

/-- Why the machine refuses a command. -/
inductive Refusal where
  /-- A command this model gives no meaning yet. -/
  | notModelled (mnemonic : String)
  /-- Raised by JTAG_DEBUG where the debug unit takes the instruction: the spec says nothing of what a debug
  instruction does (R417). Safe: nothing is claimed of what follows. -/
  | debugUnit
  deriving DecidableEq, Repr

/-- A function's registers after a reset of the block (Tables 14.13 to 14.16): window mode, rings of 64 words,
generation 1. -/
def Fn.blank : Fn :=
  { (default : Fn) with gen := 1, modeReg := true, window := true, ringSizes := 0x00060606, cmdLog := 6, replyLog := 6,
                        noticeLog := 6 }

/-- The ledger of a new module, before its first start. -/
def Led.blank : Led :=
  { (default : Led) with
    fab := { interval := 10000, absenceM := 2, allow := [], next := none }
    sweep := 86400000000 }

/-- The module's state right after reset: its always-on domain has just come up (R460), PERST_N is asserted and no main
domain is on. -/
def State.reset : State :=
  { (default : State) with
    led := Led.blank
    durable := Led.blank
    fabric := { (default : Fabric) with withdrawn := true }
    keeper := { (default : Keeper) with stored := Config.shippedImage }
    power := { (default : Power) with alwaysOn := true, vin := .alwaysOn, perst := true, stat := .waiting } }

end Sys2Proof.Machine
end

