-- ==== Sys2Proof/Machine/Codec.lean ====
section
/-! DEFINITION. CRC-32C (R82), the extended Hamming code of queue words (R307), the layout of queue words (R306) and of
the three packet headers (R312 to R315). -/

namespace Sys2Proof.Machine

open Sys2Proof

/-! ### CRC-32C (R82) -/

/-- One bit of the reflected CRC register. -/
def crcBit (c : Nat) : Nat := if c % 2 = 1 then (c >>> 1) ^^^ 0x82F63B78 else c >>> 1

/-- One byte into the CRC register. -/
def crcByte (c : Nat) (b : Byte) : Nat :=
  let x := c ^^^ b.toNat
  crcBit (crcBit (crcBit (crcBit (crcBit (crcBit (crcBit (crcBit x)))))))

/-- CRC-32C of a run of bytes. -/
def crc32c (bs : Bytes) : Nat := (bs.foldl crcByte 0xFFFFFFFF) ^^^ 0xFFFFFFFF

/-! ### The extended Hamming code (R307) -/

/-- Whether a codeword position belongs to a check bit. -/
def checkPos (n : Nat) : Bool := decide (n &&& (n - 1) = 0)

/-- The codeword positions of the 496 protected bits, ascending. -/
def protectedPos : List Nat := (List.range 506).filter (fun n => decide (n ≠ 0) && !checkPos n)

/-- c0 to c8 of protected bits: the XOR of the positions of the set ones. -/
def hamming (w : Nat) : Nat :=
  (protectedPos.zip (List.range 496)).foldl (fun c pq => if w.testBit pq.2 then c ^^^ pq.1 else c) 0

/-- Parity of a number's low bits. -/
def parity (n v : Nat) : Nat := popCount n v % 2

/-- A queue word's 512 bits from its 496 protected bits: check field with c9 in bit 9 (R306, R307). -/
def encodeWord (w : Nat) : Nat :=
  let d := w % 2 ^ 496
  let c := hamming d
  d + 2 ^ 496 * (c + 512 * ((parity 496 d + parity 9 c) % 2))

/-- What reading a queue word gives. -/
inductive WordRead where
  | clean (w : Nat)
  | corrected (w : Nat)
  | uncorrectable
  deriving DecidableEq, Repr

/-- Decoding of a queue word by its syndrome and parity (R307). -/
def decodeWord (v : Nat) : WordRead :=
  let d := v % 2 ^ 496
  let c := bits v 496 9
  let s := hamming d ^^^ c
  let e := (parity 496 d + parity 10 (bits v 496 10)) % 2
  if s = 0 ∧ e = 0 then .clean d
  else if e = 0 then .uncorrectable
  else if s = 0 ∨ checkPos s then .corrected d
  else match protectedPos.findIdx? (fun p => p = s) with
    | some q => .corrected (d ^^^ 2 ^ q)
    | none => .uncorrectable

/-! ### Words and packets (R306, R311) -/

/-- How many words a packet of a header and a payload takes (R311). -/
def wordCount (header length : Nat) : Nat := ceilDiv (header + length) 60

/-- Word `i` of the `n` words of a packet's bytes, with its phase or valid bit (Table 12.1). -/
def packWord (bytes : Bytes) (n i phase : Nat) : Nat :=
  encodeWord (leNat (fieldBytes bytes (60 * i) 60) + 2 ^ 480 * (i + 256 * ((n - 1) + 128 * phase)))

/-- The not-valid word (R310, Table 12.3). -/
def notValidWord (version milepost next reason timeState : Nat) : Nat :=
  encodeWord (version % 2 ^ 64 + 2 ^ 64 * (milepost % 2 ^ 64 + 2 ^ 64 * (next % 2 ^ 64 + 2 ^ 64 * (reason + 256 * timeState))))

/-- The `words` field of a word: words in the packet, less 1. -/
def wordsField (w : Nat) : Nat := bits w 488 6
/-- The `index` field of a word. -/
def indexField (w : Nat) : Nat := bits w 480 6
/-- The phase or valid bit of a word. -/
def phaseField (w : Nat) : Nat := bits w 495 1
/-- The 60 payload bytes of a word. -/
def wordBytes (w : Nat) : Bytes := leBytes 60 (w % 2 ^ 480)

/-- A time state's value (Table 2.1). -/
def TimeSt.value : TimeSt → Nat
  | .unset => 0 | .locked => 1 | .holdover => 2 | .adrift => 3 | .relock => 4

/-- A reply packet's bytes (Table 12.5, R315). -/
def replyBytes (r : Reply) : Bytes :=
  let h := leBytes 2 1 ++ leBytes 2 r.code ++ leBytes 2 r.payload.length ++ leBytes 2 r.status.value ++ leBytes 4 r.session
    ++ leBytes 4 r.sgen ++ leBytes 8 r.seq ++ leBytes 8 r.version ++ leBytes 8 r.milepost ++ leBytes 8 r.hostTag
    ++ leBytes 2 ((if r.final then 1 else 0) + (if r.replayed then 2 else 0)) ++ leBytes 2 0
  h ++ leBytes 4 (crc32c (h ++ r.payload)) ++ r.payload

/-- Words of a reply packet. -/
def replyWordCount (r : Reply) : Nat := wordCount 56 r.payload.length

/-- A notice's payload: FUNCTION_STATE as R373 lays it out, any other body's values in 8 bytes each
(DESIGN CHOICE, log entry 12). -/
def noticePayload (n : NoticeMsg) : Bytes :=
  match n.type, n.body with
  | .functionState, [fn, st, gen] => leBytes 2 fn ++ leBytes 1 st ++ leBytes 1 0 ++ leBytes 4 gen
  | _, b => b.flatMap (leBytes 8)

/-- A notice packet's bytes (Table 12.6, R315). -/
def noticeBytes (n : NoticeMsg) : Bytes :=
  let p := noticePayload n
  let h := leBytes 2 1 ++ leBytes 2 n.type.value ++ leBytes 2 p.length ++ leBytes 1 n.timeState.value
    ++ leBytes 1 (n.wing.getD 0xFF) ++ leBytes 8 n.seq ++ leBytes 8 n.version ++ leBytes 8 n.milepost
    ++ leBytes 2 (n.party.getD 0xFFFF) ++ leBytes 1 n.wingStatus ++ leBytes 1 0 ++ leBytes 4 n.wingGen ++ leBytes 4 0
  h ++ leBytes 4 (crc32c (h ++ p)) ++ p

/-- Words of a notice packet. -/
def noticeWordCount (n : NoticeMsg) : Nat := wordCount 48 (noticePayload n).length

/-- The command packet that a packet's bytes spell, if its header is sound (R311, R312, R315). -/
def parsePacket (fn stamp n : Nat) (bs : Bytes) : Option Packet :=
  let length := field bs 4 2
  let payload := fieldBytes bs 48 length
  if field bs 0 2 = 1 ∧ length ≤ 3792 ∧ n = wordCount 48 length ∧ field bs 44 4 = crc32c (fieldBytes bs 0 44 ++ payload) then
    some { hdr := { fn := fn, session := field bs 8 4, sgen := field bs 12 4, seq := field bs 16 8, deadline := field bs 24 8,
                    hostTag := field bs 32 8, crc := field bs 44 4, stamp := stamp }
           code := field bs 2 2, payload := payload
           clean := decide (field bs 6 2 = 0 ∧ field bs 40 4 = 0) }
  else none

end Sys2Proof.Machine
end

