-- ==== Sys2Proof/Machine/Ops.lean ====
section
/-! DEFINITION. The operations every family shares: reading and changing one part of the state, committing a record
(R319), fault-log records (R421, R422), notices (R314), the reply and notice queues (R301 to R316), final replies of
long commands (R332), and the state and milepost they are stamped with (R18). -/

namespace Sys2Proof.Machine

open Sys2Proof

/-! ### One part of the state -/

/-- The outcome of a command or event on a part of the module: a fault where no such part exists (Table 0.5). -/
def onPart (number count : Nat) (s : State) (f : State → State) : Host.Outcome State Fault Refusal :=
  if number < count then .next (f s) else .fault .noSuchPart

/-- A function's state. -/
def State.fn (s : State) (i : Nat) : Fn := tgetD Fn.blank s.fns i
/-- The state with a function changed. -/
def State.setFn (s : State) (i : Nat) (f : Fn) : State := { s with fns := tputD Fn.blank s.fns i f }
/-- The state with a function changed by a function of it. -/
def State.modFn (s : State) (i : Nat) (g : Fn → Fn) : State := s.setFn i (g (s.fn i))

/-- The key of a host session: function × 16 + number. -/
def sessKey (fn session : Nat) : Nat := fn * 16 + session
/-- A host session. -/
def State.sess (s : State) (k : Nat) : Session := tget s.led.sessions k
/-- The state with a host session changed. -/
def State.modSess (s : State) (k : Nat) (g : Session → Session) : State :=
  { s with led := { s.led with sessions := tmod s.led.sessions k g } }

/-- A wing. -/
def State.wing (s : State) (w : Nat) : Wing := tget s.led.wings w
/-- The state with a wing changed. -/
def State.modWing (s : State) (w : Nat) (g : Wing → Wing) : State :=
  { s with led := { s.led with wings := tmod s.led.wings w g } }
/-- A context of a wing. -/
def State.ctx (s : State) (w c : Nat) : Ctx := tget (s.wing w).contexts c
/-- The state with a context changed. -/
def State.modCtx (s : State) (w c : Nat) (g : Ctx → Ctx) : State :=
  s.modWing w (fun x => { x with contexts := tmod x.contexts c g })

/-- An object. -/
def State.obj (s : State) (i : Nat) : Obj := tget s.led.objects i
/-- The state with an object changed. -/
def State.modObj (s : State) (i : Nat) (g : Obj → Obj) : State :=
  { s with led := { s.led with objects := tmod s.led.objects i g } }
/-- A room. -/
def State.room (s : State) (i : Nat) : Room := tget s.led.rooms i
/-- The state with a room changed. -/
def State.modRoom (s : State) (i : Nat) (g : Room → Room) : State :=
  { s with led := { s.led with rooms := tmod s.led.rooms i g } }
/-- An adapter handle. -/
def State.handle (s : State) (i : Nat) : Handle := tget s.led.handles i
/-- The state with a handle changed. -/
def State.modHandle (s : State) (i : Nat) (g : Handle → Handle) : State :=
  { s with led := { s.led with handles := tmod s.led.handles i g } }
/-- A ring of legs. -/
def State.ring (s : State) (i : Nat) : Ring := tget s.led.rings i
/-- The state with a ring changed. -/
def State.modRing (s : State) (i : Nat) (g : Ring → Ring) : State :=
  { s with led := { s.led with rings := tmod s.led.rings i g } }
/-- A collective group. -/
def State.group (s : State) (i : Nat) : Group := tget s.led.groups i
/-- The state with a group changed. -/
def State.modGroup (s : State) (i : Nat) (g : Group → Group) : State :=
  { s with led := { s.led with groups := tmod s.led.groups i g } }
/-- A pseudo-channel. -/
def State.pc (s : State) (i : Nat) : Pc := tget s.led.pcs i
/-- The state with a pseudo-channel changed. -/
def State.modPc (s : State) (i : Nat) (g : Pc → Pc) : State :=
  { s with led := { s.led with pcs := tmod s.led.pcs i g } }
/-- A Loft channel. -/
def State.loft (s : State) (i : Nat) : Loft := tget s.led.lofts i
/-- The state with a Loft channel changed. -/
def State.modLoft (s : State) (i : Nat) (g : Loft → Loft) : State :=
  { s with led := { s.led with lofts := tmod s.led.lofts i g } }
/-- A physical tile. -/
def State.tile (s : State) (i : Nat) : Tile := tget s.tiles i
/-- The state with a tile changed. -/
def State.modTile (s : State) (i : Nat) (g : Tile → Tile) : State := { s with tiles := tmod s.tiles i g }
/-- A quarter. -/
def State.quarter (s : State) (i : Nat) : Quarter := tget s.quarters i
/-- The state with a quarter changed. -/
def State.modQuarter (s : State) (i : Nat) (g : Quarter → Quarter) : State := { s with quarters := tmod s.quarters i g }
/-- A Cellar shard. -/
def State.shard (s : State) (i : Nat) : Shard := tget s.cellar.shards i
/-- The state with a shard changed. -/
def State.modShard (s : State) (i : Nat) (g : Shard → Shard) : State :=
  { s with cellar := { s.cellar with shards := tmod s.cellar.shards i g } }
/-- A base. -/
def State.base (s : State) (i : Nat) : Base := tget s.cellar.bases i
/-- The state with a base changed. -/
def State.modBase (s : State) (i : Nat) (g : Base → Base) : State :=
  { s with cellar := { s.cellar with bases := tmod s.cellar.bases i g } }
/-- A Waylink port. -/
def State.port (s : State) (i : Nat) : Port := tget s.ports i
/-- The state with a port changed. -/
def State.modPort (s : State) (i : Nat) (g : Port → Port) : State := { s with ports := tmod s.ports i g }
/-- A power domain. -/
def State.domain (s : State) (i : Nat) : Domain := tget s.power.domains i
/-- The state with a domain changed. -/
def State.modDomain (s : State) (i : Nat) (g : Domain → Domain) : State :=
  { s with power := { s.power with domains := tmod s.power.domains i g } }
/-- An update job. -/
def State.job (s : State) (i : Nat) : Job := tget s.jobs i
/-- The state with a job changed. -/
def State.modJob (s : State) (i : Nat) (g : Job → Job) : State := { s with jobs := tmod s.jobs i g }
/-- The state with its clock changed. -/
def State.modClock (s : State) (g : Clock → Clock) : State := { s with clock := g s.clock }
/-- The state with its fabric changed. -/
def State.modFabric (s : State) (g : Fabric → Fabric) : State := { s with fabric := g s.fabric }
/-- The state with its secure store changed. -/
def State.modSecure (s : State) (g : Secure → Secure) : State := { s with secure := g s.secure }
/-- The state with its keeper changed. -/
def State.modKeeper (s : State) (g : Keeper → Keeper) : State := { s with keeper := g s.keeper }
/-- The state with its power changed. -/
def State.modPower (s : State) (g : Power → Power) : State := { s with power := g s.power }
/-- The state with its management parts changed. -/
def State.modMgmt (s : State) (g : Mgmt → Mgmt) : State := { s with mgmt := g s.mgmt }
/-- The state with its CXL port changed. -/
def State.modLink (s : State) (g : Link → Link) : State := { s with link := g s.link }
/-- The state with its Cellar changed. -/
def State.modCellar (s : State) (g : Cellar → Cellar) : State := { s with cellar := g s.cellar }
/-- The state with its ledger changed. -/
def State.modLed (s : State) (g : Led → Led) : State := { s with led := g s.led }

/-- Live wings' numbers. -/
def State.liveWings (s : State) : List Nat := upTo 16 (fun w => (s.wing w).live)

/-! ### Records and stamps -/

/-- One record committed: the ledger's version rises by exactly 1 (R319). An effect of hardware while the keeper does not run is
counted, and recorded when it next runs (R442). -/
def State.bump (s : State) : State :=
  if s.keeper.up then { s with led := { s.led with version := s.led.version + 1 } }
  else { s with keeper := { s.keeper with unrecorded := s.keeper.unrecorded + 1 } }

/-- The state with one more free value drawn. -/
def State.draw (s : State) : State := { s with free := s.free + 1 }

/-- The reported uncertainty, ns (R25): 5 ns for every 1,000 mp since the last good edge; 0 while LOCKED or UNSET. -/
def uncertainty (s : State) : Nat :=
  match s.clock.st with
  | .unset => 0
  | .locked => 0
  | _ => (s.clock.count - s.clock.lastGood) * 5 / 1000

/-- Whether an update job for one of a wing's adapters runs (R115). -/
def updating (s : State) (w : Nat) : Bool := s.jobs.any (fun p => p.2.live && p.2.started && decide (p.2.wing = w))

/-- A wing's status (Table 10.3): the lowest value that applies. -/
def wingStatus (s : State) (w : Nat) : Nat :=
  let x := s.wing w
  if !x.live then 0xFF
  else if x.removing.isSome then 0
  else if x.fenced then 1
  else if x.scrub.isSome then 2
  else if x.switching then 3
  else if x.swap.isSome then 4
  else if updating s w then 5
  else if x.running.isSome then 6
  else if x.contexts.any (fun p => p.2.live) then 7
  else 8

/-! ### The fault log (R421 to R423, R495) -/

/-- Where and to whom a fault-log record or a notice applies. -/
structure At where
  kind : Nat := 0
  place : Nat := 0
  wing : Option Nat := none
  party : Option Nat := none
  address : Nat := 0
  object : Option Nat := none
  deriving DecidableEq, Repr

/-- One event logged: merged into the newest record with its code and place if that has its address and stands within
1,000 mp (R422), else a new record; the newest 1,024 are kept (R423). The newest stands first. -/
def logEvent (s : State) (code severity : Nat) (at_ : At) (detail : List Nat) : State :=
  let k := s.keeper
  let same (r : LogRec) : Bool := decide (r.code = code ∧ r.placeKind = at_.kind ∧ r.place = at_.place)
  let fresh : LogRec :=
    { number := k.logNext + 1, code := code, severity := severity, timeState := s.clock.st, milepost := s.clock.count
      version := s.led.version, placeKind := at_.kind, place := at_.place, wing := at_.wing, party := at_.party
      address := at_.address, object := at_.object, count := 1, detail := detail }
  match k.log.findIdx? same with
  | none => { s with keeper := { k with log := (fresh :: k.log).take 1024, logNext := k.logNext + 1 } }
  | some i =>
    match k.log[i]? with
    | none => s
    | some r =>
      if r.address = at_.address ∧ s.clock.count ≤ r.milepost + 1000 ∧ r.milepost ≤ s.clock.count + 1000 then
        { s with keeper := { k with log := k.log.set i { r with count := Nat.min (r.count + 1) (2 ^ 32 - 1) } } }
      else { s with keeper := { k with log := (fresh :: k.log).take 1024, logNext := k.logNext + 1 } }

/-- An event that ends work with a status and sends no notice, logged under 0x8000 + the status, severity 2 (R495). -/
def logStatus (s : State) (st : Status) (at_ : At) : State := logEvent s (0x8000 + st.value) 2 at_ []

/-- A log-only event (Table 19.4). -/
def logOnly (s : State) (c : LogCode) (at_ : At) (detail : List Nat) : State := logEvent s c.value c.severity at_ detail

/-- The severity a notice's event is logged with: 2 where it is contained to a wing, context or object, 1 for a
corrected-error threshold or a warning, 3 where the module's keys or the whole module are lost, 0 otherwise
(DEDUCED from Table 16.3, log entry 13). -/
def noticeSeverity : Notice → Nat
  | .secureWiped => 3
  | .pcSuspect | .loftSuspect | .tileSuspect | .keeperMemorySuspect | .thermalWarning | .portDegraded
  | .shardQuarantined | .shardRetired => 1
  | .ringStopped | .ringFault | .doorbellBad | .malformedPacket | .cmdOverrun | .adapterDigest | .adapterDamaged
  | .objectDamaged | .loftChannelDown | .keyLost | .cellarStackDown | .manifestBad | .portDown | .legTaken | .legLost
  | .mirrorLost | .peerErring | .fabricWithdrawn | .tileUnavailable | .lossSpike | .watchLimit | .wingFenced => 2
  | _ => 0

/-! ### Interrupts and the queues of a function -/

/-- One vector raised: at most once in a milepost; a further packet raises it again at the next edge (R316). A masked
vector sets its pending bit (R381). -/
def raiseVector (f : Fn) (v : Nat) : Fn :=
  if f.raised.testBit v then { f with again := f.again ||| 2 ^ v }
  else
    { f with raised := f.raised ||| 2 ^ v
             msixPending := if (mread f.msix (16 * v + 12)).toNat % 2 = 1 then f.msixPending ||| 2 ^ v else f.msixPending }

/-- Room for words in the reply queue (R304, R305). -/
def replyRoom (f : Fn) : Nat := (if f.window then 256 else 2 ^ f.replyLog) - f.replyWords.length

/-- Room for words in the notice queue (R304, R305). -/
def noticeRoom (f : Fn) : Nat := (if f.window then 1024 else 2 ^ f.noticeLog) - f.noticeWords.length

/-- A reply packet put into the reply queue, the tail moved past it and the vector raised (R316). -/
def enterReply (f : Fn) (r : Reply) : Fn :=
  raiseVector { f with replyWords := f.replyWords ++ (List.range (replyWordCount r)).map (fun i => (r, i))
                       replyTail := (f.replyTail + replyWordCount r) % 2 ^ 32 } 0

/-- Waiting replies put into the queue, in order, while they fit. -/
def flushReplies : List Reply → Fn → Fn
  | [], f => { f with replyWait := [] }
  | r :: rs, f => if replyWordCount r ≤ replyRoom f then flushReplies rs (enterReply f r) else { f with replyWait := r :: rs }

/-- A reply sent on a function: into the queue, or behind those that wait for room (R304, R336). A function that is not
enabled, or whose rings have failed (R380), gets none: its reply stays in the replay cache. -/
def pushReply (s : State) (fn : Nat) (r : Reply) : State :=
  s.modFn fn (fun f =>
    if f.st = .enabled ∧ !f.faulted then flushReplies (f.replyWait ++ [r]) f else f)

/-- A notice given to one function: its sequence rises whether or not it finds room (R314). -/
def pushNotice (f : Fn) (n : NoticeMsg) : Fn :=
  let m := { n with seq := f.noticeSeq + 1 }
  let f1 := { f with noticeSeq := f.noticeSeq + 1 }
  if noticeWordCount m ≤ noticeRoom f ∧ !f.faulted then
    raiseVector { f1 with noticeWords := f1.noticeWords ++ (List.range (noticeWordCount m)).map (fun i => (m, i))
                          noticeTail := (f1.noticeTail + noticeWordCount m) % 2 ^ 32 } 1
  else f1

/-- Whether a notice is meant for a function (R314): VF0 gets all, another those that name a party bound to it. -/
def noticeFor (s : State) (every : Bool) (party : Option Nat) (i : Nat) : Bool :=
  every || decide (i = 0) || (match party with | some p => decide (tget s.led.binds p = some i) | none => false)

/-- A notice sent, stamped with the count and the time state (R18), to the functions it is meant for. -/
def sendNotice (s : State) (every : Bool) (type : Notice) (at_ : At) (body : List Nat) : State :=
  let n : NoticeMsg :=
    { type := type, timeState := s.clock.st, wing := at_.wing
      wingStatus := match at_.wing with | some w => wingStatus s w | none => 0xFF
      wingGen := match at_.wing with | some w => (s.wing w).gen | none => 0
      seq := 0, version := s.led.version, milepost := s.clock.count, party := at_.party, body := body }
  { s with fns := s.fns.foldl (fun t p =>
      if p.2.st = .enabled ∧ noticeFor s every at_.party p.1 then tputD Fn.blank t p.1 (pushNotice p.2 n) else t) s.fns }

/-- A notice's event: the notice sent, and logged under its type (R495). -/
def notify (s : State) (type : Notice) (at_ : At) (body : List Nat) : State :=
  logEvent (sendNotice s false type at_ body) type.value (noticeSeverity type) at_ body

/-- A notice sent on every function (R334, R440), and logged. -/
def notifyEvery (s : State) (type : Notice) (body : List Nat) : State :=
  logEvent (sendNotice s true type {} body) type.value (noticeSeverity type) {} body

/-! ### Replies to commands -/

/-- The place of a wing, with its party where it is sealed. -/
def atWing (s : State) (w : Nat) : At :=
  { kind := 7, place := w, wing := some w, party := if (s.wing w).sealed then some (s.wing w).party else none }

/-- The reply to a command, at the present version and milepost. -/
def mkReply (s : State) (ref : CmdRef) (st : Status) (final : Bool) (payload : Bytes) : Reply :=
  { code := ref.code, status := st, session := ref.session, sgen := ref.sgen, seq := ref.seq, version := s.led.version
    milepost := s.clock.count, hostTag := ref.hostTag, final := final, replayed := false, payload := payload }

/-- The command a header and a code name. -/
def refOf (h : CmdHdr) (code : Nat) : CmdRef :=
  { fn := h.fn, session := h.session, sgen := h.sgen, seq := h.seq, hostTag := h.hostTag, code := code, crc := h.crc }

/-- The final reply of a long command, within the record now being committed (R332): the cache's reply becomes it, the
command is no longer outstanding, and the reply is sent unless the session is LAPSED; after CLOSED it is discarded
(R331). Work that ends with a status outside group 0x00 is logged (R495). -/
def finishIn (s : State) (ref : CmdRef) (st : Status) (payload : Bytes) : State :=
  let k := sessKey ref.fn ref.session
  let x := s.sess k
  let r := mkReply s ref st true payload
  let s := { s with led := { s.led with longs := s.led.longs.filter (fun l => decide (l ≠ ref)) } }
  let s := if st.value / 256 ≠ 0 then logStatus s st {} else s
  if x.gen = ref.sgen ∧ x.st ≠ .closed then
    let s := s.modSess k (fun x =>
      { x with longs := x.longs - 1
               marks := if tget x.marks ref.seq = .absent then x.marks else tput x.marks ref.seq (.cached ref.crc r) })
    if x.st = .lapsed then s else pushReply s ref.fn r
  else s

/-- The completion record of a long command and its final reply (R319, R332). -/
def finish (s : State) (ref : CmdRef) (st : Status) (payload : Bytes) : State := finishIn s.bump ref st payload

/-- The final reply of work that may have no command behind it. -/
def finishOpt (s : State) (ref : Option CmdRef) (st : Status) (payload : Bytes) : State :=
  match ref with
  | some r => finishIn s r st payload
  | none => s

/-! ### Permission -/

/-- Whether a function may act for a party (R341): VF0, or the function the party is bound to. -/
def mayActFor (s : State) (fn : Nat) (party : Option Nat) : Bool :=
  decide (fn = 0) || (match party with | some p => decide (tget s.led.binds p = some fn) | none => false)

/-- The party that owns a wing: a sealed wing's party; a shared wing is the module's. -/
def wingOwner (x : Wing) : Option Nat := if x.sealed then some x.party else none

/-- The module is ready and runs normally: commands are read and evaluated. -/
def normalMode (s : State) : Bool := s.power.ready && !s.power.minimal && s.keeper.up && !s.keeper.doze

end Sys2Proof.Machine
end

