-- ==== Sys2Proof/Machine/Protocol.lean ====
section
/-! DEFINITION. How a stamped Kualne command is taken by the keeper (R317, R318), tested against its host session
(R323, R329), its sequence number (R325, Table 12.9) and its deadline (R330), evaluated in the order of R342, and
answered (R313, R316, R332). Every command row is one value of `KCmd` run by `kcp`. -/

namespace Sys2Proof.Machine

open Sys2Proof

/-! ### What a command is -/

/-- The classes of R340. -/
inductive KClass where
  | query | commit | long
  deriving DecidableEq, Repr

/-- What the evaluation of a command comes to. -/
inductive KRes where
  /-- Refused with a status; nothing is recorded. -/
  | refuse (st : Status) (payload : Bytes)
  /-- Answered; nothing changes. -/
  | query (payload : Bytes)
  /-- Carried out with nothing to change: nothing is recorded. -/
  | nochange (payload : Bytes)
  /-- One record with these changes, and its final reply. -/
  | commit (f : State → State) (st : Status) (payload : Bytes)
  /-- An acceptance record with these changes and its interim reply; a completion that follows at once, if any. -/
  | long (f : State → State) (st : Status) (payload : Bytes) (done : Option (State → State))
  /-- Refused or answered with a status, with changes to what the ledger does not record. -/
  | keep (f : State → State) (st : Status) (payload : Bytes)
  /-- Answered later: these changes remember it. -/
  | later (f : State → State)

/-- A command of chapter 13: its code and class, which functions may issue it, the layout its payload must have (R338),
whether the generations it names are current (R339), the wings it names (R443), and its own rules. -/
structure KCmd where
  code : Nat
  cls : KClass
  sessionless : Bool := false
  /-- Accepted in minimal mode (R344). -/
  inMinimal : Bool := false
  parse : Bytes → Bool
  perm : State → CmdHdr → Bytes → Bool := fun _ _ _ => true
  gens : State → Bytes → Bool := fun _ _ => true
  names : State → Bytes → List Nat := fun _ _ => []
  body : State → CmdHdr → Bytes → KRes
  /-- What follows the reply of a commit (the replays of R333). -/
  follow : CmdHdr → Bytes → State → State := fun _ _ s => s

/-- The codes of chapter 13's tables (R337). -/
def knownCode (c : Nat) : Bool :=
  let n := c % 256
  match c / 256 with
  | 0x00 => decide (1 ≤ n ∧ n ≤ 7)
  | 0x01 => decide (1 ≤ n ∧ n ≤ 2)
  | 0x02 => decide (1 ≤ n ∧ n ≤ 6)
  | 0x03 => decide (1 ≤ n ∧ n ≤ 5)
  | 0x04 => decide (1 ≤ n ∧ n ≤ 0xB)
  | 0x05 => decide (1 ≤ n ∧ n ≤ 8)
  | 0x06 => decide (1 ≤ n ∧ n ≤ 6)
  | 0x07 => decide (1 ≤ n ∧ n ≤ 6)
  | 0x08 => decide (1 ≤ n ∧ n ≤ 8)
  | 0x09 => decide (1 ≤ n ∧ n ≤ 6)
  | 0x0A => decide (1 ≤ n ∧ n ≤ 8)
  | 0x0B => decide (1 ≤ n ∧ n ≤ 2)
  | _ => false

/-- Whether a range of a payload's bytes is all 0 (R338). -/
def zeros (p : Bytes) (off n : Nat) : Bool := decide (field p off n = 0)

/-- A payload of one length whose unnamed bytes are 0 (R338). -/
def fixedLayout (len : Nat) (gaps : List (Nat × Nat)) (p : Bytes) : Bool :=
  decide (p.length = len) && gaps.all (fun g => zeros p g.1 g.2)

/-- A field that must lie in a range. -/
def inRange (v lo hi : Nat) : Bool := decide (lo ≤ v ∧ v ≤ hi)

/-- A field where 0 stands for a default, else in a range. -/
def zeroOr (v lo hi : Nat) : Bool := decide (v = 0) || inRange v lo hi

/-! ### The order of commands (R318) -/

/-- Whether one stamped packet stands before another: stamp, function, sequence, host session. -/
def packetBefore (a b : Packet) : Bool :=
  if a.hdr.stamp ≠ b.hdr.stamp then decide (a.hdr.stamp < b.hdr.stamp)
  else if a.hdr.fn ≠ b.hdr.fn then decide (a.hdr.fn < b.hdr.fn)
  else if a.hdr.seq ≠ b.hdr.seq then decide (a.hdr.seq < b.hdr.seq)
  else decide (a.hdr.session < b.hdr.session)

/-- A packet stamped with the present milepost and put in its place in the order (R317, R318). -/
def stampPacket (s : State) (k : Packet) : State :=
  { s with stamped := insertBy packetBefore { k with hdr := { k.hdr with stamp := s.clock.count } } s.stamped }

/-- Whether the keeper takes commands: it runs, and the module is READY or in minimal mode. -/
def takesCommands (s : State) : Bool := s.keeper.up && !s.keeper.doze && (s.power.ready || s.power.minimal)

/-- The command the keeper takes next: the first in the order, stamped in an earlier milepost (R318), of a function
whose replies do not wait for room (Table 12.11). -/
def nextPacket (s : State) : Option Packet :=
  if takesCommands s then
    s.stamped.find? (fun k => decide (k.hdr.stamp < s.clock.count) && decide ((s.fn k.hdr.fn).replyWait = []))
  else none

/-! ### Host sessions -/

/-- Where a host session's events are logged. -/
def atFn (fn : Nat) : At := { kind := 8, place := fn }

/-- A host session closed: its cache and held commands are dropped (Table 12.10). -/
def closeSession (s : State) (k : Nat) : State :=
  s.modSess k (fun x => { x with st := .closed, marks := [], held := [], malformed := [] })

/-- A host session lapsed: held commands dropped, as never sent, and SESSION_LAPSED sent (Table 12.10). -/
def lapseSession (s : State) (k : Nat) : State :=
  let x := s.sess k
  if x.st = .opened ∨ x.st = .probation then
    notify (s.modSess k (fun x => { x with st := .lapsed, before := x.st, held := [], gapNoticed := 0
                                          , lapsedAt := s.clock.count }))
      .sessionLapsed (atFn (k / 16)) [k / 16, k % 16, x.gen]
  else s

/-- Every host session of a function lapsed. -/
def lapseFunction (s : State) (fn : Nat) : State := (List.range 16).foldl (fun s n => lapseSession s (sessKey fn n)) s

/-- A MALFORMED reply counted against its host session (R328). -/
def countMalformed (s : State) (k : Nat) : State :=
  let x := s.sess k
  let now := s.clock.count
  if x.st = .probation then
    let l := x.malformed ++ [now]
    if 16 ≤ l.length then
      notify (closeSession s k) .sessionEvicted (atFn (k / 16)) [k / 16, k % 16, x.gen]
    else s.modSess k (fun x => { x with malformed := l, lastMalformed := now })
  else
    let l := x.malformed.filter (fun m => decide (now < m + 1000000)) ++ [now]
    if 16 ≤ l.length then
      notify (s.modSess k (fun x => { x with st := .probation, malformed := [], lastMalformed := now }))
        .sessionProbation (atFn (k / 16)) [k / 16, k % 16, x.gen]
    else s.modSess k (fun x => { x with malformed := l, lastMalformed := now })

/-- The function's malformed-commands counter gains 1 (Table 12.2). -/
def addMalformed (s : State) (fn : Nat) : State :=
  s.modFn fn (fun f => { f with counters := { f.counters with malformed := f.counters.malformed + 1 } })

/-- Held commands that now follow, from E up without a gap, released and stamped again (R317, R325). -/
def releaseHeld : Nat → Nat → Nat → State → State
  | 0, _, _, s => s
  | n + 1, k, seq, s =>
    match tget (s.sess k).held seq with
    | some pk => releaseHeld n k (seq + 1) (stampPacket (s.modSess k (fun x => { x with held := terase x.held seq })) pk)
    | none => s

/-- E moved past a number, which gets its mark; the window keeps E − 64 to E − 1 (R322, R325). -/
def passNumber (s : State) (k seq : Nat) (m : Mark) : State :=
  s.modSess k (fun x =>
    { x with next := seq + 1, marks := tput (terase x.marks (seq - 64)) seq m, held := terase x.held seq })

/-- E moved past numbers already marked skipped (R326). -/
def passSkipped : Nat → Nat → State → State
  | 0, _, s => s
  | n + 1, k, s =>
    let x := s.sess k
    if tget x.marks x.next = .skipped then passSkipped n k (passNumber s k x.next .skipped) else s

/-- What follows a number's execution: skipped numbers are passed and held commands released. -/
def afterNumber (s : State) (k : Nat) : State :=
  let s := passSkipped 64 k s
  releaseHeld 64 k (s.sess k).next s

/-! ### Evaluation (R342) -/

/-- Whether a command names a fenced wing that refuses it (R443): queries are answered, and wing-fence and wing-remove
are carried out. -/
def fenceRefuses (c : KCmd) (s : State) (p : Bytes) : Bool :=
  decide (c.cls ≠ .query) && decide (c.code ≠ 0x0A05) && decide (c.code ≠ 0x0203) &&
    (c.names s p).any (fun w => (s.wing w).fenced)

/-- Whether a command would change a wing that is being scrubbed (R415): wing-fence and wing-remove are taken. -/
def scrubRefuses (c : KCmd) (s : State) (p : Bytes) : Bool :=
  decide (c.cls ≠ .query) && decide (c.code ≠ 0x0A05) && decide (c.code ≠ 0x0203) &&
    (c.names s p).any (fun w => (s.wing w).scrub.isSome)

/-- Parse, permission, generations, states and resources, in that order (R342). -/
def kEval (c : KCmd) (k : Packet) (s : State) : KRes :=
  if !(k.clean && decide (k.code = c.code) && c.parse k.payload) then .refuse .malformed []
  else if !c.perm s k.hdr k.payload then .refuse .notPermitted []
  else if !c.gens s k.payload then .refuse .staleGeneration []
  else if fenceRefuses c s k.payload then .refuse .wingFenced []
  else if scrubRefuses c s k.payload then .refuse .wingScrubbing []
  else c.body s k.hdr k.payload

/-- A reply that belongs to no number of the host session: neither cached nor seen by E (R323, R329). -/
def answer (s : State) (k : Packet) (st : Status) (payload : Bytes) : State :=
  pushReply s k.hdr.fn (mkReply s (refOf k.hdr k.code) st true payload)

/-- A first refusal or answer under a number: E moves past it, with the reply cached or not (Table 12.9). -/
def concludeNumber (s : State) (k : Packet) (first cached : Bool) (st : Status) (payload : Bytes) : State :=
  let key := sessKey k.hdr.fn k.hdr.session
  let r := mkReply s (refOf k.hdr k.code) st true payload
  let s := if first then passNumber s key k.hdr.seq (if cached then .cached k.hdr.crc r else .nothing k.code k.hdr.hostTag) else s
  let s := pushReply s k.hdr.fn r
  let s := if st = .malformed then countMalformed (addMalformed s k.hdr.fn) key else s
  if first then afterNumber s key else s

/-- A command executed under its number: deadline (R330), PROBATION (R328), then evaluation (R342). -/
def kExecute (c : KCmd) (k : Packet) (first : Bool) (s : State) : State :=
  let key := sessKey k.hdr.fn k.hdr.session
  let ref := refOf k.hdr k.code
  if k.hdr.deadline ≠ 0 ∧ k.hdr.deadline < s.clock.count then concludeNumber s k first true .expired []
  else if (s.sess key).st = .probation ∧ k.code ≠ 0x0001 ∧ k.code ≠ 0x0004 ∧ k.code ≠ 0x0005 ∧ k.code ≠ 0x0006 then
    concludeNumber s k first true .probation []
  else match kEval c k s with
    | .refuse st payload => concludeNumber s k first (decide (c.cls ≠ .query) || decide (st = .malformed)) st payload
    | .query payload => concludeNumber s k first false .ok payload
    | .nochange payload => concludeNumber s k first false .ok payload
    | .commit f st payload =>
      let s := if first then passNumber s.bump key k.hdr.seq (.nothing k.code k.hdr.hostTag) else s.bump
      let r := mkReply s ref st true payload
      let s := f (pushReply s k.hdr.fn r)
      let x := s.sess key
      let s := if first && decide (x.gen = k.hdr.sgen) && decide (x.st ≠ .closed) then
          s.modSess key (fun x => { x with marks := tput x.marks k.hdr.seq (.cached k.hdr.crc r) }) else s
      c.follow k.hdr k.payload (afterNumber s key)
    | .keep f st payload => concludeNumber (f s) k first (decide (c.cls ≠ .query) || decide (st = .malformed)) st payload
    | .later f => afterNumber (f (if first then passNumber s key k.hdr.seq (.nothing k.code k.hdr.hostTag) else s)) key
    | .long f st payload done =>
      if 64 ≤ (s.sess key).longs then concludeNumber s k first true .sessionBusy []
      else
        let s := if first then passNumber s.bump key k.hdr.seq (.nothing k.code k.hdr.hostTag) else s.bump
        let r := mkReply s ref st false payload
        let s := s.modSess key (fun x => { x with longs := x.longs + 1, marks := tput x.marks k.hdr.seq (.executing k.hdr.crc (some r)) })
        let s := f (pushReply { s with led := { s.led with longs := s.led.longs ++ [ref] } } k.hdr.fn r)
        let s := match done with
          | some g => g s
          | none => s
        afterNumber s key

/-- A command under the sequence handling of Table 12.9. -/
def kSequence (c : KCmd) (k : Packet) (s : State) : State :=
  let key := sessKey k.hdr.fn k.hdr.session
  let x := s.sess key
  let seq := k.hdr.seq
  if seq = x.next then kExecute c k true s
  else if x.next + 63 < seq then answer s k .seqOutOfWindow []
  else if x.next < seq then
    match tget x.held seq with
    | some pk => if pk.hdr.crc = k.hdr.crc then s else answer s k .seqReused []
    | none =>
      if 64 ≤ x.held.length then answer s k .gapOverflow []
      else s.modSess key (fun x => { x with held := tput x.held seq (some k) })
  else if seq + 64 < x.next then answer s k .seqTooOld []
  else match tget x.marks seq with
    | .cached crc r => if crc = k.hdr.crc then pushReply s k.hdr.fn { r with replayed := true } else answer s k .seqReused []
    | .executing crc _ => if crc = k.hdr.crc then s else answer s k .seqReused []
    | .skipped => answer s k .seqSkipped []
    | .nothing _ _ => kExecute c k false s
    | .absent => answer s k .seqTooOld []

/-- A command that names a host session: the tests of R329, the lease renewed at its stamp (R324), then its number. -/
def kSession (c : KCmd) (k : Packet) (s : State) : State :=
  let key := sessKey k.hdr.fn k.hdr.session
  let x := s.sess key
  if x.st = .closed then answer s k .sessionUnknown []
  else if x.gen ≠ k.hdr.sgen then answer s k .staleGeneration []
  else if x.st = .lapsed then answer s k .sessionLapsed []
  else kSequence c k (s.modSess key (fun x => { x with leaseEnd := k.hdr.stamp + x.lease }))

/-- A session-less command (R323): a repeated session-open is answered by replaying its reply. -/
def kSessionless (c : KCmd) (k : Packet) (s : State) : State :=
  let ref := refOf k.hdr k.code
  match if c.code = 0x0002 then (s.fn k.hdr.fn).opens.find? (fun o => decide (o.hostTag = k.hdr.hostTag)) else none with
  | some o => pushReply s k.hdr.fn { o.reply with replayed := true }
  | none =>
    if k.hdr.deadline ≠ 0 ∧ k.hdr.deadline < s.clock.count then answer s k .expired []
    else match kEval c k s with
      | .refuse st payload =>
        let s := answer s k st payload
        if st = .malformed then addMalformed s k.hdr.fn else s
      | .query payload => answer s k .ok payload
      | .nochange payload => answer s k .ok payload
      | .commit f st payload =>
        let s := f s.bump
        let r := mkReply s ref st true payload
        let s := if c.code = 0x0002 then
            s.modFn k.hdr.fn (fun x => { x with opens := (({ hostTag := k.hdr.hostTag, reply := r } : OpenReply) :: x.opens).take 16 }) else s
        c.follow k.hdr k.payload (pushReply s k.hdr.fn r)
      | .keep f st payload => answer (f s) k st payload
      | .later f => f s
      | .long f st payload _ => pushReply (f s.bump) k.hdr.fn (mkReply s.bump ref st false payload)

/-- A command in minimal mode (R344): nothing is committed, and replies carry the durable version (R323). -/
def kMinimal (c : KCmd) (k : Packet) (s : State) : State :=
  let reply (st : Status) (payload : Bytes) : State :=
    pushReply s k.hdr.fn { mkReply s (refOf k.hdr k.code) st true payload with version := s.durable.version }
  if !c.inMinimal || decide (k.code ≠ c.code) then reply .minimalMode []
  else if ¬(k.hdr.session = 0xFFFFFFFF ∧ k.hdr.sgen = 0 ∧ k.hdr.seq = 0) then
    addMalformed (reply .malformed []) k.hdr.fn
  else if k.hdr.deadline ≠ 0 ∧ k.hdr.deadline < s.clock.count then reply .expired []
  else match kEval c k s with
    | .refuse st payload => if st = .malformed then addMalformed (reply st payload) k.hdr.fn else reply st payload
    | .query payload => reply .ok payload
    | .nochange payload => reply .ok payload
    | .keep f st payload => pushReply (f s) k.hdr.fn { mkReply s (refOf k.hdr k.code) st true payload with version := s.durable.version }
    | .later f => f s
    | .commit _ _ _ => reply .minimalMode []
    | .long _ _ _ _ => reply .minimalMode []

/-- A taken command, by its kind of session (R323). -/
def kTake (c : KCmd) (k : Packet) (s : State) : State :=
  if s.power.minimal then kMinimal c k s
  else if c.sessionless then
    if k.hdr.session = 0xFFFFFFFF ∧ k.hdr.sgen = 0 ∧ k.hdr.seq = 0 then kSessionless c k s
    else addMalformed (answer s k .malformed []) k.hdr.fn
  else if 15 < k.hdr.session ∨ k.hdr.seq = 0 then addMalformed (answer s k .malformed []) k.hdr.fn
  else kSession c k s

/-- A command row: it acts only where the keeper's next command is this one. -/
def kcp (c : KCmd) (h : CmdHdr) (p : Bytes) (s : State) : State :=
  match nextPacket s with
  | none => s
  | some k =>
    if k.hdr = h ∧ k.payload = p ∧ k.code = c.code then kTake c k { s with stamped := s.stamped.erase k } else s

/-- The no-op row, which also stands for a command of an unknown code (R327). -/
def kcpNoOp (c : KCmd) (h : CmdHdr) (p : Bytes) (s : State) : State :=
  match nextPacket s with
  | none => s
  | some k =>
    if k.hdr = h ∧ k.payload = p ∧ (k.code = c.code ∨ !knownCode k.code) then
      kTake c k { s with stamped := s.stamped.erase k }
    else s

/-! ### Permission and generations of what a payload names -/

/-- Whether VF0 issued a command. -/
def fromVf0 (_ : State) (h : CmdHdr) (_ : Bytes) : Bool := decide (h.fn = 0)

/-- Whether a function may name a wing (R341). A wing that does not exist is the module's. -/
def mayNameWing (s : State) (fn w : Nat) : Bool := mayActFor s fn (wingOwner (s.wing w))

/-- Whether a wing's generation is current (R339). -/
def wingCurrent (s : State) (w gen : Nat) : Bool :=
  (s.wing w).live && (s.wing w).removing.isNone && decide ((s.wing w).gen = gen ∧ gen ≠ 0)

/-- What a read of host memory gave a command of a function (R375): it fails too where the function is not ENABLED with
Bus Master Enable set, or the link does not carry CXL.cache. -/
def hostBytes (s : State) (fn : Nat) : HostRead → Option Bytes
  | .failed => none
  | .data b => if (s.fn fn).st = .enabled ∧ (s.fn fn).bme ∧ s.link.up ∧ s.link.cache then some b else none

/-- A payload host address is a multiple of 64 bytes (R375). -/
def lineAligned (p : Bytes) (off : Nat) : Bool := decide (field p off 8 % 64 = 0)

/-- Whether a context's generation is current. -/
def ctxCurrent (s : State) (w c gen : Nat) : Bool := (s.ctx w c).live && decide ((s.ctx w c).gen = gen ∧ gen ≠ 0)

/-- Whether an object's generation is current. -/
def objCurrent (s : State) (i gen : Nat) : Bool := (s.obj i).live && decide ((s.obj i).gen = gen ∧ gen ≠ 0)

end Sys2Proof.Machine
end

