-- ==== Sys2Proof/Machine/Choice.lean ====
section
/-! DEFINITION. The keeper's choice of a wing's next context (R248, R249, R262). -/

namespace Sys2Proof.Machine

open Sys2Proof

/-- A member of a list of numbers chosen by a rotating pointer of N values (R262): the one at the smallest distance. -/
def rotate (pointer n : Nat) (l : List Nat) : Option Nat :=
  l.foldl (fun best i =>
    match best with
    | none => some i
    | some b => if (i + n - pointer % n) % n < (b + n - pointer % n) % n then some i else best) none

/-- Resident contexts of a wing that are RUNNING or RUNNABLE, of a class, by number. -/
def candidates (x : Wing) (latency : Ctx → Bool) (cls : Bool) : List Nat :=
  (x.contexts.filter (fun c => c.2.live && c.2.resident && decide (c.2.st = .running ∨ c.2.st = .runnable) && decide (latency c.2 = cls))).map (·.1)

/-- The choice among one class: the running context while its run lasts, else the pointer's winner, which the pointer moves
past. -/
def chooseIn (x : Wing) (latency : Ctx → Bool) (runLen : Ctx → Nat) (cls : Bool) : Option (Nat × Wing) :=
  let l := candidates x latency cls
  let keeps := match x.running with
    | some r => if l.contains r && decide ((tget x.contexts r).stagesRun < runLen (tget x.contexts r)) then some r else none
    | none => none
  match keeps with
  | some r => some (r, x)
  | none =>
    (rotate (if cls then x.ptrLatency else x.ptrBest) 256 l).map (fun c =>
      (c, if cls then { x with ptrLatency := (c + 1) % 256 } else { x with ptrBest := (c + 1) % 256 }))

/-- The next context of a wing and the wing with its pointers moved (R249): latency-critical contexts before best-effort
ones; none leaves the wing IDLE. The parameters of a choice are those in force (R243). -/
def choose (x : Wing) (latency : Ctx → Bool) (runLen : Ctx → Nat) : Option Nat × Wing :=
  match (chooseIn x latency runLen true).orElse (fun _ => chooseIn x latency runLen false) with
  | some (c, y) => (some c, y)
  | none => (none, x)

/-- Whether a stage of a wing may start (R240, R241, R251, R265, R425, R443). -/
def mayStage (s : State) (x : Wing) : Bool :=
  x.live && decide (s.clock.st ≠ .unset) && x.removing.isNone && !x.fenced && x.scrub.isNone && x.reassign.isNone && !x.mustScrub && !x.switching

/-- The next-context register written before a boundary, with the parameters that stand at that boundary (R243, R248). -/
def writeRegister (s : State) (w : Nat) : State :=
  let x := s.wing w
  if mayStage s x && s.keeper.up then
    let (c, y) := choose x (·.nextLatency) (·.nextRunLen)
    s.modWing w (fun _ => { y with nextCtx := c, nextFresh := true })
  else s

end Sys2Proof.Machine
end

