-- ==== Sys2Proof/Machine/Tally.lean ====
section
/-! DEFINITION. The tally (R264, R364): what each party is charged, milepost by milepost and pass by pass, and the two
tally commands. -/

namespace Sys2Proof.Machine

open Sys2Proof

/-- A count that stops at 2^64 − 1 (R122, R364). -/
def satAdd (a b : Nat) : Nat := Nat.min (a + b) (2 ^ 64 - 1)

/-- A charge to a party's counts in the current period (R364); with no period open, none is made (Table 15.1). -/
def charge (s : State) (party : Nat) (c : Counts) : State :=
  if s.led.tally.period = 0 then s else
  s.modLed (fun l => { l with tally := { l.tally with cur := tmod l.tally.cur party (fun x =>
    { tokens := satAdd x.tokens c.tokens, rows := satAdd x.rows c.rows, tileStages := satAdd x.tileStages c.tileStages
      bytes := satAdd x.bytes c.bytes, held := satAdd x.held c.held, reload := satAdd x.reload c.reload }) } })

/-- Rows by party, in ascending party number. -/
def rowsByParty (rows : List PassRow) : Tbl Nat := rows.foldl (fun t r => tmod t r.party (· + 1)) []

/-- A total split among parties in proportion to their rows, rounded down, the remainder to the lowest party number
(R264). -/
def splitShares (total : Nat) (shares : Tbl Nat) : List (Nat × Nat) :=
  let m := shares.foldl (fun a p => a + p.2) 0
  let parts := shares.map (fun p => (p.1, total * p.2 / m))
  let rest := total - parts.foldl (fun a p => a + p.2) 0
  match parts with
  | [] => []
  | (p, v) :: l => (p, v + rest) :: l

/-- What a wing is charged for a milepost, in units of 2^-16: mileposts held, and tile-stages of T_w tiles at 1 ÷ L
stage a milepost (R264). -/
def chargeWing (n : Nat) (s : State) (w : Nat) : State :=
  let x := s.wing w
  let held := n * 2 ^ 16
  let stages := n * 2 ^ 16 * popCount 128 x.tiles / Nat.max x.stage 1
  if x.sealed then charge s x.party { (default : Counts) with held := held, tileStages := stages }
  else match x.running with
  | none => s
  | some c =>
    match (tget x.contexts c).pass with
    | none => s
    | some p =>
      let shares := rowsByParty p.rows
      let s := (splitShares held shares).foldl (fun s q => charge s q.1 { (default : Counts) with held := q.2 }) s
      (splitShares stages shares).foldl (fun s q => charge s q.1 { (default : Counts) with tileStages := q.2 }) s

/-- Mileposts charged to the parties that hold wings in them (R264). -/
def chargeMileposts (s : State) (n : Nat) : State := if s.power.ready then s.liveWings.foldl (chargeWing n) s else s

/-- A pass's rows charged to their parties (R264). -/
def chargeRows (s : State) (rows : List PassRow) : State :=
  (rowsByParty rows).foldl (fun s q => charge s q.1 { (default : Counts) with rows := q.2 }) s

/-- Bytes moved for a party, or for the module, which is charged nothing. -/
def chargeBytes (s : State) (party : Option Nat) (n : Nat) : State :=
  match party with
  | some p => charge s p { (default : Counts) with bytes := n }
  | none => s

/-- tally-read (R364). Before any close there is no closed period: PERIOD_NONE. -/
def tallyReadCmd : KCmd :=
  { code := 0x0B01, cls := .query
    parse := fun p => fixedLayout 3 [] p && decide (field p 0 2 < 4096) && decide (field p 2 1 < 2)
    perm := fun s h p => mayActFor s h.fn (some (field p 0 2))
    body := fun s _ p =>
      let t := s.led.tally
      let reply (number start stop : Nat) (c : Counts) : KRes :=
        .query (leBytes 8 number ++ leBytes 8 start ++ leBytes 8 stop ++ leBytes 8 c.tokens ++ leBytes 8 c.rows
          ++ leBytes 8 c.tileStages ++ leBytes 8 c.bytes ++ leBytes 8 c.held ++ leBytes 8 c.reload)
      if field p 2 1 = 0 ∧ t.period = 0 then .refuse .periodNone []
      else if field p 2 1 = 0 then reply t.period t.start 0 (tget t.cur (field p 0 2))
      else match t.last with
        | none => .refuse .periodNone []
        | some (number, start, stop) => reply number start stop (tget t.lastCounts (field p 0 2)) }

/-- TALLY_READ. -/
def execTallyRead (h : CmdHdr) (p : Bytes) (s : State) : Host.Outcome State Fault Refusal := .next (kcp tallyReadCmd h p s)

/-- tally-close (R364): the current period closes for every party and a new one opens. -/
def tallyCloseCmd : KCmd :=
  { code := 0x0B02, cls := .commit, parse := fun p => decide (p = []), perm := fromVf0
    body := fun s _ _ =>
      if s.led.tally.period = 0 then .refuse .periodNone []
      else .commit (fun s => s.modLed (fun l =>
        let t := l.tally
        { l with tally := { period := t.period + 1, start := l.version + 1, cur := []
                            last := some (t.period, t.start, l.version), lastCounts := t.cur } })) .ok
        (leBytes 8 s.led.tally.period) }

/-- TALLY_CLOSE. -/
def execTallyClose (h : CmdHdr) (p : Bytes) (s : State) : Host.Outcome State Fault Refusal := .next (kcp tallyCloseCmd h p s)

end Sys2Proof.Machine
end

