-- ==== Sys2Proof/Machine/Time.lean ====
section
/-! DEFINITION. Milepost time and the timetable (chapter 2): the local edge, the count's adoption, seed, step and hold,
the entries that fall due and their order (R32), and the time commands. Losing MPCLK stands with the fabric, which it
withdraws from. -/

namespace Sys2Proof.Machine

open Sys2Proof

/-! ### The timetable -/

/-- A class's rank (Table 2.2). -/
def TtClass.rank : TtClass → Nat
  | .rollCall => 1 | .failover => 2 | .fence => 3 | .stageEnd => 4 | .scrub => 5 | .stageStart => 6 | .cellarSlot => 7
  | .collective => 8 | .ticketExpiry => 9 | .digestSweep => 10

/-- Classes the keeper dispatches (Table 2.2). -/
def keeperClass (c : TtClass) : Bool := decide (c = .failover ∨ c = .ticketExpiry ∨ c = .digestSweep)

/-- Cross-module classes (Table 2.2). -/
def crossClass (c : TtClass) : Bool := decide (c = .rollCall ∨ c = .failover ∨ c = .collective)

/-- The order of entries of one milepost (R32): rank, then wing with no wing first; sorting keeps the order in which
they were set. -/
def entryBefore (a b : TtEntry) : Bool :=
  if a.cls.rank ≠ b.cls.rank then decide (a.cls.rank < b.cls.rank)
  else match a.wing, b.wing with
    | none, some _ => true
    | some v, some w => decide (v < w)
    | _, none => false

/-- Whether cross-module classes act (R26): not while ADRIFT, nor in a RELOCK that came from ADRIFT. -/
def crossActs (s : State) : Bool :=
  match s.clock.st with
  | .unset => false
  | .adrift => false
  | .relock => !s.clock.fromAdrift
  | _ => true

/-- Whether a class acts in the present time state (Table 2.1, R30). -/
def classActs (s : State) (c : TtClass) : Bool :=
  decide (c = .fence) || (decide (s.clock.st ≠ .unset) && (!crossClass c || crossActs s))

/-- Whether a wing's fence holds an entry (R443). -/
def fenceHolds (s : State) (e : TtEntry) : Bool :=
  decide (e.cls ≠ .fence ∧ e.cls ≠ .scrub) && (match e.wing with | some w => (s.wing w).fenced | none => false)

/-- Tickets of a wing that may still complete (R255, R257). -/
def openTickets (s : State) (w : Nat) : List (Nat × Ticket) :=
  s.tickets.filter (fun p => p.2.live && decide (p.2.wing = w ∧ (p.2.st = .open_ ∨ p.2.st = .parked)))

/-- Whether a milepost is a boundary of a wing (R247). -/
def atBoundary (x : Wing) (m : Nat) : Bool :=
  x.live && decide (x.stage ≠ 0) && (if x.boundary = 0 then decide (m % x.stage = 0) else decide (m = x.boundary))

/-- Entries that recur by the keeper's own schedules and fall on a milepost. Before READY and in minimal mode none does: no stage
starts and no roll-call entry is sent (R265, R467). -/
def recurring (s : State) (m : Nat) : List TtEntry :=
  if !s.power.ready then []
  else
  let e (c : TtClass) (w : Option Nat) : TtEntry := { mp := m, cls := c, wing := w, arg := 0, late := false }
  let ws := s.liveWings
  (if m % s.led.fab.interval = 0 then [e .rollCall none] else [])
    ++ (ws.filter (fun w => atBoundary (s.wing w) m)).flatMap (fun w =>
          [e .stageEnd (some w), e .stageStart (some w)] ++ (if (s.wing w).mustScrub then [e .scrub (some w)] else []))
    ++ (if m % 1024 = 0 then [e .cellarSlot none] else [])
    ++ (ws.filter (fun w => (openTickets s w).any (fun p => decide (p.2.deadline ≤ m)))).map (fun w => e .ticketExpiry (some w))
    ++ (if s.cellar.nextVisit ≤ m ∧ !(s.tt.due.any (fun e => decide (e.cls = TtClass.digestSweep))) then [e .digestSweep none] else [])

/-- Whether a set entry acts at a milepost. -/
def actsAt (s : State) (m : Nat) (e : TtEntry) : Bool := decide (e.mp ≤ m) && classActs s e.cls && !fenceHolds s e

/-- The entries that act at a milepost, in the order of R32. -/
def dueAt (s : State) (m : Nat) : List TtEntry :=
  sortBy entryBefore (s.tt.entries.filter (actsAt s m)
    ++ (recurring s m).filter (fun e => classActs s e.cls && !fenceHolds s e))

/-- One milepost's entries brought to act (R29, R32). -/
def fireMilepost (s : State) (m : Nat) : State :=
  { s with tt := { s.tt with entries := s.tt.entries.filter (fun e => !actsAt s m e), due := s.tt.due ++ dueAt s m } }

/-- Keeper-dispatched entries left from before the edge are late: each counts once (R31). -/
def markLate (s : State) : State :=
  let late := s.tt.due.filter (fun e => keeperClass e.cls && !e.late)
  { s with tt := { s.tt with late := s.tt.late + late.length
                             due := s.tt.due.map (fun e => if keeperClass e.cls then { e with late := true } else e) } }

/-- Entries in use toward R30: those set, and one for each recurring entry (R224, R247, R257, R34, R225). -/
def entriesInUse (s : State) : Nat :=
  s.tt.entries.length +
    (if s.clock.st = .unset then 0
     else 3 + s.liveWings.length + (s.liveWings.filter (fun w => decide (openTickets s w ≠ []))).length)

/-- Why an entry cannot be set (R30), for an entry other than FENCE. -/
def entryRefused (s : State) (stamp mp : Nat) : Option Status :=
  if s.clock.st = .unset then some .timeUnset
  else if mp < stamp + 2 then some .tooLate
  else if 4096 ≤ entriesInUse s then some .timetableFull
  else none

/-- The state with an entry set. -/
def setEntry (s : State) (e : TtEntry) : State := { s with tt := { s.tt with entries := s.tt.entries ++ [e] } }

/-- A due entry taken to act, if it is that entry's turn: every entry before it is late, or waits for a keeper that does
not run (R31, R32). -/
def takeDue (s : State) (c : TtClass) (w : Option Nat) (arg : Nat) : Option State :=
  match s.tt.due.find? (fun e => decide (e.cls = c ∧ e.wing = w ∧ e.arg = arg)) with
  | none => none
  | some e =>
    let before := s.tt.due.takeWhile (fun x => decide (x ≠ e))
    if before.all (fun x => x.late || (keeperClass x.cls && !s.keeper.up)) && (!keeperClass c || s.keeper.up) then
      some { s with tt := { s.tt with due := s.tt.due.erase e } }
    else none

/-! ### Status pages (R386) -/

/-- A function's status register (Table 14.15), less BME's neighbours that are reserved. -/
def fnStatus (s : State) (i : Nat) : Nat :=
  let f := s.fn i
  (match f.st with | .absent => 0 | .disabled => 0 | .enabled => 1 | .resetting => 2)
    + (if f.stopped then 4 else 0) + (if s.power.minimal then 8 else 0) + (if f.window then 16 else 0)
    + (if f.cfgBad then 32 else 0) + (if f.bme then 64 else 0)
    + 2 ^ 16 * ((List.range 16).filter (fun n => decide ((tget s.led.sessions (i * 16 + n)).st ≠ .closed))).length

/-- The fields of a function's status page from offset 0x018 (Table 14.17). -/
def fnFields (s : State) (i : Nat) : List Nat :=
  let f := s.fn i
  let c := f.counters
  let bound := (s.led.binds.filter (fun p => decide (p.2 = some i))).map (·.1)
  [f.gen, fnStatus s i, f.cmdProd, f.cmdHead, f.replyTail, f.replyHead, f.noticeTail, f.noticeHead
  , fnStatus s i / 2 ^ 16, if f.stopped then 1 else 0, f.noticeSeq + 1, f.stale, c.corrected, c.uncorrectable
  , c.headerFailures, c.malformed, c.internalCorrected, c.internalUncorrectable, c.doorbellFaults, bound.length, listMask bound]

/-- The 16 counted values of a stall record (Table 8.7), in table order. -/
def stallList (x : Stall) : List Nat :=
  (List.range 5).flatMap (fun i => [tget x.time i, tget x.events i])
    ++ [x.fetched, x.refetched, x.reloadsLoft, x.reloadsHost, x.reloadBytes, x.ahead, x.aheadLow]

/-- The fields of a wing's status page from offset 0x018 (Table 14.18). A page of no wing holds gen 0, status 0xFF and 0
elsewhere; in minimal mode it reads 0 (R370). -/
def wingFields (s : State) (w : Nat) : List Nat :=
  let x := s.wing w
  if s.power.minimal then []
  else if !x.live then [0, 0xFF]
  else
    let ctxs := x.contexts.filter (fun p => p.2.live)
    [x.gen, wingStatus s w, if x.sealed then 1 else 0, x.base, (ctxs.filter (fun p => p.2.resident)).length
    , if x.sealed then x.party else 0xFFFF, ctxs.length, popCount 128 x.tiles, popCount 512 x.pcs, x.window.slots
    , x.running.getD 0xFFFFFFFF] ++ stallList x.stall
    ++ [x.counters.denied, x.counters.bounds, x.counters.late, x.counters.swapsOut, x.counters.swapsIn, x.counters.swapBytes
       , x.stageStart]

/-- A page rewritten where its fields have changed: the sequence goes odd and even again (R386). -/
def rewritePage (s : State) (p : Page) (fields : List Nat) : Page :=
  if p.fields = fields then p
  else { seq := p.seq + 2, milepost := s.clock.count, version := s.led.version, fields := fields }

/-- Every status page whose fields changed, rewritten (R386). -/
def rewritePages (s : State) : State :=
  { s with
    fns := s.fns.foldl (fun t p => tputD Fn.blank t p.1 { p.2 with page := rewritePage s p.2.page (fnFields s p.1) }) s.fns
    wingPages := (List.range 16).foldl (fun t w => tput t w (rewritePage s (tget t w) (wingFields s w))) s.wingPages }

/-- Vectors raised again for packets that completed after they were last raised (R316). -/
def reraise (s : State) : State :=
  { s with fns := s.fns.foldl (fun t p =>
      tputD Fn.blank t p.1 { p.2 with raised := p.2.again, again := 0 }) s.fns }

/-! ### Stall time (R199 to R201) -/

/-- How a milepost's time is shared among causes of stall: for each cause its ns and the stalls that began under it. The
model holds no waits within a milepost, so the shares are free values (log entry 59): together at most 1,004 ns, the
longest a milepost lasts while it is disciplined (R15), and at most one beginning a cycle of the 2.4 GHz clock. -/
def stallShares : Nat → Nat → Nat → List (Nat × Nat)
  | 0, _, _ => []
  | k + 1, n, left =>
    let ns := Config.freeNat n % (left + 1)
    (ns, Config.freeNat (n + 1) % 2410) :: stallShares k (n + 2) (left - ns)

/-- Counted values that each gain an amount, by number. -/
def gained (t : Tbl Nat) (l : List Nat) : Tbl Nat :=
  (l.zip (List.range l.length)).foldl (fun u p => tmod u p.2 (fun v => (v + p.1) % 2 ^ 64)) t

/-- A milepost's stalls of a wing, which has some only while a stage of it runs with an admitted pass (R199, R201). -/
def stallWing (s : State) (w : Nat) : State :=
  let x := s.wing w
  match x.running.bind (fun c => (tget x.contexts c).pass) with
  | none => s
  | some _ =>
    let l := stallShares 5 s.free 1004
    let s := s.modWing w (fun x => { x with stall := { x.stall with
      time := gained x.stall.time (l.map (·.1)), events := gained x.stall.events (l.map (·.2)) } })
    { s with free := s.free + 10 }

/-- Every wing's stalls of a milepost. -/
def countStalls (s : State) : State := s.liveWings.foldl stallWing s

/-! ### The local edge -/

/-- The phase offset one milepost later: the local edge moves toward the nearest MPCLK edge by at most 4 ns while the
module is LOCKED or in RELOCK (R15, R28). -/
def disciplined (c : Clock) : Int :=
  if c.qualified ∧ (c.st = .locked ∨ c.st = .relock) then
    if c.offset > 4 then c.offset - 4 else if c.offset < -4 then c.offset + 4 else 0
  else c.offset

/-- LOCKED entered (R20, R21, R28): TIME_HOLDOVER is clear and TIME_LOCKED is sent. -/
def enterLocked (s : State) : State :=
  notify (s.modClock (fun c =>
    { c with st := .locked, holdoverFlag := false, everLocked := true, lastGood := c.count, slewed := false
             holdFor := 0, lockNext := false, seed := none, fromAdrift := false })) .timeLocked {} []

/-- The stamp of R20: the one most peers report, the larger of two reported equally. -/
def adoptedStamp (l : List Heard) : Option Nat :=
  (l.foldl (fun (best : Option (Nat × Nat)) h =>
    let n := (l.filter (fun g => decide (g.stamp = h.stamp))).length
    match best with
    | none => some (n, h.stamp)
    | some (m, st) => if m < n ∨ (m = n ∧ st < h.stamp) then some (n, h.stamp) else some (m, st)) none).map (·.2)

/-- A milepost moved with a count that is replaced in UNSET. -/
def shifted (d : Int) (m : Nat) : Nat := ((m : Int) + d).toNat

/-- Times that wait on the local count move with it when it is replaced (R29): leases, holds, stamps and arrivals keep
their distances (DEDUCED, log entry 18). -/
def shiftTimes (s : State) (d : Int) : State :=
  { s with
    stamped := s.stamped.map (fun k => { k with hdr := { k.hdr with stamp := shifted d k.hdr.stamp } })
    fns := s.fns.foldl (fun t p => tputD Fn.blank t p.1
      { p.2 with words := p.2.words.map (fun w => { w with at_ := shifted d w.at_ }), failures := p.2.failures.map (shifted d) }) s.fns
    led := { s.led with sessions := s.led.sessions.foldl (fun t p => tput t p.1
      { p.2 with leaseEnd := shifted d p.2.leaseEnd, lapsedAt := shifted d p.2.lapsedAt
                 lastMalformed := shifted d p.2.lastMalformed, malformed := p.2.malformed.map (shifted d)
                 held := p.2.held.foldl (fun u q => tput u q.1 (q.2.map (fun k =>
                   { k with hdr := { k.hdr with stamp := shifted d k.hdr.stamp } }))) p.2.held }) s.led.sessions } }

/-- The count replaced in UNSET, by adoption or seed (R20, R21, R29): FENCE entries due at this edge act at it. -/
def replaceCount (s : State) (n : Nat) : State :=
  let old := s.clock.count + 1
  let s := fireMilepost s old
  let s := shiftTimes s ((n : Int) - (old : Int))
  enterLocked (s.modClock (fun c => { c with count := n }))

/-- Skipped mileposts fire milepost by milepost, the stepping edge's own last (R29). -/
def fireRange : Nat → Nat → State → State
  | 0, _, s => s
  | n + 1, m, s => fireRange n (m + 1) (fireMilepost s m)

/-- An edge at which the count rises by one or, after a step, by more (R15, R28, R29); the mileposts are charged (R264). -/
def advanceCount (s : State) (k : Nat) : State :=
  let old := s.clock.count
  let s := chargeMileposts (s.modClock (fun c => { c with count := old + 1 + k })) (k + 1)
  fireRange (k + 1) (old + 1) s

/-- The check of R28 made at the edge after the first roll call with a LOCKED peer: behind, the count steps forward;
ahead, it is held. -/
def relockEdge (s : State) (stamp : Nat) : State :=
  if s.clock.count ≤ stamp then enterLocked (advanceCount s (stamp - s.clock.count))
  else
    let k := s.clock.count - stamp
    if k = 1 then enterLocked s
    else s.modClock (fun c => { c with holdFor := k - 1 })

/-- What the count does at a local edge. Without a qualified MPCLK no module leaves UNSET (R23): a seed whose MPCLK was
lost before the edge is dropped (DEDUCED, log entry 53). -/
def countEdge (s : State) : State :=
  let c := s.clock
  match c.st with
  | .unset =>
    if !c.qualified then advanceCount (s.modClock (fun c => { c with seed := none })) 0
    else match c.seed, adoptedStamp c.heard with
    | some n, _ => replaceCount s n
    | none, some m => replaceCount s (m + 1)
    | none, none => advanceCount s 0
  | .relock =>
    if 1 < c.holdFor then s.modClock (fun c => { c with holdFor := c.holdFor - 1 })
    else if c.holdFor = 1 then enterLocked (s.modClock (fun c => { c with holdFor := 0 }))
    else if c.lockNext then enterLocked (advanceCount s 0)
    else match adoptedStamp c.heard with
      | some m => if c.slewed then relockEdge s m else advanceCount s 0
      | none => advanceCount s 0
  | _ => advanceCount s 0

/-- The registers of wings whose boundary is the next edge, written at the edge before it (R248). -/
def writeRegisters (s : State) : State :=
  (s.liveWings.filter (fun w => atBoundary (s.wing w) (s.clock.count + 1))).foldl writeRegister s

/-- Everything a local milepost edge does: the count, the entries that fall due, lateness, MP_ECHO, the discipline of the
next milepost, the milepost's stalls, vectors raised again and pages rewritten. -/
def localEdge (s : State) : State :=
  if !s.power.alwaysOn then s
  else
    let s := writeRegisters (countEdge (markLate s))
    let s := s.modClock (fun c =>
      { c with heard := [], echo := true, offset := if c.edgeSeen then disciplined c else 0, edgeSeen := false })
    rewritePages (reraise (countStalls s))

/-- LOCAL_MILEPOST_EDGE. -/
def execLocalMilepostEdge (s : State) : Host.Outcome State Fault Refusal := .next (localEdge s)

/-- Whether the next local edge adopts the count (R20). -/
def adoptionPending (s : State) : Bool :=
  s.power.alwaysOn && decide (s.clock.st = .unset) && s.clock.qualified && s.clock.seed.isNone && decide (s.clock.heard ≠ [])

/-- COUNT_ADOPT: the local edge at which a module in UNSET adopts the count it has heard (R20). -/
def execCountAdopt (s : State) : Host.Outcome State Fault Refusal := .next (if adoptionPending s then localEdge s else s)

/-- MPCLK_EDGE: a rising edge `dt` ns after the previous qualified one (R15). One that comes in less than 900 ns is a
glitch. Any edge gives the offset of R17. In RELOCK a change of phase restarts the slew. -/
def mpclkEdge (dt : Nat) (offset : Int) (s : State) : State :=
  if !s.power.alwaysOn then s
  else s.modClock (fun c =>
    let c := { c with offset := offset, edgeSeen := true }
    if dt < 900 then { c with glitches := c.glitches + 1 }
    else
      let good := decide (980 ≤ dt ∧ dt ≤ 1020)
      { c with goodRun := if good then Nat.min (c.goodRun + 1) 64 else 0
               badRun := if good then 0 else c.badRun + 1
               lastGood := if good ∧ c.qualified ∧ c.st = .locked then c.count else c.lastGood
               slewed := c.slewed && (decide (c.st ≠ .relock) || decide (offset = 0)) })

/-- MPCLK_EDGE. -/
def execMpclkEdge (dt : Nat) (offset : Int) (s : State) : Host.Outcome State Fault Refusal := .next (mpclkEdge dt offset s)

/-- MPCLK_REQUALIFY: after 64 consecutive good periods (R28). HOLDOVER and ADRIFT go to RELOCK and slew; UNSET stays. -/
def mpclkRequalify (s : State) : State :=
  if s.power.alwaysOn && !s.clock.qualified && decide (64 ≤ s.clock.goodRun) then
    s.modClock (fun c =>
      let c := { c with qualified := true, badRun := 0 }
      match c.st with
      | .holdover => { c with st := .relock, slewed := false, fromAdrift := false }
      | .adrift => { c with st := .relock, slewed := false, fromAdrift := true }
      | _ => c)
  else s

/-- MPCLK_REQUALIFY. -/
def execMpclkRequalify (s : State) : Host.Outcome State Fault Refusal := .next (mpclkRequalify s)

/-- SLEW_DONE: the offset has reached 0 and the slew of RELOCK ends (R28). -/
def slewDone (s : State) : State :=
  if s.clock.st = .relock ∧ s.clock.offset = 0 ∧ !s.clock.slewed then
    s.modClock (fun c => { c with slewed := true, slewAt := c.count })
  else s

/-- SLEW_DONE. -/
def execSlewDone (s : State) : Host.Outcome State Fault Refusal := .next (slewDone s)

/-- TIME_UNSET_REMINDER: in UNSET, at each multiple of 1,000,000 of the local count (R23). -/
def timeUnsetReminder (s : State) : State :=
  if s.clock.st = .unset ∧ s.power.ready ∧ s.clock.count % 1000000 = 0 then notify s .timeUnset {} [] else s

/-- TIME_UNSET_REMINDER. -/
def execTimeUnsetReminder (s : State) : Host.Outcome State Fault Refusal := .next (timeUnsetReminder s)

/-! ### Commands and reads -/

/-- time-seed (R21): accepted in UNSET with a qualified MPCLK and no frame heard from a LOCKED peer. -/
def timeSeedCmd : KCmd :=
  { code := 0x0101, cls := .commit, parse := fun p => fixedLayout 8 [] p, perm := fromVf0
    body := fun s _ p =>
      if s.clock.st = .unset ∧ s.clock.qualified ∧ !s.clock.lockedHeard then
        .commit (fun s => s.modClock (fun c => { c with seed := some (field p 0 8) })) .ok []
      else .refuse .timeRefused [] }

/-- TIME_SEED. -/
def execTimeSeed (h : CmdHdr) (p : Bytes) (s : State) : Host.Outcome State Fault Refusal := .next (kcp timeSeedCmd h p s)

/-- time-read. -/
def timeReadCmd : KCmd :=
  { code := 0x0102, cls := .query, inMinimal := true, parse := fun p => decide (p = [])
    body := fun s _ _ =>
      .query (leBytes 8 s.clock.count ++ leBytes 4 s.clock.st.value ++ leBytes 4 (uncertainty s)
        ++ leBytes 8 (unsigned 32 s.clock.offset) ++ leBytes 8 s.clock.glitches ++ leBytes 8 s.tt.late
        ++ leBytes 2 (entriesInUse s)) }

/-- TIME_READ. -/
def execTimeRead (h : CmdHdr) (p : Bytes) (s : State) : Host.Outcome State Fault Refusal := .next (kcp timeReadCmd h p s)

/-- MP_COUNT_READ: a read of MP_COUNT takes the snapshot of R17 and R384. -/
def mpCountRead (s : State) : State :=
  if !s.power.alwaysOn then s
  else
    (fun s => s.modMgmt (fun m => { m with lastRead := leBytes 8 s.clock.count }))
      { s with snapshot := { count := s.clock.count, st := s.clock.st, uncertainty := uncertainty s, phase := s.clock.offset } }

/-- MP_COUNT_READ. -/
def execMpCountRead (s : State) : Host.Outcome State Fault Refusal := .next (mpCountRead s)

end Sys2Proof.Machine
end

