-- ==== Sys2Proof/Machine/PassEnd.lean ====
section
/-! DEFINITION. How a pass or a context ends before its time: units stopped, references released (R157), the final reply
of its command (R348, R350), and the context's next state (Tables 10.5, 10.6). -/

namespace Sys2Proof.Machine

open Sys2Proof

/-- The physical tile that serves a logical tile (R7). -/
def physTile (s : State) (n : Nat) : Option Nat :=
  match tget s.led.tileMap n with
  | .atReset => some (34 * (n / 32) + n % 32)
  | .phys t => some t
  | .unavailable => none

/-- The physical tiles of a wing, in its logical order. -/
def wingTiles (s : State) (w : Nat) : List Nat := (maskList 128 (s.wing w).tiles).filterMap (physTile s)

/-- A tile whose units are stopped and hold nothing of a context. The store keeps its contents. -/
def idleTile (t : Tile) : Tile :=
  { t with owner := none, stopped := false, active := none, shadow := none, terms := [], accs := [], waiting := none
           closings := 0, engine := default }

/-- Every tile that runs a context stopped and cleared of it. -/
def releaseTiles (s : State) (w c : Nat) : State :=
  { s with tiles := s.tiles.foldl (fun t p => if p.2.owner = some (w, c) then tput t p.1 (idleTile p.2) else t) s.tiles }

/-- A room freed, its generation increased (R143); commands that wait on it end with STALE_GENERATION (R159). -/
def freeRoom (s : State) (r : Nat) : State :=
  let x := s.room r
  let s := s.modRoom r (fun x => { (default : Room) with gen := x.gen + 1 })
  (x.checkouts ++ x.waiting).foldl (fun s c => finishIn s c.ref .staleGeneration []) s

/-- A discard that has nothing left to wait for: the room is freed (R163). -/
def settleDiscard (s : State) (r : Nat) : State :=
  let x := s.room r
  if x.st = .leaving ∧ x.discard ∧ x.refs = 0 then freeRoom s r else s

/-- An object counted as referenced by a pass in flight (Table 8.5, R345). -/
def refObj (s : State) (o : Nat) : State := s.modObj o (fun x => { x with refs := x.refs + 1 })

/-- One reference to an object released. -/
def unrefObj (s : State) (o : Nat) : State := s.modObj o (fun x => { x with refs := x.refs - 1 })

/-- One reference to a room released; a discard that waited for it ends (R157, R163). -/
def unrefRoom (s : State) (r : Nat) : State := settleDiscard (s.modRoom r (fun x => { x with refs := x.refs - 1 })) r

/-- The references of a pass to its rooms and objects released (R157). -/
def releaseRefs (s : State) (p : Pass) : State := p.objects.foldl unrefObj (p.rooms.foldl unrefRoom s)

/-- The table object of a pass-train is referenced until its final reply (R345). -/
def releaseTable (s : State) (q : PassCmd) : State := if q.train then unrefObj s q.tableObj else s

/-- The current banks of a wing discarded: a step ends without a commit (R121). -/
def discardBanks (s : State) (w : Nat) : State :=
  s.modWing w (fun x => { x with watch := x.watch.foldl (fun t p => tput t p.1 { p.2 with cur := default }) x.watch })

/-- A switch asked for between boundaries (R250). -/
def askSwitch (s : State) (w : Nat) : State := s.modWing w (fun x => { x with wantSwitch := true })

/-- A context with nothing left to run becomes BLOCKED with reason IDLE (Table 10.6), and the wing switches if it was
the one that ran (R250). -/
def settleContext (s : State) (w c : Nat) : State :=
  let x := s.ctx w c
  if x.pass.isNone ∧ x.queue = [] then
    let s := s.modCtx w c (fun x =>
      { x with blocked := .idle, since := s.clock.count
               st := match x.st with | .running => .blocked | .runnable => .blocked | st => st })
    if (s.wing w).running = some c then askSwitch s w else s
  else s

/-- A queued pass ended without running: its final reply, within the record being committed. -/
def dropQueued (s : State) (q : PassCmd) (st : Status) : State := finishIn (releaseTable s q) q.ref st []

/-- The admitted pass of a context ended with a status, within the record being committed: its units stop, its rows are
charged if it reached layer 0, its references are released and its command gets its final reply. -/
def endPassIn (s : State) (w c : Nat) (st : Status) : State :=
  match (s.ctx w c).pass with
  | none => s
  | some p =>
    let s := releaseRefs (releaseTiles (chargeRows s p.rows) w c) p
    let s := s.modCtx w c (fun x => { x with pass := none, ending := none })
    let s := if p.cmd.train then discardBanks s w else s
    settleContext (finishIn (releaseTable s p.cmd) p.cmd.ref st []) w c

/-- The admitted pass ended with a status, in a record of its own. -/
def failPass (s : State) (w c : Nat) (st : Status) : State :=
  if (s.ctx w c).pass.isSome then endPassIn s.bump w c st else s

/-- The pass that runs on a tile ended with a status; the tile stops at its row boundary (R39, R62, R74, R76, R84). -/
def failTile (s : State) (t : Nat) (st : Status) : State :=
  match (s.tile t).owner with
  | some (w, c) => failPass (s.modTile t (fun x => { x with stopped := true })) w c st
  | none => s.modTile t (fun x => { x with stopped := true })

/-- The place of a physical tile. -/
def atTile (s : State) (t : Nat) : At :=
  match (s.tile t).owner with
  | some (w, _) => { kind := 1, place := t, wing := some w }
  | none => { kind := 1, place := t }

/-! ### Sliding windows of error events (R419) -/

/-- Events within a window that ends at the newest. -/
def inWindow (now width : Nat) (l : List Nat) : List Nat := l.filter (fun m => decide (now < m + width)) ++ [now]

/-- Events by milepost and count, within a window that ends at the newest. -/
def inCountedWindow (now width : Nat) (l : List (Nat × Nat)) : List (Nat × Nat) :=
  let l := l.filter (fun m => decide (now < m.1 + width))
  match l.find? (fun m => decide (m.1 = now)) with
  | some _ => l.map (fun m => if m.1 = now then (m.1, m.2 + 1) else m)
  | none => l ++ [(now, 1)]

/-- How many events a counted window holds. -/
def countedTotal (l : List (Nat × Nat)) : Nat := l.foldl (fun a m => a + m.2) 0

/-- A part whose counters have changed since the last snapshot (R420). -/
def markChanged (s : State) (kind place : Nat) : State :=
  if (kind, place) ∈ s.keeper.changed then s else s.modKeeper (fun k => { k with changed := k.changed ++ [(kind, place)] })

end Sys2Proof.Machine
end

