-- ==== Sys2Proof/Machine/Array.lean ====
section
/-! DEFINITION. The matrix array (chapter 3): the weight-load path, the swap of a block, a row's exact terms, the outlier
lane and poisoning. -/

namespace Sys2Proof.Machine

open Sys2Proof

/-! ### The weight-load path -/

/-- A 4-bit code as a signed value (Table 3.2). -/
def w4Code (v : Nat) : Int := if v % 16 < 8 then ((v % 16 : Nat) : Int) else ((v % 16 : Nat) : Int) - 16

/-- A byte of a block. -/
def byteAt (b : Bytes) (i : Nat) : Nat := (b[i]?.getD 0).toNat

/-- A 16-bit pattern of a block. -/
def halfAt (b : Bytes) (i : Nat) : BitVec 16 := BitVec.ofNat 16 (byteAt b i + 256 * byteAt b (i + 1))

/-- The code of column `n`, lane `k` of a stored W4 block (Table 3.3). -/
def w4At (b : Bytes) (n k : Nat) : Int :=
  let v := byteAt b (n * 64 + k / 2)
  w4Code (if k % 2 = 0 then v else v / 16)

/-- The scale of column `n`, group `j` of a stored W4 block of group size `G`. -/
def w4Scale (b : Bytes) (G n j : Nat) : BitVec 16 := halfAt b (8192 + 2 * (n * (128 / G) + j))

/-- The zero code of column `n`, group `j`. -/
def w4Zero (b : Bytes) (G n j : Nat) : Nat :=
  let i := n * (128 / G) + j
  let v := byteAt b (8192 + 2 * 128 * (128 / G) + i / 2)
  if i % 2 = 0 then v % 16 else v / 16

/-- The effective weight w = q − zc + 8 (R40). -/
def w4Weight (b : Bytes) (G n k : Nat) : Int := w4At b n k - (w4Zero b G n (k / G) : Nat) + 8

/-- A lane's operand, or 0 where it lies beyond K (R41). -/
def laneOr0 (block kDim k : Nat) (v : Int) : Int := if 128 * block + k < kDim then v else 0

/-- The 128 columns of a block, each by its number. -/
def byColumn {α : Type} (f : Nat → α) : List α := (List.range 128).map f

/-- The outlier entries of the matrix in use whose channels fall in a block (R53). -/
def blockOutliers (l : List Outlier) (matrix block : Nat) : List Outlier :=
  l.filter (fun o => decide (o.matrix = matrix ∧ 128 * block ≤ o.k ∧ o.k < 128 * block + 128))

/-- A cell set with nothing in it. -/
def cellsOf (b : WBlock) : Cells :=
  { (default : Cells) with mode := b.mode, size := b.size, block := b.block, kDim := b.kDim, nDim := b.nDim }

/-- W4A8 and W4BF cells (R40, R43): effective weights, a scale for each group, poisoned where the scale's exponent field
is 255 (R57). -/
def loadW4 (b : WBlock) : Cells :=
  let G := b.size
  let groups := List.range (128 / G)
  { cellsOf b with
    cols := byColumn (fun n => (List.range 128).map (fun k => laneOr0 b.block b.kDim k (w4Weight b.bytes G n k)))
    scales := byColumn (fun n => groups.map (w4Scale b.bytes G n))
    bad := byColumn (fun n => groups.map (fun j => fpNonFinite 7 (w4Scale b.bytes G n j).toNat))
    outliers := (blockOutliers b.outliers b.matrix b.block).map (fun o => (o.k - 128 * b.block, o)) }

/-- I8 cells (R50): the values of each column in lane order, then one scale for each column and block of B lanes. -/
def loadI8 (b : WBlock) : Cells :=
  let B := b.size
  let groups := List.range (128 / B)
  let scale (n j : Nat) : BitVec 16 := halfAt b.bytes (16384 + 2 * (n * (128 / B) + j))
  { cellsOf b with
    cols := byColumn (fun n => (List.range 128).map (fun k => laneOr0 b.block b.kDim k (signed 8 (byteAt b.bytes (n * 128 + k)))))
    scales := byColumn (fun n => groups.map (scale n))
    bad := byColumn (fun n => groups.map (fun j => fpNonFinite 7 (scale n j).toNat)) }

/-- One weight of an E12 block: U and f, with the weight's sign (R48). -/
structure E12In where
  u : Nat
  f : Nat
  neg : Bool
  deriving DecidableEq, Repr, Inhabited

/-- An E12 block: X and the elements c (R48). -/
def e12Block (l : List E12In) : Int × List Int :=
  let F := (l.filter (fun x => decide (x.u ≠ 0))).foldl (fun (F : Option Nat) x =>
    match F with
    | none => some x.f
    | some g => some (Nat.max g x.f)) none
  match F with
  | none => (0, l.map (fun _ => 0))
  | some F =>
    ((F : Int) - 133, l.map (fun x =>
      let c : Int := if x.u = 0 then 0 else rneShift x.u (F + 1 - x.f)
      if x.neg then -c else c))

/-- W4T cells (R48, R49, R56, R499): column c is forward input k0 + c, lane l forward output n0 + l; an outlier channel's
BF16 weights stand in place of its W4 weights. -/
def loadW4T (b : WBlock) : Cells :=
  let G := b.storedG
  let out (c : Nat) : Option Outlier := b.outliers.find? (fun o => decide (o.matrix = b.matrix ∧ o.k = b.tile0 + c))
  let inK (l : Nat) : Bool := decide (128 * b.block + l < b.kDim)
  let wt (c l : Nat) : BitVec 16 :=
    match out c with
    | some o => o.weights[128 * b.block + l]?.getD 0
    | none => w4Scale b.bytes G l (c / G)
  let elem (c l : Nat) : E12In :=
    if !inK l then { u := 0, f := 0, neg := false }
    else
      let v := (wt c l).toNat
      match out c with
      | some _ => { u := 16 * fpSig 7 v, f := fpE 7 v - 4, neg := fpSign 7 v }
      | none =>
        let w := w4Weight b.bytes G l c
        { u := fpSig 7 v * w.natAbs, f := fpE 7 v, neg := (decide (w < 0)) != fpSign 7 v }
  let blocks := byColumn (fun c => e12Block ((List.range 128).map (elem c)))
  { cellsOf b with
    cols := blocks.map (·.2)
    exps := blocks.map (fun x => [x.1])
    bad := byColumn (fun c => [(List.range 128).any (fun l => inK l && fpNonFinite 7 (wt c l).toNat)]) }

/-- BF16 cells (R46, R51): aligned in blocks of 32 lanes, with the E_w shift of R131. -/
def loadBf16 (b : WBlock) : Cells :=
  let lane (n k : Nat) : BitVec 16 := if 128 * b.block + k < b.kDim then halfAt b.bytes (256 * n + 2 * k) else 0
  let blk (n j : Nat) : List (BitVec 16) := (List.range 32).map (fun i => lane n (32 * j + i))
  let ew (n j : Nat) : Nat := blockExp (blk n j)
  { cellsOf b with
    cols := byColumn (fun n => (List.range 4).flatMap (fun j => (blk n j).map (alignBf16 (ew n j))))
    exps := byColumn (fun n => (List.range 4).map (fun j => (ew n j : Int) - b.shift))
    bad := byColumn (fun n => (List.range 4).map (fun j => (blk n j).any (fun v => fpNonFinite 7 v.toNat))) }

/-- The operands the weight-load path prepares for a block. -/
def loadCells (b : WBlock) : Cells :=
  match b.mode with
  | .w4a8 => loadW4 b
  | .w4bf => loadW4 b
  | .i8 => loadI8 b
  | .w4t => loadW4T b
  | .bf16 => loadBf16 b

/-- The stored size in bytes of a weight block (R43, Table 3.3). -/
def storedBytes (b : WBlock) : Nat :=
  match b.mode with
  | .w4a8 | .w4bf => 8192 + 2 * 128 * (128 / b.size) + 128 * (128 / b.size) / 2
  | .i8 => 16384 + 2 * 128 * (128 / b.size)
  | .w4t => 8192 + 2 * 128 * (128 / b.storedG) + 128 * (128 / b.storedG) / 2
  | .bf16 => 32768

/-- A group or block size (R41). -/
def sizeOk (n : Nat) : Bool := decide (n = 32 ∨ n = 64 ∨ n = 128)

/-- Whether a mode takes a group or block size. -/
def sized (m : Mode) : Bool := decide (m = .w4a8 ∨ m = .i8 ∨ m = .w4bf)

/-- Whether a block's sizes are those of its mode and its bytes are all there. -/
def blockOk (b : WBlock) : Bool :=
  (if sized b.mode then sizeOk b.size else decide (b.size = 0)) && (decide (b.mode ≠ .w4t) || sizeOk b.storedG) &&
    decide (b.bytes.length = storedBytes b)

/-- SHADOW_LOAD: the weight-load path fills the shadow of all cells (R36). -/
def shadowLoad (tile : Nat) (block : WBlock) (s : State) : State :=
  if blockOk block && (s.tile tile).owner.isSome && !(s.tile tile).stopped then
    s.modTile tile (fun t => { t with shadow := some (loadCells block) })
  else s

/-- SHADOW_LOAD. -/
def execShadowLoad (tile : Nat) (block : WBlock) (s : State) : Host.Outcome State Fault Refusal :=
  onPart tile 136 s (shadowLoad tile block)

/-- Open accumulations of a tile that still take terms. -/
def openAccs (t : Tile) : List (Nat × Acc) := t.accs.filter (fun p => p.2.live && !p.2.closed)

/-- Whether a block may be swapped in (R39, R41): the mode and size of every open accumulation, and K a whole multiple
of G or B. -/
def swapAllowed (t : Tile) (c : Cells) : Bool :=
  (openAccs t).all (fun p => decide (p.2.mode = c.mode ∧ p.2.size = c.size)) &&
    (!sized c.mode || decide (c.kDim % c.size = 0))

/-- BLOCK_SWAP: the shadow becomes active; a swap before the shadow is filled waits (R64); one of another mode or size is
refused and ends the pass with MODE_MIXED (R39). -/
def blockSwap (tile : Nat) (s : State) : State :=
  let t := s.tile tile
  match t.shadow with
  | none => s
  | some c =>
    if t.stopped then s
    else if swapAllowed t c then s.modTile tile (fun t => { t with active := some c, shadow := none })
    else failTile s tile .modeMixed

/-- BLOCK_SWAP. -/
def execBlockSwap (tile : Nat) (s : State) : Host.Outcome State Fault Refusal := onPart tile 136 s (blockSwap tile)

/-! ### A row through the array -/

/-- The values of a list in runs of a length. -/
def chunks {α : Type} (n count : Nat) (l : List α) : List (List α) := (List.range count).map (fun j => (l.drop (n * j)).take n)

/-- An element of a list of lists, with what stands where there is none. -/
def at2 {α : Type} [Inhabited α] (l : List (List α)) (i j : Nat) : α := ((l[i]?.getD [])[j]?).getD default

/-- Groups or sub-blocks of a block that hold a lane below K (R41): those wholly beyond K give no term. -/
def groupsInK (c : Cells) (n : Nat) : List Nat := (List.range (128 / n)).filter (fun j => decide (128 * c.block + n * j < c.kDim))

/-- A factor times a partial, NaN where either side is poisoned (R45, R59). -/
def scaledTerm (bad : Bool) (m e : Int) : Exact := if bad then .nan else .num m e

/-- What a row feeds: its integers for each array cycle, and for each alignment block its exponent and whether it is
poisoned. -/
structure RowFeed where
  ints : List Int
  exps : List Nat
  bad : List Bool
  deriving DecidableEq, Repr, Inhabited

/-- An 8-bit row: values as they are, 0 in the lanes of listed channels (R53). -/
def feedI8 (vals : List (BitVec 16)) (skip : List Nat) : RowFeed :=
  { ints := (List.range 128).map (fun k => if k ∈ skip then 0 else signed 8 (vals[k]?.getD 0).toNat), exps := [], bad := [] }

/-- A BF16 row aligned in blocks of `n` lanes, listed channels left out (R46, R53); lanes beyond K hold 0. -/
def feedBf16 (c : Cells) (n : Nat) (vals : List (BitVec 16)) (skip : List Nat) : RowFeed :=
  let v (k : Nat) : BitVec 16 := if k ∈ skip ∨ c.kDim ≤ 128 * c.block + k then 0 else vals[k]?.getD 0
  let blk (j : Nat) : List (BitVec 16) := (List.range n).map (fun i => v (n * j + i))
  let es := (List.range (128 / n)).map (fun j => blockExp (blk j))
  { ints := (List.range (128 / n)).flatMap (fun j => (blk j).map (alignBf16 (es[j]?.getD 1)))
    exps := es
    bad := (List.range (128 / n)).map (fun j => (blk j).any (fun v => fpNonFinite 7 v.toNat)) }

/-- The value of a BF16 scale as an integer and an exponent (R42, R60). -/
def scaleParts (v : BitVec 16) : Int × Int :=
  match bf16Value v with
  | .num m e => (m, e)
  | .nan => (0, 0)

/-- The terms of one column from one row, as the array hands them over (Table 3.5, R61): sub-block, part and value. -/
def columnTerms (c : Cells) (f : RowFeed) (rowScales : List (BitVec 16)) (n : Nat) : List (Nat × TermPart × Exact) :=
  let col := c.cols[n]?.getD []
  match c.mode with
  | .w4a8 =>
    (groupsInK c c.size).map (fun j =>
      let (m, e) := scaleParts (at2 c.scales n j)
      (j, .whole, scaledTerm (at2 c.bad n j) (m * dot ((col.drop (c.size * j)).take c.size) ((f.ints.drop (c.size * j)).take c.size)) e))
  | .i8 =>
    (groupsInK c c.size).map (fun j =>
      let r := rowScales[j]?.getD 0
      let (m, e) := scaleParts (at2 c.scales n j)
      let (rm, re) := scaleParts r
      (j, .whole, scaledTerm (at2 c.bad n j || fpNonFinite 7 r.toNat)
        (m * rm * dot ((col.drop (c.size * j)).take c.size) ((f.ints.drop (c.size * j)).take c.size)) (e + re)))
  | .w4bf =>
    (groupsInK c c.size).flatMap (fun j =>
      let (m, e) := scaleParts (at2 c.scales n j)
      let ws := (col.drop (c.size * j)).take c.size
      let xs := (f.ints.drop (c.size * j)).take c.size
      let E : Int := (f.exps[j]?.getD 0 : Nat)
      let bad := at2 c.bad n j || (f.bad[j]?.getD false)
      [(j, .h, scaledTerm bad (m * dot ws (xs.map highHalf)) (e + E - 133)),
       (j, .l, scaledTerm bad (m * dot ws (xs.map lowHalf)) (e + E - 141))])
  | .w4t =>
    if c.kDim ≤ 128 * c.block then []
    else
      let X : Int := at2 c.exps n 0
      let E : Int := (f.exps[0]?.getD 0 : Nat)
      let bad := at2 c.bad n 0 || (f.bad[0]?.getD false)
      (List.range 8).flatMap (fun i =>
        let ws := (col.drop (16 * i)).take 16
        let xs := (f.ints.drop (16 * i)).take 16
        [(i, .h, scaledTerm bad (dot ws (xs.map highHalf)) (X + E - 133)),
         (i, .l, scaledTerm bad (dot ws (xs.map lowHalf)) (X + E - 141))])
  | .bf16 =>
    (groupsInK c 32).flatMap (fun j =>
      let ws := (col.drop (32 * j)).take 32
      let xs := (f.ints.drop (32 * j)).take 32
      let E : Int := at2 c.exps n j + (f.exps[j]?.getD 0 : Nat)
      let bad := at2 c.bad n j || (f.bad[j]?.getD false)
      [(j, .hh, scaledTerm bad (dot (ws.map highHalf) (xs.map highHalf)) (E - 266)),
       (j, .hl, scaledTerm bad (dot (ws.map highHalf) (xs.map lowHalf)) (E - 274)),
       (j, .lh, scaledTerm bad (dot (ws.map lowHalf) (xs.map highHalf)) (E - 274)),
       (j, .ll, scaledTerm bad (dot (ws.map lowHalf) (xs.map lowHalf)) (E - 282))])

/-- The operands a row presents in the mode of the active block (R42, R46, R53). -/
def rowFeed (c : Cells) (r : RowData) : RowFeed :=
  match c.mode with
  | .w4a8 => feedI8 r.values (c.outliers.map (·.1))
  | .i8 => feedI8 r.values []
  | .w4bf => feedBf16 c c.size r.values (c.outliers.map (·.1))
  | .w4t => feedBf16 c 128 r.values []
  | .bf16 => feedBf16 c 32 r.values []

/-- The BF16 activation of a listed channel (R53): from the side-row in list order in W4A8, from the row itself in
W4BF. -/
def outlierInput (c : Cells) (r : RowData) (i lane : Nat) : BitVec 16 :=
  if c.mode = .w4a8 then r.side[i]?.getD 0 else r.values[lane]?.getD 0

/-- The outlier lane's exact products of a row for one column, in list order (R53, R54, R59). -/
def outlierTerms (c : Cells) (r : RowData) (n : Nat) : List (Nat × TermPart × Exact) :=
  (c.outliers.zip (List.range c.outliers.length)).map (fun p =>
    (0, .outlier p.2, (bf16Value (outlierInput c r p.2 p.1.1)).mul (bf16Value (p.1.2.weights[n]?.getD 0))))

/-- Every term a row delivers, for its tracker and row (R61). `n0` is the output column of the tile's first column. -/
def rowTerms (c : Cells) (r : RowData) (n0 : Nat) : List Term :=
  let f := rowFeed c r
  (List.range 128).flatMap (fun n =>
    (columnTerms c f r.scales n ++ outlierTerms c r (n0 + n)).map (fun x =>
      { tracker := r.tracker, row := r.row, col := n, block := c.block, sub := x.1, part := x.2.1, value := x.2.2 }))

/-- Whether a row may issue: the tile runs, an accumulation of the block's mode and size is open in the tracker, and the
row has not been through this block. -/
def rowIssues (t : Tile) (c : Cells) (r : RowData) : Bool :=
  let a := tget t.accs r.tracker
  !t.stopped && t.owner.isSome && a.live && !a.closed && decide (a.mode = c.mode ∧ a.size = c.size ∧ r.row < a.rows) &&
    decide (512 * a.link ≤ c.block ∧ c.block < 512 * a.link + a.blocks) &&
    decide ((tget a.elems (128 * r.row)).block + 512 * a.link ≤ c.block) &&
    !(t.terms.any (fun x => decide (x.tracker = r.tracker ∧ x.row = r.row ∧ x.block = c.block)))

/-- ARRAY_ROW: a streamed row issued against the active block; its exact terms wait for the accumulator (R35, R37, R44,
R45, R61). -/
def arrayRow (tile : Nat) (r : RowData) (s : State) : State :=
  let t := s.tile tile
  match t.active with
  | none => s
  | some c =>
    if rowIssues t c r then
      s.modTile tile (fun t => { t with terms := t.terms ++ rowTerms c r (tget t.accs r.tracker).tile0 })
    else s

/-- ARRAY_ROW. -/
def execArrayRow (tile : Nat) (row : RowData) (s : State) : Host.Outcome State Fault Refusal :=
  onPart tile 136 s (arrayRow tile row)

end Sys2Proof.Machine
end

