-- ==== Sys2Proof/Machine/Mapping.lean ====
section
/-! DEFINITION. Error thresholds (R419, R420), the map of logical to physical tiles and the start of a spare mapping (R7,
R424 to R427), by command or of the module's own accord. -/

namespace Sys2Proof.Machine

open Sys2Proof

/-! ### Counters and thresholds -/

/-- The counters of a part, by place kind (Table 16.3, R420). -/
def partCounters (s : State) (kind place : Nat) : List Nat :=
  match kind with
  | 1 => [(s.tile place).corrected, (s.tile place).uncorrected, (s.tile place).parity]
  | 2 => [(s.quarter place).corrected, (s.quarter place).uncorrected]
  | 3 => [(s.pc place).corrected, (s.pc place).uncorrected]
  | 4 => [(s.loft place).corrected, (s.loft place).uncorrected]
  | 6 => [(s.port place).corrected, (s.port place).uncorrected, (s.port place).discarded]
  | _ => []

/-- A COUNTER_SNAPSHOT record of a part (R420). -/
def snapshotPart (s : State) (kind place : Nat) : State :=
  logOnly (s.modKeeper (fun k => { k with changed := k.changed.filter (fun c => decide (c ≠ (kind, place))) }))
    .counterSnapshot { kind := kind, place := place } (partCounters s kind place)

/-- A threshold crossing: its notice, its fault-log record and the counters of its part (R419, R420). -/
def crossing (s : State) (n : Notice) (at_ : At) (body : List Nat) : State :=
  snapshotPart (notify s n at_ body) at_.kind at_.place

/-- TILE_SUSPECT for a physical tile. -/
def tileSuspect (s : State) (t : Nat) (at_ : At) : State := crossing s .tileSuspect at_ [t]

/-- A counter that wraps at 2^64 (R420). -/
def wrapAdd (a b : Nat) : Nat := (a + b) % 2 ^ 64

/-- A corrected error in a tile's accumulator file or store: counted, and 1,000 within 1,000,000,000 mp are a crossing
(R84, R172, Table 16.2). -/
def tileCorrected (s : State) (t : Nat) : State :=
  let x := s.tile t
  let l := inWindow s.clock.count 1000000000 x.suspectSince
  let s1 := markChanged (s.modTile t (fun x =>
    { x with corrected := wrapAdd x.corrected 1, suspectSince := if 1000 ≤ l.length then [] else l })) 1 t
  if 1000 ≤ l.length then tileSuspect s1 t (atTile s t) else s1

/-! ### The tile map -/

/-- The logical tile that a physical tile serves, if any (R7). -/
def logicalOf (s : State) (p : Nat) : Option Nat := lowest 128 (fun n => decide (physTile s n = some p))

/-- The wing that owns a logical tile. -/
def wingOfTile (s : State) (n : Nat) : Option Nat := lowest 16 (fun w => (s.wing w).live && (s.wing w).tiles.testBit n)

/-- Whether a physical tile may be mapped in: healthy, powered, serving no logical tile, and not already being prepared. -/
def spareFree (s : State) (p : Nat) : Bool :=
  !(tget s.led.faultMap p) && !(s.tile p).supplyOff && (logicalOf s p).isNone && !(s.tiles.any (fun q => decide (q.2.spare = some p)))

/-- The lowest-numbered spare of a logical tile's quarter (R424). -/
def spareFor (s : State) (n : Nat) : Option Nat :=
  ((List.range 34).map (fun i => 34 * (n / 32) + i)).find? (spareFree s)

/-- The physical tiles whose gates are to be open (R450): those that serve a logical tile some wing owns, and a spare being
prepared for one (Table 16.4). -/
def gatesWanted (s : State) : Nat :=
  let owned := s.liveWings.foldl (fun m w => m ||| (s.wing w).tiles) 0
  listMask ((maskList 128 owned).filterMap (physTile s) ++ s.tiles.filterMap (fun p => p.2.spare))

/-- Every gate opened or closed as R450 says: a tile that opens is cleared (R173), and one that closes loses what it held. -/
def settleGates (s : State) : State :=
  let want := gatesWanted s
  (List.range 136).foldl (fun s p =>
    let open_ := want.testBit p && !(s.tile p).supplyOff
    if (s.tile p).gate = open_ then s
    else s.modTile p (fun t => { idleTile t with store := [], gate := open_ })) s

/-- The mapping switched: the spare serves the logical tile, and the failing tile is mapped out for good (R424, R425). -/
def switchMap (s : State) (n : Nat) (old : Option Nat) (spare : Nat) : State :=
  let s := s.modLed (fun l => { l with tileMap := tput l.tileMap n (.phys spare) })
  match old with
  | some p =>
    (s.modTile p (fun t => { idleTile t with spare := none, mapRef := none })).modLed (fun l => { l with faultMap := tput l.faultMap p true })
  | none => s

/-- A mapping that has ended, told to the host (Table 16.4). -/
def tileMapped (s : State) (n spare : Nat) (old : Option Nat) : State :=
  notify s .tileMapped { kind := 1, place := spare, wing := wingOfTile s n } [n, spare, old.getD 0xFFFF]

/-- A spare mapping started (R425): a logical tile of no wing, or one that nothing served, is remapped at once; one of a wing
waits for the copy of its store (SPARE_SWITCH), and the wing's running context is to be pre-empted at the next edge. The
commit is the caller's. -/
def startMapping (s : State) (n spare : Nat) (ref : Option CmdRef) : State :=
  match wingOfTile s n, physTile s n with
  | some w, some p => askSwitch (settleGates (s.modTile p (fun t => { t with spare := some spare, mapRef := ref }))) w
  | _, old => finishOpt (tileMapped (settleGates (switchMap s n old spare)) n spare old) ref .ok (leBytes 2 spare)

/-- A wing's mappings under way: physical tiles with a spare in preparation. -/
def mappingTiles (s : State) (w : Nat) : List Nat := (wingTiles s w).filter (fun p => (s.tile p).spare.isSome)

/-- A logical tile made unavailable, its wing losing it at its next boundary (R426). -/
def loseTile (s : State) (n : Nat) : State :=
  let s := match physTile s n with
    | some p => (s.modTile p (fun t => { t with stopped := true })).modLed (fun l => { l with faultMap := tput l.faultMap p true })
    | none => s
  let s := settleGates (s.modLed (fun l => { l with tileMap := tput l.tileMap n .unavailable }))
  match lowest 16 (fun w => (s.wing w).live && (s.wing w).tiles.testBit n) with
  | none => notify s .tileUnavailable {} [n]
  | some w =>
    let tiles := match (s.wing w).change with
      | some c => c.tiles
      | none => (s.wing w).tiles
    notify (s.modWing w (fun x => { x with change := some { tiles := without tiles (2 ^ n), forced := true } }))
      .tileUnavailable (atWing s w) [n]

/-- Whether a waiting mapping may begin: its wing is not being scrubbed, and no mapping of its logical tile is under way. -/
def mapReady (s : State) (n : Nat) : Bool :=
  !((wingOfTile s n).map (fun w => (s.wing w).scrub.isSome)).getD false
    && !((physTile s n).map (fun p => (s.tile p).spare.isSome)).getD false

/-- A mapping begun (R424 to R426). -/
def beginMap (s : State) (m : MapReq) : State :=
  if m.out then finishOpt (loseTile s.bump m.tile) m.ref .ok (leBytes 2 0xFFFF)
  else match spareFor s m.tile with
    | some sp => startMapping s.bump m.tile sp m.ref
    | none =>
      match m.ref with
      | some r => finish s r .spareNone []
      | none => loseTile s.bump m.tile

/-- Waiting mappings begun, in their order, where they may (R427, Table 16.10). -/
def settleMaps (s : State) : State :=
  s.led.maps.foldl (fun s m => if mapReady s m.tile then beginMap s m else s.modLed (fun l => { l with maps := l.maps ++ [m] }))
    (s.modLed (fun l => { l with maps := [] }))

/-- The module's own mapping of a failing tile (R419, R426). A spare that fails while it is being prepared is mapped out in
turn after the switch (Table 16.10). -/
def autoMap (s : State) (p : Nat) : State :=
  if (s.tile p).spare.isSome ∨ tget s.led.faultMap p then s
  else match logicalOf s p with
    | some n => beginMap s { tile := n, out := false, ref := none }
    | none =>
      match s.tiles.find? (fun q => decide (q.2.spare = some p)) with
      | some (q, _) => s.modLed (fun l => { l with maps := l.maps ++ (logicalOf s q).toList.map (fun n => { tile := n, out := false, ref := none }) })
      | none => s.modLed (fun l => { l with faultMap := tput l.faultMap p true })

/-! ### Array parity (R62) -/

/-- A parity error in a tile's cells: the tile stops, the unadded terms of its block go, the pass ends with ARRAY_PARITY
and the tile is offered for mapping; a second one within 1,000,000 mp maps it out (R62, R419). -/
def arrayParity (p : Nat) (s : State) : State :=
  match (s.tile p).active with
  | none => s
  | some c =>
    let place := atTile s p
    let l := inWindow s.clock.count 1000000 (s.tile p).parityAt
    let s := markChanged (s.modTile p (fun t =>
      { t with parity := wrapAdd t.parity 1, parityAt := if 2 ≤ l.length then [] else l
               terms := t.terms.filter (fun x => decide (x.block ≠ c.block)) })) 1 p
    let s := tileSuspect (failTile s p .arrayParity) p place
    if 2 ≤ l.length then autoMap s p else s

/-- ARRAY_PARITY_ERROR. -/
def execArrayParityError (tile : Nat) (s : State) : Host.Outcome State Fault Refusal := onPart tile 136 s (arrayParity tile)

end Sys2Proof.Machine
end

