-- ==== Sys2Proof/Machine/Accum.lean ====
section
/-! DEFINITION. The accumulator file (chapter 4): opens and chain links, promotions in the reference order, drains, and the
file's errors. -/

namespace Sys2Proof.Machine

open Sys2Proof

/-! ### Opening (R65, R74 to R76) -/

/-- The row counts of R75. -/
def shapeOk (m : Nat) : Bool := decide (m = 16 ∨ m = 32 ∨ m = 64 ∨ m = 128 ∨ m = 256 ∨ m = 512)

/-- Bytes an accumulation holds of the file (R75). -/
def fileBytes (f : AccFmt) (rows : Nat) : Nat := 128 * accBytes f * rows

/-- Bytes of the file in use by the tile's accumulations. -/
def bytesUsed (t : Tile) : Nat := t.accs.foldl (fun a p => if p.2.live then a + fileBytes p.2.fmt p.2.rows else a) 0

/-- Trackers in use. -/
def trackersUsed (t : Tile) : Nat := (t.accs.filter (fun p => p.2.live)).length

/-- The bytes and trackers a tile may hold open for its context (R75, R245). -/
def fileLimits (s : State) (tile : Nat) : Nat × Nat :=
  match (s.tile tile).owner with
  | some (w, c) => (Nat.min 327680 (s.ctx w c).accBudget, Nat.min 32 (s.ctx w c).trackers)
  | none => (327680, 32)

/-- A fresh accumulation, every element +0. -/
def freshAcc (a : OpenArgs) : Acc :=
  { (default : Acc) with
    live := true, mode := a.mode, size := a.size, fmt := a.fmt, rows := a.rows, blocks := a.blocks, kDim := a.kDim
    nDim := a.nDim, tile0 := a.tile0, matrix := a.matrix, outliers := a.outliers }

/-- Whether an instruction stream can name an accumulation at all: a tracker, a shape, a size and at least one block. -/
def openOk (a : OpenArgs) : Bool :=
  decide (a.tracker < 32) && shapeOk a.rows && decide (1 ≤ a.blocks) && (if sized a.mode then sizeOk a.size else decide (a.size = 0))

/-- A chain link taken over in place, with no rounding (R74). -/
def openLink (tile : Nat) (a : OpenArgs) (s : State) : State :=
  let p := tget (s.tile tile).accs a.tracker
  if 16 ≤ p.link + 1 then failTile s tile .kTooLong
  else if p.live ∧ p.mode = a.mode ∧ p.size = a.size ∧ p.fmt = a.fmt ∧ p.rows = a.rows ∧ p.closed ∧ p.blocks = 512 then
    let next : Acc :=
      { freshAcc a with
        link := p.link + 1, chained := true, sat := p.sat
        elems := p.elems.foldl (fun u e => tput u e.1 { e.2 with block := 0 }) [] }
    s.modTile tile (fun t => { t with accs := tput t.accs a.tracker next })
  else failTile s tile .modeMixed

/-- A first link opened at +0, where trackers and bytes allow; else it waits for a drain, or is refused (R76). -/
def openFirst (tile : Nat) (a : OpenArgs) (s : State) : State :=
  let t := s.tile tile
  let (maxBytes, maxTrackers) := fileLimits s tile
  if (tget t.accs a.tracker).live = false ∧ bytesUsed t + fileBytes a.fmt a.rows ≤ maxBytes ∧ trackersUsed t + 1 ≤ maxTrackers then
    s.modTile tile (fun t => { t with accs := tput t.accs a.tracker (freshAcc a), waiting := none })
  else if t.accs.any (fun p => p.2.live && p.2.closed) then s.modTile tile (fun t => { t with waiting := some a })
  else failTile s tile .accOvercommit

/-- ACC_OPEN: an accumulation or a chain link opens (R74 to R76); K must be a whole multiple of G or B (R41). -/
def accOpen (tile : Nat) (a : OpenArgs) (s : State) : State :=
  let t := s.tile tile
  if t.stopped || t.owner.isNone || t.waiting.isSome || !openOk a then s
  else if 512 < a.blocks then failTile s tile .kTooLong
  else if sized a.mode ∧ a.kDim % a.size ≠ 0 then failTile s tile .modeMixed
  else if a.chain then openLink tile a s
  else openFirst tile a s

/-- ACC_OPEN. -/
def execAccOpen (tile : Nat) (args : OpenArgs) (s : State) : Host.Outcome State Fault Refusal := onPart tile 136 s (accOpen tile args)

/-! ### Promotion (R68 to R73) -/

/-- The terms of one element in the block its accumulation has reached (R71). -/
def elemTerms (t : Tile) (a : Acc) (tracker row col : Nat) : List Term :=
  let e := tget a.elems (128 * row + col)
  t.terms.filter (fun x => decide (x.tracker = tracker ∧ x.row = row ∧ x.col = col ∧ x.block = 512 * a.link + e.block))

/-- The place of a term in its block: its unit, or, behind every unit, its place in the outlier list (R72). W4T's
sub-blocks form one unit (Table 4.2). -/
def termRank (m : Mode) (x : Term) : Nat :=
  match x.part with
  | .outlier i => 4 + i
  | _ => if m = .w4t then 0 else x.sub

/-- The rank that is next. -/
def nextRank (m : Mode) (l : List Term) : Nat := l.foldl (fun r x => Nat.min r (termRank m x)) 1000

/-- The terms of the next promotion. -/
def nextTerms (m : Mode) (l : List Term) : List Term := l.filter (fun x => decide (termRank m x = nextRank m l))

/-- The exact sum of a promotion's terms, Γ (R68). -/
def gamma (l : List Term) : Exact := l.foldl (fun g x => g.add x.value) Exact.zero

/-- A saturation count that stops at 2^32 − 1 (R69). -/
def satCount (n : Nat) (sat : Bool) : Nat := if sat then Nat.min (n + 1) (2 ^ 32 - 1) else n

/-- An accumulation with one promotion made on an element; `last` says that the element's block ends with it. It closes
when every element has had its last block (R78). -/
def promoteAcc (a : Acc) (key : Nat) (g : Exact) (last : Bool) (closing : Nat) : Acc :=
  let e := tget a.elems key
  let r := promote a.fmt e.bits g
  let block := if last then e.block + 1 else e.block
  let done := if last ∧ block = a.blocks then a.done + 1 else a.done
  { a with
    elems := tput a.elems key { bits := r.bits, block := block, idx := if last then 0 else e.idx + 1 }
    sat := satCount a.sat r.sat, done := done
    closed := decide (done = 128 * a.rows), closedAt := if done = 128 * a.rows then closing else a.closedAt }

/-- The next promotion of an element of a tile, if its accumulation waits for terms it has (R69 to R72). -/
def promoteTile (t : Tile) (tracker row col : Nat) : Option Tile :=
  let a := tget t.accs tracker
  let l := elemTerms t a tracker row col
  if !a.live || a.closed || decide (a.rows ≤ row) || decide (128 ≤ col) || decide (l = []) then none
  else
    let now := nextTerms a.mode l
    let b := promoteAcc a (128 * row + col) (gamma now) (decide (now.length = l.length)) t.closings
    some { t with accs := tput t.accs tracker b, terms := t.terms.filter (fun x => !(now.contains x))
                  closings := if b.closed then t.closings + 1 else t.closings }

/-- PROMOTION: the next unit sum or outlier term of an element is added with one rounding (R69 to R72); the read of the
element may correct a single-bit error (R84). -/
def promotion (tile tracker row col : Nat) (corrected : Bool) (s : State) : State :=
  match promoteTile (s.tile tile) tracker row col with
  | none => s
  | some t =>
    let s := s.modTile tile (fun _ => t)
    if corrected then tileCorrected s tile else s

/-- PROMOTION. -/
def execPromotion (tile tracker row col : Nat) (corrected : Bool) (s : State) : Host.Outcome State Fault Refusal :=
  onPart tile 136 s (promotion tile tracker row col corrected)

/-! ### Draining (R78 to R80) -/

/-- A context's base in the tile store (R244). -/
def regionBase (x : Ctx) : Nat := x.granule * 32768

/-- The save area of a context (R245). -/
def saveAreaBytes (x : Ctx) : Nat := 17728 + x.accBudget + 64 * x.trackers

/-- The program space of a context, in bytes: its region less the save area at its top (R244, R245). -/
def programSpace (x : Ctx) : Nat := x.region * 32768 - saveAreaBytes x

/-- The scaled element a drain writes: the exact product rounded once (R79). -/
def drainValue (f : AccFmt) (bf16 : Bool) (acc : Nat) (scale : W32) : Rounded :=
  roundExact (if bf16 then 7 else 23) ((fpValue (accFrac f) acc).mul (fp32Value scale))

/-- The columns of a drain: those below N (R78). -/
def drainCols (a : Acc) : List Nat := (List.range 128).filter (fun c => decide (a.tile0 + c < a.nDim))

/-- The drain scale of a row: 1 where the drain names none (R79). -/
def rowScale (d : DrainArgs) (row : Nat) : W32 :=
  match d.scales with
  | none => 0x3F800000
  | some l => l[row]?.getD 0

/-- The elements a drain writes: row, column and value, in row-major order. -/
def drained (a : Acc) (d : DrainArgs) : List (Nat × Nat × Rounded) :=
  (List.range a.rows).flatMap (fun r =>
    (drainCols a).map (fun c => (r, c, drainValue a.fmt d.bf16 (tget a.elems (128 * r + c)).bits (rowScale d r))))

/-- The byte a drain's element starts at: rows of 512 bytes in FP32 and 256 in BF16 (R78). -/
def drainAddr (base : Nat) (bf16 : Bool) (row col : Nat) : Nat :=
  if bf16 then base + 256 * row + 2 * col else base + 512 * row + 4 * col

/-- The rows of a drain written into a memory. -/
def drainRows (m : Mem) (base : Nat) (bf16 : Bool) (l : List (Nat × Nat × Rounded)) : Mem :=
  l.foldl (fun m x => mstore m (drainAddr base bf16 x.1 x.2.1) (leBytes (if bf16 then 2 else 4) x.2.2.bits)) m

/-- Counts added to the current bank of a tag of a wing; tag 0 is unwatched (R118, R120, R122). -/
def countTag (s : State) (w tag : Nat) (b : Bank) : State :=
  if tag = 0 ∨ 1023 < tag then s
  else
    let add (x y : Nat) : Nat := satAdd x y
    s.modWing w (fun x => { x with watch := tmod x.watch tag (fun e =>
      let c : Bank := { written := add e.cur.written b.written, zero := add e.cur.zero b.zero
                        saturated := add e.cur.saturated b.saturated, nan := add e.cur.nan b.nan
                        accSat := add e.cur.accSat b.accSat }
      let top := 2 ^ 64 - 1
      { e with cur := c, full := e.full || decide (c.written = top ∨ c.zero = top ∨ c.saturated = top ∨ c.nan = top ∨ c.accSat = top) }) })

/-- The counts of a drain (R80). -/
def drainCounts (a : Acc) (l : List (Nat × Nat × Rounded)) : Bank :=
  { written := l.length, zero := (l.filter (fun x => decide (x.2.2.bits = 0))).length
    saturated := (l.filter (fun x => x.2.2.sat)).length, nan := (l.filter (fun x => x.2.2.nan)).length, accSat := a.sat }

/-- BF16 bits of an exact value rounded once to nearest even. -/
def toBf16 (x : Exact) : Nat := (roundExact 7 x).bits

/-- One gradient element drained (R153): the step's first drain writes the value times 2^k; a later one first rounds to
FP32, then adds what stands there and rounds to BF16. -/
def gradientElem (f : AccFmt) (acc : Nat) (first : Bool) (k : Nat) (old : BitVec 16) : Rounded :=
  let kScale : Exact := .num 1 k
  let v := (fpValue (accFrac f) acc).mul kScale
  if first then roundExact 7 v else roundExact 7 ((bf16Value old).add (fpValue 23 (roundExact 23 v).bits))

/-- A drain into a gradient object's segment: A's rows column by column, as the layout of R139 has them. -/
def gradientDrain (a : Acc) (base : Nat) (first : Bool) (k : Nat) (m : Mem) : List (Nat × Nat × Rounded) × Mem :=
  (List.range a.rows).foldl (fun acc r =>
    (drainCols a).foldl (fun acc c =>
      let at_ := base + 2 * (r * a.nDim + a.tile0 + c)
      let old : BitVec 16 := BitVec.ofNat 16 (leNat (mload acc.2 at_ 2))
      let v := gradientElem a.fmt (tget a.elems (128 * r + c)).bits first k old
      (acc.1 ++ [(r, c, v)], mstore acc.2 at_ (leBytes 2 v.bits))) acc) ([], m)

/-- Whether an accumulation may drain now: closed, and no other that closed before it, or with it and in a lower tracker,
waits (R78). The order among drains already issued is theirs. -/
def mayDrain (t : Tile) (tracker : Nat) : Bool := (tget t.accs tracker).live && (tget t.accs tracker).closed

/-- A waiting open retried once a drain has freed room (R76). -/
def retryOpen (tile : Nat) (s : State) : State :=
  match (s.tile tile).waiting with
  | some a => openFirst tile a s
  | none => s

/-- A drain's flag set (R106), its tracker freed. -/
def drainEnd (tile tracker : Nat) (flag : Option Nat) (s : State) : State :=
  retryOpen tile (s.modTile tile (fun t =>
    { t with accs := terase t.accs tracker
             engine := match flag with
               | some f => { t.engine with flags := t.engine.flags ||| 2 ^ (f % 16) }
               | none => t.engine }))

/-- DRAIN: a closed accumulation leaves as a tensor (R78 to R80), or as a gradient (R153). A drain beyond the context's
program space writes nothing and ends the pass with VEC_RANGE (R90, R244). -/
def drain (tile : Nat) (d : DrainArgs) (s : State) : State :=
  let t := s.tile tile
  match t.owner with
  | none => s
  | some (w, c) =>
    let a := tget t.accs d.tracker
    if t.stopped || !mayDrain t d.tracker || decide (1023 < d.tag) then s
    else match d.dest with
      | .tile addr =>
        let x := s.ctx w c
        if programSpace x < addr + (if d.bf16 then 256 else 512) * a.rows then failTile s tile .vecRange
        else
          let l := drained a d
          let s := s.modTile tile (fun t => { t with store := drainRows t.store (regionBase x + addr) d.bf16 l })
          drainEnd tile d.tracker d.flag (countTag s w d.tag (drainCounts a l))
      | .gradient object offset first k =>
        let (l, m) := gradientDrain a offset first k (s.obj object).content
        drainEnd tile d.tracker d.flag (countTag (s.modObj object (fun o => { o with content := m })) w d.tag (drainCounts a l))

/-! ### Errors (R84) -/

/-- ACC_ECC_ERROR: a single-bit error is corrected and counted; a double-bit one stops the tile, discards the open
accumulations and ends the pass with ACC_ECC (R84). -/
def accEccError (tile : Nat) (corrected : Bool) (s : State) : State :=
  if (s.tile tile).accs = [] then s
  else if corrected then tileCorrected s tile
  else
    let place := atTile s tile
    let s := markChanged (s.modTile tile (fun t => { t with accs := [], terms := [], uncorrected := wrapAdd t.uncorrected 1 })) 1 tile
    tileSuspect (failTile s tile .accEcc) tile place

/-- ACC_ECC_ERROR. -/
def execAccEccError (tile : Nat) (corrected : Bool) (s : State) : Host.Outcome State Fault Refusal :=
  onPart tile 136 s (accEccError tile corrected)

end Sys2Proof.Machine
end

