-- ==== Sys2Proof/Machine/Queue.lean ====
section
/-! DEFINITION. The queues of a function (R301 to R311, R316) and the timers of host sessions (R326, R328, R331). -/

namespace Sys2Proof.Machine

open Sys2Proof

/-- Whether a function's queues answer the host: the function is ENABLED, and the module is READY or runs its minimal
command service (R370). -/
def queuesOpen (s : State) (fn : Nat) : Bool :=
  decide ((s.fn fn).st = .enabled) && (s.power.ready || s.power.minimal)

/-- The phase or valid bit the word at an index must carry (R302, R306). -/
def currentPhase (f : Fn) (i : Nat) : Nat := if f.window then 1 else ((i % 2 ^ 32) / 2 ^ f.cmdLog + 1) % 2

/-- A function's command queue stopped after too many header failures (R311): unstamped words are discarded and its host
sessions lapse (Table 12.10). -/
def stopQueue (s : State) (fn : Nat) : State :=
  let s := notify (s.modFn fn (fun f => { f with stopped := true, words := [], part := [], failures := [] }))
    .ringStopped (atFn fn) [fn]
  lapseFunction s fn

/-- One header failure counted; 64 within 1,000,000 mp stop the queue (R311). -/
def countFailure (s : State) (fn : Nat) : State :=
  let now := s.clock.count
  let l := (s.fn fn).failures.filter (fun m => decide (now < m + 1000000)) ++ [now]
  let s := s.modFn fn (fun f =>
    { f with failures := l, counters := { f.counters with headerFailures := f.counters.headerFailures + 1 } })
  if 64 ≤ l.length then stopQueue s fn else s

/-- Words skipped up to one that may begin a packet: index 0 and the current phase (R311). -/
def skipToStart (f : Fn) : Nat → List CmdWord → Nat × List CmdWord
  | n, [] => (n, [])
  | n, w :: ws =>
    if w.ok && decide (indexField w.bits = 0) && decide (phaseField w.bits = currentPhase f (f.cmdHead + n)) then (n, w :: ws)
    else skipToStart f (n + 1) ws

/-- A packet's header failure (R311): CMD_HEAD advances one word, then to the next word that may begin a packet. -/
def headerFailure (s : State) (fn : Nat) : State :=
  let f := s.fn fn
  let at_ := f.cmdHead
  let (n, rest) := skipToStart f 1 (f.words.drop 1)
  let s := s.modFn fn (fun f => { f with words := rest, cmdHead := (f.cmdHead + n) % 2 ^ 32 })
  countFailure (notify s .malformedPacket (atFn fn) [fn, at_]) fn

/-- Whether the words that have come so far agree with a packet of `n` words. -/
def agree (n : Nat) (ws : List CmdWord) : Bool :=
  (ws.zip (List.range ws.length)).all (fun p =>
    p.1.ok && decide (wordsField p.1.bits + 1 = n) && decide (indexField p.1.bits = p.2))

/-- Words read as packets, from the front, as far as they have arrived (R311, R317). -/
def scanWords : Nat → Nat → State → State
  | 0, _, s => s
  | fuel + 1, fn, s =>
    let f := s.fn fn
    if f.stopped then s
    else match f.words with
    | [] => s
    | w :: _ =>
      if !w.ok then scanWords fuel fn (headerFailure s fn)
      else if phaseField w.bits ≠ currentPhase f f.cmdHead then s
      else if indexField w.bits ≠ 0 then scanWords fuel fn (headerFailure s fn)
      else
        let n := wordsField w.bits + 1
        let ws := f.words.take n
        if !agree n ws then scanWords fuel fn (headerFailure s fn)
        else if ws.length < n then s
        else if !(ws.zip (List.range n)).all (fun p => decide (phaseField p.1.bits = currentPhase f (f.cmdHead + p.2))) then s
        else match parsePacket fn s.clock.count n (ws.flatMap (fun w => wordBytes w.bits)) with
          | none => scanWords fuel fn (headerFailure s fn)
          | some k =>
            let s := s.modFn fn (fun f => { f with words := f.words.drop n, cmdHead := (f.cmdHead + n) % 2 ^ 32 })
            scanWords fuel fn (stampPacket s k)

/-- A command word read and checked (R307, R308). -/
def takeWord (s : State) (fn : Nat) (v : Nat) : State :=
  s.modFn fn (fun f =>
    match decodeWord v with
    | .clean w => { f with words := f.words ++ [{ bits := w, at_ := s.clock.count, ok := true }] }
    | .corrected w => { f with words := f.words ++ [{ bits := w, at_ := s.clock.count, ok := true }]
                               counters := { f.counters with corrected := f.counters.corrected + 1 } }
    | .uncorrectable => { f with words := f.words ++ [{ bits := 0, at_ := s.clock.count, ok := false }]
                                 counters := { f.counters with uncorrectable := f.counters.uncorrectable + 1 } })

/-- Packets made of the words that wait. -/
def scan (s : State) (fn : Nat) : State := scanWords ((s.fn fn).words.length + 1) fn s

/-- A doorbell or head write ignored and counted, with DOORBELL_BAD sent (R303). -/
def doorbellFault (s : State) (fn : Nat) : State :=
  notify (s.modFn fn (fun f => { f with counters := { f.counters with doorbellFaults := f.counters.doorbellFaults + 1 } }))
    .doorbellBad (atFn fn) [fn]

/-- A ring access has failed (R380): the command queue is STOPPED until the next valid APPLY, replies and notices are not
written, and RING_FAULT is sent where the notice path still works. -/
def ringFault (s : State) (fn : Nat) : State :=
  notify (s.modFn fn (fun f => { f with stopped := true, faulted := true, words := [], replyWait := [] }))
    .ringFault (atFn fn) [fn]

/-- Whether a function's ring accesses succeed (R375): Bus Master Enable is set and CXL.cache was negotiated. -/
def ringsReach (s : State) (fn : Nat) : Bool := (s.fn fn).bme && s.link.up && s.link.cache

/-- CMD_DOORBELL written (R303): the producer index advances, and the words it covers are read (R311). `words` are the
ring words that the reads return. -/
def doorbell (fn value : Nat) (words : List Nat) (s : State) : State :=
  let f := s.fn fn
  if !queuesOpen s fn || f.window then s
  else
    let d := value % 2 ^ 32
    let gone := (d + 2 ^ 32 - f.cmdProd) % 2 ^ 32
    let room := (f.cmdHead + 2 ^ f.cmdLog + 2 ^ 32 - f.cmdProd) % 2 ^ 32
    if room < gone then doorbellFault s fn
    else
      let s := s.modFn fn (fun f => { f with cmdProd := d })
      if f.stopped then s
      else if gone = 0 then s
      else if !ringsReach s fn then ringFault s fn
      else scan ((words.take gone).foldl (fun s w => takeWord s fn w) s) fn

/-- CMD_DOORBELL. -/
def execCmdDoorbell (fn value : Nat) (words : List Nat) (s : State) : Host.Outcome State Fault Refusal :=
  onPart fn 256 s (doorbell fn value words)

/-- REPLY_HEAD written (R303): words the host has consumed leave the ring, and waiting replies follow (R304). -/
def replyHead (fn value : Nat) (s : State) : State :=
  let f := s.fn fn
  if !queuesOpen s fn || f.window then s
  else
    let d := value % 2 ^ 32
    let gone := (d + 2 ^ 32 - f.replyHead) % 2 ^ 32
    if (f.replyTail + 2 ^ 32 - f.replyHead) % 2 ^ 32 < gone then doorbellFault s fn
    else s.modFn fn (fun f => flushReplies f.replyWait { f with replyHead := d, replyWords := f.replyWords.drop gone })

/-- REPLY_HEAD_WRITE. -/
def execReplyHeadWrite (fn value : Nat) (s : State) : Host.Outcome State Fault Refusal := onPart fn 256 s (replyHead fn value)

/-- NOTICE_HEAD written (R303). -/
def noticeHead (fn value : Nat) (s : State) : State :=
  let f := s.fn fn
  if !queuesOpen s fn || f.window then s
  else
    let d := value % 2 ^ 32
    let gone := (d + 2 ^ 32 - f.noticeHead) % 2 ^ 32
    if (f.noticeTail + 2 ^ 32 - f.noticeHead) % 2 ^ 32 < gone then doorbellFault s fn
    else s.modFn fn (fun f => { f with noticeHead := d, noticeWords := f.noticeWords.drop gone })

/-- NOTICE_HEAD_WRITE. -/
def execNoticeHeadWrite (fn value : Nat) (s : State) : Host.Outcome State Fault Refusal := onPart fn 256 s (noticeHead fn value)

/-- A part-written command word abandoned (R305): it counts as a header failure, and the packet that needed it fails. -/
def abandonWord (s : State) (fn : Nat) : State :=
  let f := s.fn fn
  if f.part = [] then s
  else
    let s := s.modFn fn (fun f => { f with part := [] })
    let s := countFailure (notify s .malformedPacket (atFn fn) [fn, (f.cmdHead + f.words.length) % 2 ^ 32]) fn
    if (s.fn fn).words = [] then s else headerFailure s fn

/-- A whole command word written to the window: kept, or discarded with CMD_OVERRUN while 64 are held (R305). -/
def windowWord (s : State) (fn v : Nat) : State :=
  if (s.fn fn).stopped then s
  else if 64 ≤ (s.fn fn).words.length then countFailure (notify s .cmdOverrun (atFn fn) [fn]) fn
  else scan (takeWord s fn v) fn

/-- CMD_WINDOW written (R305): 64 bytes, or 8 bytes in ascending offset. -/
def windowWrite (fn offset : Nat) (data : Bytes) (s : State) : State :=
  if !queuesOpen s fn || !(s.fn fn).window then s
  else if data.length = 64 ∧ offset = 0 then windowWord (abandonWord s fn) fn (leNat data)
  else if data.length = 8 ∧ offset % 8 = 0 ∧ offset < 64 then
    if offset = 0 then
      (abandonWord s fn).modFn fn (fun f => { f with part := [leNat data] })
    else if offset ≠ 8 * (s.fn fn).part.length then abandonWord s fn
    else
      let part := (s.fn fn).part ++ [leNat data]
      if part.length < 8 then s.modFn fn (fun f => { f with part := part })
      else windowWord (s.modFn fn (fun f => { f with part := [] })) fn (leNat (part.flatMap (leBytes 8)))
  else s

/-- CMD_WINDOW_WRITE. -/
def execCmdWindowWrite (fn offset : Nat) (data : Bytes) (s : State) : Host.Outcome State Fault Refusal :=
  onPart fn 256 s (windowWrite fn offset data)

/-- What the last read of a register, a window or the management bus returned. -/
def returned (s : State) (b : Bytes) : State := s.modMgmt (fun m => { m with lastRead := b })

/-- The reason a window read finds no word, in the order of R310; none where the queue's word may be read. -/
def windowReason (s : State) (fn width : Nat) : Option Nat :=
  if !queuesOpen s fn then some 4
  else if width < 64 then some 5
  else if !(s.fn fn).window then some 2
  else none

/-- The reason of an empty window queue (R310). -/
def emptyReason (f : Fn) : Nat := if f.stopped then 3 else 1

/-- A not-valid word returned (R310). -/
def returnNotValid (s : State) (next reason : Nat) : State :=
  returned s (leBytes 64 (notValidWord s.led.version s.clock.count next reason s.clock.st.value))

/-- REPLY_WINDOW read (R305, R310): the next word is returned and removed. -/
def replyWindow (fn width : Nat) (s : State) : State :=
  let f := s.fn fn
  match windowReason s fn width with
  | some r => returnNotValid s 0 r
  | none =>
    match f.replyWords with
    | [] => returnNotValid s 0 (emptyReason f)
    | (r, i) :: rest =>
      let s := returned s (leBytes 64 (packWord (replyBytes r) (replyWordCount r) i 1))
      s.modFn fn (fun f => flushReplies f.replyWait { f with replyWords := rest, replyHead := (f.replyHead + 1) % 2 ^ 32 })

/-- REPLY_WINDOW_READ. -/
def execReplyWindowRead (fn width : Nat) (s : State) : Host.Outcome State Fault Refusal := onPart fn 256 s (replyWindow fn width)

/-- NOTICE_WINDOW read (R305, R310): the next word is returned and removed. -/
def noticeWindow (fn width : Nat) (s : State) : State :=
  let f := s.fn fn
  match windowReason s fn width with
  | some r => returnNotValid s (f.noticeSeq + 1) r
  | none =>
    match f.noticeWords with
    | [] => returnNotValid s (f.noticeSeq + 1) (emptyReason f)
    | (n, i) :: rest =>
      let s := returned s (leBytes 64 (packWord (noticeBytes n) (noticeWordCount n) i 1))
      s.modFn fn (fun f => { f with noticeWords := rest, noticeHead := (f.noticeHead + 1) % 2 ^ 32 })

/-- NOTICE_WINDOW_READ. -/
def execNoticeWindowRead (fn width : Nat) (s : State) : Host.Outcome State Fault Refusal :=
  onPart fn 256 s (noticeWindow fn width)

/-- A packet that has not arrived 1,000 mp after its first word is a header failure (R311). -/
def arrivalTimeout (fn : Nat) (s : State) : State :=
  match (s.fn fn).words with
  | [] => s
  | w :: _ => if w.at_ + 1000 < s.clock.count then scan (headerFailure s fn) fn else s

/-- PACKET_ARRIVAL_TIMEOUT. -/
def execPacketArrivalTimeout (fn : Nat) (s : State) : Host.Outcome State Fault Refusal := onPart fn 256 s (arrivalTimeout fn)

/-! ### Timers of host sessions -/

/-- A timer event of a host session. The keeper makes its record; while it does not run, nothing happens yet (R334, R438). -/
def onSession (fn session : Nat) (s : State) (f : Nat → Session → State) : Host.Outcome State Fault Refusal :=
  if session < 16 then onPart fn 256 s (fun s => if s.keeper.up then f (sessKey fn session) (s.sess (sessKey fn session)) else s) else .fault .noSuchPart

/-- The numbers missing between E and the newest held command. -/
def missing (x : Session) : List Nat :=
  (List.range 64).filterMap (fun i =>
    let n := x.next + i
    if (tlook x.held n).isNone && x.held.any (fun p => decide (n < p.1)) then some n else none)

/-- The held command that arrived first, by stamp, then number: its stamp and number. -/
def oldestHeld (x : Session) : Option (Nat × Nat) :=
  x.held.foldl (fun best p =>
    match p.2, best with
    | none, _ => best
    | some pk, none => some (pk.hdr.stamp, p.1)
    | some pk, some b => if pk.hdr.stamp < b.1 then some (pk.hdr.stamp, p.1) else some b) none

/-- The oldest held command has waited one gap interval: SEQ_GAP names the missing numbers (R326). -/
def gapNotice (s : State) (k : Nat) (x : Session) : State :=
  match oldestHeld x with
  | none => s
  | some (stamp, n) =>
    if (x.st = .opened ∨ x.st = .probation) ∧ x.gapNoticed ≠ n ∧ stamp + x.gap ≤ s.clock.count then
      notify (s.modSess k (fun x => { x with gapNoticed := n })) .seqGap (atFn (k / 16)) ([k / 16, k % 16, x.gen] ++ missing x)
    else s

/-- GAP_NOTICE_TIMEOUT. -/
def execGapNoticeTimeout (fn session : Nat) (s : State) : Host.Outcome State Fault Refusal :=
  onSession fn session s (gapNotice s)

/-- Two gap intervals have passed: every missing number below the oldest held command is marked skipped, E moves past
them and the held commands are released (R326). -/
def gapSkip (s : State) (k : Nat) (x : Session) : State :=
  match oldestHeld x with
  | none => s
  | some (stamp, n) =>
    if (x.st = .opened ∨ x.st = .probation) ∧ stamp + 2 * x.gap ≤ s.clock.count then
      let s := ((missing x).filter (fun m => decide (m < n))).foldl
        (fun s m => s.modSess k (fun x => { x with marks := tput x.marks m .skipped })) s
      afterNumber s k
    else s

/-- GAP_SKIP_TIMEOUT. -/
def execGapSkipTimeout (fn session : Nat) (s : State) : Host.Outcome State Fault Refusal := onSession fn session s (gapSkip s)

/-- The lease has run out, with no command of the session stamped in time still waiting (Table 12.11): LAPSED (R331). -/
def leaseExpiry (s : State) (k : Nat) (x : Session) : State :=
  if (x.st = .opened ∨ x.st = .probation) ∧ x.leaseEnd < s.clock.count ∧
      !(s.stamped.any (fun p => decide (p.hdr.fn = k / 16 ∧ p.hdr.session = k % 16 ∧ p.hdr.sgen = x.gen ∧ p.hdr.stamp ≤ x.leaseEnd)))
  then lapseSession s k else s

/-- LEASE_EXPIRY. -/
def execLeaseExpiry (fn session : Nat) (s : State) : Host.Outcome State Fault Refusal := onSession fn session s (leaseExpiry s)

/-- The lapse hold has run out: CLOSED, with SESSION_CLOSED sent (Table 12.10). -/
def lapseHoldExpiry (s : State) (k : Nat) (x : Session) : State :=
  if x.st = .lapsed ∧ x.lapsedAt + x.lapseHold ≤ s.clock.count then
    notify (closeSession s k) .sessionClosed (atFn (k / 16)) [k / 16, k % 16, x.gen]
  else s

/-- LAPSE_HOLD_EXPIRY. -/
def execLapseHoldExpiry (fn session : Nat) (s : State) : Host.Outcome State Fault Refusal :=
  onSession fn session s (lapseHoldExpiry s)

/-- 1,000,000 mp without a MALFORMED reply end PROBATION (R328). -/
def probationEnd (s : State) (k : Nat) (x : Session) : State :=
  if x.st = .probation ∧ x.lastMalformed + 1000000 ≤ s.clock.count then
    s.modSess k (fun x => { x with st := .opened, malformed := [] })
  else s

/-- PROBATION_END. -/
def execProbationEnd (fn session : Nat) (s : State) : Host.Outcome State Fault Refusal := onSession fn session s (probationEnd s)

end Sys2Proof.Machine
end

