-- ==== Sys2Proof/Machine/Sessions.lean ====
section
/-! DEFINITION. The session and function commands of Table 13.1: no-op, session-open, session-resume, session-status,
session-set, session-close and function-status (R322 to R333). -/

namespace Sys2Proof.Machine

open Sys2Proof

/-- no-op. -/
def noOpCmd : KCmd :=
  { code := 0x0001, cls := .query, parse := fun p => decide (p = []), body := fun _ _ _ => .query [] }

/-- NO_OP. -/
def execNoOp (h : CmdHdr) (p : Bytes) (s : State) : Host.Outcome State Fault Refusal := .next (kcpNoOp noOpCmd h p s)

/-- The parameters of Table 12.7 in a payload, 0 standing for a default or for no change. -/
def sessionParams (p : Bytes) : Bool :=
  fixedLayout 12 [] p && zeroOr (field p 0 4) 1000000 600000000 && zeroOr (field p 4 4) 1 3600000000 &&
    zeroOr (field p 8 4) 100 1000000

/-- A value, or the one that 0 stands for. -/
def orElse (v d : Nat) : Nat := if v = 0 then d else v

/-- Host sessions of a function that are not CLOSED. -/
def openSessions (s : State) (fn : Nat) : Nat :=
  ((List.range 16).filter (fun n => decide ((s.sess (sessKey fn n)).st ≠ .closed))).length

/-- Host sessions of the module that are not CLOSED. -/
def allSessions (s : State) : Nat := (s.led.sessions.filter (fun p => decide (p.2.st ≠ .closed))).length

/-- session-open: the lowest free number (log entry 15) opens with E = 1 and its generation increased (R322, R324). -/
def sessionOpenCmd : KCmd :=
  { code := 0x0002, cls := .commit, sessionless := true, parse := sessionParams
    body := fun s h p =>
      match lowest 16 (fun n => decide ((s.sess (sessKey h.fn n)).st = .closed)) with
      | none => .refuse .sessionLimit []
      | some n =>
        if 1024 ≤ allSessions s then .refuse .sessionLimit []
        else
          let k := sessKey h.fn n
          let gen := (s.sess k).gen + 1
          let x : Session :=
            { (default : Session) with
              st := .opened, gen := gen, next := 1, lease := orElse (field p 0 4) 10000000
              lapseHold := orElse (field p 4 4) 300000000, gap := orElse (field p 8 4) 10000
              leaseEnd := h.stamp + orElse (field p 0 4) 10000000 }
          .commit (fun s => s.modSess k (fun _ => x)) .ok (leBytes 4 n ++ leBytes 4 gen) }

/-- SESSION_OPEN. -/
def execSessionOpen (h : CmdHdr) (p : Bytes) (s : State) : Host.Outcome State Fault Refusal := .next (kcp sessionOpenCmd h p s)

/-- The replayed reply for a number in a resume (R333). -/
def replayOf (s : State) (session sgen seq : Nat) (m : Mark) : Option Reply :=
  let bare (st : Status) (code tag : Nat) : Reply :=
    { code := code, status := st, session := session, sgen := sgen, seq := seq, version := s.led.version
      milepost := s.clock.count, hostTag := tag, final := true, replayed := true, payload := [] }
  match m with
  | .cached _ r => some { r with replayed := true }
  | .executing _ (some r) => some { r with replayed := true }
  | .executing _ none => none
  | .skipped => some (bare .seqSkipped 0 0)
  | .nothing code tag => some (bare .replayUnavailable code tag)
  | .absent => none

/-- The replays of a resume, from max(L + 1, E − 64) to E − 1, ascending (R333). -/
def resumeReplays (h : CmdHdr) (p : Bytes) (s : State) : State :=
  let n := field p 0 4
  let x := s.sess (sessKey h.fn n)
  let first := Nat.max (field p 8 8 + 1) (x.next - 64)
  ((List.range 64).map (fun i => x.next - 64 + i)).foldl (fun s q =>
    if first ≤ q ∧ q < x.next then
      match replayOf s n x.gen q (tget x.marks q) with
      | some r => pushReply s h.fn r
      | none => s
    else s) s

/-- The state a lapsed host session returns to (Table 12.10): the one before it lapsed, or OPEN where 1,000,000 mp have
passed since the last MALFORMED reply (R328). -/
def stateBefore (x : Session) (now : Nat) : SessSt :=
  if x.st ≠ .lapsed then x.st
  else if x.before = .probation ∧ now < x.lastMalformed + 1000000 then .probation else .opened

/-- session-resume (R333). -/
def sessionResumeCmd : KCmd :=
  { code := 0x0003, cls := .commit, sessionless := true
    parse := fun p => fixedLayout 16 [] p && decide (field p 0 4 < 16)
    body := fun s h p =>
      let k := sessKey h.fn (field p 0 4)
      let x := s.sess k
      if x.gen = 0 then .refuse .sessionUnknown []
      else if x.gen ≠ field p 4 4 then .refuse .staleGeneration []
      else if x.st = .closed then .refuse .sessionUnknown []
      else
        .commit (fun s => s.modSess k (fun x =>
            { x with st := stateBefore x s.clock.count, leaseEnd := h.stamp + x.lease })) .ok
          (leBytes 8 x.next ++ leBytes 8 (s.led.version + 1) ++ leBytes 8 s.durable.version)
    follow := resumeReplays }

/-- SESSION_RESUME. -/
def execSessionResume (h : CmdHdr) (p : Bytes) (s : State) : Host.Outcome State Fault Refusal := .next (kcp sessionResumeCmd h p s)

/-- A host session's state in session-status. -/
def SessSt.code : SessSt → Nat
  | .opened => 0 | .probation => 1 | .lapsed => 2 | .closed => 3

/-- The counters of Table 12.2, in table order. -/
def counterList (c : QCounters) : List Nat :=
  [c.corrected, c.uncorrectable, c.headerFailures, c.malformed, c.internalCorrected, c.internalUncorrectable, c.doorbellFaults]

/-- session-status. -/
def sessionStatusCmd : KCmd :=
  { code := 0x0004, cls := .query, parse := fun p => decide (p = [])
    body := fun s h _ =>
      let x := s.sess (sessKey h.fn h.session)
      .query (leBytes 2 (SessSt.code x.st) ++ leBytes 2 x.held.length ++ leBytes 4 x.longs ++ leBytes 8 x.next
        ++ leBytes 8 s.durable.version ++ leBytes 8 x.leaseEnd ++ (counterList (s.fn h.fn).counters).flatMap (leBytes 8)) }

/-- SESSION_STATUS. -/
def execSessionStatus (h : CmdHdr) (p : Bytes) (s : State) : Host.Outcome State Fault Refusal := .next (kcp sessionStatusCmd h p s)

/-- session-set: 0 leaves a parameter unchanged; the parameters hold from the next command onward (R324). -/
def sessionSetCmd : KCmd :=
  { code := 0x0005, cls := .commit, parse := sessionParams
    body := fun _ h p =>
      .commit (fun s => s.modSess (sessKey h.fn h.session) (fun x =>
        { x with lease := orElse (field p 0 4) x.lease, lapseHold := orElse (field p 4 4) x.lapseHold
                 gap := orElse (field p 8 4) x.gap })) .ok [] }

/-- SESSION_SET. -/
def execSessionSet (h : CmdHdr) (p : Bytes) (s : State) : Host.Outcome State Fault Refusal := .next (kcp sessionSetCmd h p s)

/-- session-close: refused while a long command is outstanding; else CLOSED, the cache dropped (Table 12.10). -/
def sessionCloseCmd : KCmd :=
  { code := 0x0006, cls := .commit, parse := fun p => decide (p = [])
    body := fun s h _ =>
      let k := sessKey h.fn h.session
      if 0 < (s.sess k).longs then .refuse .sessionBusy [] else .commit (fun s => closeSession s k) .ok [] }

/-- SESSION_CLOSE. -/
def execSessionClose (h : CmdHdr) (p : Bytes) (s : State) : Host.Outcome State Fault Refusal := .next (kcp sessionCloseCmd h p s)

/-- Parties bound to a function. -/
def boundParties (s : State) (fn : Nat) : List Nat := (s.led.binds.filter (fun p => decide (p.2 = some fn))).map (·.1)

/-- function-status. -/
def functionStatusCmd : KCmd :=
  { code := 0x0007, cls := .query, sessionless := true, inMinimal := true, parse := fun p => decide (p = [])
    body := fun s h _ =>
      let f := s.fn h.fn
      .query (leBytes 1 (if f.window then 1 else 0) ++ leBytes 1 (if f.stopped then 1 else 0)
        ++ leBytes 2 (if s.power.minimal then 1 else 0) ++ leBytes 2 s.power.minReason ++ leBytes 2 (openSessions s h.fn)
        ++ leBytes 8 (f.noticeSeq + 1) ++ leBytes 8 s.led.version ++ leBytes 8 s.durable.version
        ++ leBytes 2 (boundParties s h.fn).length) }

/-- FUNCTION_STATUS. -/
def execFunctionStatus (h : CmdHdr) (p : Bytes) (s : State) : Host.Outcome State Fault Refusal := .next (kcp functionStatusCmd h p s)

end Sys2Proof.Machine
end

