-- ==== Sys2Proof/Machine/ContextEnd.lean ====
section
/-! DEFINITION. How a context and what it holds come to an end: its admitted pass, queued passes, sessions, tickets, slots
and SAVE object (R240, R257, R347, R492, R493). -/

namespace Sys2Proof.Machine

open Sys2Proof

/-- An object freed: its number may be used again, with a higher generation (R9). -/
def freeObj (s : State) (i : Nat) : State := s.modObj i (fun x => { (default : Obj) with gen := x.gen })

/-- The command an object's work answers to. -/
def workRef : ObjWork → Option CmdRef
  | .create r => some r
  | .move _ _ r => r
  | .grow _ _ r => some r
  | .write _ _ _ r => some r
  | .read _ _ _ r => some r
  | .saveCreate _ _ r => some r
  | _ => none

/-- A serving session ended with a status; its KV object is left to the host (Table 13.8). -/
def endServe (s : State) (w c n : Nat) (st : Status) : State :=
  s.modCtx w c (fun x => { x with serves := tmod x.serves n (fun v => { v with live := false, ended := some st, promptLeft := 0 }) })

/-- Every serving session of a context ended. -/
def endServes (s : State) (w c : Nat) (st : Status) : State :=
  (((s.ctx w c).serves.filter (fun p => p.2.live)).map (·.1)).foldl (fun s n => endServe s w c n st) s

/-- Every queued pass of a context ended, in order, within the record being committed. -/
def dropQueue (s : State) (w c : Nat) (st : Status) : State :=
  let q := (s.ctx w c).queue
  q.foldl (fun s p => dropQueued s p st) (s.modCtx w c (fun x => { x with queue := [] }))

/-- Tickets that satisfy a test done with: the number is free, and the wing that used it is remembered for the completions that
still come (R257). -/
def spendTickets (s : State) (f : Nat → Ticket → Bool) : State :=
  { s with tickets := s.tickets.foldl (fun u p =>
      if p.2.live && f p.1 p.2 then tput u p.1 { (default : Ticket) with wing := p.2.wing } else u) s.tickets }

/-- A context's tickets discarded (R240). -/
def dropTickets (s : State) (w c : Nat) : State :=
  spendTickets s (fun _ t => decide (t.wing = w ∧ t.context = c))

/-- Every context of every wing changed by a function of it and its numbers. -/
def State.mapCtx (s : State) (f : Nat → Nat → Ctx → Ctx) : State :=
  let g (w : Nat) (x : Wing) : Wing := { x with contexts := x.contexts.foldl (fun u c => tput u c.1 (f w c.1 c.2)) x.contexts }
  { s with led := { s.led with wings := s.led.wings.foldl (fun t w => tput t w.1 (g w.1 w.2)) s.led.wings } }

/-- A context ended with a status, within the record being committed: everything it held goes, and the wing is to choose
another if it was the one that ran (R250). -/
def endContextIn (s : State) (w c : Nat) (st : Status) : State :=
  let x := s.ctx w c
  if !x.live then s
  else
    let s := endPassIn s w c st
    let s := dropTickets (endServes (dropQueue s w c st) w c st) w c
    let made := workRef (s.obj x.saveObj).work
    let s := finishOpt (freeObj (releaseTiles s w c) x.saveObj) made .staleGeneration []
    let s := s.modCtx w c (fun x => { (default : Ctx) with gen := x.gen })
    let s := s.modWing w (fun v => { v with swap := match v.swap with
      | some p => if p.context = c then none else some p
      | none => none })
    if (s.wing w).running = some c then askSwitch (s.modWing w (fun v => { v with running := none })) w else s

/-- A context ended with a status, in a record of its own, and logged (R495). -/
def endContext (s : State) (w c : Nat) (st : Status) (at_ : At) (detail : List Nat) : State :=
  if (s.ctx w c).live then logEvent (endContextIn s.bump w c st) (0x8000 + st.value) 2 at_ detail else s

/-! ### Boundaries and removals (R240, R247) -/

/-- A wing's next boundary at or after a milepost (R247). -/
def nextBoundary (x : Wing) (m : Nat) : Nat :=
  if x.boundary ≠ 0 ∧ m ≤ x.boundary then x.boundary else ceilDiv m (Nat.max x.stage 1) * Nat.max x.stage 1

/-- A SCRUB entry of a wing. -/
def scrubEntry (w mp : Nat) : TtEntry := { mp := mp, cls := .scrub, wing := some w, arg := 0, late := false }

/-- Whether a wing's SCRUB entry is set. -/
def scrubSet (s : State) (w : Nat) : Bool := (s.tt.entries ++ s.tt.due).any (fun e => decide (e.cls = .scrub ∧ e.wing = some w))

/-- Rooms of a wing that are not FREE. -/
def wingRooms (s : State) (w : Nat) : List Nat := (s.led.rooms.filter (fun r => decide (r.2.st ≠ .free ∧ r.2.wing = w))).map (·.1)

/-- Update jobs of a wing. -/
def wingJobs (s : State) (w : Nat) : Bool := s.jobs.any (fun j => j.2.live && decide (j.2.wing = w))

/-- Whether steps 1 to 5 of a removal are done (R240). -/
def removalDone (s : State) (w : Nat) : Bool :=
  let x := s.wing w
  x.leaving && x.contexts.all (fun c => !c.2.live) && decide (wingRooms s w = []) && !wingJobs s w

/-- A removal carried on: its SCRUB entry is set once its earlier steps are done (R240, R412, R415). -/
def settleRemoval (s : State) (w : Nat) : State :=
  let x := s.wing w
  if removalDone s w ∧ x.sealed ∧ !x.clean ∧ x.scrub.isNone ∧ !scrubSet s w then
    setEntry s (scrubEntry w (nextBoundary x (s.clock.count + 2)))
  else s

end Sys2Proof.Machine
end

