-- ==== Sys2Proof/Machine/Place.lean ====
section
/-! DEFINITION. Where objects, rooms and windows lie (R171, R175 to R186): ranges, first fit, the refusals of Table 8.4, and
the moves of objects. -/

namespace Sys2Proof.Machine

open Sys2Proof

/-! ### Capacities -/

/-- 1 GiB. -/
def gib : Nat := 2 ^ 30

/-- Bytes of one pseudo-channel: 768 GiB over 512 (Table 1.1). -/
def pcBytes : Nat := 768 * gib / 512

/-- Bytes of one quarter-store slice (R171). -/
def sliceBytes : Nat := 2 ^ 20

/-- Bytes of one Loft channel's DIMMs (Table 1.1). -/
def loftBytes (s : State) : Nat := s.link.loftDimms * s.link.loftDimmGiB * gib

/-- Bytes of the committed CXL.mem region (R182, R388). -/
def regionBytes (s : State) : Nat := s.link.decoders.foldl (fun a d => if d.2.committed then a + d.2.size else a) 0

/-- The region's part at the top of every Loft channel (R182). -/
def regionPart (s : State) : Nat := regionBytes s / 16

/-- A fifteenth of a channel's part of the region, in whole units: what each other channel takes of it (R432). -/
def redirectShare (s : State) : Nat := ceilDiv (regionPart s / 4096) 15 * 4096

/-- Bytes reserved on each channel for the parts of channels that are out of service (R432, R433). -/
def redirected (s : State) : Nat := (s.led.lofts.filter (fun l => l.2.redirect)).length * redirectShare s

/-- Bytes of a Loft channel below what the region takes at its top (R182, R432). -/
def areaTop (s : State) : Nat := loftBytes s - regionPart s - redirected s

/-- Bytes of a Loft channel open to objects: less the region's part and the mirror area (R182, R360). -/
def loftOpen (s : State) (ch : Nat) : Nat := areaTop s - (s.loft ch).mirror

/-- Bytes of a unit open to objects. -/
def unitBytes (s : State) (t : Tier) (u : Nat) : Nat :=
  match t with
  | .hbm => pcBytes
  | .quarter => sliceBytes
  | .loft => loftOpen s u
  | .host => 0

/-! ### Ranges -/

/-- The units of a set, ascending. -/
def setUnits (set : Nat) : List Nat := maskList 512 set

/-- The range of a place in a unit: its start and length. -/
def Place.spanOn (p : Place) (t : Tier) (u : Nat) : Option (Nat × Nat) :=
  if p.tier = t ∧ p.set.testBit u ∧ 0 < p.len then
    (p.starts[((setUnits p.set).takeWhile (fun v => decide (v < u))).length]?).map (fun a => (a, p.len))
  else none

/-- The place an object's work is filling, if any. -/
def workDest : ObjWork → Option Place
  | .move d _ _ => some d
  | .grow _ d _ => some d
  | .retire d => some d
  | .evacuate d => some d
  | _ => none

/-- Every range in use: objects and the destinations of their moves, rooms, adapter images at their Loft homes, and window
slots. -/
def allPlaces (s : State) : List Place :=
  s.led.objects.flatMap (fun p => if p.2.live then p.2.place :: (workDest p.2.work).toList else [])
    ++ s.led.rooms.flatMap (fun p => if p.2.st = .free then [] else [p.2.place])
    ++ s.led.handles.flatMap (fun p => if 0 < p.2.home.len then [p.2.home] else [])
    ++ s.led.wings.flatMap (fun p => if p.2.live then p.2.window.places else [])

/-- The ranges in use on a unit. -/
def spansOn (s : State) (t : Tier) (u : Nat) : List (Nat × Nat) := (allPlaces s).filterMap (fun p => p.spanOn t u)

/-- Whether a range is free of others. -/
def spanFree (used : List (Nat × Nat)) (start len : Nat) : Bool :=
  used.all (fun p => decide (start + len ≤ p.1) || decide (p.1 + p.2 ≤ start))

/-- First fit from the lowest address upward: a start is the bottom or the end of a range in use (R176). -/
def firstFit (used : List (Nat × Nat)) (cap len : Nat) : Option Nat :=
  (0 :: used.map (fun p => p.1 + p.2)).foldl (fun best c =>
    if c + len ≤ cap && spanFree used c len && (match best with | some b => decide (c < b) | none => true) then some c else best) none

/-- Bytes an object takes in each of `n` units, striped in 4 KiB units (R176). -/
def perUnit (size n : Nat) : Nat := ceilDiv (ceilDiv size 4096) n * 4096

/-- A range found for an object in a set of a tier, given what is in use (R176, R178). -/
def fitPlace (s : State) (used : Tier → Nat → List (Nat × Nat)) (t : Tier) (set size : Nat) : Option Place :=
  let us := setUnits set
  let len := perUnit size us.length
  let p (starts : List Nat) : Place := { (default : Place) with tier := t, set := set, starts := starts, len := len }
  if us = [] then none
  else match t with
    | .hbm => (firstFit (us.flatMap (used .hbm)) pcBytes len).map (fun a => p (List.replicate us.length a))
    | .host => none
    | _ =>
      let starts := us.filterMap (fun u => firstFit (used t u) (unitBytes s t u) len)
      if starts.length = us.length then some (p starts) else none

/-- A place for an object in the state as it is. -/
def findPlace (s : State) (t : Tier) (set size : Nat) : Option Place := fitPlace s (spansOn s) t set size

/-- Ranges in use without those of some places. -/
def spansWithout (s : State) (gone : List Place) (t : Tier) (u : Nat) : List (Nat × Nat) :=
  ((allPlaces s).filter (fun p => !(gone.contains p))).filterMap (fun p => p.spanOn t u)

/-- A place in a host buffer. -/
def hostPlace (fn addr : Nat) : Place := { (default : Place) with tier := .host, host := addr, hostFn := fn }

/-- Several places found one after the other, each in what the ones before it left. -/
def findPlaces (s : State) (t : Tier) (set size : Nat) : Nat → List Place → List Place
  | 0, l => l
  | n + 1, l =>
    match fitPlace s (fun t u => spansOn s t u ++ l.filterMap (fun p => p.spanOn t u)) t set size with
    | some p => findPlaces s t set size n (l ++ [p])
    | none => l

/-! ### Refusals (Tables 8.3, 8.4) -/

/-- Where a kind may live (Table 8.3). -/
def kindMayLive (k : Kind) (t : Tier) : Bool :=
  match k, t with
  | .baseCopy, t => decide (t = .hbm)
  | .mirror, _ => false
  | _, .hbm => true
  | _, .loft => true
  | .activation, .quarter => true
  | .scratch, .quarter => true
  | .kv, .host => true
  | .room, .host => true
  | _, _ => false

/-- The units of a tier that a wing owns. -/
def wingUnits (x : Wing) (t : Tier) : Nat :=
  match t with
  | .hbm => x.pcs
  | .quarter => x.slices
  | .loft => x.loft
  | .host => 0

/-- Whether every unit of a set takes new ranges: no pseudo-channel under retirement, no Loft channel out of service
(R428, R431). -/
def unitsTake (s : State) (t : Tier) (set : Nat) : Bool :=
  match t with
  | .hbm => (setUnits set).all (fun u => !(s.pc u).retiring && !(s.pc u).retired)
  | .loft => (setUnits set).all (fun u => decide ((s.loft u).st = .inService))
  | _ => true

/-- Whether a placement is denied: the tier, the units, or the owner in a sealed wing (Table 8.4, R353). -/
def placeDenied (s : State) (w : Nat) (k : Kind) (owner : Option Nat) (t : Tier) (set : Nat) : Bool :=
  let x := s.wing w
  !kindMayLive k t || (decide (t ≠ .host) && !within set (wingUnits x t)) || !unitsTake s t set
    || (x.sealed && decide (owner ≠ some x.party))

/-- Whether a party's key is out of use for a placement: absent, or under removal (R180, R407). -/
def keyAbsent (s : State) (party : Nat) : Bool :=
  decide (tget s.secure.partyKeys party = none) || s.secure.removals.any (fun r => decide (r.party = party))

/-- Whether a placement needs a key that is absent (R180). Moves out of the Loft need it too. -/
def loftKeyAbsent (s : State) (owner : Option Nat) (t : Tier) : Bool :=
  match t, owner with
  | .loft, some p => keyAbsent s p
  | _, _ => false

/-- A tier's code in a payload (Table 13.9). -/
def tierOf (n : Nat) : Tier :=
  match n with
  | 0 => .hbm | 1 => .quarter | 2 => .loft | _ => .host

/-- The code of a tier. -/
def Tier.code : Tier → Nat
  | .hbm => 0 | .quarter => 1 | .loft => 2 | .host => 3

/-- A kind from its code (Table 8.3). -/
def kindOf (n : Nat) : Kind :=
  match n with
  | 1 => .room | 2 => .gradient | 3 => .moment | 4 => .kv | 5 => .activation | 6 => .save | 7 => .mirror | 8 => .scratch
  | _ => .baseCopy

/-- The code of a kind. -/
def Kind.code : Kind → Nat
  | .room => 1 | .gradient => 2 | .moment => 3 | .kv => 4 | .activation => 5 | .save => 6 | .mirror => 7 | .scratch => 8
  | .baseCopy => 9

/-- Bits a set may have in a tier. -/
def setBits (t : Tier) : Nat :=
  match t with
  | .hbm => 512
  | .quarter => 256
  | .loft => 16
  | .host => 0

/-- Whether a set names units as its tier wants (R353). -/
def setShaped (t : Tier) (set : Nat) : Bool :=
  match t with
  | .host => decide (set = 0)
  | t => decide (0 < set ∧ set < 2 ^ setBits t)

/-! ### Rates of the module's own bookkeeping: what holds a range -/

/-- Objects with a range on a unit of a tier, ascending. -/
def objectsOn (s : State) (t : Tier) (u : Nat) : List Nat :=
  (s.led.objects.filter (fun p => p.2.live && (p.2.place.spanOn t u).isSome)).map (·.1)

/-- Rooms with a range on a pseudo-channel, ascending. -/
def roomsOn (s : State) (u : Nat) : List Nat :=
  (s.led.rooms.filter (fun p => decide (p.2.st ≠ .free) && (p.2.place.spanOn .hbm u).isSome)).map (·.1)

/-- Whether any range lies on a unit of a tier. -/
def unitHolds (s : State) (t : Tier) (u : Nat) : Bool := (spansOn s t u) ≠ []

/-- The place of an object. -/
def atObj (s : State) (i : Nat) : At :=
  let x := s.obj i
  { wing := some x.wing, party := x.owner, object := some i, kind := 7, place := x.wing }

/-- Table 16.5. -/
def LoftSt.code : LoftSt → Nat
  | .inService => 0 | .evacuating => 1 | .evacuated => 2 | .returning => 3 | .down => 4

/-- The body of a LOFT notice: the channel and its state (R431). -/
def loftBody (s : State) (c : Nat) : List Nat := [c, LoftSt.code (s.loft c).st]

/-! ### Adapter images -/

/-- Header bytes of an image of `P` points: H (R136). -/
def headerBytes (points : Nat) : Nat := ceilDiv (64 + 48 * points) 4096 * 4096

/-- Bytes of a point block: p (R136). -/
def blockBytes (width rank : Nat) (biases : Bool) : Nat :=
  ceilDiv (4 * width * rank + (if biases then 2 * (width + rank) else 0)) 4096 * 4096

/-- Bytes of an image. -/
def Image.bytes (i : Image) : Nat := headerBytes i.points.length + i.points.length * blockBytes i.width i.rank i.biases

end Sys2Proof.Machine
end

