-- ==== Sys2Proof/Machine/Moves.lean ====
section
/-! DEFINITION. Objects (R183 to R190, R353, R354): their commands, their moves and fills, and the moves that a retirement
(R428 to R430) or an evacuation (R432, R433) starts. -/

namespace Sys2Proof.Machine

open Sys2Proof

/-! ### What an object is under -/

/-- Whether an object's work is a transfer to or from the host. -/
def inTransfer : ObjWork → Bool
  | .write _ _ _ _ => true
  | .read _ _ _ _ => true
  | _ => false

/-- Serving sessions of a KV object ended (R350, Table 8.8). -/
def endKvSessions (s : State) (i : Nat) : State :=
  s.led.wings.foldl (fun s w => w.2.contexts.foldl (fun s c =>
    (c.2.serves.filter (fun v => v.2.live && decide (v.2.kv = i))).foldl (fun s v => endServe s w.1 c.1 v.1 .kvLost) s) s) s

/-- An object damaged (R187): whatever moves it stops, its destination is released, and its command ends with a status. -/
def damageObj (s : State) (i : Nat) (st : Status) : State :=
  let x := s.obj i
  let s := s.modObj i (fun x => { x with st := .damaged, work := .none, content := [] })
  finishOpt s (workRef x.work) st []

/-! ### Retirement and evacuation -/

/-- Objects that a retirement or evacuation may move next: on the unit, idle, not waiting for space, and of no wing that is
being scrubbed (Table 15.17). -/
def moveCandidates (s : State) (t : Tier) (u : Nat) : List Nat :=
  (objectsOn s t u).filter (fun i => let x := s.obj i; decide (x.work = .none ∧ x.st = .home) && !x.blocked && (s.wing x.wing).scrub.isNone)

/-- Whether a move of a retirement or an evacuation is under way. -/
def unitMoving (s : State) (t : Tier) : Bool :=
  s.led.objects.any (fun p => match p.2.work with
    | .retire _ => decide (t = .hbm)
    | .evacuate _ => decide (t = .loft)
    | _ => false)

/-- The set an evacuated object goes to: its set less the channel, or the lowest other channel of its wing (R432). -/
def evacuatedSet (s : State) (i ch : Nat) : Nat :=
  let x := s.obj i
  let rest := without x.place.set (2 ^ ch)
  if rest ≠ 0 then rest
  else match lowest 16 (fun u => decide (u ≠ ch) && (s.wing x.wing).loft.testBit u && decide ((s.loft u).st = .inService)) with
    | some u => 2 ^ u
    | none => 0

/-- A place in the mirror areas of a set of Loft channels, first fit in each area. -/
def fitArea (s : State) (gone : List Place) (set size : Nat) : Option Place :=
  let us := setUnits set
  let len := perUnit size (Nat.max us.length 1)
  let starts := us.filterMap (fun u =>
    if (s.loft u).mirror = 0 ∨ (s.loft u).st ≠ .inService then none
    else firstFit ((0, areaTop s - (s.loft u).mirror) :: spansWithout s gone .loft u) (areaTop s) len)
  if us ≠ [] ∧ starts.length = us.length then some { (default : Place) with tier := .loft, set := set, starts := starts, len := len } else none

/-- The place an evacuated object goes to (R432): a MIRROR object stays within the mirror areas. -/
def evacuatedPlace (s : State) (i ch : Nat) : Option Place :=
  let x := s.obj i
  if x.kind = .mirror then
    fitArea s [] (listMask (upTo 16 (fun u => decide (u ≠ ch ∧ 0 < (s.loft u).mirror ∧ (s.loft u).st = .inService)))) x.size
  else findPlace s .loft (evacuatedSet s i ch) x.size

/-- The next object of a retirement set moving, or told to wait (R428, R430). -/
def retireStep (s : State) (pc i : Nat) : State :=
  let x := s.obj i
  match findPlace s .hbm (without x.place.set (2 ^ pc)) x.size with
  | some d => s.modObj i (fun x => { x with st := .moving, work := .retire d })
  | none => notify (s.modObj i (fun x => { x with blocked := true })) .pcRetireBlocked (atObj s i) [pc, i]

/-- Objects of a retirement taken in ascending order until one moves (R428). -/
def retireNext (pc : Nat) (s : State) : State :=
  (moveCandidates s .hbm pc).foldl (fun s i => if unitMoving s .hbm then s else retireStep s pc i) s

/-- Objects of an evacuation taken in ascending order until one moves (R433). -/
def evacuateNext (ch : Nat) (s : State) : State :=
  (moveCandidates s .loft ch).foldl (fun s i =>
    if unitMoving s .loft then s
    else match evacuatedPlace s i ch with
      | some d => s.modObj i (fun x => { x with st := .moving, work := .evacuate d })
      | none => s.modObj i (fun x => { x with blocked := true })) s

/-- The pseudo-channels under retirement. -/
def retiringPcs (s : State) : List Nat := (s.led.pcs.filter (fun p => p.2.retiring && !p.2.retired)).map (·.1)

/-- The Loft channels under evacuation. -/
def evacuatingLofts (s : State) : List Nat := (s.led.lofts.filter (fun p => decide (p.2.st = .evacuating))).map (·.1)

/-- Rooms on a retiring pseudo-channel placed anew where there is room; their generations stay (R428). The table has no
event for a room's move, so it takes effect at once (log entry 30). -/
def retireRooms (pc : Nat) (s : State) : State :=
  (roomsOn s pc).foldl (fun s r =>
    let x := s.room r
    match findPlace s .hbm (without x.place.set (2 ^ pc)) (x.mib * 2 ^ 20) with
    | some d => s.modRoom r (fun x => { x with place := d })
    | none => s) s

/-- The set an evacuated image goes to: its set less the channel, or the lowest other channel of the wing that owns it (R432). -/
def imageSet (s : State) (i ch : Nat) : Nat :=
  let rest := without (s.handle i).home.set (2 ^ ch)
  if rest ≠ 0 then rest
  else match lowest 16 (fun w => (s.wing w).live && (s.wing w).loft.testBit ch) with
    | none => 0
    | some w =>
      match lowest 16 (fun u => decide (u ≠ ch) && (s.wing w).loft.testBit u && decide ((s.loft u).st = .inService)) with
      | some u => 2 ^ u
      | none => 0

/-- Adapter images at home on a channel. -/
def imagesOn (s : State) (ch : Nat) : List Nat := (s.led.handles.filter (fun h => (h.2.home.spanOn .loft ch).isSome)).map (·.1)

/-- Adapter images at home on an evacuating channel moved off it; as with rooms, the table has no event for it (log entry 30). -/
def evacuateImages (ch : Nat) (s : State) : State :=
  (imagesOn s ch).foldl (fun s i =>
    match findPlace s .loft (imageSet s i ch) (s.handle i).image.bytes with
    | some d => s.modHandle i (fun x => { x with home := d, loftSet := d.set })
    | none => s) s

/-- Whether an object's work is with host memory: a transfer, or a move, a creation or a growth that a host buffer is an end of. -/
def hostTransfer (x : Obj) : Bool :=
  inTransfer x.work || (match x.work with
    | .move d _ _ => decide (d.tier = .host) || decide (x.place.tier = .host)
    | .create _ => decide (x.place.tier = .host)
    | .grow _ d _ => decide (d.tier = .host)
    | _ => false)

/-- A range whose object-write has failed: each line holds old or new bytes, and the spec does not say which (Table 14.4): free
values. -/
def torn (s : State) (m : Mem) (off len : Nat) : Mem :=
  mstore m off ((Config.freeBytes s.free len ++ List.replicate len 0).take len)

/-- An object's work with the host ended by a failed host access (Table 14.4): a move stops with its source kept, a creation is
freed, and an object-write leaves its range torn. -/
def endHostWork (s : State) (i : Nat) : State :=
  let x := s.obj i
  let s := match x.work with
    | .create _ => freeObj s i
    | .write off len _ _ => s.draw.modObj i (fun x => { x with work := .none, content := torn s x.content off len })
    | _ => s.modObj i (fun x => { x with work := .none, st := if x.st = .moving then .home else x.st })
  finishOpt s (workRef x.work) .hostAccessFault []

/-- Whether an object of a party is being moved. -/
def partyMoving (s : State) (party : Nat) : Bool :=
  s.led.objects.any (fun o => o.2.live && decide (o.2.owner = some party) && (workDest o.2.work).isSome)

/-- A key removal completed: the key is wiped (Table 13.14). -/
def endRemoval (s : State) (r : KeyRemoval) : State :=
  finish (s.modSecure (fun x =>
    { x with partyKeys := terase x.partyKeys r.party, removals := x.removals.filter (fun q => decide (q ≠ r)) })) r.ref .ok []

/-- Key removals completed once every move of their party's objects has committed (R407, Table 8.5). -/
def settleRemovals (s : State) : State :=
  if !s.keeper.up then s
  else (s.secure.removals.filter (fun r => !partyMoving s r.party)).foldl endRemoval s

/-- Every retirement and evacuation carried on. -/
def carryMoves (s : State) : State :=
  let s := settleRemovals s
  let s := (retiringPcs s).foldl (fun s p => retireRooms p (retireNext p s)) s
  (evacuatingLofts s).foldl (fun s c => evacuateImages c (evacuateNext c s)) s

/-- Waiting objects of a wing tried again, after an object-free, object-resize or window-set of the wing (R430). -/
def retryBlocked (s : State) (w : Nat) : State :=
  carryMoves { s with led := { s.led with objects := s.led.objects.foldl (fun t p =>
    if p.2.blocked ∧ p.2.wing = w then tput t p.1 { p.2 with blocked := false } else t) s.led.objects } }

/-! ### Commits -/

/-- An object at its new home, its old one released (R184). -/
def arriveObj (s : State) (i : Nat) (d : Place) : State :=
  chargeBytes (s.modObj i (fun x => { x with place := d, st := .home, work := .none })) (s.obj i).owner (s.obj i).size

/-- OBJECT_MOVE_COMMIT: the destination is complete and the move commits (R184, R185, R428, R433). -/
def objectMoveCommit (i : Nat) (s : State) : State :=
  let x := s.obj i
  if !x.live || decide (x.st ≠ .moving) || !s.keeper.up then s
  else match x.work with
    | .move d _ ref => carryMoves (finishOpt (arriveObj s.bump i d) ref .ok [])
    | .retire d => carryMoves (arriveObj s.bump i d)
    | .evacuate d => carryMoves (arriveObj s.bump i d)
    | .grow size d ref =>
      carryMoves (finishIn ((arriveObj s.bump i d).modObj i (fun x => { x with size := size })) ref .ok [])
    | _ => s

/-- The final payload of a creation (Table 13.10). -/
def objPayload (s : State) (i : Nat) : Bytes := leBytes 4 i ++ leBytes 4 (s.obj i).gen

/-- The payload of a context-create (Table 13.5). -/
def ctxPayload (s : State) (w c : Nat) : Bytes :=
  let x := s.ctx w c
  leBytes 4 c ++ leBytes 4 x.gen ++ leBytes 4 x.saveObj ++ leBytes 4 x.saveGen

/-- OBJECT_FILL_DONE: the zero fill, or the shard copy, is complete and the creation or the growth in place commits
(R185, R198). -/
def objectFillDone (i : Nat) (s : State) : State :=
  let x := s.obj i
  if !x.live || !s.keeper.up then s
  else match x.work with
    | .create ref => finishIn (s.bump.modObj i (fun x => { x with st := .home, work := .none })) ref .ok (objPayload s i)
    | .saveCreate w c ref => finishIn (s.bump.modObj i (fun x => { x with st := .home, work := .none })) ref .ok (ctxPayload s w c)
    | .grow size d ref =>
      if x.st = .moving then s
      else finishIn (s.bump.modObj i (fun x => { x with place := d, size := size, work := .none })) ref .ok []
    | _ => s

/-- OBJECT_FILL_DONE. -/
def execObjectFillDone (object : Nat) (s : State) : Host.Outcome State Fault Refusal := onPart object 262144 s (objectFillDone object)

/-- OBJECT_TRANSFER_DONE: an object-write's bytes are in the object, or an object-read's are at the host (R354). -/
def objectTransferDone (i : Nat) (bytes : Bytes) (s : State) : State :=
  let x := s.obj i
  if !x.live || !s.keeper.up then s
  else match x.work with
    | .write off len _ ref =>
      if bytes.length = len then
        finishIn (chargeBytes (s.bump.modObj i (fun x => { x with work := .none, content := mstore x.content off bytes })) x.owner len) ref .ok []
      else s
    | .read _ len _ ref => finishIn (chargeBytes (s.bump.modObj i (fun x => { x with work := .none })) x.owner len) ref .ok []
    | _ => s

/-- OBJECT_TRANSFER_DONE. -/
def execObjectTransferDone (object : Nat) (bytes : Bytes) (s : State) : Host.Outcome State Fault Refusal :=
  onPart object 262144 s (objectTransferDone object bytes)

/-! ### object-create -/

/-- The layout of Table 13.9 and the ranges of R353. -/
def createParse (p : Bytes) : Bool :=
  let kind := field p 0 1
  let copy := decide (kind = 9)
  fixedLayout 112 [(3, 1), (10, 6), (97, 3), (108, 4)] p && inRange kind 1 9 && decide (field p 1 1 < 4 ∧ field p 2 1 < 16)
    && (decide (field p 8 2 < 4096) || decide (field p 8 2 = 0xFFFF)) && decide (4096 ≤ field p 16 8 ∧ field p 16 8 % 4096 = 0)
    && setShaped (tierOf (field p 1 1)) (field p 24 64)
    && (if field p 1 1 = 3 then decide (field p 88 8 % 4096 = 0) else decide (field p 88 8 = 0)) && decide (field p 96 1 < 4)
    && (if copy then decide (1 ≤ field p 104 4 ∧ field p 16 8 = 2 ^ 28 * field p 104 4)
        else decide (field p 96 1 = 0 ∧ field p 100 4 = 0 ∧ field p 104 4 = 0))

/-- The owner a payload names: 0xFFFF is the module. -/
def ownerOf (n : Nat) : Option Nat := if n = 0xFFFF then none else some n

/-- Live objects of the module. -/
def liveObjects (s : State) : Nat := (s.led.objects.filter (fun p => p.2.live)).length

/-- Whether a BASE_COPY is denied: another base than the wing's, or shards past the image (R353). -/
def copyDenied (s : State) (w base first count : Nat) : Bool :=
  decide (base ≠ (s.wing w).base) || decide ((s.base base).st = .ready ∧ (s.base base).shards < first + count)

/-- A new object in a free number (R9, R183). -/
def newObj (s : State) (i : Nat) (x : Obj) : State := s.modObj i (fun o => { x with live := true, gen := o.gen + 1 })

/-- The lowest free object number. -/
def freeObjNumber (s : State) : Nat := freeNumber (fun x : Obj => x.live) s.led.objects 0

/-- object-create (R353). -/
def objectCreateCmd : KCmd :=
  { code := 0x0501, cls := .long, parse := createParse
    perm := fun s h p => mayNameWing s h.fn (field p 2 1)
    gens := fun s p => wingCurrent s (field p 2 1) (field p 4 4)
    names := fun _ p => [field p 2 1]
    body := fun s h p =>
      let k := kindOf (field p 0 1)
      let t := tierOf (field p 1 1)
      let w := field p 2 1
      let owner := ownerOf (field p 8 2)
      let set := field p 24 64
      let size := field p 16 8
      let i := freeObjNumber s
      if k = .room ∨ k = .mirror then .refuse .placeDenied []
      else if placeDenied s w k owner t set || (decide (k = .baseCopy) && copyDenied s w (field p 96 1) (field p 100 4) (field p 104 4)) then
        .refuse .placeDenied []
      else if loftKeyAbsent s owner t then .refuse .keyAbsent []
      else if k = .baseCopy ∧ (s.base (field p 96 1)).st ≠ .ready then .refuse .baseNotReady []
      else
        match if t = .host then some (hostPlace h.fn (field p 88 8)) else findPlace s t set size with
        | none => .refuse .placeNoSpace []
        | some place =>
          if 262144 ≤ liveObjects s ∨ 262144 ≤ i then .refuse .objectLimit []
          else
            let x : Obj :=
              { (default : Obj) with
                kind := k, owner := owner, wing := w, size := size, st := .moving, place := place
                work := .create (refOf h 0x0501), base := field p 96 1, firstShard := field p 100 4, shards := field p 104 4 }
            .long (fun s => newObj s i x) .accepted (leBytes 4 i ++ leBytes 4 ((s.obj i).gen + 1)) none }

/-- OBJECT_CREATE. -/
def execObjectCreate (h : CmdHdr) (p : Bytes) (s : State) : Host.Outcome State Fault Refusal := .next (kcp objectCreateCmd h p s)

/-! ### object-move, object-resize, object-free -/

/-- Whether a function may name an object: its owner's, or VF0 (R341). -/
def mayNameObj (s : State) (fn i : Nat) : Bool := mayActFor s fn (s.obj i).owner

/-- The states that Table 8.4 refuses a move or resize for. A ROOM object is placed by adapter-load and checkout alone
(chapter 8's placement; log entry 51). -/
def moveRefused (x : Obj) : Option Status :=
  if x.kind = .room then some .placeDenied
  else if 0 < x.refs then some .objectBusy
  else if x.st = .damaged ∨ x.st = .absent then some .objectDamaged
  else if x.st = .moving then some .objectMoving
  else if x.work ≠ .none then some .objectBusy
  else none

/-- object-move (R184, Table 8.4). -/
def objectMoveCmd : KCmd :=
  { code := 0x0502, cls := .long
    parse := fun p => fixedLayout 88 [(9, 7)] p && decide (field p 8 1 < 4) && setShaped (tierOf (field p 8 1)) (field p 16 64)
      && (if field p 8 1 = 3 then decide (field p 80 8 % 4096 = 0) else decide (field p 80 8 = 0))
    perm := fun s h p => mayNameObj s h.fn (field p 0 4)
    gens := fun s p => objCurrent s (field p 0 4) (field p 4 4)
    names := fun s p => [(s.obj (field p 0 4)).wing]
    body := fun s h p =>
      let i := field p 0 4
      let x := s.obj i
      let t := tierOf (field p 8 1)
      if placeDenied s x.wing x.kind x.owner t (field p 16 64) then .refuse .placeDenied []
      else if loftKeyAbsent s x.owner t || loftKeyAbsent s x.owner x.place.tier then .refuse .keyAbsent []
      else match moveRefused x with
        | some st => .refuse st []
        | none =>
          match if t = .host then some (hostPlace h.fn (field p 80 8)) else findPlace s t (field p 16 64) x.size with
          | none => .refuse .placeNoSpace []
          | some d =>
            .long (fun s => s.modObj i (fun x => { x with st := .moving, work := .move d x.size (some (refOf h 0x0502)) })) .accepted [] none }

/-- OBJECT_MOVE. -/
def execObjectMove (h : CmdHdr) (p : Bytes) (s : State) : Host.Outcome State Fault Refusal := .next (kcp objectMoveCmd h p s)

/-- A place extended where it lies, if the addresses above it are free in every unit (R185). -/
def extendPlace (s : State) (d : Place) (size : Nat) : Option Place :=
  let us := setUnits d.set
  let len := perUnit size us.length
  let used := spansWithout s [d]
  if (us.zip d.starts).all (fun p => decide (p.2 + len ≤ unitBytes s d.tier p.1) && spanFree (used d.tier p.1) p.2 len) then
    some { d with len := len }
  else none

/-- A place cut to a smaller size. -/
def shrinkPlace (d : Place) (size : Nat) : Place :=
  if d.tier = .host then d else { d with len := perUnit size (setUnits d.set).length }

/-- object-resize (R185). -/
def objectResizeCmd : KCmd :=
  { code := 0x0503, cls := .long
    parse := fun p => fixedLayout 16 [] p && decide (4096 ≤ field p 8 8 ∧ field p 8 8 % 4096 = 0)
    perm := fun s h p => mayNameObj s h.fn (field p 0 4)
    gens := fun s p => objCurrent s (field p 0 4) (field p 4 4)
    names := fun s p => [(s.obj (field p 0 4)).wing]
    body := fun s h p =>
      let i := field p 0 4
      let x := s.obj i
      let size := field p 8 8
      let ref := refOf h 0x0503
      match moveRefused x with
      | some st => .refuse st []
      | none =>
        if size ≤ x.size then
          .long (fun s => s) .accepted [] (some (fun s =>
            let s := s.bump.modObj i (fun x =>
              { x with size := size, place := shrinkPlace x.place size, content := x.content.filter (fun c => decide (c.1 < size)) })
            retryBlocked (finishIn s ref .ok []) x.wing))
        else if x.place.tier = .host then
          .long (fun s => s.modObj i (fun x => { x with work := .grow size x.place ref })) .accepted [] none
        else match extendPlace s x.place size with
          | some d => .long (fun s => s.modObj i (fun x => { x with work := .grow size d ref })) .accepted [] none
          | none =>
            match findPlace s x.place.tier x.place.set size with
            | some d => .long (fun s => s.modObj i (fun x => { x with st := .moving, work := .grow size d ref })) .accepted [] none
            | none => .refuse .placeNoSpace [] }

/-- OBJECT_RESIZE. -/
def execObjectResize (h : CmdHdr) (p : Bytes) (s : State) : Host.Outcome State Fault Refusal := .next (kcp objectResizeCmd h p s)

/-- An object freed by command: what it was under stops with STALE_GENERATION in the same record (Table 8.5). -/
def freeByCommand (i : Nat) (s : State) : State :=
  let x := s.obj i
  let s := if x.kind = .kv then endKvSessions s i else s
  retryBlocked (finishOpt (freeObj s i) (workRef x.work) .staleGeneration []) x.wing

/-- object-free (R186, R189). -/
def objectFreeCmd : KCmd :=
  { code := 0x0504, cls := .commit, parse := fun p => fixedLayout 8 [] p
    perm := fun s h p => mayNameObj s h.fn (field p 0 4)
    gens := fun s p => objCurrent s (field p 0 4) (field p 4 4)
    names := fun s p => [(s.obj (field p 0 4)).wing]
    body := fun s _ p =>
      if (s.obj (field p 0 4)).kind = .room then .refuse .placeDenied []
      else if 0 < (s.obj (field p 0 4)).refs then .refuse .objectBusy [] else .commit (freeByCommand (field p 0 4)) .ok [] }

/-- OBJECT_FREE. -/
def execObjectFree (h : CmdHdr) (p : Bytes) (s : State) : Host.Outcome State Fault Refusal := .next (kcp objectFreeCmd h p s)

/-! ### object-status, object-write, object-read -/

/-- The code of an object state (Table 13.10). -/
def ObjSt.code : ObjSt → Nat
  | .home => 0 | .moving => 1 | .damaged => 2 | .absent => 3

/-- An object as object-status shows it: a ROOM object's state and home are its handle's (R183, log entry 51). -/
def shownObj (s : State) (i : Nat) : Obj :=
  let x := s.obj i
  if x.kind ≠ .room then x
  else match s.led.handles.find? (fun h => decide (h.2.st ≠ .unused ∧ h.2.obj = i)) with
    | none => x
    | some (_, h) =>
      let st : ObjSt := match h.st with
        | .resident | .home | .unused => .home
        | .loading | .leaving => .moving
        | .damaged => .damaged
        | .absent => .absent
      let place : Place :=
        if h.st = .resident ∨ h.st = .leaving then (s.room h.room).place
        else if h.homeHost then { (default : Place) with tier := .host, host := h.hostAddr }
        else h.home
      { x with st := st, place := place }

/-- object-status. -/
def objectStatusCmd : KCmd :=
  { code := 0x0505, cls := .query, parse := fun p => fixedLayout 8 [] p
    perm := fun s h p => mayNameObj s h.fn (field p 0 4)
    gens := fun s p => objCurrent s (field p 0 4) (field p 4 4)
    body := fun s _ p =>
      let x := shownObj s (field p 0 4)
      .query (leBytes 1 (Kind.code x.kind) ++ leBytes 1 (Tier.code x.place.tier) ++ leBytes 1 (ObjSt.code x.st) ++ leBytes 1 x.wing
        ++ leBytes 2 (x.owner.getD 0xFFFF) ++ leBytes 2 0 ++ leBytes 8 x.size ++ leBytes 4 x.gen ++ leBytes 4 0
        ++ leBytes 64 x.place.set ++ leBytes 8 x.place.host) }

/-- OBJECT_STATUS. -/
def execObjectStatus (h : CmdHdr) (p : Bytes) (s : State) : Host.Outcome State Fault Refusal := .next (kcp objectStatusCmd h p s)

/-- The payload of object-write and object-read (R354). -/
def transferParse (p : Bytes) : Bool :=
  fixedLayout 32 [] p && lineAligned p 24 && decide (field p 8 8 % 64 = 0 ∧ field p 16 8 % 64 = 0) && inRange (field p 16 8) 64 gib

/-- Whether an object refuses a transfer (Table 13.10, R354). -/
def transferRefused (x : Obj) (off len : Nat) : Option Status :=
  if x.kind = .baseCopy ∨ x.kind = .mirror ∨ x.kind = .room then some .placeDenied
  else if 0 < x.refs ∨ inTransfer x.work then some .objectBusy
  else if x.st = .damaged ∨ x.st = .absent then some .objectDamaged
  else if x.st = .moving ∨ x.work ≠ .none then some .objectMoving
  else if x.size < off + len then some .objectRange
  else none

/-- object-write or object-read, by the work it starts. -/
def transferCmd (code : Nat) (work : Nat → Nat → Nat → CmdRef → ObjWork) : KCmd :=
  { code := code, cls := .long, parse := transferParse
    perm := fun s h p => mayNameObj s h.fn (field p 0 4)
    gens := fun s p => objCurrent s (field p 0 4) (field p 4 4)
    names := fun s p => [(s.obj (field p 0 4)).wing]
    body := fun s h p =>
      match transferRefused (s.obj (field p 0 4)) (field p 8 8) (field p 16 8) with
      | some st => .refuse st []
      | none =>
        .long (fun s => s.modObj (field p 0 4) (fun x =>
          { x with work := work (field p 8 8) (field p 16 8) (field p 24 8) (refOf h code) })) .accepted [] none }

/-- object-write. -/
def objectWriteCmd : KCmd := transferCmd 0x0506 ObjWork.write

/-- OBJECT_WRITE. -/
def execObjectWrite (h : CmdHdr) (p : Bytes) (s : State) : Host.Outcome State Fault Refusal := .next (kcp objectWriteCmd h p s)

/-- object-read. -/
def objectReadCmd : KCmd := transferCmd 0x0507 ObjWork.read

/-- OBJECT_READ. -/
def execObjectRead (h : CmdHdr) (p : Bytes) (s : State) : Host.Outcome State Fault Refusal := .next (kcp objectReadCmd h p s)

end Sys2Proof.Machine
end

