-- ==== Sys2Proof/Machine/Shake.lean ====
section
/-! DEFINITION. SHAKE256 (FIPS 202), which the spec names for seeds, digests and derived keys (R104, R206, R402): the
Keccak permutation on 25 lanes of 64 bits, absorbing 136 bytes at a time. -/

namespace Sys2Proof.Machine

open Sys2Proof

/-- A lane turned left. -/
def rotl64 (x k : Nat) : Nat := ((x <<< (k % 64)) ||| (x >>> (64 - k % 64))) % 2 ^ 64

/-- A lane of a state, numbered x + 5y. -/
def lane (a : List Nat) (i : Nat) : Nat := a[i]?.getD 0

/-- Rotation of each lane in the step ρ, by lane number. -/
def rhoOffsets : List Nat := [0, 1, 62, 28, 27, 36, 44, 6, 55, 20, 3, 10, 43, 25, 39, 41, 45, 15, 21, 8, 18, 2, 61, 56, 14]

/-- The round constants of the step ι. -/
def iotaConstants : List Nat :=
  [0x0000000000000001, 0x0000000000008082, 0x800000000000808A, 0x8000000080008000, 0x000000000000808B, 0x0000000080000001
  , 0x8000000080008081, 0x8000000000008009, 0x000000000000008A, 0x0000000000000088, 0x0000000080008009, 0x000000008000000A
  , 0x000000008000808B, 0x800000000000008B, 0x8000000000008089, 0x8000000000008003, 0x8000000000008002, 0x8000000000000080
  , 0x000000000000800A, 0x800000008000000A, 0x8000000080008081, 0x8000000000008080, 0x0000000080000001, 0x8000000080008008]

/-- The steps θ, ρ and π: lane (x, y) of the result is the turned lane (x + 3y, x). -/
def thetaRhoPi (a : List Nat) : List Nat :=
  let c := (List.range 5).map (fun x => lane a x ^^^ lane a (x + 5) ^^^ lane a (x + 10) ^^^ lane a (x + 15) ^^^ lane a (x + 20))
  let d := (List.range 5).map (fun x => lane c ((x + 4) % 5) ^^^ rotl64 (lane c ((x + 1) % 5)) 1)
  (List.range 25).map (fun i =>
    let j := (i % 5 + 3 * (i / 5)) % 5 + 5 * (i % 5)
    rotl64 (lane a j ^^^ lane d (j % 5)) (lane rhoOffsets j))

/-- The steps χ and ι of a round. -/
def chiIota (k : Nat) (b : List Nat) : List Nat :=
  (List.range 25).map (fun i =>
    let at_ (d : Nat) : Nat := lane b ((i % 5 + d) % 5 + 5 * (i / 5))
    let v := lane b i ^^^ ((2 ^ 64 - 1 - at_ 1) &&& at_ 2)
    if i = 0 then v ^^^ k else v)

/-- The permutation of 24 rounds. -/
def keccak (a : List Nat) : List Nat := iotaConstants.foldl (fun a k => chiIota k (thetaRhoPi a)) a

/-- A block of 136 bytes absorbed. -/
def absorb (a : List Nat) (block : Bytes) : List Nat :=
  keccak ((List.range 25).map (fun i => if i < 17 then lane a i ^^^ field block (8 * i) 8 else lane a i))

/-- The message with SHAKE's suffix and padding, a whole number of blocks. -/
def shakePad (m : Bytes) : Bytes :=
  let n := 136 - m.length % 136
  if n = 1 then m ++ [0x9F] else m ++ [0x1F] ++ List.replicate (n - 2) 0 ++ [0x80]

/-- Whole blocks absorbed in order. -/
def absorbAll : Nat → List Nat → Bytes → List Nat
  | 0, a, _ => a
  | k + 1, a, m => absorbAll k (absorb a (m.take 136)) (m.drop 136)

/-- Blocks squeezed out. -/
def squeeze : Nat → List Nat → Bytes
  | 0, _ => []
  | k + 1, a => ((List.range 17).flatMap (fun i => leBytes 8 (lane a i))) ++ squeeze k (keccak a)

/-- The first `n` bytes of SHAKE256 of a message. -/
def shake256 (m : Bytes) (n : Nat) : Bytes :=
  let p := shakePad m
  (squeeze ((n + 135) / 136) (absorbAll (p.length / 136) (List.replicate 25 0) p)).take n

end Sys2Proof.Machine
end

