-- ==== Sys2Proof/Machine/Rooms.lean ====
section
/-! DEFINITION. Adapter images, handles and rooms (chapter 7): loads and reloads, replacement, pins, checkouts, deletion and
reads. -/

namespace Sys2Proof.Machine

open Sys2Proof

/-! ### Images (R135, R136, R138, Tables 7.1, 7.2) -/

/-- MiB of a room for an image (R136). -/
def roomMib (bytes : Nat) : Nat := ceilDiv bytes (2 ^ 20)

/-- A point of the table, with its digest. -/
def pointAt (b : Bytes) (points i : Nat) : Point :=
  let e := 64 + 16 * i
  { layer := field b e 2, position := field b (e + 2) 1, b := signed 8 (field b (e + 3) 1), k := field b (e + 4) 1
    tagZ := field b (e + 8) 2, tagY := field b (e + 10) 2, tagG := field b (e + 12) 2
    digest := fieldBytes b (64 + 16 * points + 32 * i) 32 }

/-- Whether a point's own fields keep their ranges (Table 7.2, R131, R134). -/
def pointOk (layers : Nat) (b : Bytes) (i : Nat) (q : Point) : Bool :=
  let e := 64 + 16 * i
  decide (q.layer < layers ∧ q.position < 2 ∧ -32 ≤ q.b ∧ q.b ≤ 32 ∧ q.k ≤ 64 ∧ q.tagZ < 1024 ∧ q.tagY < 1024 ∧ q.tagG < 1024)
    && zeros b (e + 5) 3 && zeros b (e + 14) 2

/-- Points in ascending order of layer and position (R134). -/
def pointsRise : List Point → Bool
  | p :: q :: l => decide (2 * p.layer + p.position < 2 * q.layer + q.position) && pointsRise (q :: l)
  | _ => true

/-- The ranks of R135. -/
def rankOk (r : Nat) : Bool := decide (r = 8 ∨ r = 16 ∨ r = 32 ∨ r = 64 ∨ r = 128 ∨ r = 256)

/-- An image's header, if its CRC and the rules of R135 and R138 hold for a base of `layers` layers. -/
def parseImage (layers : Nat) (b : Bytes) : Option Image :=
  let P := field b 2 2
  let img : Image :=
    { rank := field b 4 2, phi := field b 6 1, biases := decide (field b 7 1 % 2 = 1), width := field b 8 4, owner := field b 14 2
      points := (List.range P).map (pointAt b P) }
  if decide (field b 0 2 = 1 ∧ 1 ≤ P ∧ P ≤ Nat.min (2 * layers) 1024) && rankOk img.rank && decide (img.phi ≤ 2 ∧ field b 7 1 < 2)
      && zeros b 20 40 && decide (field b 60 4 = crc32c (fieldBytes b 0 60 ++ fieldBytes b 64 (16 * P)))
      && ((List.range P).zip img.points).all (fun q => pointOk layers b q.1 q.2) && pointsRise img.points
      && decide (img.owner < 4096) then some img
  else none

/-! ### Handles and rooms -/

/-- Whether a handle's generation is current (R164). -/
def handleCurrent (s : State) (i gen : Nat) : Bool :=
  decide ((s.handle i).st ≠ .unused ∧ (s.handle i).gen = gen ∧ gen ≠ 0)

/-- Whether a room's generation is current. -/
def roomCurrent (s : State) (r gen : Nat) : Bool := decide ((s.room r).st ≠ .free ∧ (s.room r).gen = gen ∧ gen ≠ 0)

/-- Whether a function may name a handle (R341). -/
def mayNameHandle (s : State) (fn i : Nat) : Bool := mayActFor s fn (some (s.handle i).owner)

/-- The place of a handle. -/
def atHandle (s : State) (i : Nat) : At := { party := some (s.handle i).owner }

/-- The room pool of a wing: its pseudo-channels but those under retirement (R143, R428; log entry 31). -/
def roomPool (s : State) (w : Nat) : Nat :=
  listMask ((setUnits (s.wing w).pcs).filter (fun u => !(s.pc u).retiring && !(s.pc u).retired))

/-- A free room number and a range for an image in a wing's pool (R143, R162). -/
def findRoom (s : State) (w mib : Nat) : Option (Nat × Place) :=
  let r := freeNumber (fun x : Room => decide (x.st ≠ .free)) s.led.rooms 0
  if 16384 ≤ r then none else (findPlace s .hbm (roomPool s w) (mib * 2 ^ 20)).map (fun p => (r, p))

/-- A load into a room (R144): the room is LOADING and the handle too, unless its old image serves on. -/
def startLoad (s : State) (i w r : Nat) (place : Place) (l : Load) : State :=
  let s := s.modRoom r (fun x =>
    { x with gen := Nat.max x.gen 1, st := .loading, handle := i, wing := w, place := place, mib := roomMib l.image.bytes, arrived := 0 })
  s.modHandle i (fun x => { x with load := some l, st := if x.st = .resident ∨ x.st = .leaving then x.st else .loading })

/-- A load that failed (R144): the room is freed and the source kept. -/
def failLoad (s : State) (i : Nat) (st : Status) : State :=
  match (s.handle i).load with
  | none => s
  | some l =>
    let s := freeRoom s l.room
    let s := if l.first then freeObj s (s.handle i).obj else s
    let s := s.modHandle i (fun x => { x with load := none, st := if x.st = .loading then l.before else x.st })
    finishOpt s l.ref st []

/-- Serving sessions bound to a handle in an admitted pass. -/
def sessionsRunning (s : State) (i : Nat) : List (Nat × Nat × Nat) :=
  s.led.wings.flatMap (fun w => w.2.contexts.flatMap (fun c =>
    match c.2.pass with
    | none => []
    | some p => (p.takes.filter (fun t => decide ((tget c.2.serves t.session).handle = some i ∧ (tget c.2.serves t.session).live))).map
        (fun t => (w.1, c.1, t.session))))

/-- Sessions whose rows a pass loses at its next point (R163, R166). -/
def dropSessions (s : State) (i : Nat) : State :=
  (sessionsRunning s i).foldl (fun s p => endServe s p.1 p.2.1 p.2.2 .adapterGone) s

/-- A reload that ends without its image: the sessions that wait for it end with a status, and the handle is HOME again (R407,
Table 14.4). -/
def endReload (s : State) (i : Nat) (st : Status) : State :=
  match (s.handle i).load with
  | none => s
  | some l => failLoad ((sessionsRunning s i).foldl (fun s p =>
      if (tget (s.ctx p.1 p.2.1).serves p.2.2).room = l.room then endServe s p.1 p.2.1 p.2.2 st else s) s) i st

/-- Adapter-reads of a handle ended (R356). -/
def endReads (s : State) (i : Nat) : State :=
  let l := (s.handle i).reading
  l.foldl (fun s r => finishIn s r .adapterGone []) (s.modHandle i (fun x => { x with reading := [] }))

/-- A handle damaged and its room freed (R166): rows that carry it are dropped and its gradients of the step discarded. -/
def damageHandle (s : State) (i : Nat) : State :=
  let x := s.handle i
  let s := endReads (dropSessions s i) i
  let s := if x.st = .resident ∨ x.st = .leaving then freeRoom s x.room else s
  let s := s.modHandle i (fun x => { x with st := .damaged, blocks := [], home := default })
  s.mapCtx (fun _ _ c => { c with pass := c.pass.map (fun p =>
    let p : Pass := { p with rooms := p.rooms.filter (fun r => decide (r ≠ x.room)) }
    if p.cmd.train && p.cmd.table.adapters.any (fun a => decide (a.handle = i)) then { p with faulted := p.faulted ++ [i] } else p) })

/-! ### adapter-load -/

/-- The layers of a wing's base. -/
def baseLayers (s : State) (w : Nat) : Nat := (s.base (s.wing w).base).layers

/-- The agreements of R144: width, owner, and for a host image its length. -/
def imageAgrees (s : State) (w owner : Nat) (img : Image) (bytes : Option Nat) : Bool :=
  decide (img.width = (s.base (s.wing w).base).dModel ∧ img.owner = owner) && (match bytes with | some n => decide (img.bytes = n) | none => true)

/-- Why an adapter-load is refused by the states of its handle and rooms (Table 13.11, R355). -/
def loadRefused (s : State) (p : Bytes) : Option Status :=
  let i := field p 0 2
  let w := field p 3 1
  let x := s.handle i
  let source := field p 2 1
  let zeroRest := decide (field p 12 2 = 0 ∧ field p 14 1 = 0 ∧ field p 32 2 = 0)
  let owner := if x.st = .unused then field p 12 2 else x.owner
  let may := !(s.wing w).sealed || decide (owner = (s.wing w).party)
  if x.st = .loading ∨ x.st = .leaving ∨ x.load.isSome then some .adapterBusy
  else if !may then some .placeDenied
  else if x.st = .unused then
    if source ≠ 0 then some .placeDenied
    else if field p 14 1 = 0 ∧ (field p 32 2 = 0 ∨ !within (field p 32 2) (s.wing w).loft ∨ !unitsTake s .loft (field p 32 2)) then some .placeDenied
    else if field p 14 1 = 0 ∧ keyAbsent s owner then some .keyAbsent
    else none
  else if !zeroRest then some .placeDenied
  else if source = 1 ∧ (x.st ≠ .home ∨ x.homeHost) then some .placeDenied
  else if source = 1 ∧ keyAbsent s x.owner then some .keyAbsent
  else if x.st = .resident ∧ 0 < (s.room x.room).refs then some .roomBusy
  else none

/-- The ROOM object of a handle's image, from its first load on (R183, log entry 51). -/
def newRoomObj (s : State) (p : Bytes) (bytes : Nat) : State :=
  newObj s (freeObjNumber s)
    { (default : Obj) with kind := .room, owner := some (field p 12 2), wing := field p 3 1, size := 4096 * ceilDiv bytes 4096, st := .moving }

/-- A first load fixes the handle's owner and home, and starts its detector (R126, R141, R355). -/
def firstLoad (p : Bytes) (fn o : Nat) (x : Handle) : Handle :=
  { (default : Handle) with
    gen := x.gen + 1, owner := field p 12 2, homeHost := decide (field p 14 1 = 1), hostAddr := field p 16 8, hostFn := fn
    loftSet := field p 32 2, obj := o
    det := { (default : Detector) with a := 4, mu := 0x3F800000, warmup := 20 } }

/-- adapter-load (R144, R145, R355). The header is read at acceptance. -/
def adapterLoadCmd (host : HostRead) : KCmd :=
  { code := 0x0601, cls := .long
    parse := fun p => fixedLayout 34 [(15, 1)] p && lineAligned p 16 && decide (field p 2 1 < 2 ∧ field p 3 1 < 16 ∧ field p 12 2 < 4096 ∧ field p 14 1 < 2)
    perm := fun s h p => mayNameWing s h.fn (field p 3 1) &&
      mayActFor s h.fn (some (if (s.handle (field p 0 2)).st = .unused then field p 12 2 else (s.handle (field p 0 2)).owner))
    gens := fun s p =>
      wingCurrent s (field p 3 1) (field p 8 4) &&
        (if (s.handle (field p 0 2)).st = .unused then decide (field p 4 4 = 0) else handleCurrent s (field p 0 2) (field p 4 4))
    names := fun _ p => [field p 3 1]
    body := fun s h p =>
      let i := field p 0 2
      let w := field p 3 1
      let x := s.handle i
      let fromLoft := decide (field p 2 1 = 1)
      let bytes := if fromLoft then x.image.bytes else field p 24 8
      match loadRefused s p with
      | some st => .refuse st []
      | none =>
        let full := decide (x.st = .unused ∧ (262144 ≤ liveObjects s ∨ 262144 ≤ freeObjNumber s))
        match if full then none else findRoom s w (roomMib bytes) with
        | none => .refuse .roomPoolFull []
        | some (r, place) =>
          let ref := refOf h 0x0601
          let first := decide (x.st = .unused)
          let owner := if first then field p 12 2 else x.owner
          let img : Option Image :=
            if fromLoft then some x.image
            else (hostBytes s h.fn host).bind (parseImage (baseLayers s w))
          let ok := match img with
            | some m => imageAgrees s w owner m (if fromLoft then none else some bytes)
            | none => false
          let l : Load :=
            { fromLoft := fromLoft, ref := some ref, room := r, image := img.getD default, first := first, before := x.st, blocks := [],
              reload := false }
          .long (fun s =>
              let s := if first then (newRoomObj s p bytes).modHandle i (firstLoad p h.fn (freeObjNumber s)) else s
              let s := if first then s else if fromLoft then s else s.modHandle i (fun x =>
                if x.homeHost then { x with hostAddr := field p 16 8, hostFn := h.fn } else x)
              (startLoad s i w r place l).modRoom r (fun x => { x with mib := roomMib bytes }))
            .accepted (leBytes 2 r ++ leBytes 2 0 ++ leBytes 4 (Nat.max (s.room r).gen 1))
            (if ok then none
             else some (fun s => failLoad s.bump i (if (hostBytes s h.fn host).isNone ∧ !fromLoft then .hostAccessFault else .adapterBad))) }

/-- ADAPTER_LOAD. -/
def execAdapterLoad (h : CmdHdr) (p : Bytes) (host : HostRead) (s : State) : Host.Outcome State Fault Refusal :=
  .next (kcp (adapterLoadCmd host) h p s)

/-! ### Arrival and commit -/

/-- The final payload of an adapter-load. -/
def loadPayload (s : State) (i r : Nat) : Bytes := leBytes 2 r ++ leBytes 2 0 ++ leBytes 4 (s.room r).gen ++ leBytes 4 (s.handle i).gen

/-- Sessions bound to a handle rebound to its room (R145). -/
def rebindSessions (s : State) (i : Nat) : State :=
  let r := (s.handle i).room
  let gen := (s.room r).gen
  s.mapCtx (fun _ _ c => { c with serves := c.serves.foldl (fun v q =>
    if q.2.live ∧ q.2.handle = some i ∧ q.2.handleGen = (s.handle i).gen then tput v q.1 { q.2 with room := r, roomGen := gen } else v) c.serves })

/-- A reload counted (R161): its source, its bytes, and the bytes charged to the owner. -/
def countReload (s : State) (w i : Nat) (l : Load) : State :=
  if !l.reload then s
  else
    let n := l.image.bytes
    let s := s.modWing w (fun x => { x with stall :=
      { x.stall with
        reloadsLoft := x.stall.reloadsLoft + (if l.fromLoft then 1 else 0), reloadsHost := x.stall.reloadsHost + (if l.fromLoft then 0 else 1),
        reloadBytes := wrapAdd x.stall.reloadBytes n } })
    charge s (s.handle i).owner { (default : Counts) with reload := n }

/-- Checkouts that take effect: the room is LEAVING, its pin cleared by a forced one, and its move begins once no pass in
flight references it (R159, R160). -/
def leaveRoom (s : State) (r : Nat) (l : List Checkout) : State :=
  let i := (s.room r).handle
  let s := s.modRoom r (fun x =>
    { x with st := .leaving, pinned := x.pinned && !(l.any (fun c => c.forced)) && !(s.wing x.wing).leaving, checkouts := x.checkouts ++ l, waiting := [] })
  s.modHandle i (fun x => { x with st := .leaving })

/-- Checkouts that waited for an update, a load or a read, once none holds them (R159, Table 13.18). -/
def wakeCheckouts (s : State) (r : Nat) : State :=
  let x := s.room r
  if x.st = .ready ∧ (x.waiting ≠ [] ∨ (s.wing x.wing).leaving) ∧ (s.handle x.handle).reading = [] then leaveRoom s r x.waiting else s

/-- A load that has matched every point commits (R144, R145): the handle is RESIDENT in the room and its source is
released. -/
def commitLoad (s : State) (i : Nat) (l : Load) : State :=
  let w := (s.room l.room).wing
  let s := s.modRoom l.room (fun x => { x with st := .ready })
  let s := s.modHandle i (fun x =>
    { x with st := .resident, room := l.room, image := l.image, blocks := l.blocks, home := default, load := none })
  let s := chargeBytes (countReload s w i l) (some (s.handle i).owner) l.image.bytes
  finishOpt s l.ref .ok (loadPayload s i l.room)

/-- A block's digest (R138). -/
def pointDigest (b : Bytes) : Bytes := shake256 b 32

/-- POINT_ARRIVAL: a point block has arrived in a room; its digest is checked, and the last one commits the load, unless an
old image is still in use (R144, R145). -/
def pointArrival (r : Nat) (block : Bytes) (s : State) : State :=
  let i := (s.room r).handle
  let x := s.handle i
  match x.load with
  | none => s
  | some l =>
    if (s.room r).st ≠ .loading ∨ l.room ≠ r ∨ x.st = .leaving ∨ !s.keeper.up then s
    else match l.image.points[l.blocks.length]? with
      | none => s
      | some q =>
        if block.length = blockBytes l.image.width l.image.rank l.image.biases ∧ pointDigest block = q.digest then
          let l := { l with blocks := l.blocks ++ [block] }
          let s := (s.modHandle i (fun x => { x with load := some l })).modRoom r (fun x => { x with arrived := x.arrived + 1 })
          if l.blocks.length = l.image.points.length ∧ x.st = .loading then wakeCheckouts (commitLoad s.bump i l) r else s
        else
          let s := failLoad s.bump i .adapterBad
          if l.fromLoft then notify (damageHandle s i) .adapterDigest (atHandle s i) [i, l.blocks.length] else s

/-- POINT_ARRIVAL. -/
def execPointArrival (room : Nat) (block : Bytes) (s : State) : Host.Outcome State Fault Refusal := onPart room 16384 s (pointArrival room block)

/-- Whether a replacing load has matched every point and waits for its commit (R145). -/
def replacementReady (s : State) (i : Nat) : Bool :=
  let x := s.handle i
  match x.load with
  | some l => decide (x.st = .resident ∧ l.blocks.length = l.image.points.length ∧ l.image.points ≠ [])
  | none => false

/-- REPLACEMENT_COMMIT: the old room is not in use and no read is under way (R145, R356). -/
def replacementCommit (i : Nat) (s : State) : State :=
  let x := s.handle i
  match x.load with
  | some l =>
    if replacementReady s i ∧ (s.room x.room).refs = 0 ∧ x.reading = [] ∧ s.keeper.up then
      let s := commitLoad (freeRoom s.bump x.room) i l
      wakeCheckouts (rebindSessions s i) l.room
    else s
  | none => s

/-- REPLACEMENT_COMMIT. -/
def execReplacementCommit (handle : Nat) (s : State) : Host.Outcome State Fault Refusal := onPart handle 65536 s (replacementCommit handle)

/-! ### Pins and checkouts -/

/-- room-pin (R158). -/
def roomPinCmd : KCmd :=
  { code := 0x0602, cls := .commit
    parse := fun p => fixedLayout 8 [(3, 1)] p && decide (field p 0 2 < 16384 ∧ field p 2 1 < 2)
    perm := fun s h p => mayNameHandle s h.fn (s.room (field p 0 2)).handle
    gens := fun s p => roomCurrent s (field p 0 2) (field p 4 4)
    names := fun s p => [(s.room (field p 0 2)).wing]
    body := fun s _ p =>
      if (s.room (field p 0 2)).st = .leaving then .refuse .roomLeaving []
      else .commit (fun s => s.modRoom (field p 0 2) (fun x => { x with pinned := decide (field p 2 1 = 1) })) .ok [] }

/-- ROOM_PIN. -/
def execRoomPin (h : CmdHdr) (p : Bytes) (s : State) : Host.Outcome State Fault Refusal := .next (kcp roomPinCmd h p s)

/-- checkout (R159, R160). -/
def checkoutCmd : KCmd :=
  { code := 0x0603, cls := .long
    parse := fun p => fixedLayout 8 [(3, 1)] p && decide (field p 0 2 < 16384 ∧ field p 2 1 < 2)
    perm := fun s h p => mayNameHandle s h.fn (s.room (field p 0 2)).handle
    gens := fun s p => roomCurrent s (field p 0 2) (field p 4 4)
    names := fun s p => [(s.room (field p 0 2)).wing]
    body := fun s h p =>
      let r := field p 0 2
      let x := s.room r
      let forced := decide (field p 2 1 = 1)
      let c : Checkout := { ref := refOf h 0x0603, forced := forced }
      if !forced ∧ 0 < x.refs then .refuse .roomBusy []
      else if !forced ∧ x.pinned then .refuse .roomPinned []
      else if x.st = .updating ∨ x.st = .loading ∨ (s.handle x.handle).reading ≠ [] then
        .long (fun s => s.modRoom r (fun x => { x with waiting := x.waiting ++ [c], pinned := x.pinned && !forced })) .accepted [] none
      else .long (fun s => leaveRoom s r [c]) .accepted [] none }

/-- CHECKOUT. -/
def execCheckout (h : CmdHdr) (p : Bytes) (s : State) : Host.Outcome State Fault Refusal := .next (kcp checkoutCmd h p s)

/-- The replies and notices of a room's checkouts at the commit of its move. -/
def endCheckouts (s : State) (i : Nat) (l : List Checkout) : State :=
  l.foldl (fun s c =>
    let s := finishIn s c.ref .ok (leBytes 2 i ++ leBytes 2 0 ++ leBytes 4 (s.handle i).gen)
    if c.forced then notify s .checkoutDone (atHandle s i) [i, (s.handle i).gen] else s) s

/-- CHECKOUT_MOVE_COMMIT: the home copy is complete; the handle is HOME, the room FREE, and a reload queued behind the move
begins (R159 to R161). A Loft home needs a free range there. -/
def checkoutMoveCommit (r : Nat) (s : State) : State :=
  let x := s.room r
  let i := x.handle
  let hd := s.handle i
  if x.st ≠ .leaving ∨ 0 < x.refs ∨ x.discard ∨ !s.keeper.up then s
  else
    match if hd.homeHost then some default else findPlace s .loft hd.loftSet hd.image.bytes with
    | none => s
    | some home =>
      let l := x.checkouts
      let s := freeRoom (s.bump.modRoom r (fun x => { x with checkouts := [], waiting := [] })) r
      let s := s.modHandle i (fun y => { y with st := if y.load.isSome then .loading else .home, home := home })
      let s := chargeBytes s (some hd.owner) hd.image.bytes
      let s := endCheckouts s i (l ++ x.waiting)
      -- a wing's removal checks its rooms out as by a forced checkout (R146, R160)
      let s := if (s.wing x.wing).leaving then notify s .checkoutDone (atHandle s i) [i, (s.handle i).gen] else s
      settleRemoval s x.wing

/-- CHECKOUT_MOVE_COMMIT. -/
def execCheckoutMoveCommit (room : Nat) (s : State) : Host.Outcome State Fault Refusal := onPart room 16384 s (checkoutMoveCommit room)

/-! ### adapter-delete, adapter-read, adapter-status -/

/-- A handle ended (R163). -/
def deleteHandle (i : Nat) (s : State) : State :=
  let x := s.handle i
  let s := endReads (dropSessions s i) i
  let s := if x.load.isSome then failLoad s i .adapterBad else s
  let s :=
    if x.st = .resident ∨ x.st = .leaving then
      settleDiscard (s.modRoom x.room (fun r => { r with st := .leaving, discard := true, pinned := false })) x.room
    else s
  (freeObj s x.obj).modHandle i (fun x => { (default : Handle) with gen := x.gen })

/-- adapter-delete. -/
def adapterDeleteCmd : KCmd :=
  { code := 0x0604, cls := .commit, parse := fun p => fixedLayout 8 [(2, 2)] p
    perm := fun s h p => mayNameHandle s h.fn (field p 0 2)
    gens := fun s p => handleCurrent s (field p 0 2) (field p 4 4)
    body := fun _ _ p => .commit (deleteHandle (field p 0 2)) .ok [] }

/-- ADAPTER_DELETE. -/
def execAdapterDelete (h : CmdHdr) (p : Bytes) (s : State) : Host.Outcome State Fault Refusal := .next (kcp adapterDeleteCmd h p s)

/-- adapter-read (R356). -/
def adapterReadCmd : KCmd :=
  { code := 0x0605, cls := .long, parse := fun p => fixedLayout 24 [(2, 2)] p && lineAligned p 8
    perm := fun s h p => mayNameHandle s h.fn (field p 0 2)
    gens := fun s p => handleCurrent s (field p 0 2) (field p 4 4)
    body := fun s h p =>
      let x := s.handle (field p 0 2)
      if x.st = .home ∧ x.homeHost then .refuse .hostHome []
      else if x.st = .damaged ∨ x.st = .absent then .refuse .adapterGone []
      else if field p 16 8 < x.image.bytes then .refuse .adapterSpace []
      else .long (fun s => s.modHandle (field p 0 2) (fun x => { x with reading := x.reading ++ [refOf h 0x0605] })) .accepted [] none }

/-- ADAPTER_READ. -/
def execAdapterRead (h : CmdHdr) (p : Bytes) (s : State) : Host.Outcome State Fault Refusal := .next (kcp adapterReadCmd h p s)

/-- ADAPTER_READ_DONE: the copy of the oldest read is complete; it waits for an update (R356). -/
def adapterReadDone (i : Nat) (s : State) : State :=
  let x := s.handle i
  match x.reading with
  | [] => s
  | r :: rest =>
    if (x.st = .resident ∨ x.st = .home) ∧ ¬(x.st = .resident ∧ (s.room x.room).st = .updating) ∧ s.keeper.up then
      let s := s.bump.modHandle i (fun x => { x with reading := rest })
      let s := finishIn (chargeBytes s (some x.owner) x.image.bytes) r .ok (leBytes 8 x.image.bytes)
      if x.st = .resident then wakeCheckouts s x.room else s
    else s

/-- ADAPTER_READ_DONE. -/
def execAdapterReadDone (handle : Nat) (s : State) : Host.Outcome State Fault Refusal := onPart handle 65536 s (adapterReadDone handle)

/-- The code of a handle state (Table 13.11). -/
def HandleSt.code : HandleSt → Nat
  | .unused => 0 | .home => 1 | .loading => 2 | .resident => 3 | .leaving => 4 | .damaged => 5 | .absent => 6

/-- The code of a room state (Table 13.11). -/
def RoomSt.code : RoomSt → Nat
  | .free => 0 | .loading => 1 | .ready => 2 | .updating => 3 | .leaving => 4

/-- The room a handle is in or moving into. -/
def roomOf (x : Handle) : Nat := if x.st = .loading then (x.load.map (·.room)).getD 0 else x.room

/-- The image a handle's status describes: a LOADING handle's is the one that arrives. -/
def shownImage (x : Handle) : Image := if x.st = .loading then (x.load.map (·.image)).getD x.image else x.image

/-- adapter-status: any generation is answered (Table 13.11). -/
def adapterStatusCmd : KCmd :=
  { code := 0x0606, cls := .query, parse := fun p => fixedLayout 8 [(2, 2)] p
    perm := fun s h p => mayNameHandle s h.fn (field p 0 2)
    body := fun s _ p =>
      let x := s.handle (field p 0 2)
      let inRoom := decide (x.st = .resident ∨ x.st = .leaving ∨ x.st = .loading)
      let r := s.room (roomOf x)
      .query (leBytes 1 (HandleSt.code x.st) ++ leBytes 1 (if x.homeHost then 1 else 0) ++ leBytes 2 x.owner ++ leBytes 4 x.gen
        ++ leBytes 2 (if inRoom then roomOf x else 0) ++ leBytes 1 (if inRoom then RoomSt.code r.st else 0)
        ++ leBytes 1 (if inRoom ∧ r.pinned then 1 else 0) ++ leBytes 4 (if inRoom then r.gen else 0) ++ leBytes 4 (if inRoom then r.refs else 0)
        ++ leBytes 1 (if x.det.held then 1 else 0) ++ leBytes 3 0 ++ leBytes 2 (shownImage x).points.length ++ leBytes 2 (shownImage x).rank) }

/-- ADAPTER_STATUS. -/
def execAdapterStatus (h : CmdHdr) (p : Bytes) (s : State) : Host.Outcome State Fault Refusal := .next (kcp adapterStatusCmd h p s)

end Sys2Proof.Machine
end

