-- ==== Sys2Proof/Machine/PassTable.lean ====
section
/-! DEFINITION. The pass table of Table 13.7: its layout, the bounds of R147, and the bindings of an update (R111). -/

namespace Sys2Proof.Machine

open Sys2Proof

/-- An offset rounded up to 8. -/
def align8 (n : Nat) : Nat := ceilDiv n 8 * 8

/-- An object and generation of a binding; 0xFFFF_FFFF is none. -/
def boundObj (n gen : Nat) : Option (Nat × Nat) := if n = 0xFFFFFFFF then none else some (n, gen)

/-- One adapter of the list, from its 32 bytes. -/
def tableAdapter (b : Bytes) : PassAdapter :=
  { handle := field b 0 2, gen := field b 4 4, g := field b 8 4, gGen := field b 12 4
    s1 := boundObj (field b 16 4) (field b 20 4), s2 := boundObj (field b 24 4) (field b 28 4) }

/-- Where the parts of a table start: parties, scalar rows, rows, and its end. -/
def tableParts (a p l m : Nat) : Nat × Nat × Nat × Nat :=
  let parties := align8 (16 + 32 * a)
  let scalars := align8 (parties + 2 * p)
  let rows := align8 (scalars + 64 * l)
  (parties, scalars, rows, rows + 8 * m)

/-- Numbers rising with no repeat. -/
def rises : List Nat → Bool
  | x :: y :: l => decide (x < y) && rises (y :: l)
  | _ => true

/-- The table in a memory of a size, if it is well formed; `update` tells a table of an update-run, whose p and m are 0. -/
def readTable (mem : Mem) (size : Nat) (updateRun : Bool) : Option PassTable :=
  let f (off n : Nat) : Nat := leNat (mload mem off n)
  let a := f 2 2
  let p := f 4 2
  let l := f 6 2
  let m := f 8 4
  let (parties, scalars, rows, stop) := tableParts a p l m
  let shape := decide (f 0 2 = 1 ∧ f 12 4 = 0 ∧ stop ≤ size) &&
    (if updateRun then decide (p = 0 ∧ m = 0) else decide (1 ≤ p ∧ p ≤ 4096 ∧ 1 ≤ m ∧ m ≤ 67108864))
  if !shape then none
  else
    let t : PassTable :=
      { adapters := (List.range a).map (fun i => tableAdapter (mload mem (16 + 32 * i) 32))
        parties := (List.range p).map (fun i => f (parties + 2 * i) 2), layers := l
        scalars := (List.range (2 * l)).map (fun i => (List.range 8).map (fun j => BitVec.ofNat 32 (f (scalars + 32 * i + 4 * j) 4)))
        rows := (List.range m).map (fun i => { party := f (rows + 8 * i) 2, tag := f (rows + 8 * i + 2) 2, input := f (rows + 8 * i + 4) 4 }) }
    let ok := t.parties.all (fun q => decide (q < 4096)) && rises t.parties && t.rows.all (fun r => decide (r.tag < 2048 ∧ r.party < 4096))
      && (List.range a).all (fun i => decide (f (16 + 32 * i + 2) 2 = 0))
    if ok then some t else none

/-- The tag of a row with no adapter (R147). -/
def noAdapterTag : Nat := 0x7FF

/-- Whether a list or its rows break R147: more than 1,024 entries, a tag beyond it, a handle named twice, or more than
65,536 rows for one adapter. -/
def listLong (t : PassTable) : Bool :=
  let a := t.adapters.length
  decide (1024 < a) || t.rows.any (fun r => decide (r.tag ≠ noAdapterTag ∧ a ≤ r.tag))
    || !((t.adapters.map (·.handle)).Nodup) || (List.range a).any (fun i => decide (65536 < (t.rows.filter (fun r => decide (r.tag = i))).length))

/-- Elements of one insertion point's segment: 2 × d × r (R111, R140). -/
def segElems (i : Image) : Nat := 2 * i.width * i.rank

/-- Bytes of an object that holds an adapter's elements at an element size, each segment on a 4 KiB boundary (R140). -/
def boundBytes (i : Image) (size : Nat) : Nat := i.points.length * (ceilDiv (segElems i * size) 4096 * 4096)

/-- Whether an object may be bound: current, of the kind, and holding as many elements as the adapter (R111). -/
def bindOk (s : State) (i : Image) (k : Kind) (sizes : List Nat) (o gen : Nat) : Bool :=
  let x := s.obj o
  objCurrent s o gen && decide (x.kind = k ∧ x.st ≠ .damaged ∧ x.st ≠ .absent) && sizes.any (fun n => decide (x.size = boundBytes i n))

/-- Whether an adapter's bindings satisfy R111. -/
def bindingsOk (s : State) (a : PassAdapter) : Bool :=
  let i := (s.handle a.handle).image
  let moment (m : Option (Nat × Nat)) : Bool := match m with
    | some (o, gen) => bindOk s i .moment [1, 2, 4] o gen
    | none => true
  bindOk s i .gradient [2] a.g a.gGen && moment a.s1 && moment a.s2

end Sys2Proof.Machine
end

