-- ==== Sys2Proof/Machine/Functions.lean ====
section
/-! DEFINITION. FP32 arithmetic of the vector and update engines (R95) and the correctly rounded functions EXP2, LOG2,
RCP, SQRT, RSQRT and TANH (R96, Table 5.4). A transcendental result is evaluated to 300 fraction bits and rounded once:
far beyond what any FP32 argument needs (DEDUCED, log entry 21). -/

namespace Sys2Proof.Machine

open Sys2Proof

/-! ### Rounding with signed zeros -/

/-- An exact result rounded once, with the sign of a zero result as IEEE 754 has it: an exact zero takes the sign given,
a non-zero one that rounds to zero its own (R95). -/
def roundIeee (F : Nat) (x : Exact) (negZero : Bool) : Rounded :=
  match x with
  | .nan => { bits := canonNaN F, sat := false, nan := true }
  | .num m e =>
    let b := roundBits F m.natAbs e
    let s := if (if m = 0 then negZero else decide (m < 0)) then 2 ^ (F + 8) else 0
    if maxFinite F < b then { bits := s + maxFinite F, sat := true, nan := false } else { bits := s + b, sat := false, nan := false }

/-- A value written as it is. -/
def plain (b : Nat) : Rounded := { bits := b, sat := false, nan := fpNonFinite 23 b }

/-- The canonical NaN of FP32 (R66). -/
def nan32 : Nat := canonNaN 23

/-- An FP32 input: exponent field 255 is taken as the canonical NaN (R95). -/
def input32 (b : Nat) : Nat := if fpNonFinite 23 b then nan32 else b

/-- The sign bit of an FP32 pattern. -/
def neg32 (b : Nat) : Bool := b.testBit 31

/-- The magnitude bits of an FP32 pattern. -/
def mag32 (b : Nat) : Nat := b % 2 ^ 31

/-- IA + IB. -/
def fpAdd (a b : Nat) : Rounded := roundIeee 23 ((fpValue 23 a).add (fpValue 23 b)) (neg32 a && neg32 b)

/-- −IA. -/
def fpNeg (a : Nat) : Nat := if fpNonFinite 23 a then nan32 else if neg32 a then a - 2 ^ 31 else a + 2 ^ 31

/-- IA × IB. -/
def fpMul (a b : Nat) : Rounded := roundIeee 23 ((fpValue 23 a).mul (fpValue 23 b)) (neg32 a != neg32 b)

/-- IA × IB + IC with one rounding. -/
def fpFma (a b c : Nat) : Rounded :=
  roundIeee 23 (((fpValue 23 a).mul (fpValue 23 b)).add (fpValue 23 c)) ((neg32 a != neg32 b) && neg32 c)

/-- The order of MIN and MAX: −0 stands below +0 (R95). -/
def orderKey (a : Nat) : Int := if neg32 a then -(mag32 a : Int) - 1 else (mag32 a : Int)

/-- The value of an FP32 pattern for a comparison: −0 equals +0. -/
def valueKey (a : Nat) : Int := if neg32 a then -(mag32 a : Int) else (mag32 a : Int)

/-- The smaller operand; NaN if either is (R95). -/
def fpMin (a b : Nat) : Nat :=
  if fpNonFinite 23 a || fpNonFinite 23 b then nan32 else if orderKey a ≤ orderKey b then a else b

/-- The larger operand; NaN if either is (R95). -/
def fpMax (a b : Nat) : Nat :=
  if fpNonFinite 23 a || fpNonFinite 23 b then nan32 else if orderKey a ≤ orderKey b then b else a

/-- The conditions of CMP: EQ, LT, LE, UNORDERED. -/
def fpCond (cond a b : Nat) : Bool :=
  let un := fpNonFinite 23 a || fpNonFinite 23 b
  match cond with
  | 0 => !un && decide (valueKey a = valueKey b)
  | 1 => !un && decide (valueKey a < valueKey b)
  | 2 => !un && decide (valueKey a ≤ valueKey b)
  | _ => un

/-! ### Integers from exact values -/

/-- An exact value rounded to an integer, nearest, ties to even (R97, R99). -/
def roundInt (m e : Int) : Int :=
  if 0 ≤ e then shl m e.toNat
  else
    let q : Nat := rneShift m.natAbs (-e).toNat
    if m < 0 then -(q : Int) else (q : Int)

/-- A two's-complement integer clamped to a format of `n` bits; the flag says that it was clamped. -/
def clampInt (n : Nat) (v : Int) : Int × Bool :=
  let top : Int := ((2 ^ (n - 1) : Nat) : Int) - 1
  let low : Int := -((2 ^ (n - 1) : Nat) : Int)
  if v < low then (low, true) else if top < v then (top, true) else (v, false)

/-! ### Square roots and reciprocals -/

/-- Bits of a square root found from the highest down. -/
def sqrtBits : Nat → Nat → Nat → Nat
  | 0, _, r => r
  | k + 1, n, r => sqrtBits k n (if (r + 2 ^ k) * (r + 2 ^ k) ≤ n then r + 2 ^ k else r)

/-- The integer square root. -/
def isqrt (n : Nat) : Nat := sqrtBits (Nat.log2 n / 2 + 1) n 0

/-- A value known to lie in [v, v + 1) × 2^e, and to be v × 2^e only where the flag says so: one more bit keeps its side
of every rounding boundary. -/
def sticky (v : Nat) (exact : Bool) (e : Int) : Exact := .num (2 * (v : Int) + (if exact then 0 else 1)) (e - 1)

/-- The sign of an exact value changed. -/
def Exact.neg : Exact → Exact
  | .num m e => .num (-m) e
  | .nan => .nan

/-- The largest finite FP32 value with a sign, counted as a saturation (Table 5.4). -/
def largest (negative : Bool) : Rounded := { bits := (if negative then 2 ^ 31 else 0) + maxFinite 23, sat := true, nan := false }

/-- The NaN that a function gives. -/
def nanResult : Rounded := { bits := nan32, sat := false, nan := true }

/-- RCP. -/
def fpRcp (a : Nat) : Rounded :=
  match fpValue 23 a with
  | .nan => nanResult
  | .num m e =>
    if m = 0 then largest (neg32 a)
    else
      let q := 2 ^ 80 / m.natAbs
      let x := sticky q (decide (q * m.natAbs = 2 ^ 80)) (-e - 80)
      roundIeee 23 (if m < 0 then x.neg else x) false

/-- SQRT. -/
def fpSqrt (a : Nat) : Rounded :=
  match fpValue 23 a with
  | .nan => nanResult
  | .num m e =>
    if m = 0 then plain a
    else if m < 0 then nanResult
    else
      -- m × 2^e as n × 2^(2k), with n of at least 80 bits
      let odd := decide (e % 2 ≠ 0)
      let n := m.natAbs * 2 ^ (if odd then 81 else 80)
      let k := (e - (if odd then 81 else 80)) / 2
      let r := isqrt n
      roundIeee 23 (sticky r (decide (r * r = n)) k) false

/-- RSQRT. -/
def fpRsqrt (a : Nat) : Rounded :=
  match fpValue 23 a with
  | .nan => nanResult
  | .num m e =>
    if m = 0 then largest (neg32 a)
    else if m < 0 then nanResult
    else
      let odd := decide (e % 2 ≠ 0)
      let n := m.natAbs * (if odd then 2 else 1)
      let k := (e - (if odd then 1 else 0)) / 2
      let r := isqrt (2 ^ 160 / n)
      roundIeee 23 (sticky r (decide (r * r * n = 2 ^ 160)) (-k - 80)) false

/-! ### Exponentials and logarithms, in units of 2^-300 -/

/-- Fraction bits of an evaluation. -/
def evalBits : Nat := 300

/-- 1 in those units. -/
def one300 : Nat := 2 ^ evalBits

/-- ln 2 as the sum of 1 ÷ (k × 2^k). -/
def ln2 : Nat := (List.range 310).foldl (fun a k => a + one300 / ((k + 1) * 2 ^ (k + 1))) 0

/-- The series of e^z for z below 1: the term reached and the sum so far. -/
def expSeries : Nat → Nat → Nat → Nat → Nat → Nat
  | 0, _, _, _, sum => sum
  | n + 1, k, z, term, sum =>
    let t := term * z / one300 / k
    expSeries n (k + 1) z t (sum + t)

/-- 2^f for f in [0, 1). -/
def pow2Frac (f : Nat) : Nat := expSeries 80 1 (f * ln2 / one300) one300 one300

/-- An exact value in units of 2^-300, rounded down. -/
def toUnits (m e : Int) : Int := if 0 ≤ e + 300 then shl m (e + 300).toNat else m / ((2 ^ (-(e + 300)).toNat : Nat) : Int)

/-- EXP2. -/
def fpExp2 (a : Nat) : Rounded :=
  match fpValue 23 a with
  | .nan => nanResult
  | .num m e =>
    let u := toUnits m e
    let n := u / (one300 : Int)
    let f := (u % (one300 : Int)).toNat
    if 128 ≤ n then largest false
    else if n < -160 then plain 0
    else if f = 0 then roundIeee 23 (.num 1 n) false
    else roundIeee 23 (sticky (pow2Frac f) false (n - 300)) false

/-- The series of atanh z: the power of z reached and the sum so far. -/
def atanhSeries : Nat → Nat → Nat → Nat → Nat → Nat
  | 0, _, _, _, sum => sum
  | n + 1, k, z2, pow, sum => atanhSeries n (k + 2) z2 (pow * z2 / one300) (sum + pow / k)

/-- ln u for u in [1, 2), as 2 atanh ((u − 1) ÷ (u + 1)). -/
def lnUnit (u : Nat) : Nat :=
  let z := (u - one300) * one300 / (u + one300)
  2 * atanhSeries 110 1 (z * z / one300) z 0

/-- LOG2. -/
def fpLog2 (a : Nat) : Rounded :=
  match fpValue 23 a with
  | .nan => nanResult
  | .num m e =>
    if m = 0 then largest true
    else if m < 0 then nanResult
    else
      let k := Nat.log2 m.natAbs
      let whole : Int := e + k
      if m.natAbs = 2 ^ k then roundIeee 23 (.num whole 0) false
      else
        let l := lnUnit (m.natAbs * 2 ^ (300 - k)) * one300 / ln2
        roundIeee 23 (.num (2 * (whole * (one300 : Int) + (l : Int)) + 1) (-301)) false

/-- TANH: (e^2x − 1) ÷ (e^2x + 1). -/
def fpTanh (a : Nat) : Rounded :=
  match fpValue 23 a with
  | .nan => nanResult
  | .num m e =>
    if m = 0 then plain a
    else
      let x := toUnits (m.natAbs : Int) e
      let r : Exact :=
        if 16 * (one300 : Int) ≤ x then .num 1 0
        else
          let t := 2 * x.toNat * one300 / ln2
          let y := pow2Frac (t % one300) * 2 ^ (t / one300)
          sticky ((y - one300) * one300 / (y + one300)) false (-300)
      roundIeee 23 (if m < 0 then r.neg else r) false

end Sys2Proof.Machine
end

