-- ==== Sys2Proof/Machine/TvxCheck.lean ====
section
/-! DEFINITION. TVX words (Tables 5.1 to 5.3): their fields, and the keeper's check of a program at load (R93, R113,
R118, R500). -/

namespace Sys2Proof.Machine

open Sys2Proof

/-! ### Words -/

/-- A word of Table 5.2 from its op code and fields. -/
def encodeTvx (op : Nat) (a : TvxArgs) : W64 :=
  BitVec.ofNat 64 (op * 2 ^ 56 + a.mb * 2 ^ 53 + a.ml * 2 ^ 50 + a.rm * 2 ^ 48 + a.immUse * 2 ^ 46
    + (if a.scalar then 2 ^ 45 else 0) + (a.n - 1) * 2 ^ 32 + a.imm.toNat)

/-- A STREAM word from its fields (Table 5.1). -/
def encodeStream (a : StreamArgs) : W64 :=
  BitVec.ofNat 64 (0x08 * 2 ^ 56 + a.slot * 2 ^ 54 + a.format * 2 ^ 51 + a.object * 2 ^ 48 + a.base * 2 ^ 26
    + (if a.contiguous then 2 ^ 25 else 0) + a.vstride * 2 ^ 4 + a.q)

/-- The op of a word. -/
def wordOp (w : W64) : Nat := bits w.toNat 56 8

/-- The fields of a word of Table 5.2. -/
def wordArgs (w : W64) : TvxArgs :=
  let v := w.toNat
  { mb := bits v 53 3, ml := bits v 50 3, rm := bits v 48 2, immUse := bits v 46 2, scalar := v.testBit 45
    n := bits v 32 13 + 1, imm := BitVec.ofNat 32 v }

/-- The fields of a STREAM word. -/
def wordStream (w : W64) : StreamArgs :=
  let v := w.toNat
  { slot := bits v 54 2, format := bits v 51 3, object := bits v 48 3, base := bits v 26 22, contiguous := v.testBit 25
    vstride := bits v 4 21, q := bits v 0 4 }

/-- Bytes of an element (Table 5.1). -/
def elemSize (format : Nat) : Nat :=
  match format with
  | 1 => 2
  | 2 => 1
  | _ => 4

/-! ### What an operation uses (R93, R500) -/

/-- How often an operation runs per engine cycle (R110, R113). -/
inductive Rate where
  | eight | two | single
  | fixed (cycles : Nat)
  deriving DecidableEq, Repr

/-- The fields an operation uses: lane masks, mb as a destination, ml as a source mask, bits of rm, its vector count (one,
or more), and the named bits of imm (none where imm may only stand in for a stream); and what it reads and writes. -/
structure OpUse where
  lanes : Bool := false
  maskDst : Bool := false
  maskSrc : Bool := false
  rm : Nat := 0
  one : Bool := false
  many : Bool := false
  imm : Option Nat := none
  a : Bool := false
  b : Bool := false
  c : Bool := false
  out : Bool := false
  readsTile : Bool := false
  writesTile : Bool := false
  rate : Rate := .eight
  deriving DecidableEq, Repr

/-- Table 5.3 and R500, by op code (log entry 22 says which fields each operation is read to use). -/
def opUse (op : Nat) : Option OpUse :=
  match op with
  | 0x00 => some { imm := some 0, rate := .fixed 1 }
  | 0x01 => some { imm := some 0, rate := .fixed 1 }
  | 0x02 => some { imm := some 0xFFFFFFFF, rate := .fixed 1 }
  | 0x03 => some { imm := some 0xF, rate := .fixed 1 }
  | 0x04 => some { imm := some 0xF, rate := .fixed 1 }
  | 0x05 => some { imm := some 0xFFFF, rate := .fixed 1 }
  | 0x06 => some { imm := some 0x7, one := true, a := true, rate := .fixed 1 }
  | 0x10 | 0x11 | 0x12 | 0x14 | 0x15 => some { lanes := true, rm := 3, many := true, a := true, b := true, out := true }
  | 0x13 => some { lanes := true, rm := 3, many := true, a := true, b := true, c := true, out := true }
  | 0x16 | 0x17 => some { lanes := true, rm := 3, many := true, a := true, out := true }
  | 0x18 => some { lanes := true, rm := 3, many := true, imm := some 0x7, a := true, b := true, out := true }
  | 0x19 => some { lanes := true, maskDst := true, one := true, imm := some 0x3, a := true, b := true }
  | 0x20 | 0x21 | 0x22 | 0x23 | 0x24 | 0x25 => some { lanes := true, rm := 3, many := true, a := true, out := true, rate := .two }
  | 0x28 => some { lanes := true, rm := 3, many := true, a := true, out := true }
  | 0x29 => some { lanes := true, rm := 3, many := true, a := true, b := true, out := true }
  | 0x30 | 0x31 | 0x32 | 0x33 | 0x34 | 0x35 => some { lanes := true, many := true, a := true, b := true, out := true }
  | 0x38 => some { maskDst := true, one := true, imm := some 0x7F, rate := .fixed 1 }
  | 0x39 | 0x3A | 0x3B => some { maskDst := true, maskSrc := true, one := true, imm := some 0x7, rate := .fixed 1 }
  | 0x3C => some { maskDst := true, maskSrc := true, one := true, imm := some 0, rate := .fixed 1 }
  | 0x40 => some { rm := 1, imm := some 0xFFFFFFFF, rate := .fixed 48 }
  | 0x41 => some { lanes := true, many := true, imm := some 0, out := true }
  | 0x42 => some { lanes := true, rm := 3, many := true, imm := some 0xFFFFFFFF, a := true, b := true, out := true }
  | 0x48 => some { imm := some 0x3, writesTile := true, rate := .fixed 8 }
  | 0x49 => some { lanes := true, many := true, imm := some 0xFFFF00FF, a := true, readsTile := true, writesTile := true, rate := .single }
  | 0x4A => some { lanes := true, rm := 3, one := true, imm := some 0x7, out := true, readsTile := true, rate := .fixed 8 }
  | 0x4B => some { lanes := true, rm := 3, many := true, imm := some 0x3F01, out := true, readsTile := true, rate := .single }
  | _ => none

/-- Whether imm use stands in IB, and in IC. -/
def immInB (a : TvxArgs) : Bool := decide (a.immUse = 1)
def immInC (a : TvxArgs) : Bool := decide (a.immUse = 2)

/-- Values of a named field with no meaning, and the bounds of R93. -/
def valueBad (op : Nat) (a : TvxArgs) : Bool :=
  let imm := a.imm.toNat
  match op with
  | 0x02 => decide (imm % 2 ^ 16 = 0 ∨ imm / 2 ^ 16 = 0)
  | 0x05 => decide (1023 < imm)
  | 0x38 => decide (64 < imm)
  | 0x48 => decide (imm = 3)
  | 0x49 => decide (imm / 2 ^ 16 = 0)
  | 0x4A => decide (imm / 2 % 4 = 3)
  | 0x4B => decide (64 < a.n)
  | _ => false

/-- Whether imm, imm use and scalar are as R500 has them. -/
def immBad (u : OpUse) (a : TvxArgs) : Bool :=
  match u.imm with
  | some m => decide (a.immUse ≠ 0) || a.scalar || decide (without a.imm.toNat m ≠ 0)
  | none =>
    match a.immUse with
    | 0 => a.scalar || decide (a.imm.toNat ≠ 0)
    | 1 => !u.b || (a.scalar && decide (8 ≤ a.imm.toNat))
    | 2 => !u.c || (a.scalar && decide (8 ≤ a.imm.toNat))
    | _ => true

/-- Whether a word other than STREAM breaks a rule of R93 by itself. -/
def argsBad (update : Bool) (op : Nat) (a : TvxArgs) : Bool :=
  match opUse op with
  | none => true
  | some u =>
    (!(u.lanes || u.maskDst) && decide (a.mb ≠ 0)) || (!(u.lanes || u.maskSrc) && decide (a.ml ≠ 0))
      || decide (without a.rm u.rm ≠ 0) || decide (1 < a.rm) || (!u.many && decide (a.n ≠ 1)) || (u.maskDst && decide (a.mb = 0))
      || (update && decide (op = 0x03 ∨ op = 0x04)) || immBad u a || valueBad op a

/-- Whether a STREAM word breaks a rule (Table 5.1, R88). -/
def streamBad (update : Bool) (a : StreamArgs) : Bool :=
  decide (3 < a.format) || (if update then decide (4 < a.object) else decide (a.object ≠ 0)) || decide (a.base % elemSize a.format ≠ 0)

/-- Whether a word breaks a rule of R93 by itself. -/
def wordBad (update : Bool) (w : W64) : Bool :=
  if wordOp w = 0x08 then streamBad update (wordStream w) else argsBad update (wordOp w) (wordArgs w)

/-! ### Loops -/

/-- First and last index of the body of a LOOP at an index. -/
def loopBody (i : Nat) (w : W64) : Nat × Nat := (i + 1, i + (wordArgs w).imm.toNat / 2 ^ 16)

/-- The loops of a program: their indices and words. -/
def loopsOf (p : List W64) : List (Nat × W64) := ((List.range p.length).zip p).filter (fun q => decide (wordOp q.2 = 0x02))

/-- Whether a LOOP at an index runs past the program's end, partly overlaps another body, or nests more than four deep. -/
def loopBad (p : List W64) (i : Nat) (w : W64) : Bool :=
  let last := (loopBody i w).2
  let around := (loopsOf p).filter (fun q => decide (q.1 < i ∧ i ≤ (loopBody q.1 q.2).2))
  decide (p.length ≤ last) || around.any (fun q => decide ((loopBody q.1 q.2).2 < last)) || decide (4 ≤ around.length)

/-- How often an instruction runs: the product of the counts of the loops around it (R113). -/
def runsOf (p : List W64) (i : Nat) : Nat :=
  ((loopsOf p).filter (fun q => decide (q.1 < i ∧ i ≤ (loopBody q.1 q.2).2))).foldl
    (fun n q => n * ((wordArgs q.2).imm.toNat % 2 ^ 16)) 1

/-! ### Cost of a slice (R113) -/

/-- What an instruction reads or writes, for the dependence of R113. -/
inductive Touch where
  | mem (object lo hi : Nat)
  | mask (m : Nat)
  | scalar (k : Nat)
  | tile
  deriving DecidableEq, Repr

/-- Whether a read meets a write. -/
def touchMeets : Touch → Touch → Bool
  | .mem o lo hi, .mem o' lo' hi' => decide (o = o' ∧ lo < hi' ∧ lo' < hi)
  | x, y => decide (x = y)

/-- The bytes a stream covers over `n` vectors from its position, with all lanes. -/
def streamSpan (x : Stream) (n : Nat) : Touch :=
  let size := elemSize x.args.format
  let lo := x.args.base + size * (x.args.vstride * (x.pos / 2 ^ x.args.q))
  let hi := x.args.base + size * (x.args.vstride * ((x.pos + n - 1) / 2 ^ x.args.q) + (if x.args.contiguous then 63 else 0)) + size
  .mem x.args.object lo hi

/-- The streams an operation uses, by slot: 0 to 3 for IA, IB, IC, OUT. -/
def slotsUsed (op : Nat) (u : OpUse) (a : TvxArgs) : List Nat :=
  (if u.a || (decide (op = 0x40) && decide (a.rm % 2 = 1)) then [0] else [])
    ++ (if u.b && !immInB a then [1] else []) ++ (if u.c && !immInC a then [2] else []) ++ (if u.out then [3] else [])

/-- What an operation reads. -/
def touchReads (op : Nat) (u : OpUse) (a : TvxArgs) (st : Tbl Stream) : List Touch :=
  ((slotsUsed op u a).filter (fun k => decide (k ≠ 3))).map (fun k => streamSpan (tget st k) a.n)
    ++ (if u.readsTile then [.tile] else [])
    ++ (if u.lanes || u.maskSrc then [.mask a.ml] else []) ++ (if u.lanes && decide (1 < a.n) then [.mask a.mb] else [])
    ++ (if op = 0x18 ∨ op = 0x39 ∨ op = 0x3A ∨ op = 0x3B then [.mask (a.imm.toNat % 8)] else [])
    ++ (if a.scalar then [.scalar (a.imm.toNat % 8)] else [])

/-- What an operation writes. M0 is never written. -/
def touchWrites (op : Nat) (u : OpUse) (a : TvxArgs) (st : Tbl Stream) : List Touch :=
  (if u.out then [streamSpan (tget st 3) a.n] else []) ++ (if u.writesTile then [.tile] else [])
    ++ (if u.maskDst then [.mask a.mb] else []) ++ (if op = 0x06 then [.scalar (a.imm.toNat % 8)] else [])

/-- Cycles of an operation without its dependence. -/
def baseCost (r : Rate) (n : Nat) : Nat :=
  match r with
  | .eight => ceilDiv n 8
  | .two => ceilDiv n 2
  | .single => n
  | .fixed c => c

/-- Streams advanced by an operation. -/
def advanceStreams (slots : List Nat) (n : Nat) (st : Tbl Stream) : Tbl Stream :=
  slots.foldl (fun st k => tmod st k (fun x => { x with pos := x.pos + n })) st

/-- What the cost sum carries from one instruction to the next. -/
structure CostSt where
  index : Nat
  sum : Nat
  beyond : Option Nat
  streams : Tbl Stream
  last : List Touch
  deriving DecidableEq, Repr

/-- One instruction added to the cost, in ascending index (R113). -/
def costStep (p : List W64) (c : CostSt) (w : W64) : CostSt :=
  let add (cost : Nat) : CostSt :=
    let sum := c.sum + cost * runsOf p c.index
    { c with index := c.index + 1, sum := sum, beyond := if c.beyond.isNone && decide (16384 < sum) then some c.index else c.beyond }
  if wordOp w = 0x08 then
    let x := add 1
    { x with streams := tput c.streams (wordStream w).slot { args := wordStream w, pos := 0 } }
  else match opUse (wordOp w) with
    | none => add 0
    | some u =>
      let a := wordArgs w
      let reads := touchReads (wordOp w) u a c.streams
      let waits := reads.any (fun r => c.last.any (touchMeets r))
      let x := add (baseCost u.rate a.n + (if waits then 12 else 0))
      { x with last := touchWrites (wordOp w) u a c.streams
               streams := advanceStreams (slotsUsed (wordOp w) u a) a.n c.streams }

/-- The cost sum of a program. -/
def sliceCost (p : List W64) : CostSt := p.foldl (costStep p) { index := 0, sum := 0, beyond := none, streams := [], last := [] }

/-! ### The check -/

/-- The first offending index of a program, if it is refused with PROGRAM_BAD (R93, R113). -/
def programBad (update : Bool) (p : List W64) : Option Nat :=
  if 2048 < p.length then some 2048
  else match ((List.range p.length).zip p).find? (fun q => wordBad update q.2 || (decide (wordOp q.2 = 0x02) && loopBad p q.1 q.2)) with
    | some q => some q.1
    | none =>
      if (p.getLast?.map wordOp) ≠ some 0x01 then some (p.length - 1)
      else if update then (sliceCost p).beyond else none

end Sys2Proof.Machine
end

