-- ==== Sys2Proof/Machine/TvxRun.lean ====
section
/-! DEFINITION. One TVX instruction run on an engine and the memories its streams address (R88 to R106): the same core
serves vector engines and update engines. -/

namespace Sys2Proof.Machine

open Sys2Proof

/-! ### Memories -/

/-- A memory that streams address. A vector engine's is its context's region: `bytes` from `origin`. An update engine's is
the current slice of a bound object: `perSeg` elements a segment, segments on 4 KiB boundaries (R140), from element
`first` of segment `seg` (R111), or its scratch, where a byte not yet written is free: `scratch` names the draw (log entry
6). -/
structure Space where
  mem : Mem
  scratch : Option Nat
  origin : Nat
  bytes : Nat
  sliced : Bool
  seg : Nat
  perSeg : Nat
  first : Nat
  deriving DecidableEq, Repr, Inhabited

/-- Elements of a slice (R111). -/
def sliceElems : Nat := 32768

/-- Where byte 0 of a stream's space stands, for an element size. -/
def Space.start (p : Space) (size : Nat) : Nat :=
  if p.sliced then p.seg * (ceilDiv (p.perSeg * size) 4096 * 4096) + p.first * size else p.origin

/-- Bytes that may be touched (R90). -/
def Space.limit (p : Space) (size : Nat) : Nat := if p.sliced then sliceElems * size else p.bytes

/-- Bytes that hold elements: past a segment's end they read as +0 and writes are discarded (R111). -/
def Space.held (p : Space) (size : Nat) : Nat :=
  if p.sliced then Nat.min sliceElems (p.perSeg - p.first) * size else p.bytes

/-- The space of an object field. -/
def spaceOf (l : List Space) (object : Nat) : Space := l[object]?.getD default

/-- Byte offset of a lane's element at vector `v` of an instruction (R89). -/
def elemOffset (x : Stream) (v l : Nat) : Nat :=
  x.args.base + elemSize x.args.format * (x.args.vstride * ((x.pos + v) / 2 ^ x.args.q) + (if x.args.contiguous then l else 0))

/-- An operand: a raw element and its format (Table 5.1). -/
structure Opnd where
  format : Nat
  raw : Nat
  deriving DecidableEq, Repr, Inhabited

/-- Bytes of a space. -/
def Space.load (p : Space) (a n : Nat) : Bytes :=
  match p.scratch with
  | none => mload p.mem a n
  | some k => (List.range n).map (fun i => (tlook p.mem (a + i)).getD (Config.freeScratch k (a + i)))

/-- Bytes of a space written; a scratch lists every byte it holds. -/
def Space.store (p : Space) (a : Nat) (b : Bytes) : Space :=
  match p.scratch with
  | none => { p with mem := mstore p.mem a b }
  | some _ => { p with mem := ((List.range b.length).zip b).foldl (fun m q => tinsert (terase m (a + q.1)) (a + q.1) q.2) p.mem }

/-- A lane's element of a stream. -/
def readElem (sp : List Space) (x : Stream) (v l : Nat) : Opnd :=
  let size := elemSize x.args.format
  let p := spaceOf sp x.args.object
  let off := elemOffset x v l
  { format := x.args.format
    raw := if off + size ≤ p.held size then leNat (p.load (p.start size + off) size) else 0 }

/-- Whether a lane's element of a stream exists, so that a write lands. -/
def elemHeld (sp : List Space) (x : Stream) (v l : Nat) : Bool :=
  let size := elemSize x.args.format
  decide (elemOffset x v l + size ≤ (spaceOf sp x.args.object).held size)

/-- A raw element written. -/
def writeElem (sp : List Space) (x : Stream) (v l raw : Nat) : List Space :=
  let size := elemSize x.args.format
  let p := spaceOf sp x.args.object
  sp.set x.args.object (p.store (p.start size + elemOffset x v l) (leBytes size raw))

/-! ### Operands and results -/

/-- An operand as an FP32 pattern (R95). -/
def asFp32 (o : Opnd) : Nat :=
  match o.format with
  | 0 => input32 o.raw
  | 1 => input32 (o.raw * 2 ^ 16)
  | 2 => (roundExact 23 (.num (signed 8 o.raw) 0)).bits
  | _ => (roundExact 23 (.num (signed 32 o.raw) 0)).bits

/-- An operand as a 32-bit pattern (R100). -/
def asInt (o : Opnd) : Nat :=
  match o.format with
  | 2 => unsigned 32 (signed 8 o.raw)
  | _ => o.raw

/-- What a lane's operation gives: an FP32 result, a clamped integer (QUANT), or a 32-bit pattern. -/
inductive LaneVal where
  | fp (r : Rounded)
  | quant (v : Int) (clamped nan : Bool)
  | int (v : Nat)
  deriving DecidableEq, Repr, Inhabited

/-- What is written for an element, and how it counts (R97, R98). -/
structure Written where
  raw : Nat
  counts : Bool
  zero : Bool
  sat : Bool
  nan : Bool
  deriving DecidableEq, Repr, Inhabited

/-- An FP32 result converted to an integer format of `n` bits (R97). -/
def toIntFormat (n : Nat) (r : Rounded) : Written :=
  match fpValue 23 r.bits with
  | .nan => { raw := 0, counts := true, zero := false, sat := r.sat, nan := true }
  | .num m e =>
    let (v, c) := clampInt n (roundInt m e)
    { raw := unsigned n v, counts := true, zero := decide (v = 0), sat := r.sat || c, nan := false }

/-- An FP32 result converted to BF16 stochastically with draw `u` (R97). -/
def toBf16Sr (u : Nat) (r : Rounded) : Written :=
  if fpNonFinite 23 r.bits then { raw := canonNaN 7, counts := true, zero := false, sat := r.sat, nan := true }
  else
    let k := (mag32 r.bits + bits u 16 16) / 2 ^ 16
    let s := if neg32 r.bits then 2 ^ 15 else 0
    if 0x7F80 ≤ k then { raw := s + 0x7F7F, counts := true, zero := false, sat := true, nan := false }
    else { raw := s + k, counts := true, zero := decide (k = 0), sat := r.sat, nan := false }

/-- An FP32 result converted to the format of OUT (R97); `u` is the draw of a stochastic rounding. -/
def convert (format : Nat) (u : Option Nat) (r : Rounded) : Written :=
  match format with
  | 0 => { raw := r.bits, counts := true, zero := decide (mag32 r.bits = 0), sat := r.sat, nan := fpNonFinite 23 r.bits }
  | 1 =>
    match u with
    | some u => toBf16Sr u r
    | none =>
      let b := roundIeee 7 (fpValue 23 r.bits) (neg32 r.bits)
      { raw := b.bits, counts := true, zero := decide (b.bits % 2 ^ 15 = 0), sat := r.sat || b.sat, nan := b.nan }
  | 2 => toIntFormat 8 r
  | _ => toIntFormat 32 r

/-- A pattern cut to the format of OUT (R100). -/
def cutInt (format v : Nat) : Nat := v % 2 ^ (8 * elemSize format)

/-- What a lane writes in the format of OUT. -/
def laneWrite (format : Nat) (u : Option Nat) : LaneVal → Written
  | .fp r => convert format u r
  | .int v => { raw := cutInt format v, counts := false, zero := false, sat := false, nan := false }
  | .quant v clamped nan =>
    if format = 2 then { raw := unsigned 8 v, counts := true, zero := decide (v = 0) && !nan, sat := clamped, nan := nan }
    else
      let w := convert format u (roundExact 23 (.num v 0))
      { w with sat := w.sat || clamped, nan := nan, zero := w.zero && !nan }

/-! ### Generators (R103 to R105) -/

/-- One draw: the value and the generator after it (R103). -/
def drawGen (g : W64 × W64) : Nat × (W64 × W64) :=
  let old := g.1.toNat
  let x := (((old / 2 ^ 18) ^^^ old) / 2 ^ 27) % 2 ^ 32
  let k := old / 2 ^ 59
  let u := (x / 2 ^ k) ||| ((x * 2 ^ ((32 - k) % 32)) % 2 ^ 32)
  (u, (g.1 * 0x5851F42D4C957F2D + g.2, g.2))

/-- A lane's generator seeded (R104). -/
def seedLane (party step key slice l : Nat) : W64 × W64 :=
  let out := shake256 (leBytes 4 party ++ leBytes 8 step ++ leBytes 4 key ++ leBytes 4 slice ++ leBytes 1 l) 16
  (BitVec.ofNat 64 (field out 0 8), BitVec.ofNat 64 (field out 8 8 ||| 1))

/-- Every lane's generator seeded. -/
def seedAll (party step key slice : Nat) : Tbl (W64 × W64) :=
  (List.range 64).foldl (fun t l => tput t l (seedLane party step key slice l)) []

/-! ### An instruction -/

/-- What an instruction changes besides its engine's control state. -/
structure Work where
  spaces : List Space
  gens : Tbl (W64 × W64)
  bank : Bank
  deriving DecidableEq, Repr, Inhabited

/-- A mask register: M0 reads as all ones (R94). -/
def maskOf (e : Engine) (m : Nat) : Nat := if m = 0 then 2 ^ 64 - 1 else (tget e.masks m).toNat

/-- The active lanes of vector `v` of an instruction (R94). -/
def activeLanes (e : Engine) (a : TvxArgs) (v : Nat) : List Nat :=
  maskList 64 (maskOf e (if v + 1 = a.n then a.ml else a.mb))

/-- The operand that imm or a scalar slot stands in for. -/
def immOpnd (e : Engine) (a : TvxArgs) : Opnd :=
  { format := 0, raw := if a.scalar then (tget e.scalars (a.imm.toNat % 8)).toNat else a.imm.toNat }

/-- A lane's operand of a slot: the stream's, or imm. -/
def operand (e : Engine) (sp : List Space) (a : TvxArgs) (slot v l : Nat) : Opnd :=
  if (slot = 1 ∧ a.immUse = 1) ∨ (slot = 2 ∧ a.immUse = 2) then immOpnd e a else readElem sp (tget e.streams slot) v l

/-- The reduction tile's element. -/
def tileAt (e : Engine) (row col : Nat) : Nat := (tget e.tile (64 * row + col)).toNat

/-- SUM, MAX or MIN of two values, as the reduction tile combines them (R101, R102). -/
def combine (op a b : Nat) : Rounded :=
  match op with
  | 0 => fpAdd a b
  | 1 => plain (fpMax a b)
  | _ => plain (fpMin a b)

/-- Neighbours combined in pairs: one width of R102. -/
def pairUp (op : Nat) : List Rounded → List Rounded
  | x :: y :: l =>
    let r := combine op x.bits y.bits
    { r with sat := r.sat || x.sat || y.sat } :: pairUp op l
  | l => l

/-- 64 values reduced over the widths 32, 16, 8, 4, 2, 1 (R102). -/
def reduce64 (op : Nat) (l : List Nat) : Rounded :=
  ((List.range 6).foldl (fun l _ => pairUp op l) (l.map plain)).headD default

/-- The lane results of the operations that take streams (Table 5.3). `u` is the draw of RAND and DROP. -/
def laneOp (e : Engine) (op : Nat) (a : TvxArgs) (sp : List Space) (v l u : Nat) : LaneVal :=
  let x (slot : Nat) : Opnd := operand e sp a slot v l
  let f (slot : Nat) : Nat := asFp32 (x slot)
  let i (slot : Nat) : Nat := asInt (x slot)
  let imm := a.imm.toNat
  match op with
  | 0x10 => .fp (fpAdd (f 0) (f 1))
  | 0x11 => .fp (fpAdd (f 0) (fpNeg (f 1)))
  | 0x12 => .fp (fpMul (f 0) (f 1))
  | 0x13 => .fp (fpFma (f 0) (f 1) (f 2))
  | 0x14 => .fp (plain (fpMin (f 0) (f 1)))
  | 0x15 => .fp (plain (fpMax (f 0) (f 1)))
  | 0x16 => .fp (plain (mag32 (f 0)))
  | 0x17 => .fp (plain (fpNeg (f 0)))
  | 0x18 => .fp (plain (if (maskOf e (imm % 8)).testBit l then f 0 else f 1))
  | 0x20 => .fp (fpExp2 (f 0))
  | 0x21 => .fp (fpLog2 (f 0))
  | 0x22 => .fp (fpRcp (f 0))
  | 0x23 => .fp (fpSqrt (f 0))
  | 0x24 => .fp (fpRsqrt (f 0))
  | 0x25 => .fp (fpTanh (f 0))
  | 0x28 => .fp (plain (f 0))
  | 0x29 =>
    match (fpValue 23 (f 0)).mul (fpValue 23 (f 1)) with
    | .nan => .quant 0 false true
    | .num m k => let (q, c) := clampInt 8 (roundInt m k); .quant q c false
  | 0x30 => .int ((i 0 + i 1) % 2 ^ 32)
  | 0x31 => .int (i 0 &&& i 1)
  | 0x32 => .int (i 0 ||| i 1)
  | 0x33 => .int (i 0 ^^^ i 1)
  | 0x34 => .int ((i 0 * 2 ^ (i 1 % 32)) % 2 ^ 32)
  | 0x35 => .int (i 0 / 2 ^ (i 1 % 32))
  | 0x41 => .int u
  | 0x42 => if u < imm then .fp (fpMul (f 0) (f 1)) else .fp (plain 0)
  | 0x4A =>
    .fp (reduce64 (imm / 2 % 4) ((List.range 64).map (fun j => if imm % 2 = 0 then tileAt e j l else tileAt e l j)))
  | 0x4B =>
    let r := (imm / 2 ^ 8 % 64 + v) % 64
    .fp (plain (if imm % 2 = 0 then tileAt e r l else tileAt e l r))
  | _ => .int 0

/-- Whether an operation takes a draw of its own (R105). -/
def drawsOwn (op : Nat) : Bool := decide (op = 0x41 ∨ op = 0x42)

/-- Whether a result is converted under SR, taking a draw (R97, R105). -/
def drawsSr (a : TvxArgs) : LaneVal → Bool
  | .fp _ => decide (a.rm = 1)
  | .quant _ _ _ => decide (a.rm = 1)
  | .int _ => false

/-- One lane: its draws, its result, and what it writes; it reads the memories as they stood before the vector. -/
def runLane (e : Engine) (op : Nat) (a : TvxArgs) (sp : List Space) (v : Nat) (acc : Tbl (W64 × W64) × List (Nat × Written)) (l : Nat) :
    Tbl (W64 × W64) × List (Nat × Written) :=
  let (u, g1) := if drawsOwn op then let d := drawGen (tget acc.1 l); (d.1, tput acc.1 l d.2) else (0, acc.1)
  let r := laneOp e op a sp v l u
  let (sr, g2) := if drawsSr a r then let d := drawGen (tget g1 l); (some d.1, tput g1 l d.2) else (none, g1)
  (g2, acc.2 ++ [(l, laneWrite (tget e.streams 3).args.format sr r)])

/-- A written element counted (R98, R120). -/
def countWritten (b : Bank) (w : Written) : Bank :=
  if w.counts then
    { b with written := b.written + 1, zero := b.zero + (if w.zero then 1 else 0)
             saturated := b.saturated + (if w.sat then 1 else 0), nan := b.nan + (if w.nan then 1 else 0) }
  else b

/-- One vector of an operation that writes OUT: every active lane reads, then every result is written. -/
def runVector (e : Engine) (op : Nat) (a : TvxArgs) (w : Work) (v : Nat) : Work :=
  let (gens, outs) := (activeLanes e a v).foldl (runLane e op a w.spaces v) (w.gens, [])
  outs.foldl (fun w p =>
    if elemHeld w.spaces (tget e.streams 3) v p.1 then
      { w with spaces := writeElem w.spaces (tget e.streams 3) v p.1 p.2.raw, bank := countWritten w.bank p.2 }
    else w) { w with gens := gens }

/-- One vector folded into the reduction tile (R101). -/
def foldVector (e0 : Engine) (a : TvxArgs) (sp : List Space) (e : Engine) (v : Nat) : Engine :=
  let imm := a.imm.toNat
  let row := (imm % 64 + v / (imm / 2 ^ 16)) % 64
  (activeLanes e0 a v).foldl (fun e l =>
    let x := asFp32 (readElem sp (tget e0.streams 0) v l)
    let t := tileAt e row l
    let r := match imm / 2 ^ 6 % 4 with
      | 0 => (fpAdd t x).bits
      | 1 => fpMax t x
      | 2 => fpMin t x
      | _ => x
    { e with tile := tput e.tile (64 * row + l) (BitVec.ofNat 32 r) }) e

/-! ### Checks before the first vector (R90, R97) -/

/-- Lanes active in some vector of an instruction, by vector. -/
def activeBy (e : Engine) (op : Nat) (a : TvxArgs) : List (Nat × List Nat) :=
  match opUse op with
  | some u =>
    if u.lanes then (List.range a.n).map (fun v => (v, activeLanes e a v))
    else if op = 0x06 ∨ op = 0x40 then [(0, [0])] else []
  | none => []

/-- First and last byte offset, plus one, that a stream touches in an instruction. -/
def touched (x : Stream) (act : List (Nat × List Nat)) : Option (Nat × Nat) :=
  act.foldl (fun r p => p.2.foldl (fun r l =>
    let o := elemOffset x p.1 l
    let hi := o + elemSize x.args.format
    match r with
    | none => some (o, hi)
    | some (a, b) => some (Nat.min a o, Nat.max b hi)) r) none

/-- Whether every element a stream touches lies inside its space (R90). -/
def inSpace (sp : List Space) (x : Stream) (act : List (Nat × List Nat)) : Bool :=
  match touched x act with
  | none => true
  | some (_, hi) => decide (hi ≤ (spaceOf sp x.args.object).limit (elemSize x.args.format))

/-- Whether OUT aliases an input exactly (R90): all but the slot agree. -/
def sameStream (x y : Stream) : Bool := decide ({ x with args := { x.args with slot := 0 } } = { y with args := { y.args with slot := 0 } })

/-- Whether OUT and an input are disjoint or an exact alias (R90). -/
def noOverlap (x out : Stream) (act : List (Nat × List Nat)) : Bool :=
  decide (x.args.object ≠ out.args.object) || sameStream x out ||
    (match touched x act, touched out act with
     | some (a, b), some (c, d) => decide (b ≤ c ∨ d ≤ a)
     | _, _ => true)

/-- What an instruction meets before its first vector: VEC_RANGE, VEC_OVERLAP or VEC_FORMAT (R90, R97). -/
def checkStreams (e : Engine) (op : Nat) (a : TvxArgs) (sp : List Space) : Option Status :=
  match opUse op with
  | none => none
  | some u =>
    let act := activeBy e op a
    let slots := slotsUsed op u a
    if !(slots.all (fun k => inSpace sp (tget e.streams k) act)) then some .vecRange
    else if u.out && !((slots.filter (fun k => decide (k ≠ 3))).all (fun k => noOverlap (tget e.streams k) (tget e.streams 3) act)) then
      some .vecOverlap
    else if u.out && decide (a.rm = 1) && decide ((tget e.streams 3).args.format ≠ 1) then some .vecFormat
    else none

/-! ### Control -/

/-- The next instruction, through the ends of loop bodies (Table 5.3, LOOP). -/
def loopBack : Nat → Nat → List LoopFrame → Nat × List LoopFrame
  | 0, pc, l => (pc, l)
  | _ + 1, pc, [] => (pc, [])
  | k + 1, pc, f :: l =>
    if pc = f.first + f.len then
      if 1 < f.left then (f.first, { f with left := f.left - 1 } :: l) else loopBack k pc l
    else (pc, f :: l)

/-- The engine past its instruction. -/
def advancePc (e : Engine) : Engine :=
  let (pc, l) := loopBack 5 (e.pc + 1) e.loops
  { e with pc := pc, loops := l }

/-- What an instruction comes to. -/
inductive Ran where
  /-- Done: the engine past it, the memories, and what it counts. -/
  | done (e : Engine) (sp : List Space) (b : Bank)
  /-- A WAIT whose flag is not set. -/
  | held
  /-- END. -/
  | ended (e : Engine)
  /-- Refused before its first vector; nothing is written. -/
  | fault (st : Status)
  deriving DecidableEq, Repr

/-- Mask logic: AND, OR, XOR, NOT. -/
def maskLogic (op x y : Nat) : Nat :=
  match op with
  | 0x39 => x &&& y
  | 0x3A => x ||| y
  | 0x3B => x ^^^ y
  | _ => (2 ^ 64 - 1) ^^^ x

/-- A mask register written; M0 never is. -/
def setMask (e : Engine) (m v : Nat) : Engine := if m = 0 then e else { e with masks := tput e.masks m (BitVec.ofNat 64 v) }

/-- Control and scalar operations, which write no stream. -/
def runControl (e : Engine) (op : Nat) (a : TvxArgs) (sp : List Space) : Ran :=
  let imm := a.imm.toNat
  let done (e : Engine) : Ran := .done (advancePc e) sp default
  match op with
  | 0x01 => .ended { e with running := false }
  | 0x02 =>
    .done { e with pc := e.pc + 1, loops := { first := e.pc + 1, len := imm / 2 ^ 16, left := imm % 2 ^ 16 } :: e.loops } sp default
  | 0x03 => if e.flags.testBit (imm % 16) then done { e with flags := without e.flags (2 ^ (imm % 16)) } else .held
  | 0x04 => done { e with flags := e.flags ||| 2 ^ (imm % 16) }
  | 0x05 => done { e with tag := imm }
  | 0x06 =>
    done { e with scalars := tput e.scalars (imm % 8) (BitVec.ofNat 32 (asFp32 (readElem sp (tget e.streams 0) 0 0)))
                  streams := advanceStreams [0] 1 e.streams }
  | 0x19 =>
    let old := maskOf e a.mb
    let lanes := activeLanes e { a with n := 1 } 0
    let v := lanes.foldl (fun m l =>
      if fpCond (imm % 4) (asFp32 (operand e sp a 0 0 l)) (asFp32 (operand e sp a 1 0 l)) then m ||| 2 ^ l else without m (2 ^ l)) old
    done { setMask e a.mb v with streams := advanceStreams [0, 1] 1 e.streams }
  | 0x38 => done (setMask e a.mb (2 ^ Nat.min imm 64 - 1))
  | 0x39 | 0x3A | 0x3B | 0x3C => done (setMask e a.mb (maskLogic op (maskOf e a.ml) (maskOf e (imm % 8))))
  | 0x40 =>
    let fromIA := decide (a.rm % 2 = 1)
    let party := if fromIA then asInt (readElem sp (tget e.streams 0) 0 0) else e.party
    done { e with gens := seedAll party e.step imm e.slice, streams := if fromIA then advanceStreams [0] 1 e.streams else e.streams }
  | 0x48 =>
    let v : W32 := match imm with
      | 1 => 0xFF7FFFFF
      | 2 => 0x7F7FFFFF
      | _ => 0
    done { e with tile := (List.range 4096).foldl (fun t i => tput t i v) [] }
  | 0x49 =>
    let e1 := (List.range a.n).foldl (foldVector e a sp) e
    done { e1 with streams := advanceStreams [0] a.n e1.streams }
  | _ => done e

/-- Whether an operation writes OUT. -/
def writesOut (op : Nat) : Bool := match opUse op with | some u => u.out | none => false

/-- One instruction of Table 5.3 run to its end. -/
def runTvx (e : Engine) (op : Nat) (a : TvxArgs) (sp : List Space) : Ran :=
  match checkStreams e op a sp with
  | some st => .fault st
  | none =>
    if writesOut op then
      let w := (List.range a.n).foldl (runVector e op a) { spaces := sp, gens := e.gens, bank := default }
      match opUse op with
      | some u => .done (advancePc { e with gens := w.gens, streams := advanceStreams (slotsUsed op u a) a.n e.streams }) w.spaces w.bank
      | none => .held
    else runControl e op a sp

/-- STREAM: a descriptor is set and its position reset (R88). -/
def runStream (e : Engine) (a : StreamArgs) (sp : List Space) : Ran :=
  .done (advancePc { e with streams := tput e.streams a.slot { args := a, pos := 0 } }) sp default

/-- A word of a program. -/
def runWord (e : Engine) (w : W64) (sp : List Space) : Ran :=
  if wordOp w = 0x08 then runStream e (wordStream w) sp else runTvx e (wordOp w) (wordArgs w) sp

end Sys2Proof.Machine
end

