-- ==== Sys2Proof/Machine/Vector.lean ====
section
/-! DEFINITION. The TVX instructions of a tile's vector engine (chapter 5): each row runs the instruction its engine's
program counter stands at, in the tile store of its context's region (R87, R244). -/

namespace Sys2Proof.Machine

open Sys2Proof

/-- The tile store as an engine's streams address it: the program space of its context's region (R90, R244). -/
def storeSpace (x : Ctx) (t : Tile) : Space :=
  { (default : Space) with mem := t.store, origin := regionBase x, bytes := programSpace x }

/-- The program digest of R402: SHAKE256 over the target, the count and the words. -/
def programDigest (update : Bool) (p : List W64) : Bytes :=
  shake256 (leBytes 1 (if update then 1 else 0) ++ leBytes 2 p.length ++ p.flatMap (fun w => leBytes 8 w.toNat)) 64

/-- What an instruction came to, taken into the state. A fault ends the context; the log names the program digest and the
instruction index (R90). -/
def settleRan (s : State) (tile w c : Nat) (r : Ran) : State :=
  let e := (s.tile tile).engine
  match r with
  | .held => s
  | .ended e' => s.modTile tile (fun t => { t with engine := e' })
  | .done e' sp b =>
    countTag (s.modTile tile (fun t => { t with engine := e', store := (spaceOf sp 0).mem })) w e.tag b
  | .fault st => endContext s w c st (atTile s tile) [leNat (programDigest false e.program), e.pc]

/-- A word of a vector engine's program, where that word stands at its program counter and the engine runs. -/
def vecWord (tile : Nat) (word : W64) (run : Engine → List Space → Ran) (s : State) : State :=
  let t := s.tile tile
  match t.owner with
  | none => s
  | some (w, c) =>
    if t.engine.running && !t.stopped && decide (t.engine.program[t.engine.pc]? = some word) then
      settleRan s tile w c (run t.engine [storeSpace (s.ctx w c) t])
    else s

/-- A TVX instruction of Table 5.2, whose fields fit their bits. -/
def vecOp (op tile : Nat) (a : TvxArgs) (s : State) : Host.Outcome State Fault Refusal :=
  onPart tile 136 s (fun s =>
    if wordOp (encodeTvx op a) = op ∧ wordArgs (encodeTvx op a) = a then
      vecWord tile (encodeTvx op a) (fun e sp => runTvx e op a sp) s
    else s)

/-- NOP, op 0x00 of Table 5.3: nothing but the next instruction (Table 5.3). -/
def execNop (tile : Nat) (a : TvxArgs) (s : State) : Host.Outcome State Fault Refusal := vecOp 0x00 tile a s

/-- END, op 0x01 of Table 5.3: the program ends. -/
def execEndProgram (tile : Nat) (a : TvxArgs) (s : State) : Host.Outcome State Fault Refusal := vecOp 0x01 tile a s

/-- LOOP, op 0x02 of Table 5.3: the next instructions run again (Table 5.3). -/
def execLoop (tile : Nat) (a : TvxArgs) (s : State) : Host.Outcome State Fault Refusal := vecOp 0x02 tile a s

/-- WAIT, op 0x03 of Table 5.3: held until the flag is set, which it clears (R106). -/
def execWait (tile : Nat) (a : TvxArgs) (s : State) : Host.Outcome State Fault Refusal := vecOp 0x03 tile a s

/-- POST, op 0x04 of Table 5.3: the flag is set (R106). -/
def execPost (tile : Nat) (a : TvxArgs) (s : State) : Host.Outcome State Fault Refusal := vecOp 0x04 tile a s

/-- TAG, op 0x05 of Table 5.3: the tensor tag of OUT (R98). -/
def execTag (tile : Nat) (a : TvxArgs) (s : State) : Host.Outcome State Fault Refusal := vecOp 0x05 tile a s

/-- SLD, op 0x06 of Table 5.3: a scalar slot takes an element as FP32. -/
def execSld (tile : Nat) (a : TvxArgs) (s : State) : Host.Outcome State Fault Refusal := vecOp 0x06 tile a s

/-- STREAM, op 0x08 (Table 5.1, R88). -/
def execStream (tile : Nat) (a : StreamArgs) (s : State) : Host.Outcome State Fault Refusal :=
  onPart tile 136 s (fun s =>
    if wordOp (encodeStream a) = 0x08 ∧ wordStream (encodeStream a) = a then
      vecWord tile (encodeStream a) (fun e sp => runStream e a sp) s
    else s)

/-- ADD, op 0x10 of Table 5.3. -/
def execAdd (tile : Nat) (a : TvxArgs) (s : State) : Host.Outcome State Fault Refusal := vecOp 0x10 tile a s

/-- SUB, op 0x11 of Table 5.3. -/
def execSub (tile : Nat) (a : TvxArgs) (s : State) : Host.Outcome State Fault Refusal := vecOp 0x11 tile a s

/-- MUL, op 0x12 of Table 5.3. -/
def execMul (tile : Nat) (a : TvxArgs) (s : State) : Host.Outcome State Fault Refusal := vecOp 0x12 tile a s

/-- FMA, op 0x13 of Table 5.3. -/
def execFma (tile : Nat) (a : TvxArgs) (s : State) : Host.Outcome State Fault Refusal := vecOp 0x13 tile a s

/-- MIN, op 0x14 of Table 5.3. -/
def execMin (tile : Nat) (a : TvxArgs) (s : State) : Host.Outcome State Fault Refusal := vecOp 0x14 tile a s

/-- MAX, op 0x15 of Table 5.3. -/
def execMax (tile : Nat) (a : TvxArgs) (s : State) : Host.Outcome State Fault Refusal := vecOp 0x15 tile a s

/-- ABS, op 0x16 of Table 5.3. -/
def execAbs (tile : Nat) (a : TvxArgs) (s : State) : Host.Outcome State Fault Refusal := vecOp 0x16 tile a s

/-- NEG, op 0x17 of Table 5.3. -/
def execNeg (tile : Nat) (a : TvxArgs) (s : State) : Host.Outcome State Fault Refusal := vecOp 0x17 tile a s

/-- SEL, op 0x18 of Table 5.3. -/
def execSel (tile : Nat) (a : TvxArgs) (s : State) : Host.Outcome State Fault Refusal := vecOp 0x18 tile a s

/-- CMP, op 0x19 of Table 5.3. -/
def execCmp (tile : Nat) (a : TvxArgs) (s : State) : Host.Outcome State Fault Refusal := vecOp 0x19 tile a s

/-- EXP2, op 0x20 of Table 5.3. -/
def execExp2 (tile : Nat) (a : TvxArgs) (s : State) : Host.Outcome State Fault Refusal := vecOp 0x20 tile a s

/-- LOG2, op 0x21 of Table 5.3. -/
def execLog2 (tile : Nat) (a : TvxArgs) (s : State) : Host.Outcome State Fault Refusal := vecOp 0x21 tile a s

/-- RCP, op 0x22 of Table 5.3. -/
def execRcp (tile : Nat) (a : TvxArgs) (s : State) : Host.Outcome State Fault Refusal := vecOp 0x22 tile a s

/-- SQRT, op 0x23 of Table 5.3. -/
def execSqrt (tile : Nat) (a : TvxArgs) (s : State) : Host.Outcome State Fault Refusal := vecOp 0x23 tile a s

/-- RSQRT, op 0x24 of Table 5.3. -/
def execRsqrt (tile : Nat) (a : TvxArgs) (s : State) : Host.Outcome State Fault Refusal := vecOp 0x24 tile a s

/-- TANH, op 0x25 of Table 5.3. -/
def execTanh (tile : Nat) (a : TvxArgs) (s : State) : Host.Outcome State Fault Refusal := vecOp 0x25 tile a s

/-- CVT, op 0x28 of Table 5.3. -/
def execCvt (tile : Nat) (a : TvxArgs) (s : State) : Host.Outcome State Fault Refusal := vecOp 0x28 tile a s

/-- QUANT, op 0x29 of Table 5.3. -/
def execQuant (tile : Nat) (a : TvxArgs) (s : State) : Host.Outcome State Fault Refusal := vecOp 0x29 tile a s

/-- IADD, op 0x30 of Table 5.3. -/
def execIadd (tile : Nat) (a : TvxArgs) (s : State) : Host.Outcome State Fault Refusal := vecOp 0x30 tile a s

/-- IAND, op 0x31 of Table 5.3. -/
def execIand (tile : Nat) (a : TvxArgs) (s : State) : Host.Outcome State Fault Refusal := vecOp 0x31 tile a s

/-- IOR, op 0x32 of Table 5.3. -/
def execIor (tile : Nat) (a : TvxArgs) (s : State) : Host.Outcome State Fault Refusal := vecOp 0x32 tile a s

/-- IXOR, op 0x33 of Table 5.3. -/
def execIxor (tile : Nat) (a : TvxArgs) (s : State) : Host.Outcome State Fault Refusal := vecOp 0x33 tile a s

/-- ISHL, op 0x34 of Table 5.3. -/
def execIshl (tile : Nat) (a : TvxArgs) (s : State) : Host.Outcome State Fault Refusal := vecOp 0x34 tile a s

/-- ISHR, op 0x35 of Table 5.3. -/
def execIshr (tile : Nat) (a : TvxArgs) (s : State) : Host.Outcome State Fault Refusal := vecOp 0x35 tile a s

/-- MSET, op 0x38 of Table 5.3. -/
def execMset (tile : Nat) (a : TvxArgs) (s : State) : Host.Outcome State Fault Refusal := vecOp 0x38 tile a s

/-- MAND, op 0x39 of Table 5.3. -/
def execMand (tile : Nat) (a : TvxArgs) (s : State) : Host.Outcome State Fault Refusal := vecOp 0x39 tile a s

/-- MOR, op 0x3A of Table 5.3. -/
def execMor (tile : Nat) (a : TvxArgs) (s : State) : Host.Outcome State Fault Refusal := vecOp 0x3A tile a s

/-- MXOR, op 0x3B of Table 5.3. -/
def execMxor (tile : Nat) (a : TvxArgs) (s : State) : Host.Outcome State Fault Refusal := vecOp 0x3B tile a s

/-- MNOT, op 0x3C of Table 5.3. -/
def execMnot (tile : Nat) (a : TvxArgs) (s : State) : Host.Outcome State Fault Refusal := vecOp 0x3C tile a s

/-- GSEED, op 0x40 of Table 5.3. -/
def execGseed (tile : Nat) (a : TvxArgs) (s : State) : Host.Outcome State Fault Refusal := vecOp 0x40 tile a s

/-- RAND, op 0x41 of Table 5.3. -/
def execRand (tile : Nat) (a : TvxArgs) (s : State) : Host.Outcome State Fault Refusal := vecOp 0x41 tile a s

/-- DROP, op 0x42 of Table 5.3. -/
def execDrop (tile : Nat) (a : TvxArgs) (s : State) : Host.Outcome State Fault Refusal := vecOp 0x42 tile a s

/-- RTZ, op 0x48 of Table 5.3. -/
def execRtz (tile : Nat) (a : TvxArgs) (s : State) : Host.Outcome State Fault Refusal := vecOp 0x48 tile a s

/-- RTACC, op 0x49 of Table 5.3. -/
def execRtacc (tile : Nat) (a : TvxArgs) (s : State) : Host.Outcome State Fault Refusal := vecOp 0x49 tile a s

/-- RTRED, op 0x4A of Table 5.3. -/
def execRtred (tile : Nat) (a : TvxArgs) (s : State) : Host.Outcome State Fault Refusal := vecOp 0x4A tile a s

/-- RTOUT, op 0x4B of Table 5.3. -/
def execRtout (tile : Nat) (a : TvxArgs) (s : State) : Host.Outcome State Fault Refusal := vecOp 0x4B tile a s

end Sys2Proof.Machine
end

