-- ==== Sys2Proof/Machine/Update.lean ====
section
/-! DEFINITION. Update jobs and the update engines (R110 to R116, R133, R352). -/

namespace Sys2Proof.Machine

open Sys2Proof

/-! ### Slices -/

/-- Slices of a segment (R111). -/
def slicesPerSeg (i : Image) : Nat := ceilDiv (segElems i) sliceElems

/-- Slices of an adapter. -/
def sliceTotal (i : Image) : Nat := i.points.length * slicesPerSeg i

/-- The memory that a run of bytes makes. -/
def memOf (b : Bytes) : Mem := mstore [] 0 b

/-- The memories of a slice: W, G, S1, S2 and the scratch (R110, R111). -/
def sliceSpaces (s : State) (j : Job) (i : Image) (seg first : Nat) : List Space :=
  let obj (o : Nat) : Space :=
    { (default : Space) with mem := (s.obj o).content, sliced := true, seg := seg, perSeg := segElems i, first := first }
  let moment (m : Option (Nat × Nat)) : Space := match m with
    | some (o, _) => obj o
    | none => default
  [ { (default : Space) with
      mem := memOf ((s.handle j.handle).blocks[seg]?.getD []), sliced := true, perSeg := segElems i, first := first }
  , obj j.adapter.g, moment j.adapter.s1, moment j.adapter.s2
  , { (default : Space) with scratch := some s.free, bytes := 262144 } ]

/-- The state a slice starts with (R111): scalars of its point's row (R112), generators seeded with key 0 (R104). -/
def sliceEngine (s : State) (j : Job) (words : List W64) (q : Point) (k : Nat) : Engine :=
  let party := (s.handle j.handle).owner
  let row := j.scalars[2 * q.layer + q.position]?.getD []
  { (default : Engine) with
    program := words, running := true, party := party, step := j.step, slice := k, gens := seedAll party j.step 0 k
    scalars := ((List.range 8).zip row).foldl (fun t p => tput t p.1 p.2) [] }

/-- What a slice came to: its memories, its counts by tag, and its fault if it met one. -/
structure SliceOut where
  spaces : List Space
  counts : List (Nat × Bank)
  fault : Option Status
  deriving DecidableEq, Repr

/-- A program run to its END. Each instruction takes at least an engine cycle, and no slice takes more than 16,384 (R113). -/
def runSlice : Nat → Engine → List Space → List (Nat × Bank) → SliceOut
  | 0, _, sp, c => { spaces := sp, counts := c, fault := none }
  | n + 1, e, sp, c =>
    match e.program[e.pc]? with
    | none => { spaces := sp, counts := c, fault := none }
    | some w =>
      match runWord e w sp with
      | .done e' sp' b => runSlice n e' sp' (c ++ [(e.tag, b)])
      | .held => { spaces := sp, counts := c, fault := none }
      | .ended _ => { spaces := sp, counts := c, fault := none }
      | .fault st => { spaces := sp, counts := c, fault := some st }

/-- The FP32 pattern of 2^Δ. -/
def pow2Pattern (d : Int) : W32 := BitVec.ofNat 32 (roundExact 23 (.num 1 d)).bits

/-- The integer an FP32 pattern holds, if it holds one. -/
def fp32Int (v : W32) : Option Int :=
  match fp32Value v with
  | .nan => none
  | .num m e =>
    if 0 ≤ e then some (shl m e.toNat)
    else if m.natAbs % 2 ^ (-e).toNat = 0 then some (m / ((2 ^ (-e).toNat : Nat) : Int)) else none

/-- The rebias routine for a point: every element times 2^Δ, rounded once (R133). -/
def rebiasWords (d : Int) : List W64 :=
  let str (slot : Nat) : StreamArgs :=
    { slot := slot, format := 1, object := 0, base := 0, contiguous := true, vstride := 64, q := 0 }
  [ encodeStream (str 0), encodeStream (str 3)
  , encodeTvx 0x12 { mb := 0, ml := 0, rm := 0, immUse := 1, scalar := false, n := 512, imm := pow2Pattern d }
  , encodeTvx 0x01 { mb := 0, ml := 0, rm := 0, immUse := 0, scalar := false, n := 1, imm := 0 } ]

/-- Δ of a point of a rebias job: SC0 of its row (R352). -/
def pointDelta (scalars : List (List W32)) (q : Point) : Int :=
  (fp32Int ((scalars[2 * q.layer + q.position]?.getD []).headD 0)).getD 0

/-- The program's writes to OUT with the rounding of the job: an FMA or other operation keeps the rounding its word names;
the rounding field of a command sets it in the library routine's words before they are held (log entry 32). -/
def jobWords (j : Job) (q : Point) : List W64 := if j.rebias then rebiasWords (pointDelta j.scalars q) else j.words

/-- A slice's writes kept: W in the room, G and the moments in their objects. -/
def keepSlice (s : State) (j : Job) (seg : Nat) (sp : List Space) : State :=
  let s := s.modHandle j.handle (fun x =>
    { x with blocks := x.blocks.set seg (mload (spaceOf sp 0).mem 0 (x.blocks[seg]?.getD []).length) })
  let s := s.modObj j.adapter.g (fun x => { x with content := (spaceOf sp 1).mem })
  let s := match j.adapter.s1 with
    | some (o, _) => s.modObj o (fun x => { x with content := (spaceOf sp 2).mem })
    | none => s
  match j.adapter.s2 with
  | some (o, _) => s.modObj o (fun x => { x with content := (spaceOf sp 3).mem })
  | none => s

/-! ### Jobs -/

/-- An update-run's progress after one of its adapters, and its final reply after the last (Table 13.8). -/
def runProgress (s : State) (ref : CmdRef) (faulted : Bool) : State :=
  match s.runs.find? (fun r => decide (r.ref = ref)) with
  | none => s
  | some r =>
    let r' : UpdateRun := { r with left := r.left - 1, done := r.done + (if faulted then 0 else 1), faulted := r.faulted + (if faulted then 1 else 0) }
    if r'.left = 0 then
      finishIn (unrefObj { s with runs := s.runs.filter (fun x => decide (x.ref ≠ ref)) } r.table) ref (if r'.faulted = 0 then .ok else .updateFault)
        (leBytes 2 r'.done ++ leBytes 2 r'.faulted)
    else { s with runs := s.runs.map (fun x => if x.ref = ref then r' else x) }

/-- A pass changed by a function of it. -/
def State.modPass (s : State) (w c : Nat) (g : Pass → Pass) : State := s.modCtx w c (fun x => { x with pass := x.pass.map g })

/-- A job that has ended, taken into what it belongs to. -/
def endJob (s : State) (n : Nat) (faulted : Bool) : State :=
  let j := s.job n
  let s := { s with jobs := terase s.jobs n }
  match j.ref with
  | some ref => runProgress s ref faulted
  | none => s.modPass j.wing j.context (fun p =>
      if faulted then { p with faulted := p.faulted ++ [j.handle] } else { p with updated := p.updated ++ [j.handle] })

/-- An adapter whose update failed (R116): its job ends with UPDATE_FAULT and the adapter is damaged. -/
def faultJob (s : State) (n : Nat) : State :=
  let j := s.job n
  let s := logEvent s (0x8000 + Status.updateFault.value) 2 { wing := some j.wing, party := some (s.handle j.handle).owner } [j.handle, j.nextSlice]
  let s := endJob s n true
  settleRemoval (damageHandle s j.handle) j.wing

/-- References to a room that belong to the job's own step (R115, R157). -/
def ownRefs (j : Job) : Nat := if j.ref.isNone then 1 else 0

/-- Whether a job's bound objects are home: a step waits for one that still moves (R188). -/
def boundHome (s : State) (j : Job) : Bool :=
  let home (o : Nat) : Bool := decide ((s.obj o).st = .home)
  home j.adapter.g && (j.adapter.s1.map (fun o => home o.1)).getD true && (j.adapter.s2.map (fun o => home o.1)).getD true

/-- UPDATE_JOB_START: no other pass in flight references the adapter's room, and it becomes UPDATING (R115). -/
def updateJobStart (n i : Nat) (s : State) : State :=
  let j := s.job n
  let x := s.handle i
  let r := s.room x.room
  if j.live && decide (j.handle = i) && !j.started && boundHome s j && decide (r.refs ≤ ownRefs j) &&
      (decide (x.st = .resident ∧ r.st = .ready) || (j.ref.isNone && decide (x.st = .leaving ∧ r.st = .leaving))) then
    (s.modRoom x.room (fun r => { r with st := .updating })).modJob n (fun j => { j with started := true })
  else s

/-- UPDATE_JOB_START. -/
def execUpdateJobStart (job handle : Nat) (s : State) : Host.Outcome State Fault Refusal := .next (updateJobStart job handle s)

/-- Whether the engines take slices for a wing now: its stage runs, or it is being removed (R115, R251). -/
def wingTakesSlices (s : State) (w : Nat) : Bool :=
  let x := s.wing w
  x.live && !x.sealed && !x.fenced && (x.running.isSome || x.removing.isSome)

/-- Jobs with slices to run, by number. -/
def pendingJobs (s : State) : List (Nat × Job) :=
  s.jobs.filter (fun p => p.2.live && p.2.started && wingTakesSlices s p.2.wing &&
    decide (p.2.nextSlice < sliceTotal (s.handle p.2.handle).image))

/-- The job a quarter's engine takes next: the wing nearest its rotating pointer, its lowest job (R114, R262). -/
def chooseJob (s : State) (q : Nat) : Option (Nat × Job) :=
  (pendingJobs s).foldl (fun (best : Option (Nat × Job)) p =>
    let d (w : Nat) : Nat := (w + 16 - (s.quarter q).pointer % 16) % 16
    match best with
    | none => some p
    | some b => if d p.2.wing < d b.2.wing then some p else some b) none

/-- A slice of a job run by an engine (R111, R116). -/
def runJobSlice (s : State) (n : Nat) (j : Job) : State :=
  let i := (s.handle j.handle).image
  let k := j.nextSlice
  let seg := k / slicesPerSeg i
  let q := i.points[seg]?.getD default
  let out := runSlice 20000 (sliceEngine s j (jobWords j q) q k) (sliceSpaces s j i seg (k % slicesPerSeg i * sliceElems)) []
  let s := keepSlice s.draw j seg out.spaces
  let s := out.counts.foldl (fun s c => countTag s j.wing c.1 c.2) s
  match out.fault with
  | some _ => faultJob s.bump n
  | none => s.modJob n (fun j => { j with nextSlice := k + 1 })

/-- UPDATE_SLICE: a quarter's update engine runs one slice to completion (R111, R114). -/
def updateSlice (q : Nat) (s : State) : State :=
  match chooseJob s q with
  | none => s
  | some (n, j) => runJobSlice (s.modQuarter q (fun x => { x with pointer := (j.wing + 1) % 16 })) n j

/-- UPDATE_SLICE. -/
def execUpdateSlice (quarter : Nat) (s : State) : Host.Outcome State Fault Refusal := onPart quarter 4 s (updateSlice quarter)

/-- The new biases of a rebias job (R133). -/
def rebiased (j : Job) (i : Image) : Image := { i with points := i.points.map (fun q => { q with b := q.b + pointDelta j.scalars q }) }

/-- UPDATE_COMMIT: the last slice has written; the room leaves UPDATING, and a checkout that waited goes on (R115, R159). -/
def updateCommit (n i : Nat) (s : State) : State :=
  let j := s.job n
  let x := s.handle i
  if j.live && decide (j.handle = i) && j.started && decide (sliceTotal x.image ≤ j.nextSlice) then
    let s := s.bump.modRoom x.room (fun r => { r with st := if r.checkouts ≠ [] ∨ r.discard then .leaving else .ready })
    let s := if j.rebias then s.modHandle i (fun x => { x with image := rebiased j x.image }) else s
    settleRemoval (wakeCheckouts (endJob s n false) x.room) j.wing
  else s

/-- UPDATE_COMMIT. -/
def execUpdateCommit (job handle : Nat) (s : State) : Host.Outcome State Fault Refusal := .next (updateCommit job handle s)

/-! ### update-run -/

/-- A new job in the lowest free number. -/
def addJob (s : State) (j : Job) : State :=
  let n := freeNumber (fun x : Job => x.live) s.jobs 0
  { s with jobs := tput s.jobs n { j with live := true } }

/-- A held program of a wing. R348 asks that the id be held and says nothing of its target (log entry 52). -/
def heldProgram (s : State) (w id : Nat) : Option Program :=
  let p := tget (s.wing w).programs id
  if p.live then some p else none

/-- Whether a point's Δ leaves its range: not an integer from −64 to 64, SC1 to SC7 not +0, or a new b beyond ±32 (R352). -/
def rebiasBad (scalars : List (List W32)) (q : Point) : Bool :=
  let row := scalars[2 * q.layer + q.position]?.getD []
  match fp32Int (row.headD 0) with
  | none => true
  | some d => !(decide (-64 ≤ d ∧ d ≤ 64 ∧ -32 ≤ q.b + d ∧ q.b + d ≤ 32)) || (row.drop 1).any (fun v => decide (v ≠ 0))

/-- A program whose BF16 writes take the rounding of a command: in a word that converts its result, rm becomes it (R117,
Table 13.6; log entry 32). -/
def withRounding (sr : Bool) (words : List W64) : List W64 :=
  words.map (fun w =>
    if wordOp w = 0x08 then w
    else match opUse (wordOp w) with
      | some u => if u.rm = 3 ∧ sr then encodeTvx (wordOp w) { wordArgs w with rm := 1 } else w
      | none => w)

/-- The table object of a command (R345). -/
def tableResident (s : State) (o gen : Nat) : Bool :=
  objCurrent s o gen && decide ((s.obj o).st = .home ∧ (s.obj o).place.tier = .hbm)

/-- update-run (R111, R352). -/
def updateRunCmd : KCmd :=
  { code := 0x0406, cls := .long
    parse := fun p => fixedLayout 25 [] p && decide (field p 0 1 < 16 ∧ field p 1 1 < 2 ∧ field p 24 1 < 2)
      && (if field p 1 1 = 1 then decide (field p 2 2 = 0) else decide (field p 2 2 < 64))
    perm := fromVf0
    gens := fun s p => wingCurrent s (field p 0 1) (field p 4 4) && objCurrent s (field p 8 4) (field p 12 4)
    names := fun _ p => [field p 0 1]
    body := fun s h p =>
      let w := field p 0 1
      let rebias := decide (field p 1 1 = 1)
      let sr := decide (field p 24 1 = 1)
      let o := field p 8 4
      if (s.wing w).sealed then .refuse .wingSealed []
      else match if rebias then some default else heldProgram s w (field p 2 2) with
        | none => .refuse .programUnknown []
        | some prog =>
          if !tableResident s o (field p 12 4) then .refuse .objectNotResident []
          else match readTable (s.obj o).content (s.obj o).size true with
            | none => .refuse .tableBad []
            | some t =>
              if listLong t then .refuse .adapterListLong []
              else if !(t.adapters.all (fun a => handleCurrent s a.handle a.gen && decide ((s.handle a.handle).st = .resident) && (rebias || bindingsOk s a))) then
                .refuse .updateBindBad []
              else if rebias ∧ t.adapters.any (fun a => (s.handle a.handle).image.points.any (rebiasBad t.scalars)) then
                .refuse .rebiasRange []
              else
                let ref := refOf h 0x0406
                let add (s : State) (a : PassAdapter) : State :=
                  addJob s { (default : Job) with
                    wing := w, handle := a.handle, words := withRounding sr prog.words, adapter := a, scalars := t.scalars
                    layers := t.layers, sr := sr, step := field p 16 8, rebias := rebias, ref := some ref }
                .long (fun s => t.adapters.foldl add { refObj s o with runs := s.runs ++ [{ ref := ref, left := t.adapters.length, done := 0, faulted := 0, table := o }] })
                  .accepted [] (if t.adapters = [] then some (fun s => finish (unrefObj { s with runs := s.runs.filter (fun x => decide (x.ref ≠ ref)) } o) ref .ok (leBytes 4 0)) else none) }

/-- UPDATE_RUN. -/
def execUpdateRun (h : CmdHdr) (p : Bytes) (s : State) : Host.Outcome State Fault Refusal := .next (kcp updateRunCmd h p s)

end Sys2Proof.Machine
end

