-- ==== Sys2Proof/Machine/Watch.lean ====
section
/-! DEFINITION. Watching a training run (chapter 6): the watch table's banks and limits, the loss-spike detector, and their
commands. -/

namespace Sys2Proof.Machine

open Sys2Proof

/-! ### Banks -/

/-- A bank added to another, each counter stopping at 2^64 − 1 (R122). -/
def Bank.add (x y : Bank) : Bank :=
  { written := satAdd x.written y.written, zero := satAdd x.zero y.zero, saturated := satAdd x.saturated y.saturated
    nan := satAdd x.nan y.nan, accSat := satAdd x.accSat y.accSat }

/-- The five counters of a bank, in the order of Table 6.1. -/
def Bank.list (x : Bank) : List Nat := [x.written, x.zero, x.saturated, x.nan, x.accSat]

/-- Whether a counter of a bank stands at its end (R122). -/
def Bank.atEnd (x : Bank) : Bool := x.list.any (fun n => decide (n = 2 ^ 64 - 1))

/-- A bank's bytes (Table 6.1). -/
def Bank.bytes (x : Bank) : Bytes := x.list.flatMap (leBytes 8)

/-- An entry's control word (Table 6.2). -/
def Watch.control (e : Watch) : Nat :=
  e.satLimit * 2 ^ 16 + (if e.full then 128 else 0) + e.satAction * 4 + e.nanAction

/-- A control word written: the full bit is write-1-to-clear (Table 6.2). -/
def Watch.write (e : Watch) (v : Nat) : Watch :=
  { e with satLimit := bits v 16 16, full := e.full && !v.testBit 7, satAction := bits v 2 2, nanAction := bits v 0 2 }

/-- A step's commit in one entry: last := current, run += current, current := 0 (R121, R122). -/
def Watch.commit (e : Watch) : Watch :=
  let r := e.run.add e.cur
  { e with last := e.cur, run := r, cur := default, full := e.full || r.atEnd }

/-- Every listed entry of a wing's watch table changed. -/
def mapWatch (s : State) (w : Nat) (f : Watch → Watch) : State :=
  s.modWing w (fun x => { x with watch := x.watch.foldl (fun t p => tput t p.1 (f p.2)) x.watch })

/-- The entries of a range of tags changed. -/
def rangeWatch (s : State) (w first count : Nat) (f : Nat → Watch → Watch) : State :=
  s.modWing w (fun x => { x with watch := (List.range count).foldl (fun t i => tmod t (first + i) (f i)) x.watch })

/-! ### Limits (R124) -/

/-- Whether the nan action's limit is crossed. -/
def Watch.nanCrossed (e : Watch) : Bool := decide (0 < e.nanAction ∧ 0 < e.cur.nan)

/-- Whether the sat action's limit is crossed, in exact integers. -/
def Watch.satCrossed (e : Watch) : Bool :=
  decide (0 < e.satAction ∧ 0 < e.satLimit ∧ e.satLimit * e.cur.written < e.cur.saturated * 65536)

/-- Whether an entry's crossings hold the step. -/
def Watch.holds (e : Watch) : Bool := (e.nanCrossed && decide (e.nanAction = 2)) || (e.satCrossed && decide (e.satAction = 2))

/-- The notices of an entry: one for each crossing that notifies or holds (R124). -/
def limitNotices (w step : Nat) (s : State) (p : Nat × Watch) : State :=
  let n (s : State) : State := notify s .watchLimit (atWing s w) ([w, p.1, step] ++ p.2.cur.list)
  let s := if p.2.nanCrossed then n s else s
  if p.2.satCrossed then n s else s

/-- The limits of a wing checked; whether the step is held. -/
def checkLimits (s : State) (w step : Nat) : State × Bool :=
  ((s.wing w).watch.foldl (limitNotices w step) s, (s.wing w).watch.any (fun p => p.2.holds))

/-! ### The loss-spike detector (R125 to R130) -/

/-- What a check of one loss comes to: the new state, and for a spike the threshold it broke (0 where none is formed). -/
structure Checked where
  det : Detector
  spike : Option Nat
  deriving DecidableEq, Repr

/-- The value 2^−a as an FP32 pattern. -/
def powMinus (a : Nat) : Nat := (127 - a) * 2 ^ 23

/-- The detector's step for a loss, with a configuration (R127). -/
def detect (cfg d : Detector) (loss : Nat) : Checked :=
  let L := input32 loss
  let m := d.m.toNat
  let take (v : Nat) : Checked :=
    { det := { d with m := BitVec.ofNat 32 v, n := Nat.min (d.n + 1) (2 ^ 64 - 1), c := 0 }, spike := none }
  let spiked (t : Nat) : Checked := { det := { d with c := Nat.min (d.c + 1) (2 ^ 32 - 1) }, spike := some t }
  let diff := (fpAdd L (fpNeg m)).bits
  let moved := (fpAdd m (fpMul diff (powMinus cfg.a)).bits).bits
  if fpNonFinite 23 L then spiked 0
  else if d.n = 0 then take L
  else if d.n < cfg.warmup then take moved
  else
    let t := (fpAdd (fpMul cfg.mu.toNat (m % 2 ^ 31)).bits cfg.delta.toNat).bits
    if fpCond 1 t diff then spiked t else take moved

/-- What a spike does at the step boundary (R128, Table 6.4): 0 notify, 1 skip, 2 stop. -/
def spikeAction (cfg : Detector) (c : Nat) : Nat :=
  if cfg.action = 1 ∧ 0 < cfg.spikes ∧ cfg.spikes ≤ c then 2 else cfg.action

/-! ### Commands -/

/-- A range of tags within the table (Table 13.8). -/
def tagsOk (first count most : Nat) : Bool := inRange count 1 most && decide (first + count ≤ 1024)

/-- watch-read (R123). -/
def watchReadCmd : KCmd :=
  { code := 0x0407, cls := .query
    parse := fun p => fixedLayout 10 [(1, 1)] p && decide (field p 0 1 < 16) && tagsOk (field p 2 2) (field p 8 2) 28
    perm := fun s h p => mayNameWing s h.fn (field p 0 1)
    gens := fun s p => wingCurrent s (field p 0 1) (field p 4 4)
    body := fun s _ p =>
      .query (leBytes 2 (field p 2 2) ++ leBytes 2 (field p 8 2) ++ (List.range (field p 8 2)).flatMap (fun i =>
        let e := tget (s.wing (field p 0 1)).watch (field p 2 2 + i)
        leBytes 4 e.control ++ leBytes 4 0 ++ e.cur.bytes ++ e.last.bytes ++ e.run.bytes)) }

/-- WATCH_READ. -/
def execWatchRead (h : CmdHdr) (p : Bytes) (s : State) : Host.Outcome State Fault Refusal := .next (kcp watchReadCmd h p s)

/-- Whether a control word keeps its read-only bits 0 and its actions in Table 6.2. -/
def controlOk (v : Nat) : Bool := decide (bits v 8 8 = 0 ∧ bits v 4 3 = 0 ∧ bits v 2 2 < 3 ∧ bits v 0 2 < 3)

/-- watch-set. -/
def watchSetCmd : KCmd :=
  { code := 0x0408, cls := .commit
    parse := fun p =>
      decide (16 ≤ p.length ∧ p.length = 16 + 4 * field p 8 2) && zeros p 1 1 && zeros p 10 6 && decide (field p 0 1 < 16)
        && tagsOk (field p 2 2) (field p 8 2) 512 && (List.range (field p 8 2)).all (fun i => controlOk (field p (16 + 4 * i) 4))
    perm := fun s h p => mayNameWing s h.fn (field p 0 1)
    gens := fun s p => wingCurrent s (field p 0 1) (field p 4 4)
    names := fun _ p => [field p 0 1]
    body := fun _ _ p =>
      .commit (fun s => rangeWatch s (field p 0 1) (field p 2 2) (field p 8 2) (fun i e => e.write (field p (16 + 4 * i) 4))) .ok [] }

/-- WATCH_SET. -/
def execWatchSet (h : CmdHdr) (p : Bytes) (s : State) : Host.Outcome State Fault Refusal := .next (kcp watchSetCmd h p s)

/-- watch-reset (R123). -/
def watchResetCmd : KCmd :=
  { code := 0x0409, cls := .commit
    parse := fun p => fixedLayout 10 [(1, 1)] p && decide (field p 0 1 < 16) && tagsOk (field p 2 2) (field p 8 2) 1024
    perm := fun s h p => mayNameWing s h.fn (field p 0 1)
    gens := fun s p => wingCurrent s (field p 0 1) (field p 4 4)
    names := fun _ p => [field p 0 1]
    body := fun _ _ p =>
      .commit (fun s => rangeWatch s (field p 0 1) (field p 2 2) (field p 8 2) (fun _ e => { e with run := default })) .ok [] }

/-- WATCH_RESET. -/
def execWatchReset (h : CmdHdr) (p : Bytes) (s : State) : Host.Outcome State Fault Refusal := .next (kcp watchResetCmd h p s)

/-- FP32 from 0 to the largest finite value (Table 6.3). -/
def marginOk (v : Nat) : Bool := !fpNonFinite 23 v && (decide (v < 2 ^ 31) || decide (v = 2 ^ 31))

/-- The configuration's ranges (Table 6.3). -/
def detectorOk (p : Bytes) : Bool :=
  inRange (field p 8 1) 1 10 && decide (field p 9 1 ≤ 2 ∧ field p 12 2 ≤ 1000) && marginOk (field p 16 4) && marginOk (field p 20 4)

/-- A handle that trains or may (R126): not UNUSED, DAMAGED or ABSENT. -/
def handleGone (s : State) (i : Nat) : Bool :=
  decide ((s.handle i).st = .unused ∨ (s.handle i).st = .damaged ∨ (s.handle i).st = .absent)

/-- The detector state a payload writes, by its mask. -/
def writeDetector (p : Bytes) (d : Detector) : Detector :=
  let d := if (field p 2 1).testBit 0 then
      { d with a := field p 8 1, action := field p 9 1, spikes := field p 10 1, warmup := field p 12 2
               mu := BitVec.ofNat 32 (field p 16 4), delta := BitVec.ofNat 32 (field p 20 4) } else d
  if (field p 2 1).testBit 1 then { d with m := BitVec.ofNat 32 (field p 24 4), n := field p 32 8, c := field p 40 4 } else d

/-- detector-set (R126). Fields that the mask does not select are not tested (log entry 33). -/
def detectorSetCmd : KCmd :=
  { code := 0x040A, cls := .commit
    parse := fun p => fixedLayout 44 [(3, 1), (11, 1), (14, 2), (28, 4)] p && decide (field p 2 1 < 4)
      && (!(field p 2 1).testBit 0 || detectorOk p)
    perm := fun s h p => mayNameHandle s h.fn (field p 0 2)
    gens := fun s p => handleCurrent s (field p 0 2) (field p 4 4)
    body := fun s _ p =>
      if handleGone s (field p 0 2) then .refuse .adapterGone []
      else .commit (fun s => s.modHandle (field p 0 2) (fun x => { x with det := writeDetector p x.det })) .ok [] }

/-- DETECTOR_SET. -/
def execDetectorSet (h : CmdHdr) (p : Bytes) (s : State) : Host.Outcome State Fault Refusal := .next (kcp detectorSetCmd h p s)

/-- detector-release (R129): a handle that is not HELD records nothing. -/
def detectorReleaseCmd : KCmd :=
  { code := 0x040B, cls := .commit, parse := fun p => fixedLayout 8 [(2, 2)] p
    perm := fun s h p => mayNameHandle s h.fn (field p 0 2)
    gens := fun s p => handleCurrent s (field p 0 2) (field p 4 4)
    body := fun s _ p =>
      if handleGone s (field p 0 2) then .refuse .adapterGone []
      else if (s.handle (field p 0 2)).det.held then
        .commit (fun s => s.modHandle (field p 0 2) (fun x => { x with det := { x.det with held := false } })) .ok []
      else .nochange [] }

/-- DETECTOR_RELEASE. -/
def execDetectorRelease (h : CmdHdr) (p : Bytes) (s : State) : Host.Outcome State Fault Refusal := .next (kcp detectorReleaseCmd h p s)

end Sys2Proof.Machine
end

