-- ==== Sys2Proof/Machine/Contexts.lean ====
section
/-! DEFINITION. Contexts and programs (R243 to R246, R346, R347), and the queries about a wing (Table 13.3). -/

namespace Sys2Proof.Machine

open Sys2Proof

/-! ### Queries about a wing -/

/-- A wrapping counter less its baseline. -/
def since64 (v base : Nat) : Nat := (v + 2 ^ 64 - base % 2 ^ 64) % 2 ^ 64

/-- A counter as a function reads it (R411): VF0 raw, another less its value when the wing came to its party. -/
def seenBy (fn v base : Nat) : Nat := if fn = 0 then v else since64 v base

/-- wing-status (R340, R411). -/
def wingStatusCmd : KCmd :=
  { code := 0x0205, cls := .query
    parse := fun p => fixedLayout 8 [(1, 3)] p && decide (field p 0 1 < 16)
    perm := fun s h p => mayNameWing s h.fn (field p 0 1)
    gens := fun s p => wingCurrent s (field p 0 1) (field p 4 4)
    body := fun s h p =>
      let w := field p 0 1
      let x := s.wing w
      let live := x.contexts.filter (fun c => c.2.live)
      let n (f : WingCounters → Nat) : Bytes := leBytes 8 (seenBy h.fn (f x.counters) (f x.baseCounters))
      .query (leBytes 1 (wingStatus s w) ++ leBytes 1 (if x.sealed then 1 else 0) ++ leBytes 2 (if x.sealed then x.party else 0xFFFF)
        ++ leBytes 1 x.base ++ leBytes 1 (live.filter (fun c => c.2.resident)).length ++ leBytes 2 live.length
        ++ leBytes 2 (popCount 128 x.tiles) ++ leBytes 2 (popCount 512 x.pcs) ++ leBytes 4 x.window.slots
        ++ n (·.denied) ++ n (·.bounds) ++ n (·.late) ++ n (·.swapsOut) ++ n (·.swapsIn) ++ n (·.swapBytes)) }

/-- WING_STATUS. -/
def execWingStatus (h : CmdHdr) (p : Bytes) (s : State) : Host.Outcome State Fault Refusal := .next (kcp wingStatusCmd h p s)

/-- stall-read: Table 8.7 (R201, R411). -/
def stallReadCmd : KCmd :=
  { code := 0x0206, cls := .query
    parse := fun p => fixedLayout 8 [(1, 3)] p && decide (field p 0 1 < 16)
    perm := fun s h p => mayNameWing s h.fn (field p 0 1)
    gens := fun s p => wingCurrent s (field p 0 1) (field p 4 4)
    body := fun s h p =>
      let x := s.wing (field p 0 1)
      let counted := ((stallList x.stall).take 15).zip ((stallList x.baseStall).take 15)
      .query (counted.flatMap (fun q => leBytes 8 (seenBy h.fn q.1 q.2)) ++ leBytes 4 x.stall.ahead ++ leBytes 4 x.stall.aheadLow) }

/-- STALL_READ. -/
def execStallRead (h : CmdHdr) (p : Bytes) (s : State) : Host.Outcome State Fault Refusal := .next (kcp stallReadCmd h p s)

/-! ### context-create -/

/-- The layout and ranges of Table 13.4. -/
def contextParse (p : Bytes) : Bool :=
  fixedLayout 128 [(28, 4)] p && decide (field p 0 1 < 16 ∧ field p 2 1 < 2) && zeroOr (field p 3 1) 1 64
    && inRange (field p 8 2) 1 128 && decide (field p 10 1 ≤ 32) && decide (field p 11 1 = 0 ∨ field p 11 1 = 2)
    && decide (field p 12 4 ≤ 327680 ∧ field p 12 4 % 640 = 0) && zeroOr (field p 20 4) 1 65536 && zeroOr (field p 24 4) 64 65536
    && decide (field p 24 4 % 64 = 0) && (decide (field p 11 1 = 0) || decide (field p 64 64 < 2 ^ 16))

/-- Bytes of a context's SAVE object for a number of tiles (R258). -/
def saveBytes (tiles region slices : Nat) : Nat := ceilDiv (tiles * (region * 32768) + popCount 256 slices * 2 ^ 20) 4096 * 4096

/-- The context that a payload describes, in its SAVE object: OUT and IDLE (Table 13.5). -/
def newContext (s : State) (p : Bytes) (save : Nat) : Ctx :=
  { (default : Ctx) with
    live := true, latency := decide (field p 2 1 = 1), runLen := orElse (field p 3 1) 1, region := field p 8 2
    accBudget := field p 12 4, trackers := field p 10 1, slices := field p 32 32, saveObj := save, saveGen := (s.obj save).gen + 1
    idleHint := field p 16 4, rowTarget := orElse (field p 20 4) 1024, chunkLimit := orElse (field p 24 4) 512
    nextLatency := decide (field p 2 1 = 1), nextRunLen := orElse (field p 3 1) 1, nextIdleHint := field p 16 4
    st := .out, blocked := .idle, since := s.clock.count }

/-- context-create (R241, R243, R245, R258). -/
def contextCreateCmd : KCmd :=
  { code := 0x0301, cls := .long, parse := contextParse
    perm := fun s h p => mayNameWing s h.fn (field p 0 1)
    gens := fun s p => wingCurrent s (field p 0 1) (field p 4 4)
    names := fun _ p => [field p 0 1]
    body := fun s h p =>
      let w := field p 0 1
      let c := field p 1 1
      let x := s.wing w
      let tier := tierOf (field p 11 1)
      let set := field p 64 64
      let slices := field p 32 32
      let owner := wingOwner x
      let size := saveBytes (popCount 128 x.tiles) (field p 8 2) slices
      let i := freeObjNumber s
      if x.scrub.isSome ∨ x.reassign.isSome then .refuse .wingScrubbing []
      else if (s.ctx w c).live then .refuse .contextBusy []
      else if field p 8 2 * 32768 < 17728 + field p 12 4 + 64 * field p 10 1 ∨ !within slices x.slices then .refuse .contextBad []
      else if set = 0 ∨ placeDenied s w .save owner tier set then .refuse .placeDenied []
      else if loftKeyAbsent s owner tier then .refuse .keyAbsent []
      else match findPlace s tier set size with
        | none => .refuse .placeNoSpace []
        | some place =>
          if 262144 ≤ i then .refuse .placeNoSpace []
          else
            let o : Obj :=
              { (default : Obj) with
                kind := .save, owner := owner, wing := w, size := size, st := .moving, place := place
                work := .saveCreate w c (refOf h 0x0301) }
            let ctx := newContext s p i
            .long (fun s => (newObj s i o).modCtx w c (fun old => { ctx with gen := old.gen + 1 })) .accepted
              (leBytes 4 c ++ leBytes 4 ((s.ctx w c).gen + 1) ++ leBytes 4 i ++ leBytes 4 ((s.obj i).gen + 1)) none }

/-- CONTEXT_CREATE. -/
def execContextCreate (h : CmdHdr) (p : Bytes) (s : State) : Host.Outcome State Fault Refusal := .next (kcp contextCreateCmd h p s)

/-! ### context-set, context-destroy -/

/-- The parameters that a context-set's mask selects, for the next boundary (R243). -/
def setContext (p : Bytes) (x : Ctx) : Ctx :=
  let m := field p 16 1
  let x := if m.testBit 0 then { x with nextLatency := decide (field p 2 1 = 1) } else x
  let x := if m.testBit 1 then { x with nextRunLen := field p 3 1 } else x
  if m.testBit 2 then { x with nextIdleHint := field p 12 4 } else x

/-- context-set. -/
def contextSetCmd : KCmd :=
  { code := 0x0302, cls := .commit
    parse := fun p => fixedLayout 17 [] p && decide (field p 0 1 < 16 ∧ field p 2 1 < 2 ∧ field p 16 1 < 8)
      && (!(field p 16 1).testBit 1 || inRange (field p 3 1) 1 64)
    perm := fun s h p => mayNameWing s h.fn (field p 0 1)
    gens := fun s p => wingCurrent s (field p 0 1) (field p 4 4) && ctxCurrent s (field p 0 1) (field p 1 1) (field p 8 4)
    names := fun _ p => [field p 0 1]
    body := fun _ _ p => .commit (fun s => s.modCtx (field p 0 1) (field p 1 1) (setContext p)) .ok [] }

/-- CONTEXT_SET. -/
def execContextSet (h : CmdHdr) (p : Bytes) (s : State) : Host.Outcome State Fault Refusal := .next (kcp contextSetCmd h p s)

/-- context-destroy (R347, Table 10.12). -/
def contextDestroyCmd : KCmd :=
  { code := 0x0303, cls := .commit
    parse := fun p => fixedLayout 12 [(2, 2)] p && decide (field p 0 1 < 16)
    perm := fun s h p => mayNameWing s h.fn (field p 0 1)
    gens := fun s p => wingCurrent s (field p 0 1) (field p 4 4) && ctxCurrent s (field p 0 1) (field p 1 1) (field p 8 4)
    names := fun _ p => [field p 0 1]
    body := fun _ _ p => .commit (fun s => endContextIn s (field p 0 1) (field p 1 1) .contextGone) .ok [] }

/-- CONTEXT_DESTROY. -/
def execContextDestroy (h : CmdHdr) (p : Bytes) (s : State) : Host.Outcome State Fault Refusal := .next (kcp contextDestroyCmd h p s)

/-! ### Programs -/

/-- The words of a run of bytes. -/
def wordsOf (b : Bytes) (n : Nat) : List W64 := (List.range n).map (fun i => BitVec.ofNat 64 (field b (8 * i) 8))

/-- program-load (R93, R347): the words are read at execution and checked before the commit; the lowest free id is given. -/
def programLoadCmd (host : HostRead) : KCmd :=
  { code := 0x0304, cls := .commit
    parse := fun p => fixedLayout 16 [] p && decide (field p 0 1 < 16 ∧ field p 1 1 < 2) && inRange (field p 2 2) 1 2048 && lineAligned p 8
    perm := fun s h p => mayNameWing s h.fn (field p 0 1)
    gens := fun s p => wingCurrent s (field p 0 1) (field p 4 4)
    names := fun _ p => [field p 0 1]
    body := fun s h p =>
      let w := field p 0 1
      let n := field p 2 2
      let update := decide (field p 1 1 = 1)
      match hostBytes s h.fn host with
      | none => .refuse .hostAccessFault []
      | some b =>
        let words := wordsOf b n
        match programBad update words with
        | some i => .refuse .programBad (leBytes 2 i)
        | none =>
          if update ∧ (s.wing w).sealed then .refuse .wingSealed []
          else match lowest 64 (fun i => !(tget (s.wing w).programs i).live) with
            | none => .refuse .programTableFull []
            | some id =>
              let d := programDigest update words
              .commit (fun s => s.modWing w (fun x =>
                { x with programs := tput x.programs id { live := true, update := update, words := words, digest := d } })) .ok
                (leBytes 2 id ++ leBytes 6 0 ++ d) }

/-- PROGRAM_LOAD. -/
def execProgramLoad (h : CmdHdr) (p : Bytes) (host : HostRead) (s : State) : Host.Outcome State Fault Refusal :=
  .next (kcp (programLoadCmd host) h p s)

/-- Whether a pass command names a program. -/
def passNames (q : PassCmd) (id : Nat) : Bool := decide (q.forward = id) || (q.train && (decide (q.backward = id) || decide (q.update = some id)))

/-- Whether a queued or admitted pass of a wing names a program (R347). -/
def programBusy (s : State) (w id : Nat) : Bool :=
  (s.wing w).contexts.any (fun c => c.2.queue.any (passNames · id) || (match c.2.pass with | some q => passNames q.cmd id | none => false))

/-- program-free. -/
def programFreeCmd : KCmd :=
  { code := 0x0305, cls := .commit
    parse := fun p => fixedLayout 8 [(1, 1)] p && decide (field p 0 1 < 16)
    perm := fun s h p => mayNameWing s h.fn (field p 0 1)
    gens := fun s p => wingCurrent s (field p 0 1) (field p 4 4)
    names := fun _ p => [field p 0 1]
    body := fun s _ p =>
      let w := field p 0 1
      let id := field p 2 2
      if !(tget (s.wing w).programs id).live then .refuse .programUnknown []
      else if programBusy s w id then .refuse .programBusy []
      else .commit (fun s => s.modWing w (fun x => { x with programs := terase x.programs id })) .ok [] }

/-- PROGRAM_FREE. -/
def execProgramFree (h : CmdHdr) (p : Bytes) (s : State) : Host.Outcome State Fault Refusal := .next (kcp programFreeCmd h p s)

end Sys2Proof.Machine
end

