-- ==== Sys2Proof/Machine/Windows.lean ====
section
/-! DEFINITION. The weight window (R191 to R198): its slots and their ranges, its sweep plan, and window-set. The fetch and
the arrival of a shard stand with the Cellar. -/

namespace Sys2Proof.Machine

open Sys2Proof

/-- Bytes of a shard, and of a slot. -/
def shardBytes : Nat := 2 ^ 28

/-! ### Size -/

/-- The least number of slots for a base: S_min (R191). -/
def leastSlots (b : Base) : Nat := ceilDiv b.largest shardBytes + 1

/-- The default number of slots for a base (R191). -/
def defaultSlots (b : Base) : Nat := Nat.min 768 (ceilDiv (8 * b.largest) shardBytes)

/-! ### The plan (R193 to R195) -/

/-- The shards that hold a layer, ascending. -/
def layerShards (r : LayerRow) : List Nat :=
  if r.length = 0 then []
  else
    let first := r.offset / shardBytes
    (List.range ((r.offset + r.length - 1) / shardBytes - first + 1)).map (fun i => first + i)

/-- One sweep of a base: layers ascending forward, descending backward; a shard of two layers stands in each one's place. -/
def sweepOf (b : Base) (backward : Bool) : List Nat :=
  ((if backward then b.table.reverse else b.table).map layerShards).flatten

/-- Whether the pass a wing runs is a training pass. -/
def wingTrains (x : Wing) : Bool := x.contexts.any (fun c => match c.2.pass with | some p => p.cmd.train | none => false)

/-- The plan from the shard in use on, sweep after sweep, to at least a number of positions (R193). -/
def planTail : Nat → Base → Bool → Bool → Nat → List Nat → List Nat
  | 0, _, _, _, _, l => l
  | n + 1, b, trains, backward, want, l =>
    if want ≤ l.length then l
    else
      let next := trains && !backward
      planTail n b trains next want (l ++ sweepOf b next)

/-- The first S shards of a wing's plan, counted from the shard in use (R194). -/
def planAhead (s : State) (w : Nat) : List Nat :=
  let x := s.wing w
  if x.window.plan = [] then []
  else (planTail x.window.slots (s.base x.window.base) (wingTrains x) x.window.backward x.window.slots x.window.plan).take x.window.slots

/-! ### Slots -/

/-- The ring with the slots that fail a test freed; their ranges stay, behind those in use, while S allows and they lie in the
window's set (R194, R197). -/
def keepSlots (x : Window) (keep : Slot → Bool) : Window :=
  let used := (x.ring.zip x.places).filter (fun p => keep p.1)
  let freed := ((x.ring.zip x.places).filter (fun p => !keep p.1)).map (·.2) ++ x.places.drop x.ring.length
  let places := used.map (·.2) ++ freed.filter (fun p => decide (p.set = x.set))
  let slots := Nat.max x.nextSlots used.length
  { x with ring := used.map (·.1), places := places.take slots, slots := slots }

/-- Verified shards ahead of the shard in use (Table 8.7). -/
def lookAhead (s : State) (w : Nat) : Nat :=
  let x := s.wing w
  ((planAhead s w).drop 1).eraseDups.filter (fun j => x.window.ring.any (fun r => decide (r.shard = j) && r.verified)) |>.length

/-- The look-ahead counters brought up to date (Table 8.7). -/
def noteAhead (s : State) (w : Nat) : State :=
  let n := lookAhead s w
  s.modWing w (fun x => { x with stall := { x.stall with ahead := n, aheadLow := Nat.min x.stall.aheadLow n } })

/-- A wing's plan started anew for a base, in a direction: slots within its first S positions are kept (R195). -/
def startSweep (s : State) (w b : Nat) (backward : Bool) : State :=
  let s := s.modWing w (fun x => { x with window := { x.window with base := b, plan := sweepOf (s.base b) backward, backward := backward } })
  let ahead := planAhead s w
  noteAhead (s.modWing w (fun x =>
    { x with window := keepSlots x.window (fun r => decide (r.base = b) && ahead.contains r.shard) })) w

/-- The pass has finished with the shard in use: the plan moves on, and its slot is freed unless the shard recurs within the
next S positions (R194). -/
def finishShard (s : State) (w : Nat) : State :=
  let x := s.wing w
  let b := s.base x.window.base
  let next := wingTrains x && !x.window.backward
  let s := s.modWing w (fun x => { x with window :=
    match x.window.plan with
    | _ :: j :: l => { x.window with plan := j :: l }
    | _ => { x.window with plan := sweepOf b next, backward := next } })
  let ahead := planAhead s w
  noteAhead (s.modWing w (fun x => { x with window := keepSlots x.window (fun r => ahead.contains r.shard) })) w

/-- Whether a BASE_COPY of a wing holds a shard (R198). -/
def copiedShard (s : State) (w j : Nat) : Bool :=
  s.led.objects.any (fun p => p.2.live && decide (p.2.kind = .baseCopy ∧ p.2.wing = w ∧ p.2.base = (s.wing w).window.base ∧ p.2.st = .home)
    && decide (p.2.firstShard ≤ j ∧ j < p.2.firstShard + p.2.shards))

/-! ### window-set -/

/-- Ranges for a number of slots in a set, some of them kept. -/
def slotPlaces (s : State) (w set want : Nat) (kept : List Place) : Option (List Place) :=
  let gone := (s.wing w).window.places.filter (fun p => !(kept.contains p))
  let fit (l : List Place) : Option Place :=
    fitPlace s (fun t u => spansWithout s gone t u ++ (l.drop kept.length).filterMap (fun p => p.spanOn t u)) .hbm set shardBytes
  let rec go : Nat → List Place → Option (List Place)
    | 0, l => some l
    | n + 1, l =>
      match fit l with
      | some p => go n (l ++ [p])
      | none => none
  go (want - kept.length) kept

/-- Whether an admitted pass of a wing runs. -/
def passRuns (x : Wing) : Bool := x.contexts.any (fun c => c.2.pass.isSome)

/-- The window that a window-set leaves, if its set holds S slots (R191, R197). While a pass runs, slots in use keep their
ranges; else a new set empties the window (R202). -/
def resizedWindow (s : State) (w slots set : Nat) : Option Window :=
  let x := s.wing w
  let sameSet := decide (set = x.window.set)
  if sameSet ∧ slots ≤ x.window.places.length then
    some (keepSlots { x.window with nextSlots := slots } (fun _ => true))
  else
    let ring := if sameSet || passRuns x then x.window.ring else []
    let kept := if sameSet then x.window.places else x.window.places.take ring.length
    (slotPlaces s w set slots kept).map (fun l =>
      { x.window with slots := Nat.max slots ring.length, nextSlots := slots, set := set, ring := ring, places := l })

/-- The pseudo-channel set that a payload names: 0 is every one of the wing that takes new ranges (R191, R428). -/
def windowUnits (s : State) (w set : Nat) : Nat := if set = 0 then roomPool s w else set

/-- window-set. -/
def windowSetCmd : KCmd :=
  { code := 0x0508, cls := .commit
    parse := fun p => fixedLayout 72 [(1, 1)] p && decide (field p 0 1 < 16)
    perm := fun s h p => mayNameWing s h.fn (field p 0 1)
    gens := fun s p => wingCurrent s (field p 0 1) (field p 4 4)
    names := fun _ p => [field p 0 1]
    body := fun s _ p =>
      let w := field p 0 1
      let x := s.wing w
      let b := s.base x.base
      let set := windowUnits s w (field p 8 64)
      let slots := if field p 2 2 = 0 then defaultSlots b else field p 2 2
      if !within set x.pcs || !unitsTake s .hbm set then .refuse .placeDenied []
      else if slots < leastSlots b ∨ 768 < slots then .refuse .windowSmall []
      else match resizedWindow s w slots set with
        | none => .refuse .placeNoSpace []
        | some v => .commit (fun s => retryBlocked (s.modWing w (fun x => { x with window := v })) w) .ok [] }

/-- WINDOW_SET. -/
def execWindowSet (h : CmdHdr) (p : Bytes) (s : State) : Host.Outcome State Fault Refusal := .next (kcp windowSetCmd h p s)

end Sys2Proof.Machine
end

