-- ==== Sys2Proof/Machine/Wings.lean ====
section
/-! DEFINITION. Wings (R232 to R242, R346): creation, resizing, removal, reassignment, and what a pending tile change or a
removal does when its time comes. -/

namespace Sys2Proof.Machine

open Sys2Proof

/-! ### What wings own -/

/-- Live wings other than one. -/
def otherWings (s : State) (w : Nat) : List Wing := (s.liveWings.filter (fun v => decide (v ≠ w))).map s.wing

/-- Tiles a wing owns or is to own. -/
def claimedTiles (x : Wing) : Nat := x.tiles ||| (match x.change with | some c => c.tiles | none => 0)

/-- A sealed wing's slots, or those of its pending change (R224). -/
def ownSlots (x : Wing) : Nat := if x.sealed then x.slotMap ||| x.nextSlotMap else 0

/-- The slots that sealed wings other than one own. -/
def sealedSlots (s : State) (w : Nat) : Nat := (otherWings s w).foldl (fun m x => m ||| ownSlots x) 0

/-- What a wing-create or wing-resize asks a wing to own. -/
structure Asked where
  sealed : Bool
  tiles : Nat
  pcs : Nat
  slices : Nat
  ports : Nat
  loft : Nat
  slots : Nat
  deriving DecidableEq, Repr

/-- Whether something asked for belongs to a wing that may not share it (R233, Table 10.1, R409), or is a retired
pseudo-channel, which belongs to no wing (R428; log entry 43). -/
def askedBusy (s : State) (w : Nat) (a : Asked) : Bool :=
  (otherWings s w).any (fun x =>
    overlap a.tiles (claimedTiles x) || overlap a.pcs x.pcs || overlap a.slices x.slices || overlap a.slots (ownSlots x)
      || ((a.sealed || x.sealed) && (overlap a.loft x.loft || overlap a.ports x.ports)))
    || (a.sealed && (maskList 16 a.loft).any (fun c => decide (0 < (s.loft c).mirror)))
    || s.led.pcs.any (fun p => p.2.retired && a.pcs.testBit p.1)

/-- The refusals of R233, in the order of Table 13.3; a tile whose supply is off is unavailable too (R450). -/
def askedRefused (s : State) (w : Nat) (a : Asked) : Option Status :=
  if askedBusy s w a then some .wingResourceBusy
  else if (maskList 128 a.tiles).any (fun n => ((physTile s n).map (fun p => (s.tile p).supplyOff)).getD true) then some .tileUnavailable
  else if a.sealed && (decide (a.slots = 0) || decide (56 < popCount 64 (a.slots ||| sealedSlots s w))) then some .cellarSlotsFull
  else if a.tiles = 0 ∨ a.pcs = 0 then some .wingBad
  else none

/-- The slots that a sealed wing's field names: 0 is the lowest slot that no sealed wing owns (Table 13.2). -/
def slotsAsked (s : State) (w field : Nat) : Nat :=
  if field ≠ 0 then field
  else match lowest 64 (fun i => !(sealedSlots s w).testBit i) with
    | some i => 2 ^ i
    | none => 0

/-! ### Payloads -/

/-- The fields of Table 13.2 whose ranges hang on the grade. -/
def gradeOk (p : Bytes) (slots : Bool) : Bool :=
  if field p 1 1 = 1 then decide (field p 4 2 < 4096) && (!slots || decide (field p 6 2 = 0))
  else decide (field p 4 2 = 0xFFFF) && (!slots || (decide (field p 6 2 ≤ 64) && decide (field p 148 8 = 0)))

/-- The layout and ranges of Table 13.2. -/
def createWingParse (p : Bytes) : Bool :=
  fixedLayout 156 [(3, 1), (20, 4), (146, 2)] p && decide (field p 0 1 < 16 ∧ field p 1 1 < 2 ∧ field p 2 1 < 4) && gradeOk p true
    && zeroOr (field p 8 4) 50 10000 && zeroOr (field p 12 4) 1 1000 && zeroOr (field p 16 4) 10000 60000000
    && decide (field p 136 8 < 2 ^ 36)

/-- What a wing-create asks for. -/
def askedBy (s : State) (p : Bytes) : Asked :=
  let sealed := decide (field p 1 1 = 1)
  { sealed := sealed, tiles := field p 24 16, pcs := field p 40 64, slices := field p 104 32, ports := field p 136 8
    loft := field p 144 2, slots := if sealed then slotsAsked s (field p 0 1) (field p 148 8) else 0 }

/-! ### wing-create -/

/-- A new wing (R232). Its window is empty, of the default size, in every pseudo-channel of the wing (R191, R202). -/
def newWing (s : State) (p : Bytes) (a : Asked) (gen : Nat) : Wing :=
  let stage := orElse (field p 8 4) 1024
  let weight := if a.sealed then 0 else orElse (field p 6 2) 16
  let slots := defaultSlots (s.base (field p 2 1))
  { (default : Wing) with
    live := true, gen := gen, sealed := a.sealed, base := field p 2 1, party := field p 4 2, stage := stage, nextStage := stage
    park := orElse (field p 12 4) 50, ticketLife := orElse (field p 16 4) 2000000
    weight := weight, nextWeight := weight, slotMap := a.slots, nextSlotMap := a.slots
    tiles := a.tiles, pcs := a.pcs, slices := a.slices, loft := a.loft, ports := a.ports, createdAt := s.clock.count
    window := { (default : Window) with slots := slots, nextSlots := slots, set := a.pcs } }

/-- wing-create (R233). -/
def wingCreateCmd : KCmd :=
  { code := 0x0201, cls := .commit, parse := createWingParse, perm := fromVf0
    body := fun s _ p =>
      let w := field p 0 1
      let a := askedBy s p
      let gen := (s.wing w).gen + 1
      if s.secure.life = .return_ then .refuse .lifeCycleRefused []
      else if (s.wing w).live then .refuse .wingBusy []
      else if (s.base (field p 2 1)).st ≠ .ready then .refuse .baseNotReady []
      else match askedRefused s w a with
        | some st => .refuse st []
        | none => .commit (fun s => settleGates (s.modWing w (fun _ => newWing s p a gen))) .ok (leBytes 4 w ++ leBytes 4 gen) }

/-- WING_CREATE. -/
def execWingCreate (h : CmdHdr) (p : Bytes) (s : State) : Host.Outcome State Fault Refusal := .next (kcp wingCreateCmd h p s)

/-! ### wing-resize -/

/-- The layout of wing-resize: unselected fields are not read (R346). -/
def resizeParse (p : Bytes) : Bool :=
  let m := field p 160 2
  fixedLayout 164 [(3, 1), (20, 4), (146, 2), (162, 2)] p && decide (field p 0 1 < 16 ∧ field p 1 1 < 2 ∧ field p 2 1 < 4)
    && inRange m 1 511 && gradeOk p (m.testBit 3)
    && (!m.testBit 0 || zeroOr (field p 8 4) 50 10000) && (!m.testBit 1 || zeroOr (field p 12 4) 1 1000)
    && (!m.testBit 2 || zeroOr (field p 16 4) 10000 60000000) && (!m.testBit 7 || decide (field p 136 8 < 2 ^ 36))

/-- What a wing-resize asks for: the selected fields, the wing's own for the rest. -/
def resizeAsked (s : State) (p : Bytes) : Asked :=
  let x := s.wing (field p 0 1)
  let m := field p 160 2
  let pick (i v old : Nat) : Nat := if m.testBit i then v else old
  { sealed := x.sealed, tiles := pick 4 (field p 24 16) (match x.change with | some c => c.tiles | none => x.tiles)
    pcs := pick 5 (field p 40 64) x.pcs, slices := pick 6 (field p 104 32) x.slices, ports := pick 7 (field p 136 8) x.ports
    loft := pick 8 (field p 144 2) x.loft
    slots := if x.sealed then (if m.testBit 3 then slotsAsked s (field p 0 1) (field p 148 8) else x.nextSlotMap) else 0 }

/-- Whether a resize names another grade, party or base than the wing's (R346). -/
def resizeBad (x : Wing) (p : Bytes) : Bool :=
  decide (field p 1 1 ≠ (if x.sealed then 1 else 0)) || decide (field p 4 2 ≠ (if x.sealed then x.party else 0xFFFF))
    || decide (field p 2 1 ≠ x.base)

/-- The first object with a range on a unit of a tier. -/
def firstOn (s : State) (t : Tier) (units : List Nat) : Option Nat := (units.flatMap (objectsOn s t)).head?

/-- Why removed units cannot go (R236), with the first object found. -/
def removedHeld (s : State) (w : Nat) (a : Asked) : Option Bytes :=
  let x := s.wing w
  let tier (t : Tier) (old new : Nat) : Option Bytes :=
    let units := setUnits (without old new)
    if units.any (unitHolds s t) then
      some (match firstOn s t units with
        | some i => leBytes 4 i
        | none => [])
    else none
  let slicesUsed := x.contexts.foldl (fun m c => if c.2.live then m ||| c.2.slices else m) 0
  let portPeers := (maskList 36 (without x.ports a.ports)).filterMap (fun i => (s.port i).peer)
  (tier .hbm x.pcs a.pcs).orElse (fun _ => (tier .quarter x.slices a.slices).orElse (fun _ => (tier .loft x.loft a.loft).orElse (fun _ =>
    if overlap (without x.slices a.slices) slicesUsed || (openTickets s w).any (fun t => portPeers.contains t.2.peer) then some []
    else none)))

/-- A SAVE object given at least the room that a number of tiles needs (R237). -/
def reserveSave (tiles w : Nat) (s : Option State) (c : Nat) : Option State :=
  s.bind (fun s =>
    let x := s.ctx w c
    let o := s.obj x.saveObj
    let size := saveBytes tiles x.region x.slices
    if size ≤ o.size then some s
    else
      let grown (d : Place) : State := s.modObj x.saveObj (fun o => { o with place := d, size := size })
      match extendPlace s o.place size with
      | some d => some (grown d)
      | none => (findPlace s o.place.tier o.place.set size).map grown)

/-- Every context's SAVE object given room for a number of tiles. -/
def reserveSaves (s : State) (w tiles : Nat) : Option State :=
  (((s.wing w).contexts.filter (fun c => c.2.live)).map (·.1)).foldl (reserveSave tiles w) (some s)

/-- The parameters of a resize other than tiles, at its commit (R236, Table 10.2). -/
def resizeParams (p : Bytes) (a : Asked) (x : Wing) : Wing :=
  let m := field p 160 2
  { x with
    nextStage := if m.testBit 0 then orElse (field p 8 4) 1024 else x.nextStage
    park := if m.testBit 1 then orElse (field p 12 4) 50 else x.park
    ticketLife := if m.testBit 2 then orElse (field p 16 4) 2000000 else x.ticketLife
    nextWeight := if m.testBit 3 && !x.sealed then orElse (field p 6 2) 16 else x.nextWeight
    nextSlotMap := if x.sealed then a.slots else x.nextSlotMap
    pcs := a.pcs, slices := a.slices, ports := a.ports, loft := a.loft
    window := { x.window with set := x.window.set &&& a.pcs } }

/-- A tile change made pending (R237); one it replaces is answered RESIZE_SUPERSEDED (R239). -/
def askTiles (w tiles : Nat) (s : State) : State :=
  let s' := s.modWing w (fun x => { x with change := some { tiles := tiles, forced := false } })
  if (s.wing w).change.isSome then notify s' .resizeSuperseded (atWing s w) [w, (s.wing w).gen] else s'

/-- wing-resize (R236 to R239, R346). -/
def wingResizeCmd : KCmd :=
  { code := 0x0202, cls := .commit, parse := resizeParse, perm := fromVf0
    gens := fun s p => wingCurrent s (field p 0 1) (field p 156 4)
    names := fun _ p => [field p 0 1]
    body := fun s _ p =>
      let w := field p 0 1
      let x := s.wing w
      let a := resizeAsked s p
      let retile := (field p 160 2).testBit 4
      match askedRefused s w a with
      | some st => .refuse st []
      | none =>
        if resizeBad x p then .refuse .wingBad []
        else match removedHeld s w a with
          | some b => .refuse .resourceOccupied b
          | none =>
            if !retile then .commit (fun s => s.modWing w (resizeParams p a)) .ok []
            else match reserveSaves s w (popCount 128 a.tiles) with
              | none => .refuse .placeNoSpace []
              | some _ =>
                .commit (fun s => askTiles w a.tiles (((reserveSaves s w (popCount 128 a.tiles)).getD s).modWing w (resizeParams p a)))
                  .resizePending [] }

/-- WING_RESIZE. -/
def execWingResize (h : CmdHdr) (p : Bytes) (s : State) : Host.Outcome State Fault Refusal := .next (kcp wingResizeCmd h p s)

/-! ### A tile change applied (R238) -/

/-- Whether a wing is quiet: none of its contexts has a pass admitted or parked. -/
def wingQuiet (x : Wing) : Bool := x.contexts.all (fun c => c.2.pass.isNone)

/-- A SAVE object's contents for another tile set: tiles that stay keep their regions, added ones are 0 (R238). -/
def retileSave (old new region : Nat) (m : Mem) : Mem :=
  let olds := maskList 128 old
  let news := maskList 128 new
  let r := region * 32768
  let tileOf (i : Nat) (l : List Nat) : Nat := (l.takeWhile (fun t => decide (t ≠ i))).length
  let regions := (news.filter (fun t => olds.contains t)).flatMap (fun t =>
    (mslice m (tileOf t olds * r) r).map (fun c => (tileOf t news * r + c.1, c.2)))
  let slices := (mslice m (olds.length * r) (2 ^ 28)).map (fun c => (news.length * r + c.1, c.2))
  regions ++ slices

/-- A context's SAVE object at a new tile set's size. -/
def retileCtx (w old new : Nat) (s : State) (c : Nat) : State :=
  let x := s.ctx w c
  let size := saveBytes (popCount 128 new) x.region x.slices
  s.modObj x.saveObj (fun o =>
    { o with size := size, place := shrinkPlace o.place size, content := retileSave old new x.region o.content })

/-- The regions of a wing's resident contexts on a physical tile cleared. -/
def clearRegions (w : Nat) (s : State) (t : Nat) : State :=
  let rs := ((s.wing w).contexts.filter (fun c => c.2.live && c.2.resident)).map (fun c => (regionBase c.2, c.2.region * 32768))
  s.modTile t (fun x => { x with store := rs.foldl (fun m r => mclear m r.1 r.2) x.store })

/-- A pending tile change applied: kept, cleared and discarded regions, then WING_RESIZED (R238). -/
def applyChange (s : State) (w : Nat) : State :=
  let x := s.wing w
  match x.change with
  | none => s
  | some ch =>
    if !wingQuiet x then s
    else
      let s := s.bump
      let moved := (maskList 128 (x.tiles ^^^ ch.tiles)).filterMap (physTile s)
      let s := moved.foldl (fun s t => clearRegions w (s.modTile t idleTile) t) s
      let live := (x.contexts.filter (fun c => c.2.live)).map (·.1)
      let s := live.foldl (retileCtx w x.tiles ch.tiles) s
      -- a context's records on tiles that go are dropped with its regions
      let s := s.modWing w (fun x =>
        { x with tiles := ch.tiles, change := none
                 contexts := x.contexts.foldl (fun t c => tput t c.1
                   { c.2 with saves := c.2.saves.filter (fun r => ch.tiles.testBit r.tile) }) x.contexts })
      notify (settleGates s) .wingResized (atWing s w) [w, x.gen, popCount 128 ch.tiles]

/-! ### wing-remove, wing-reassign -/

/-- wing-remove (R240). -/
def wingRemoveCmd : KCmd :=
  { code := 0x0203, cls := .long
    parse := fun p => fixedLayout 8 [(1, 3)] p && decide (field p 0 1 < 16), perm := fromVf0
    gens := fun s p => wingCurrent s (field p 0 1) (field p 4 4)
    names := fun _ p => [field p 0 1]
    body := fun s h p =>
      let w := field p 0 1
      match s.led.objects.find? (fun o => o.2.live && decide (o.2.wing = w ∧ o.2.kind ≠ .room ∧ o.2.kind ≠ .save)) with
      | some _ => .refuse .resourceOccupied []
      | none => .long (fun s => askSwitch (s.modWing w (fun x => { x with removing := some (refOf h 0x0203) })) w) .accepted [] none }

/-- WING_REMOVE. -/
def execWingRemove (h : CmdHdr) (p : Bytes) (s : State) : Host.Outcome State Fault Refusal := .next (kcp wingRemoveCmd h p s)

/-- A ticket discarded and its context's tickets with it. -/
def dropWingTickets (s : State) (w : Nat) : State := spendTickets s (fun _ t => decide (t.wing = w))

/-- Steps 1 to 5 of a removal that act at its edge (R240): every pass and context ends with WING_GONE, tickets go, and rooms
begin to leave as by a forced checkout (R146). Jobs and moves under way go on to their ends. -/
def startRemoval (s : State) (w : Nat) : State :=
  let live := ((s.wing w).contexts.filter (fun c => c.2.live)).map (·.1)
  let s := (if live = [] then s else s.bump).modWing w (fun x => { x with leaving := true, change := none })
  let s := live.foldl (fun s c => endContextIn s w c .wingGone) s
  let s := dropWingTickets s w
  let s := (wingRooms s w).foldl wakeCheckouts s
  settleRemoval s w

/-- A wing's resources released, and the completion of its removal told (R240). -/
def releaseWing (s : State) (w : Nat) : State :=
  let x := s.wing w
  match x.removing with
  | none => s
  | some ref =>
    let s := notify s.bump .wingRemoved (atWing s w) [w, x.gen]
    let s := settleGates (s.modWing w (fun x => { (default : Wing) with gen := x.gen }))
    let s := { s with tt := { s.tt with entries := s.tt.entries.filter (fun e => decide (e.wing ≠ some w)) } }
    finishIn s ref .ok []

/-- WING_REMOVE_DONE: the earlier steps are done, and a sealed wing has been scrubbed since its last stage (R240, R415). -/
def wingRemoveDone (w : Nat) (s : State) : State :=
  let x := s.wing w
  if x.live ∧ x.removing.isSome ∧ removalDone s w ∧ (!x.sealed ∨ x.clean) ∧ x.scrub.isNone ∧ s.keeper.up then releaseWing s w else s

/-- WING_REMOVE_DONE. -/
def execWingRemoveDone (wing : Nat) (s : State) : Host.Outcome State Fault Refusal := onPart wing 16 s (wingRemoveDone wing)

/-- wing-reassign (R241). -/
def wingReassignCmd : KCmd :=
  { code := 0x0204, cls := .long
    parse := fun p => fixedLayout 8 [(1, 1)] p && decide (field p 0 1 < 16 ∧ field p 2 2 < 4096), perm := fromVf0
    gens := fun s p => wingCurrent s (field p 0 1) (field p 4 4)
    names := fun _ p => [field p 0 1]
    body := fun s h p =>
      let w := field p 0 1
      let x := s.wing w
      let mp := nextBoundary x (h.stamp + 2)
      if !x.sealed then .refuse .wingBad []
      else if x.reassign.isSome then .refuse .wingScrubbing []
      else if x.contexts.any (fun c => c.2.live) ∨ wingRooms s w ≠ [] then .refuse .wingBusy []
      else match entryRefused s h.stamp mp with
        | some st => .refuse st []
        | none =>
          .long (fun s => setEntry (s.modWing w (fun x => { x with reassign := some (field p 2 2, refOf h 0x0204) })) (scrubEntry w mp))
            .accepted [] none }

/-- WING_REASSIGN. -/
def execWingReassign (h : CmdHdr) (p : Bytes) (s : State) : Host.Outcome State Fault Refusal := .next (kcp wingReassignCmd h p s)

end Sys2Proof.Machine
end

