-- ==== Sys2Proof/Machine/Admit.lean ====
section
/-! DEFINITION. Passes up to their admission: pass-train, pass-serve and the serving sessions' commands (R348 to R351), and the
admission of a queued pass (R148, R161, R162, R188, R252, R349, R350). -/

namespace Sys2Proof.Machine

open Sys2Proof

/-! ### What a pass needs -/

/-- Whether a pass may use an object (R188): its home is HBM or the quarter store, or it moves into one; a BASE_COPY is
complete. -/
def objReady (s : State) (o gen : Nat) : Bool :=
  let x := s.obj o
  let near (p : Place) : Bool := decide (p.tier = .hbm ∨ p.tier = .quarter)
  objCurrent s o gen &&
    (match x.st with
     | .home => near x.place
     | .moving => decide (x.kind ≠ .baseCopy) && near ((workDest x.work).getD x.place)
     | _ => false)

/-- The objects that an adapter of a table binds, with their generations. -/
def adapterObjs (a : PassAdapter) : List (Nat × Nat) := (a.g, a.gGen) :: (a.s1.toList ++ a.s2.toList)

/-- Whether a listed handle is RESIDENT, HOME or LOADING at its current generation (R348). -/
def adapterHere (s : State) (a : PassAdapter) : Bool :=
  let x := s.handle a.handle
  handleCurrent s a.handle a.gen && decide (x.st = .resident ∨ x.st = .home ∨ x.st = .loading)

/-- The placing of one more room in what the rooms before it have left: the ranges found, and the shortfall (R162). -/
def trialRoom (s : State) (w : Nat) (acc : List Place × Nat) (mib : Nat) : List Place × Nat :=
  let used := (s.led.rooms.filter (fun r => decide (r.2.st ≠ .free))).length + acc.1.length
  match if used < 16384 then fitPlace s (fun t u => spansOn s t u ++ acc.1.filterMap (fun p => p.spanOn t u)) .hbm (roomPool s w) (mib * 2 ^ 20)
        else none with
  | some p => (acc.1 ++ [p], acc.2)
  | none => (acc.1, acc.2 + 1)

/-- How many of a table's non-resident adapters find no room (R162). -/
def roomShortfall (s : State) (w : Nat) (t : PassTable) : Nat :=
  ((t.adapters.filter (fun a => decide ((s.handle a.handle).st = .home))).foldl
    (fun acc a => trialRoom s w acc (roomMib (s.handle a.handle).image.bytes)) (([], 0) : List Place × Nat)).2

/-- The bytes that name a handle in a refusal. -/
def handleBytes (i : Nat) : Bytes := leBytes 2 i

/-- Checks 5 and 6 of R348. -/
def adaptersFail (s : State) (t : PassTable) : Option (Status × Bytes) :=
  match t.adapters.find? (fun a => !adapterHere s a) with
  | some a => some (.adapterGone, handleBytes a.handle)
  | none =>
    match t.adapters.find? (fun a => (s.handle a.handle).det.held) with
    | some a => some (.adapterHeld, handleBytes a.handle)
    | none =>
      -- a load from the Loft needs the owner's key (R180)
      if t.adapters.any (fun a => let x := s.handle a.handle; decide (x.st = .home) && !x.homeHost && keyAbsent s x.owner)
      then some (.keyAbsent, []) else none

/-- Checks 9 and 10 of R348. -/
def resourcesFail (s : State) (w tileCount : Nat) (t : PassTable) : Option (Status × Bytes) :=
  if tileCount ≠ popCount 128 (s.wing w).tiles then some (.wingShape, [])
  else if !((t.adapters.flatMap adapterObjs).all (fun o => objReady s o.1 o.2)) then some (.objectNotResident, [])
  else if 0 < roomShortfall s w t then some (.roomPoolFull, leBytes 4 (roomShortfall s w t))
  else none

/-! ### pass-train, pass-serve -/

/-- A pass queued in a context. -/
def queuePass (w c : Nat) (kind : CtxKind) (q : PassCmd) (s : State) : State :=
  s.modCtx w c (fun x => { x with kind := kind, queue := x.queue ++ [q] })

/-- Whether a context serves: it holds a serving session or has run a pass-serve (R348). -/
def servingCtx (x : Ctx) : Bool := decide (x.kind = .serve) || x.serves.any (fun v => v.2.live)

/-- Layout of pass-train (Table 13.6). -/
def passTrainParse (p : Bytes) : Bool :=
  fixedLayout 48 [(27, 1), (30, 2), (36, 4)] p && decide (field p 0 1 < 16 ∧ field p 26 1 < 2 ∧ field p 28 2 < 128)

/-- The programs a pass-train names, held (R348). -/
def trainPrograms (s : State) (p : Bytes) : Bool :=
  let w := field p 0 1
  (heldProgram s w (field p 20 2)).isSome && (heldProgram s w (field p 22 2)).isSome
    && (decide (field p 24 2 = 0xFFFF) || (heldProgram s w (field p 24 2)).isSome)

/-- The queued pass that a pass-train makes. -/
def trainPass (h : CmdHdr) (p : Bytes) (t : PassTable) : PassCmd :=
  { train := true, ref := refOf h 0x0401, tileCount := field p 2 2, table := t, tableObj := field p 12 4, forward := field p 20 2
    backward := field p 22 2, update := if field p 24 2 = 0xFFFF then none else some (field p 24 2), sr := decide (field p 26 1 = 1)
    lossTile := field p 28 2, lossAddr := field p 32 4, step := field p 40 8, passesLeft := 1, passesRun := 0, tokens := 0, lastEnd := 0 }

/-- pass-train (R348). -/
def passTrainCmd : KCmd :=
  { code := 0x0401, cls := .long, parse := passTrainParse
    perm := fun s h p => mayNameWing s h.fn (field p 0 1)
    gens := fun s p =>
      wingCurrent s (field p 0 1) (field p 4 4) && ctxCurrent s (field p 0 1) (field p 1 1) (field p 8 4)
        && objCurrent s (field p 12 4) (field p 16 4)
    names := fun _ p => [field p 0 1]
    body := fun s h p =>
      let w := field p 0 1
      let c := field p 1 1
      let o := field p 12 4
      if servingCtx (s.ctx w c) then .refuse .contextKind []
      else if !trainPrograms s p then .refuse .programUnknown []
      else if !tableResident s o (field p 16 4) then .refuse .objectNotResident []
      else match readTable (s.obj o).content (s.obj o).size false with
        | none => .refuse .tableBad []
        | some t =>
          if listLong t then .refuse .adapterListLong []
          else match adaptersFail s t with
            | some (st, b) => .refuse st b
            | none =>
              if !(t.adapters.all (bindingsOk s)) then .refuse .updateBindBad []
              else if (s.wing w).sealed ∧ field p 24 2 ≠ 0xFFFF then .refuse .wingSealed []
              else match resourcesFail s w (field p 2 2) t with
                | some (st, b) => .refuse st b
                | none => .long (fun s => queuePass w c .train (trainPass h p t) (refObj s o)) .accepted [] none }

/-- PASS_TRAIN. -/
def execPassTrain (h : CmdHdr) (p : Bytes) (s : State) : Host.Outcome State Fault Refusal := .next (kcp passTrainCmd h p s)

/-- The queued run that a pass-serve makes; its step is 0, for it carries none. -/
def servePass (h : CmdHdr) (p : Bytes) : PassCmd :=
  { (default : PassCmd) with
    ref := refOf h 0x0402, tileCount := field p 2 2, forward := field p 12 2, passesLeft := field p 14 2 }

/-- pass-serve (R350). -/
def passServeCmd : KCmd :=
  { code := 0x0402, cls := .long
    parse := fun p => fixedLayout 16 [] p && decide (field p 0 1 < 16) && inRange (field p 14 2) 1 65535
    perm := fun s h p => mayNameWing s h.fn (field p 0 1)
    gens := fun s p => wingCurrent s (field p 0 1) (field p 4 4) && ctxCurrent s (field p 0 1) (field p 1 1) (field p 8 4)
    names := fun _ p => [field p 0 1]
    body := fun s h p =>
      let w := field p 0 1
      let c := field p 1 1
      if (s.ctx w c).kind = .train then .refuse .contextKind []
      else if (heldProgram s w (field p 12 2)).isNone then .refuse .programUnknown []
      else if field p 2 2 ≠ popCount 128 (s.wing w).tiles then .refuse .wingShape []
      else .long (queuePass w c .serve (servePass h p)) .accepted [] none }

/-- PASS_SERVE. -/
def execPassServe (h : CmdHdr) (p : Bytes) (s : State) : Host.Outcome State Fault Refusal := .next (kcp passServeCmd h p s)

/-! ### Serving sessions (R351) -/

/-- The next place in the order of creation of a context's sessions. -/
def nextOrder (x : Ctx) : Nat := x.serves.foldl (fun m v => Nat.max m (v.2.order + 1)) 0

/-- The lowest free session number (log entry 15). -/
def freeServe (x : Ctx) : Nat := freeNumber (fun v : Serve => v.live) x.serves 0

/-- The session that a serve-open makes (R161, R351). -/
def newServe (s : State) (w c : Nat) (p : Bytes) (n : Nat) : Serve :=
  let x := s.ctx w c
  let none_ := decide (field p 14 1 = 1)
  let i := field p 12 2
  let resident := decide ((s.handle i).st = .resident)
  { live := true, gen := (tget x.serves n).gen + 1, party := field p 2 2, handle := if none_ then none else some i
    handleGen := field p 16 4, room := if !none_ && resident then (s.handle i).room else 0
    roomGen := if !none_ && resident then (s.room (s.handle i).room).gen else 0
    kv := field p 20 4, kvGen := field p 24 4, promptLeft := field p 28 4, tokens := 0, order := nextOrder x, ended := none }

/-- serve-open. -/
def serveOpenCmd : KCmd :=
  { code := 0x0403, cls := .commit
    parse := fun p => fixedLayout 32 [(15, 1)] p && decide (field p 0 1 < 16 ∧ field p 2 2 < 4096 ∧ field p 14 1 < 2) && inRange (field p 28 4) 1 262144
      && (decide (field p 14 1 = 0) || decide (field p 12 2 = 0 ∧ field p 16 4 = 0))
    perm := fun s h p => mayNameWing s h.fn (field p 0 1) && mayActFor s h.fn (some (field p 2 2))
    gens := fun s p =>
      wingCurrent s (field p 0 1) (field p 4 4) && ctxCurrent s (field p 0 1) (field p 1 1) (field p 8 4)
        && objCurrent s (field p 20 4) (field p 24 4) && (decide (field p 14 1 = 1) || handleCurrent s (field p 12 2) (field p 16 4))
    names := fun _ p => [field p 0 1]
    body := fun s _ p =>
      let w := field p 0 1
      let c := field p 1 1
      let o := s.obj (field p 20 4)
      let n := freeServe (s.ctx w c)
      if (s.ctx w c).kind = .train then .refuse .contextKind []
      else if field p 14 1 = 0 ∧ handleGone s (field p 12 2) then .refuse .adapterGone []
      else if o.kind ≠ .kv ∨ o.owner ≠ some (field p 2 2) then .refuse .placeDenied []
      else if 4096 ≤ n then .refuse .serveLimit []
      else
        let v := newServe s w c p n
        .commit (fun s => s.modCtx w c (fun x => { x with serves := tput x.serves n v })) .ok (leBytes 2 n ++ leBytes 2 0 ++ leBytes 4 v.gen) }

/-- SERVE_OPEN. -/
def execServeOpen (h : CmdHdr) (p : Bytes) (s : State) : Host.Outcome State Fault Refusal := .next (kcp serveOpenCmd h p s)

/-- The session a payload names. -/
def namedServe (s : State) (p : Bytes) : Serve := tget (s.ctx (field p 0 1) (field p 1 1)).serves (field p 2 2)

/-- Whether the generations that serve-append and serve-close name are current. A session that has ended by itself keeps its
generation until its number is used again, and is answered SERVE_ENDED. -/
def serveGens (s : State) (p : Bytes) : Bool :=
  wingCurrent s (field p 0 1) (field p 4 4) && ctxCurrent s (field p 0 1) (field p 1 1) (field p 8 4)
    && decide ((namedServe s p).gen = field p 12 4 ∧ field p 12 4 ≠ 0) && ((namedServe s p).live || (namedServe s p).ended.isSome)

/-- serve-append. -/
def serveAppendCmd : KCmd :=
  { code := 0x0404, cls := .commit
    parse := fun p => fixedLayout 20 [] p && decide (field p 0 1 < 16 ∧ field p 2 2 < 4096) && inRange (field p 16 4) 1 262144
    perm := fun s h p => mayNameWing s h.fn (field p 0 1)
    gens := serveGens, names := fun _ p => [field p 0 1]
    body := fun s _ p =>
      if !(namedServe s p).live then .refuse .serveEnded []
      else .commit (fun s => s.modCtx (field p 0 1) (field p 1 1) (fun x =>
        { x with serves := tmod x.serves (field p 2 2) (fun v => { v with promptLeft := v.promptLeft + field p 16 4 }) })) .ok [] }

/-- SERVE_APPEND. -/
def execServeAppend (h : CmdHdr) (p : Bytes) (s : State) : Host.Outcome State Fault Refusal := .next (kcp serveAppendCmd h p s)

/-- serve-close: the session ends, and its KV object is left to the host. -/
def serveCloseCmd : KCmd :=
  { code := 0x0405, cls := .commit
    parse := fun p => fixedLayout 16 [] p && decide (field p 0 1 < 16 ∧ field p 2 2 < 4096)
    perm := fun s h p => mayNameWing s h.fn (field p 0 1)
    gens := serveGens, names := fun _ p => [field p 0 1]
    body := fun _ _ p => .commit (fun s => s.modCtx (field p 0 1) (field p 1 1) (fun x =>
      { x with serves := tmod x.serves (field p 2 2) (fun v => { (default : Serve) with gen := v.gen }) })) .ok [] }

/-- SERVE_CLOSE. -/
def execServeClose (h : CmdHdr) (p : Bytes) (s : State) : Host.Outcome State Fault Refusal := .next (kcp serveCloseCmd h p s)

/-! ### Admission: common steps -/

/-- The words of a held program. -/
def programWords (s : State) (w id : Nat) : List W64 := (tget (s.wing w).programs id).words

/-- A program loaded in the engines of a wing's tiles, from its start, with generators seeded with key 0 (R87, R104). -/
def startProgram (s : State) (w c id step : Nat) : State :=
  let x := s.wing w
  let party := x.party
  let e : Engine :=
    { (default : Engine) with program := programWords s w id, running := true, party := party, step := step, gens := seedAll party step 0 0 }
  (wingTiles s w).foldl (fun s t => s.modTile t (fun t => { t with owner := some (w, c), stopped := false, engine := e })) s

/-- A wing's plan rebuilt where it does not stand at the start of a sweep in a direction (R195). -/
def assumeSweep (s : State) (w base : Nat) (backward : Bool) : State :=
  let v := (s.wing w).window
  if v.base = base ∧ v.backward = backward ∧ v.plan = sweepOf (s.base base) backward ∧ v.plan ≠ [] then s else startSweep s w base backward

/-- An adapter's image loaded from its home into a room (R161). -/
def reloadInto (s : State) (w i r : Nat) (place : Place) : State :=
  let x := s.handle i
  startLoad s i w r place
    { fromLoft := !x.homeHost, ref := none, room := r, image := x.image, first := false, before := .home, blocks := [], reload := true }

/-- References of a new pass taken (R157, Table 8.5). -/
def takeRefs (s : State) (rooms objects : List Nat) : State :=
  objects.foldl refObj (rooms.foldl (fun s r => s.modRoom r (fun x => { x with refs := x.refs + 1 })) s)

/-- A resident context has become RUNNABLE: the wing switches if it is IDLE, or to a latency-critical context from a
best-effort one (R250). -/
def noteRunnable (s : State) (w c : Nat) : State :=
  let x := s.ctx w c
  let wants := match (s.wing w).running with
    | none => true
    | some r => x.latency && !(s.ctx w r).latency
  if x.resident && decide (x.st = .runnable) && wants then askSwitch s w else s

/-- A pass put into its context at its admission: the context can proceed (Table 10.5); the engines take the forward program
if it runs. A latency-critical context is switched to by R250. -/
def admitPass (s : State) (w c : Nat) (p : Pass) : State :=
  let x := s.ctx w c
  let s := takeRefs s p.rooms p.objects
  let s := s.modCtx w c (fun x =>
    { x with pass := some p, queue := x.queue.drop 1, blocked := .none
             st := match x.st with | .blocked => .runnable | st => st
             runnableAt := if x.blocked = .none then x.runnableAt else s.led.version })
  let s := assumeSweep s w (s.wing w).base false
  if x.st = .running then startProgram s w c p.cmd.forward p.cmd.step else noteRunnable s w c

/-! ### Admission of a training pass (R148, R349) -/

/-- Whether a row is authorised (R148). -/
def rowPasses (s : State) (t : PassTable) (r : PassRow) : Bool :=
  t.parties.contains r.party && (decide (r.tag = noAdapterTag) ||
    (match t.adapters[r.tag]? with
     | some a => decide ((s.handle a.handle).owner = r.party)
     | none => false))

/-- The room of a listed adapter, where one is given it. -/
def adapterRoom (s : State) (i : Nat) : Nat := roomOf (s.handle i)

/-- A HOME adapter of a training pass loaded into a room (R162). -/
def loadListed (w : Nat) (s : State) (a : PassAdapter) : State :=
  let x := s.handle a.handle
  if x.st ≠ .home then s
  else match findRoom s w (roomMib x.image.bytes) with
    | some (r, place) => reloadInto s w a.handle r place
    | none => s

/-- Rows denied, counted (Table 14.18). -/
def countDenied (s : State) (w n : Nat) : State :=
  s.modWing w (fun x => { x with counters := { x.counters with denied := wrapAdd x.counters.denied n } })

/-- The head of a queue ended before layer 0 with a status (R349). -/
def failHead (s : State) (w c : Nat) (q : PassCmd) (st : Status) (b : Bytes) : State :=
  let s := (s.bump).modCtx w c (fun x => { x with queue := x.queue.drop 1 })
  settleContext (finishIn (releaseTable s q) q.ref st b) w c

/-- A training pass admitted. -/
def admitTrain (s : State) (w c : Nat) (q : PassCmd) : State :=
  if q.table.adapters.any (fun a => replacementReady s a.handle) then s
  else match (adaptersFail s q.table).orElse (fun _ => resourcesFail s w q.tileCount q.table) with
    | some (st, b) => failHead s w c q st b
    | none =>
      let rows := q.table.rows.filter (rowPasses s q.table)
      let denied := q.table.rows.length - rows.length
      let s := countDenied (q.table.adapters.foldl (loadListed w) s.bump) w denied
      let hs := q.table.adapters.map (·.handle)
      admitPass s w c
        { cmd := q, phase := .forward, admitted := s.clock.count, rows := rows, denied := denied, takes := []
          rooms := hs.map (adapterRoom s), objects := (q.table.adapters.flatMap adapterObjs).map (·.1), withheld := [], stops := []
          holdStep := false, updated := [], detectors := hs.map (fun i => (i, (s.handle i).det)), faulted := [] }

/-! ### Admission of a serving pass (R161, R162, R252) -/

/-- What became of a session at an admission. -/
inductive Bound where
  /-- It takes part, against this room if it has an adapter. -/
  | row (room : Option Nat)
  /-- It is left out of the pass. -/
  | wait
  /-- It is left out for want of a room. -/
  | short
  /-- It ended. -/
  | gone
  deriving DecidableEq, Repr

/-- The bindings of a session checked, and a reload begun where its room has gone (R161, R162, R188); one from the Loft needs the
owner's key (R407). -/
def bindServe (s : State) (w c n : Nat) (handles : List Nat) : State × Bound :=
  let v := tget (s.ctx w c).serves n
  let bind (s : State) (r : Nat) : State × Bound :=
    (s.modCtx w c (fun x => { x with serves := tmod x.serves n (fun v => { v with room := r, roomGen := (s.room r).gen }) }), .row (some r))
  if !objReady s v.kv v.kvGen then (s, .wait)
  else match v.handle with
    | none => (s, .row none)
    | some i =>
      let x := s.handle i
      if v.handleGen ≠ x.gen ∨ handleGone s i then (endServe s w c n .adapterGone, .gone)
      else if replacementReady s i ∨ (1024 ≤ handles.length ∧ i ∉ handles) then (s, .wait)
      else if x.st = .resident then bind s x.room
      else if !x.homeHost ∧ keyAbsent s x.owner ∧ x.load.isNone then (endServe s w c n .keyAbsent, .gone)
      else match x.load with
        | some l => bind s l.room
        | none =>
          match findRoom s w (roomMib x.image.bytes) with
          | some (r, place) => bind (reloadInto s w i r place) r
          | none => (s, .short)

/-- The rows taken so far at an admission. -/
structure Taking where
  st : State
  left : Nat
  takes : List ServeTake
  rooms : List Nat
  handles : List Nat
  short : Bool
  /-- The last decode session taken, and whether a decode session found no row left. -/
  lastDecode : Option Nat
  cut : Bool
  deriving DecidableEq, Repr

/-- One session given its rows, if any are left (R252). -/
def takeServe (w c chunk : Nat) (decode : Bool) (t : Taking) (n : Nat) : Taking :=
  if t.left = 0 then { t with cut := t.cut || decode }
  else
    let v := tget (t.st.ctx w c).serves n
    match bindServe t.st w c n t.handles with
    | (s, .row room) =>
      let k := if decode then 1 else Nat.min v.promptLeft (Nat.min chunk t.left)
      { t with
        st := s, left := t.left - k
        takes := t.takes ++ [{ session := n, rows := k, decode := decode, lastChunk := decode || decide (k = v.promptLeft) }]
        rooms := (match room with | some r => if r ∈ t.rooms then t.rooms else t.rooms ++ [r] | none => t.rooms)
        handles := (match v.handle with | some i => if i ∈ t.handles then t.handles else t.handles ++ [i] | none => t.handles)
        lastDecode := if decode then some n else t.lastDecode }
    | (s, .short) => { t with st := s, short := true }
    | (s, _) => { t with st := s }

/-- Live sessions of a context. -/
def liveServes (x : Ctx) : List (Nat × Serve) := x.serves.filter (fun v => v.2.live)

/-- The decode set in the order of R252: ascending from the decode pointer, wrapping at the end. -/
def decodeOrder (x : Ctx) : List Nat :=
  let l := ((liveServes x).filter (fun v => decide (v.2.promptLeft = 0))).map (·.1)
  l.filter (fun n => decide (x.decodePtr ≤ n)) ++ l.filter (fun n => decide (n < x.decodePtr))

/-- Sessions with prompt tokens left, in the order of their creation. -/
def promptOrder (x : Ctx) : List Nat :=
  (sortBy (fun a b : Nat × Serve => decide (a.2.order < b.2.order)) ((liveServes x).filter (fun v => decide (0 < v.2.promptLeft)))).map (·.1)

/-- The rows of an admission taken (R252). -/
def takeRows (s : State) (w c : Nat) : Taking :=
  let x := s.ctx w c
  let t : Taking :=
    { st := s, left := x.rowTarget, takes := [], rooms := [], handles := [], short := false, lastDecode := none, cut := false }
  let t := (decodeOrder x).foldl (takeServe w c x.chunkLimit true) t
  (promptOrder x).foldl (takeServe w c x.chunkLimit false) t

/-- Whether a session's rows are authorised (R148): in a sealed wing its party is the wing's, and an adapter is its party's. -/
def serveAllowed (s : State) (w : Nat) (v : Serve) : Bool :=
  (!(s.wing w).sealed || decide (v.party = (s.wing w).party)) && (v.handle.map (fun i => decide ((s.handle i).owner = v.party))).getD true

/-- The pass rows of a take. -/
def takeRowsOf (s : State) (w c : Nat) (handles : List Nat) (k : ServeTake) : List PassRow :=
  let v := tget (s.ctx w c).serves k.session
  let tag := match v.handle with
    | some i => (handles.takeWhile (fun j => decide (j ≠ i))).length
    | none => noAdapterTag
  List.replicate k.rows { party := v.party, tag := tag, input := 0 }

/-- A session whose rows were denied ended (R148). -/
def denyTake (w c : Nat) (s : State) (k : ServeTake) : State :=
  if serveAllowed s w (tget (s.ctx w c).serves k.session) then s
  else countDenied (endServe s w c k.session .tagDenied) w k.rows

/-- A run that finds no session with work ends (R350). -/
def endRun (s : State) (w c : Nat) (q : PassCmd) : State :=
  let last := if q.passesRun = 0 then Config.freeNat s.free % 2 ^ 64 else q.lastEnd
  failHead s.draw w c q .ok (leBytes 2 q.passesRun ++ leBytes 6 0 ++ leBytes 8 q.tokens ++ leBytes 8 last)

/-- A context whose pass waits for a room: BLOCKED with reason ROOM_WAIT, told once (R162, Table 10.6). -/
def waitForRoom (s : State) (w c : Nat) : State :=
  let x := s.ctx w c
  if x.blocked = .roomWait then s
  else
    let s := (notify s .roomPoolFull (atWing s w) [w, c]).modCtx w c (fun x =>
      { x with blocked := .roomWait, since := s.clock.count
               st := match x.st with | .running => .blocked | .runnable => .blocked | st => st })
    if (s.wing w).running = some c then askSwitch s w else s

/-- A serving pass admitted. -/
def admitServe (s : State) (w c : Nat) (q : PassCmd) : State :=
  if q.tileCount ≠ popCount 128 (s.wing w).tiles then failHead s w c q .wingShape []
  else
    let t := takeRows s w c
    if liveServes (t.st.ctx w c) = [] then endRun t.st w c q
    else if t.takes = [] then (if t.short then waitForRoom t.st w c else t.st)
    else
      let s := if t.short then notify t.st.bump .roomPoolFull (atWing t.st w) [w, c] else t.st.bump
      let s := t.takes.foldl (denyTake w c) s
      let takes := t.takes.filter (fun k => (tget (s.ctx w c).serves k.session).live)
      let rows := takes.flatMap (takeRowsOf s w c t.handles)
      let denied := (t.takes.foldl (fun n k => n + k.rows) 0) - rows.length
      let s := s.modCtx w c (fun x =>
        { x with decodePtr := match t.cut, t.lastDecode with | true, some n => n + 1 | _, _ => x.decodePtr })
      admitPass s w c
        { cmd := q, phase := .forward, admitted := s.clock.count, rows := rows, denied := denied, takes := takes
          rooms := t.rooms, objects := takes.map (fun k => (tget (s.ctx w c).serves k.session).kv), withheld := [], stops := []
          holdStep := false, updated := [], detectors := [], faulted := [] }

/-! ### PASS_ADMIT -/

/-- Whether a wing admits passes: not while a tile change pends, nor in a removal, a fence or a scrub (R237, R240, R415, R443). -/
def wingAdmits (x : Wing) : Bool :=
  x.live && x.change.isNone && x.removing.isNone && !x.fenced && x.scrub.isNone

/-- PASS_ADMIT: the oldest queued pass of a context is admitted, or ends with the check it fails (R349, R350). -/
def passAdmit (w c : Nat) (s : State) : State :=
  let x := s.ctx w c
  match x.queue with
  | [] => s
  | q :: _ =>
    if !x.live || x.pass.isSome || !wingAdmits (s.wing w) || !s.keeper.up then s
    else if q.train then admitTrain s w c q
    else admitServe s w c q

/-- PASS_ADMIT. -/
def execPassAdmit (wing context : Nat) (s : State) : Host.Outcome State Fault Refusal :=
  onPart wing 16 s (fun s => if context < 256 then passAdmit wing context s else s)

end Sys2Proof.Machine
end

