-- ==== Sys2Proof/Machine/Links.lean ====
section
/-! DEFINITION. The Waylink ports and their link layer (R266 to R271, R275, R276): training, frames, credits, replay, and how a
message is given to a port. IDLE and RETRY frames that the module itself sends are outputs that no part of the state holds. -/

namespace Sys2Proof.Machine

open Sys2Proof

/-! ### Which ports carry what -/

/-- The place of a port. -/
def atPort (p : Nat) : At := { kind := 6, place := p }

/-- Whether a port carries data (R266). -/
def inService (x : Port) : Bool := decide (x.st = .up ∨ x.st = .degraded)

/-- The ports in service, ascending. -/
def servicePorts (s : State) : List Nat := upTo 36 (fun p => inService (s.port p))

/-- The wing that owns a port, sealed before shared. -/
def portWings (s : State) (p : Nat) : List Nat := s.liveWings.filter (fun w => (s.wing w).ports.testBit p)

/-- Whether a sealed wing owns a port (R275). -/
def sealedPort (s : State) (p : Nat) : Bool := (portWings s p).any (fun w => (s.wing w).sealed)

/-- Ports that no sealed wing owns, and ports that no wing owns (R275). -/
def openPorts (s : State) : Nat := listMask (upTo 36 (fun p => !sealedPort s p))

/-- Ports that no wing owns. -/
def freePorts (s : State) : Nat := listMask (upTo 36 (fun p => decide (portWings s p = [])))

/-- Whether a port sends nothing but IDLE frames: its wing is fenced, or a sealed wing that is scrubbed (R414, R443). -/
def mutedPort (s : State) (p : Nat) : Bool :=
  (portWings s p).any (fun w => (s.wing w).fenced || ((s.wing w).sealed && (s.wing w).scrub.isSome))

/-! ### Messages as bytes (R273, Table 11.4) -/

/-- The class of a message type (Table 11.5). -/
def msgClass (type : Nat) : Nat :=
  match type with
  | 0x0010 => 2 | 0x0011 => 2 | 0x0061 => 2
  | 0x0020 => 3 | 0x0051 => 3
  | 0x0030 => 1 | 0x0040 => 1
  | _ => 0

/-- A message's body: values whose layout the spec does not give take 8 bytes each, before its data (DESIGN CHOICE, log
entry 35). -/
def OutMsg.bodyBytes (m : OutMsg) : Bytes := m.body.flatMap (leBytes 8) ++ m.data

/-- A message's bytes. -/
def OutMsg.bytes (m : OutMsg) : Bytes :=
  let b := leBytes 2 m.type ++ leBytes 1 m.hop ++ leBytes 1 0 ++ leBytes 4 m.bodyBytes.length ++ leBytes 8 m.dst ++ leBytes 8 m.src
    ++ leBytes 4 m.ref ++ leBytes 4 m.refGen ++ leBytes 8 m.offset ++ m.bodyBytes
  b ++ leBytes 4 (crc32c b)

/-- A message that this module originates. -/
def newMsg (type dst ref refGen offset : Nat) (body : List Nat) (data : Bytes) : OutMsg :=
  { type := type, dst := dst, src := Config.identity, hop := 16, ref := ref, refGen := refGen, offset := offset, body := body, data := data }

/-- The frames of a message: 384 bytes each, the first and last flagged (R269). -/
def framesOf (id cls : Nat) (b : Bytes) : List TxFrame :=
  let n := Nat.max 1 (ceilDiv b.length 384)
  (List.range n).map (fun i =>
    { seq := 0, sends := 0, cls := cls, first := decide (i = 0), last := decide (i + 1 = n), msg := id, payload := (b.drop (384 * i)).take 384 })

/-! ### Sending (R270, R271) -/

/-- Frames that wait sent as far as credits and the replay buffer allow; a class that is held up keeps its order. -/
def pumpFrames : List TxFrame → List Nat → Port → Port
  | [], _, p => p
  | f :: l, held, p =>
    if held.contains f.cls ∨ tget p.credits f.cls = 0 ∨ 1024 ≤ p.replay.length then
      pumpFrames l (f.cls :: held) { p with wait := p.wait ++ [f] }
    else
      pumpFrames l held
        { p with replay := p.replay ++ [{ f with seq := p.txNext, sends := 1 }], txNext := (p.txNext + 1) % 65536
                 credits := tmod p.credits f.cls (· - 1), owed := terase p.owed f.cls }

/-- Everything that waits on a port sent as far as it may be. -/
def pump (p : Port) : Port := if inService p then pumpFrames p.wait [] { p with wait := [] } else p

/-- A port's frames sent, unless it is to send only IDLE frames. -/
def pumpPort (s : State) (p : Nat) : State := if mutedPort s p then s else s.modPort p pump

/-- A message given to a port. -/
def sendOn (s : State) (p : Nat) (m : OutMsg) : State :=
  pumpPort (s.modPort p (fun x =>
    { x with wait := x.wait ++ framesOf x.nextMsg (msgClass m.type) m.bytes, nextMsg := x.nextMsg + 1
             kept := x.kept ++ [{ id := x.nextMsg, at_ := s.clock.count, msg := m }] })) p

/-- The ports in service to a neighbour among those allowed, ascending: the trunk (R276). -/
def trunk (s : State) (allowed peer : Nat) : List Nat :=
  (servicePorts s).filter (fun p => allowed.testBit p && decide ((s.port p).peer = some peer))

/-- A message sent to a neighbour on the trunk's port for its reference (R276); with no port in service it is lost. -/
def sendTrunk (s : State) (allowed peer : Nat) (m : OutMsg) : State :=
  let t := trunk s allowed peer
  match t[m.ref % Nat.max 1 t.length]? with
  | some p => sendOn s p m
  | none => s

/-- Messages whose every frame has been acknowledged are kept no longer. -/
def settleKept (p : Port) : Port :=
  { p with kept := p.kept.filter (fun k => (p.replay ++ p.wait).any (fun f => decide (f.msg = k.id))) }

/-- Frames covered by an acknowledgement leave the replay buffer (R271). -/
def ackFrames (ack : Nat) (p : Port) : Port :=
  if p.replay.any (fun f => decide (f.seq = ack)) then
    settleKept { p with replay := (p.replay.dropWhile (fun f => decide (f.seq ≠ ack))).drop 1 }
  else p

/-- Credits returned (R270). -/
def takeCredits (cls n : Nat) (p : Port) : Port := { p with credits := tmod p.credits cls (· + n) }

/-- Every unacknowledged frame sent again, in order; a port whose oldest frame has been sent 8 times retrains (R271). -/
def resend (p : Port) : Port :=
  match p.replay with
  | [] => p
  | f :: _ =>
    if 8 ≤ f.sends then { p with st := .training, retraining := true }
    else { p with replay := p.replay.map (fun f => { f with sends := f.sends + 1 }) }

/-! ### A port that goes down -/

/-- A port's link gone: its unacknowledged frames are discarded. Counters stay (R268). -/
def deadPort (st : PortSt) (p : Port) : Port :=
  { p with st := st, phase := 0, retraining := false, held := none, lanes := 0, retryAt := none, rxNext := 0, txNext := 0, replay := []
           wait := [], kept := [], credits := [], rx := [], owed := [] }

/-- Messages of this module's own that a lost port had not delivered, sent whole on the trunk's next port (R276). -/
def resendKept (s : State) (p : Nat) (peer : Option Nat) (l : List KeptMsg) : State :=
  match peer with
  | none => s
  | some i =>
    (l.filter (fun k => decide (k.msg.src = Config.identity ∧ msgClass k.msg.type ≠ 0))).foldl (fun s k =>
      let t := (trunk s (2 ^ 36 - 1) i).filter (fun q => decide (portWings s q = portWings s p))
      match (t.find? (fun q => decide (p < q))).orElse (fun _ => t.head?) with
      | some q => sendOn s q k.msg
      | none => s) s

/-- A port taken out of service, with what it had not delivered given to the trunk. -/
def dropPort (s : State) (p : Nat) (st : PortSt) : State :=
  let x := s.port p
  resendKept (s.modPort p (deadPort st)) p x.peer x.kept

/-- A port-retrain's reply once every port it names has ended training: UP, DEGRADED or DOWN, or HELD or OFF (log entry 36). -/
def portStates (s : State) : Bytes :=
  (List.range 36).map (fun p => BitVec.ofNat 8 (match (s.port p).st with
    | .off => 0 | .down => 1 | .training => 2 | .up => 3 | .degraded => 4 | .held => 5))

/-- Retrains that their ports' states complete. -/
def settleRetrains (s : State) : State :=
  let done (r : Retrain) : Bool := (maskList 36 r.ports).all (fun p => decide ((s.port p).st ≠ .training))
  if !s.keeper.up then s
  else
    (s.fabric.retrains.filter done).foldl (fun s r => finish s r.ref .ok (portStates s))
      (s.modFabric (fun f => { f with retrains := f.retrains.filter (fun r => !done r) }))

/-- A port lost: DOWN, with PORT_DOWN (R271). -/
def losePort (s : State) (p : Nat) : State := settleRetrains (notify (dropPort s p .down) .portDown (atPort p) [p])

/-! ### Training (R267) -/

/-- Training begun at phase 1. -/
def trainPort (p : Port) : Port :=
  { p with st := .training, phase := 1, retraining := false, held := none, retryAt := none, rx := [] }

/-- TRAINING_PHASE_DONE: a port passes to its next phase; phase 3 fixes its width, and a port that comes down to 4 lanes there
sends PORT_DEGRADED (R267, R268). -/
def trainingPhaseDone (p lanes : Nat) (s : State) : State :=
  let x := s.port p
  if x.st ≠ .training ∨ x.retraining then s
  else if x.phase = 1 ∨ x.phase = 2 then s.modPort p (fun x => { x with phase := x.phase + 1 })
  else if x.phase = 3 ∧ (lanes = 8 ∨ lanes = 4) then
    let width := if x.narrow then 4 else lanes
    let s := s.modPort p (fun x => { x with phase := 4, lanes := width, narrow := decide (width = 4) })
    if width = 4 ∧ !x.narrow then notify s .portDegraded (atPort p) [p] else s
  else s

/-- TRAINING_PHASE_DONE. -/
def execTrainingPhaseDone (port lanes : Nat) (s : State) : Host.Outcome State Fault Refusal := onPart port 36 s (trainingPhaseDone port lanes)

/-- TRAINING_PHASE_OVERRUN: the port returns to DOWN, to train again after 1 s (R267). -/
def trainingPhaseOverrun (p : Nat) (s : State) : State :=
  if (s.port p).st = .training ∧ !(s.port p).retraining then
    settleRetrains ((dropPort s p .down).modPort p (fun x => { x with retryAt := some (s.clock.count + 1000000) }))
  else s

/-- TRAINING_PHASE_OVERRUN. -/
def execTrainingPhaseOverrun (port : Nat) (s : State) : Host.Outcome State Fault Refusal := onPart port 36 s (trainingPhaseOverrun port)

/-- TRAINING_RETRY (R267). -/
def trainingRetry (p : Nat) (s : State) : State :=
  match (s.port p).retryAt with
  | some m => if (s.port p).st = .down ∧ m ≤ s.clock.count then s.modPort p trainPort else s
  | none => s

/-- TRAINING_RETRY. -/
def execTrainingRetry (port : Nat) (s : State) : Host.Outcome State Fault Refusal := onPart port 36 s (trainingRetry port)

/-- Whether the allow-list admits an identity (R272). -/
def allowed (s : State) (i : Nat) : Bool := decide (s.led.fab.allow = []) || s.led.fab.allow.contains i

/-- Why a HELLO holds its port (R267). -/
def holdWhy (s : State) (b : HelloBody) : Option (HeldWhy × Notice) :=
  if b.identity = Config.identity then some (.loopback, .portLoopback)
  else if b.version ≠ 1 ∨ !b.reservedZero then some (.helloBad, .portHelloBad)
  else if !allowed s b.identity then some (.notAllowed, .portNotAllowed)
  else none

/-- HELLO: the port becomes UP, DEGRADED or HELD; sequence numbers start at 0, and frames that a retrain left unacknowledged
stand first in what it sends (R267, R268). -/
def helloFrame (p : Nat) (b : HelloBody) (s : State) : State :=
  let x := s.port p
  if x.st ≠ .training ∨ x.retraining ∨ x.phase ≠ 4 then s
  else match holdWhy s b with
    | some (why, n) =>
      settleRetrains (notify (s.modPort p (fun x => { deadPort .held x with held := some (why, b.identity) })) n (atPort p) [p, b.identity])
    | none =>
      let s := s.modPort p (fun x =>
        { x with st := if x.lanes = 4 then .degraded else .up, phase := 0, peer := some b.identity, farPort := b.port, rxNext := 0
                 txNext := 0, replay := [], wait := x.replay ++ x.wait
                 credits := ((List.range b.credits.length).zip b.credits).foldl (fun t c => tput t c.1 c.2) [] })
      settleRetrains (pumpPort s p)

/-- HELLO. -/
def execHello (port : Nat) (body : HelloBody) (s : State) : Host.Outcome State Fault Refusal := onPart port 36 s (helloFrame port body)

/-! ### Degrading (R268) -/

/-- The half a degrading port keeps, given the lanes that lock: true for lanes 0 to 3. No row counts corrected symbols over
a window, so the lanes' whole counts stand for it (log entry 37). -/
def keptHalf (x : Port) (locked : Nat) : Option Bool :=
  let sum (l : List Nat) : Nat := l.foldl (fun a i => a + tget x.symbols i) 0
  let low := within 0x0F locked
  let high := within 0xF0 locked
  if low && high then some (decide (sum [0, 1, 2, 3] ≤ sum [4, 5, 6, 7]))
  else if low then some true
  else if high then some false
  else none

/-- A port degraded: it retrains on the half it keeps, or goes DOWN. -/
def degradePort (s : State) (p locked : Nat) : State :=
  match keptHalf (s.port p) locked with
  | none => losePort s p
  | some low =>
    notify (s.modPort p (fun x => { trainPort x with narrow := true, lowHalf := low, lanes := 4 })) .portDegraded (atPort p) [p]

/-- LANE_LOCK_LOSS: a lane in use has lost lock (R268). -/
def laneLockLoss (p lane locked : Nat) (s : State) : State :=
  let x := s.port p
  let used := decide (lane < 8) && (!x.narrow || (decide (lane < 4) == x.lowHalf))
  if inService x && used then degradePort s p (without locked (2 ^ lane)) else s

/-- LANE_LOCK_LOSS. -/
def execLaneLockLoss (port lane : Nat) (locked : Nat) (s : State) : Host.Outcome State Fault Refusal := onPart port 36 s (laneLockLoss port lane locked)

/-- UNCORRECTABLE_CODEWORD: counted; more than 16 within 1,000,000 mp degrade the port (R268). -/
def uncorrectableCodeword (p locked : Nat) (s : State) : State :=
  let x := s.port p
  if !inService x then s
  else
    let l := inWindow s.clock.count 1000000 x.uncorrectedAt
    let s := s.modPort p (fun x => { x with uncorrected := (x.uncorrected + 1) % 2 ^ 64, uncorrectedAt := if 16 < l.length then [] else l })
    if 16 < l.length then degradePort s p locked else s

/-- UNCORRECTABLE_CODEWORD. -/
def execUncorrectableCodeword (port : Nat) (locked : Nat) (s : State) : Host.Outcome State Fault Refusal :=
  onPart port 36 s (uncorrectableCodeword port locked)

/-! ### Frames received (R269 to R271) -/

/-- What any frame with a good CRC brings: an acknowledgement and credits. -/
def frameHeader (f : Frame) (p : Port) : Port := takeCredits f.creditClass f.creditReturn (ackFrames f.ack p)

/-- A DATA frame's payload taken: a message's last frame frees its class buffer, and the message's own row brings it. -/
def takeFrame (f : Frame) (p : Port) : Port :=
  let held := if f.first then [] else tget p.rx f.cls
  let p := { p with rxNext := (p.rxNext + 1) % 65536 }
  if f.last then { p with rx := terase p.rx f.cls, owed := tmod p.owed f.cls (· + (held.length + 1)) }
  else { p with rx := tput p.rx f.cls (held ++ [f.payload]) }

/-- DATA_FRAME: accepted with a good CRC and the next number, else discarded; a fenced or scrubbed wing's port discards what
it accepts and counts it (R271, R414, R443). -/
def dataFrame (p : Nat) (f : Frame) (s : State) : State :=
  if !inService (s.port p) || !f.crcOk then s
  else
    let muted := mutedPort s p
    pumpPort (s.modPort p (fun x =>
      let x := frameHeader f x
      if f.seq ≠ x.rxNext then x
      else if muted then
        { x with rxNext := (x.rxNext + 1) % 65536, discarded := (x.discarded + 1) % 2 ^ 64, owed := tmod x.owed f.cls (· + 1) }
      else takeFrame f x)) p

/-- DATA_FRAME. -/
def execDataFrame (port : Nat) (frame : Frame) (s : State) : Host.Outcome State Fault Refusal := onPart port 36 s (dataFrame port frame)

/-- IDLE_FRAME (R269). -/
def idleFrame (p : Nat) (f : Frame) (s : State) : State :=
  if !inService (s.port p) || !f.crcOk then s else pumpPort (s.modPort p (frameHeader f)) p

/-- IDLE_FRAME. -/
def execIdleFrame (port : Nat) (frame : Frame) (s : State) : Host.Outcome State Fault Refusal := onPart port 36 s (idleFrame port frame)

/-- RETRY_FRAME: what it does not name is sent again (R271). -/
def retryFrame (p : Nat) (f : Frame) (s : State) : State :=
  if !inService (s.port p) || !f.crcOk then s else pumpPort (s.modPort p (fun x => resend (frameHeader f x))) p

/-- RETRY_FRAME. -/
def execRetryFrame (port : Nat) (frame : Frame) (s : State) : Host.Outcome State Fault Refusal := onPart port 36 s (retryFrame port frame)

/-- ACK_TIMEOUT: the acknowledgement has not advanced for 2 µs (R271). -/
def ackTimeout (p : Nat) (s : State) : State := if inService (s.port p) then s.modPort p resend else s

/-- ACK_TIMEOUT. -/
def execAckTimeout (port : Nat) (s : State) : Host.Outcome State Fault Refusal := onPart port 36 s (ackTimeout port)

/-- LINK_RETRAIN_DONE: sending resumes from the oldest unacknowledged frame, or the port goes DOWN (R271). -/
def linkRetrainDone (p : Nat) (ok : Bool) (s : State) : State :=
  let x := s.port p
  if x.st ≠ .training ∨ !x.retraining then s
  else if ok then
    settleRetrains (pumpPort (s.modPort p (fun x =>
      { x with st := if x.lanes = 4 then .degraded else .up, retraining := false, replay := x.replay.map (fun f => { f with sends := 1 }) })) p)
  else losePort s p

/-- LINK_RETRAIN_DONE. -/
def execLinkRetrainDone (port : Nat) (ok : Bool) (s : State) : Host.Outcome State Fault Refusal := onPart port 36 s (linkRetrainDone port ok)

/-! ### port-retrain -/

/-- Ports retrained from phase 1 (R267): a retrain restores 8 lanes (R268). -/
def retrainPorts (s : State) (mask : Nat) : State :=
  (maskList 36 mask).foldl (fun s p => (dropPort s p .training).modPort p (fun x => { trainPort x with narrow := false })) s

/-- port-retrain. -/
def portRetrainCmd : KCmd :=
  { code := 0x0807, cls := .long, parse := fun p => fixedLayout 8 [] p && decide (field p 0 8 < 2 ^ 36), perm := fromVf0
    body := fun s h p =>
      let mask := field p 0 8
      if (maskList 36 mask).any (fun q => decide ((s.port q).st = .off)) then .refuse .portOff []
      else
        .long (fun s => (retrainPorts s mask).modFabric (fun f => { f with retrains := f.retrains ++ [{ ports := mask, ref := refOf h 0x0807 }] }))
          .accepted [] (if mask = 0 then some settleRetrains else none) }

/-- PORT_RETRAIN. -/
def execPortRetrain (h : CmdHdr) (p : Bytes) (s : State) : Host.Outcome State Fault Refusal := .next (kcp portRetrainCmd h p s)

end Sys2Proof.Machine
end

