-- ==== Sys2Proof/Machine/Groups.lean ====
section
/-! DEFINITION. Tickets issued (R255) and collectives that fail (R290): both are needed where tickets expire and where members
leave. -/

namespace Sys2Proof.Machine

open Sys2Proof

/-- The lowest free ticket number (R255). -/
def freeTicket (s : State) : Nat := freeNumber (fun t : Ticket => t.live) s.tickets 0

/-- Tickets of a context in use (R255). -/
def ctxTicketCount (s : State) (w c : Nat) : Nat := (s.tickets.filter (fun t => t.2.live && decide (t.2.wing = w ∧ t.2.context = c))).length

/-- Whether one more ticket may be issued (R255). -/
def mayIssue (s : State) (w c : Nat) : Bool := decide (ctxTicketCount s w c < 256 ∧ freeTicket s < 16384)

/-- A ticket issued: its deadline is its issue plus the wing's ticket lifetime (R255). -/
def issueTicket (s : State) (w c peer : Nat) (object : Option Nat) (offset : Nat) : State :=
  let t : Ticket :=
    { live := true, st := .open_, wing := w, context := c, ctxGen := (s.ctx w c).gen, peer := peer, object := object, offset := offset
      deadline := s.clock.count + (s.wing w).ticketLife, flag := none }
  { s with tickets := tput s.tickets (freeTicket s) t }

/-- A ticket withdrawn without a completion. -/
def dropTicket (s : State) (t : Option Nat) : State :=
  match t with
  | some n => spendTickets s (fun i _ => decide (i = n))
  | none => s

/-- The updates of the adapters whose gradient an object holds, withheld for the step as SKIP does (R290). -/
def withholdGradient (s : State) (w c object : Nat) : State :=
  s.modCtx w c (fun x => { x with pass := x.pass.map (fun p =>
    { p with withheld := p.withheld ++ (p.cmd.table.adapters.filter (fun a => decide (a.g = object))).map (·.handle) }) })

/-- A collective failed (R290): its staging range is discarded, the updates that hang on it are withheld, and its command
ends with COLLECTIVE_FAILED. -/
def failGroup (s : State) (n : Nat) : State :=
  let g := s.group n
  match g.post with
  | none => s
  | some ref =>
    let s := withholdGradient (dropTicket s.bump g.ticket) g.wing g.context g.source
    let s := s.modObj g.staging (fun x => { x with content := [] })
    let s := { s with tt := { s.tt with entries := s.tt.entries.filter (fun e => decide (e.cls ≠ TtClass.collective ∨ e.arg ≠ n)) } }
    finishIn (s.modGroup n (fun g => { g with post := none, started := false, summed := 0, staged := 0, ticket := none, complete := false }))
      ref .collectiveFailed []

/-- The collectives whose block waits under a ticket. -/
def groupsOfTicket (s : State) (t : Nat) : List Nat :=
  (s.led.groups.filter (fun g => g.2.post.isSome && decide (g.2.ticket = some t))).map (·.1)

/-- The posted collectives of this module. -/
def postedGroups (s : State) : List Nat := (s.led.groups.filter (fun g => g.2.post.isSome)).map (·.1)

end Sys2Proof.Machine
end

