-- ==== Sys2Proof/Machine/Fabric.lean ====
section
/-! DEFINITION. Messages received (R273), the topology of the view and routes through it (R274, R280), and erring peers
(R283). -/

namespace Sys2Proof.Machine

open Sys2Proof

/-! ### Erring peers (R283, Table 11.7) -/

/-- A peer reported as erring: among the accusations for 64 rounds, with one PEER_ERRING. -/
def accuse (s : State) (peer reason : Nat) : State :=
  let s := s.modFabric (fun f =>
    { f with accusing := (f.accusing.filter (fun a => decide (a.identity ≠ peer ∨ a.reason ≠ reason))) ++
        [{ identity := peer, reason := reason, rounds := 64 }] })
  notify s .peerErring {} [peer, reason]

/-- A message discarded under R273, counted against the neighbour that delivered it; the 16th of a round is an erring act. -/
def countMalformedMsg (s : State) (port : Nat) : State :=
  match (s.port port).peer with
  | none => s
  | some i =>
    let n := tget s.fabric.malformed i + 1
    let s := s.modFabric (fun f => { f with malformed := tput f.malformed i n })
    if n = 16 then accuse s i 1 else s

/-! ### Messages received -/

/-- Whether a message has come in the last 1,000,000 mp already. -/
def seenBefore (s : State) (type : Nat) (h : MsgHdr) : Bool :=
  s.fabric.seen.any (fun m => decide (m.src = h.src ∧ m.type = type ∧ m.ref = h.ref ∧ m.refGen = h.refGen ∧ m.offset = h.offset
    ∧ s.clock.count ≤ m.at_ + 1000000))

/-- A message remembered. -/
def remember (s : State) (type : Nat) (h : MsgHdr) : State :=
  s.modFabric (fun f => { f with seen := (f.seen.filter (fun m => decide (s.clock.count ≤ m.at_ + 1000000))) ++
    [{ at_ := s.clock.count, src := h.src, type := type, ref := h.ref, refGen := h.refGen, offset := h.offset }] })

/-- What becomes of a message as it arrives: it is not heard at all, discarded and counted, or taken. -/
inductive Arrival where
  | unheard
  | bad
  | taken
  deriving DecidableEq, Repr

/-- How a message of a type arrives: its port must be in service and not cut off, its checks good (R273), and on a sealed
wing's port its class that wing's (R275). -/
def arrival (s : State) (type : Nat) (h : MsgHdr) : Arrival :=
  if 36 ≤ h.port || !inService (s.port h.port) || mutedPort s h.port then .unheard
  else if !h.ok || decide (h.hop = 0 ∨ 16 < h.hop) then .bad
  else if sealedPort s h.port && (if type = 1 then decide ((s.port h.port).peer ≠ some h.src ∧ h.src ≠ Config.identity)
      else decide (msgClass type = 0)) then .unheard
  else .taken

/-- A message but ENTRY received: discarded where R273 says so, else remembered and given on. -/
def receive (s : State) (type : Nat) (h : MsgHdr) (f : State → State) : State :=
  match arrival s type h with
  | .unheard => s
  | .bad => countMalformedMsg s h.port
  | .taken => if seenBefore s type h then s else f (remember s type h)

/-- A message to this module from a neighbour (R274): one for another is never relayed. -/
def receiveHere (s : State) (type : Nat) (h : MsgHdr) (f : State → State) : State :=
  receive s type h (fun s => if h.dst = Config.identity then f s else s)

/-! ### Topology and routes (R274, R280) -/

/-- What a member knows of another. -/
def State.member (s : State) (i : Nat) : Member := tget s.fabric.members i

/-- The identities a member reports as neighbours. -/
def neighbourIds (s : State) (i : Nat) : List Nat :=
  if i = Config.identity then (servicePorts s).filterMap (fun p => (s.port p).peer)
  else match (s.member i).last with
    | some b => b.neighbours.map (·.identity)
    | none => []

/-- Whether two members are linked: both ends report it (R280). -/
def linked (s : State) (a b : Nat) : Bool := (neighbourIds s a).contains b && (neighbourIds s b).contains a

/-- Identities reached in each further hop, with their distances. -/
def reach (s : State) (members : List Nat) : Nat → List Nat → Nat → List (Nat × Nat) → List (Nat × Nat)
  | 0, _, _, found => found
  | n + 1, front, d, found =>
    let next := members.filter (fun i => front.any (fun a => linked s a i) && !(found.any (fun p => decide (p.1 = i))))
    if next = [] then found else reach s members n next (d + 1) (found ++ next.map (fun i => (i, d + 1)))

/-- Members of the view and their hops from one of them. -/
def hopsFrom (s : State) (root : Nat) : List (Nat × Nat) :=
  let members := if s.fabric.view.contains Config.identity then s.fabric.view else Config.identity :: s.fabric.view
  reach s members 1024 [root] 0 [(root, 0)]

/-- Hops to a member. -/
def hopsTo (l : List (Nat × Nat)) (i : Nat) : Option Nat := (l.find? (fun p => decide (p.1 = i))).map (·.2)

/-- The lowest-numbered port on a shortest path to a member, among those allowed (R274). -/
def nextHop (s : State) (allowed dst : Nat) : Option Nat :=
  let l := hopsFrom s dst
  match hopsTo l Config.identity with
  | none => none
  | some d => (servicePorts s).find? (fun p => allowed.testBit p && (match (s.port p).peer with
      | some i => linked s Config.identity i && (match hopsTo l i with
        | some e => decide (e + 1 = d)
        | none => false)
      | none => false))

/-- The ports a routed message may use (R275): a shard's data only those owned by no wing. -/
def routedPorts (s : State) (type : Nat) : Nat := if type = 0x0051 then freePorts s else openPorts s

/-- A routed message sent on, if there is a path. -/
def sendRouted (s : State) (m : OutMsg) : State :=
  match nextHop s (routedPorts s m.type) m.dst with
  | some p => sendOn s p m
  | none => s

/-- A routed message relayed, its hop limit decreased; without a path it waits (R274). -/
def relay (s : State) (m : OutMsg) : State :=
  if m.hop ≤ 1 then s
  else
    let m := { m with hop := m.hop - 1 }
    match nextHop s (routedPorts s m.type) m.dst with
    | some p => sendOn s p m
    | none => s.modFabric (fun f => { f with stuck := f.stuck ++ [{ at_ := s.clock.count, msg := m }] })

/-- Messages without a path tried again, after a view change. -/
def retryStuck (s : State) : State :=
  s.fabric.stuck.foldl (fun s k =>
    match nextHop s (routedPorts s k.msg.type) k.msg.dst with
    | some p => sendOn s p k.msg
    | none => s.modFabric (fun f => { f with stuck := f.stuck ++ [k] })) (s.modFabric (fun f => { f with stuck := [] }))

/-- A routed message received: for this module, or to be relayed (R274). -/
def receiveRouted (s : State) (type : Nat) (h : MsgHdr) (body : List Nat) (f : State → State) : State :=
  receive s type h (fun s =>
    if h.dst = Config.identity then f s
    else relay s { type := type, dst := h.dst, src := h.src, hop := h.hop, ref := h.ref, refGen := h.refGen, offset := h.offset
                   body := body, data := [] })

/-- RELAY_TIMEOUT: relayed messages that no credit or path has let on within 1,000 mp are discarded and counted (R274). -/
def relayTimeout (p : Nat) (s : State) : State :=
  let now := s.clock.count
  let x := s.port p
  let late (k : KeptMsg) : Bool :=
    decide (k.msg.src ≠ Config.identity ∧ k.at_ + 1000 < now) && !(x.replay.any (fun f => decide (f.msg = k.id)))
  let gone := x.kept.filter late
  let lost := s.fabric.stuck.filter (fun k => decide (k.at_ + 1000 < now))
  let s := s.modPort p (fun x =>
    { x with kept := x.kept.filter (fun k => !late k), wait := x.wait.filter (fun f => !(gone.any (fun k => decide (k.id = f.msg)))) })
  s.modFabric (fun f =>
    { f with stuck := f.stuck.filter (fun k => !(decide (k.at_ + 1000 < now))), relayDiscards := f.relayDiscards + gone.length + lost.length })

/-- RELAY_TIMEOUT. -/
def execRelayTimeout (port : Nat) (s : State) : Host.Outcome State Fault Refusal := onPart port 36 s (relayTimeout port)

/-! ### Bases in the roll call (R213, R227) -/

/-- Members of the view, other than this module, whose entries say they hold a base INSTALLED or READY, ascending. -/
def holders (s : State) (root : Nat) : List Nat :=
  s.fabric.view.filter (fun i => decide (i ≠ Config.identity) && (match (s.member i).last with
    | some b => b.bases.any (fun e => decide (e.rootPrefix = root ∧ 2 ≤ e.state))
    | none => false))

end Sys2Proof.Machine
end

