-- ==== Sys2Proof/Machine/Reduce.lean ====
section
/-! DEFINITION. How a posted collective goes on (R288, R289): the values of its objects, the sum in group order, the blocks sent,
and the tickets they travel under. -/

namespace Sys2Proof.Machine

open Sys2Proof

/-! ### Values -/

/-- Elements of a block: running sums are FP32, in blocks of 1 MiB (R288). -/
def blockElems : Nat := 262144

/-- Bytes of one element of a collective's destination. -/
def Group.destBytes (g : Group) : Nat := if g.destBf16 then 2 else 4

/-- Elements of a collective: those of its destination object. -/
def groupElems (s : State) (g : Group) : Nat := (s.obj g.dest).size / g.destBytes

/-- Whether a collective's source is BF16: it holds the destination's element count in 2 bytes each. -/
def sourceBf16 (s : State) (g : Group) : Bool := decide ((s.obj g.source).size = 2 * groupElems s g)

/-- An element as FP32: exact from BF16, and the canonical NaN for exponent field 255 (R95). -/
def elemFp32 (bf16 : Bool) (m : Mem) (i : Nat) : Nat :=
  if bf16 then input32 (leNat (mload m (2 * i) 2) * 65536) else input32 (leNat (mload m (4 * i) 4))

/-- This module's contribution to a block, as FP32 patterns. -/
def contribution (s : State) (g : Group) (from_ n : Nat) : List Nat :=
  (List.range n).map (fun i => elemFp32 (sourceBf16 s g) (s.obj g.source).content (from_ + i))

/-- A running sum plus a contribution, element by element (R288). -/
def addBlock (sums mine : List Nat) : List Nat := (sums.zip mine).map (fun p => (fpAdd (input32 p.1) p.2).bits)

/-- A sum converted to the destination format (R97 with nearest-even). -/
def toDest (bf16 : Bool) (v : Nat) : Nat := if bf16 then (roundIeee 7 (fpValue 23 v) (neg32 v)).bits else v

/-- FP32 patterns of a block's bytes. -/
def blockSums (data : Bytes) : List Nat := (List.range (data.length / 4)).map (fun i => field data (4 * i) 4)

/-- A result's bytes in the destination format. -/
def destBlock (g : Group) (sums : List Nat) : Bytes := sums.flatMap (fun v => leBytes g.destBytes (toDest g.destBf16 v))

/-! ### Places in the group -/

/-- This module's index in a group. -/
def Group.index (g : Group) : Nat := g.members.findIdx (fun i => decide (i = Config.identity))

/-- A member by index. -/
def Group.member (g : Group) (i : Nat) : Nat := g.members[i]?.getD 0

/-- The ports a wing's traffic may use (R275). -/
def wingPorts (s : State) (w : Nat) : Nat := (s.wing w).ports

/-- A block sent to another member of the group: running sums up the list, results down it. -/
def sendBlock (s : State) (n : Nat) (peer offset : Nat) (back : Bool) (data : Bytes) : State :=
  let g := s.group n
  sendTrunk s (wingPorts s g.wing) peer (newMsg 0x0040 peer n g.gen offset [if back then 1 else 0] data)

/-- A ticket for the block that is awaited next from a member (R255, R289). -/
def awaitBlock (s : State) (n peer : Nat) : State :=
  let g := s.group n
  if mayIssue s g.wing g.context then
    let t := freeTicket s
    (issueTicket s g.wing g.context peer (some g.staging) 0).modGroup n (fun g => { g with ticket := some t })
  else s

/-- Whether this member's contribution is complete: no forward or backward pass of the context is still to write it (R289). -/
def contributed (s : State) (g : Group) : Bool :=
  decide ((s.obj g.source).st = .home) && (match (s.ctx g.wing g.context).pass with
    | some p => !(p.cmd.table.adapters.any (fun a => decide (a.g = g.source))) || decide (p.phase = .updating ∨ p.phase = .done)
    | none => true)

/-- The first member's running sums, sent block by block. -/
def sendOwn (n : Nat) (s : State) (b : Nat) : State :=
  let g := s.group n
  let k := Nat.min blockElems (groupElems s g - b * blockElems)
  sendBlock s n (g.member 1) (4 * (b * blockElems)) false ((contribution s g (b * blockElems) k).flatMap (leBytes 4))

/-- A started collective that may go on: the first member sends its contribution; the others await the block before them
(R288, R289). A ticket that may not be issued yet waits (R255). -/
def pokeGroup (s : State) (n : Nat) : State :=
  let g := s.group n
  let e := groupElems s g
  if g.post.isNone || !g.started || g.complete || g.ticket.isSome || !contributed s g then s
  else if g.index = 0 ∧ g.summed < e then
    let s := (List.range (ceilDiv e blockElems)).foldl (sendOwn n) s
    let s := s.modGroup n (fun g => { g with summed := e, complete := !g.allReduce })
    if g.allReduce then awaitBlock s n (g.member 1) else s
  else if g.index ≠ 0 ∧ g.summed < e then awaitBlock s n (g.member (g.index - 1))
  else if g.allReduce ∧ g.staged < e then awaitBlock s n (g.member (g.index + 1))
  else s

/-- Every collective of a context that its pass's progress lets go on. -/
def pokeGroups (s : State) (w c : Nat) : State :=
  (postedGroups s).foldl (fun s n => if (s.group n).wing = w ∧ (s.group n).context = c then pokeGroup s n else s) s

end Sys2Proof.Machine
end

