-- ==== Sys2Proof/Machine/Legs.lean ====
section
/-! DEFINITION. The legs of a ring (R291 to R295): owners, mirror holders, the KV object of a leg, and which writes of a pass wait
for an acknowledgement. -/

namespace Sys2Proof.Machine

open Sys2Proof

/-- The owner of a leg. -/
def Ring.owner (r : Ring) (i : Nat) : Option Nat := (r.legs[i]?).map (·.owner)

/-- Leg indices, ascending. -/
def Ring.indices (r : Ring) : List Nat := List.range r.legs.length

/-- The mirror holder of a leg: the owner of the first leg after it, wrapping, that another module owns (R293). -/
def Ring.holder (r : Ring) (i : Nat) : Option Nat :=
  (r.indices.filterMap (fun d => r.owner ((i + 1 + d) % r.legs.length))).find? (fun o => decide (some o ≠ r.owner i))

/-- Legs this module owns. -/
def Ring.own (r : Ring) : List Nat := r.indices.filter (fun i => decide (r.owner i = some Config.identity))

/-- Live rings of a wing, by number. -/
def wingRings (s : State) (w : Nat) : List Nat := (s.led.rings.filter (fun r => r.2.live && decide (r.2.wing = w))).map (·.1)

/-- Live KV objects of a wing that are in use, ascending. -/
def wingKvs (s : State) (w : Nat) : List Nat :=
  (s.led.objects.filter (fun o => o.2.live && decide (o.2.kind = .kv ∧ o.2.wing = w))).map (·.1)

/-- The KV object of a leg owned here. A leg that was taken over has its own; the spec gives no binding of the others, and the
n-th such leg is taken to lie in the wing's n-th KV object (DESIGN CHOICE, log entry 38). -/
def legObj (s : State) (n i : Nat) : Option Nat :=
  let r := s.ring n
  match tget r.kv i with
  | some o => some o
  | none =>
    let plain := r.own.filter (fun j => decide (tget r.kv j = none))
    let taken := r.kv.filterMap (·.2)
    if plain.contains i then ((wingKvs s r.wing).filter (fun o => !taken.contains o))[plain.idxOf i]? else none

/-- Whether a leg is mirrored. -/
def Ring.isMirrored (r : Ring) (i : Nat) : Bool := r.mirrored.testBit i && (r.holder i).isSome

/-- The mirrored legs that a serving pass has written: those whose KV object it holds (R293). -/
def writtenLegs (s : State) (w : Nat) (p : Pass) : List (Nat × Nat) :=
  (wingRings s w).flatMap (fun n =>
    ((s.ring n).own.filter (fun i => (s.ring n).isMirrored i && (match legObj s n i with
      | some o => p.objects.contains o
      | none => false))).map (fun i => (n, i)))

/-- Legs marked as waiting for a MIRROR_ACK from now on. -/
def awaitLegs (s : State) (l : List (Nat × Nat)) : State :=
  l.foldl (fun s q => s.modRing q.1 (fun r => { r with awaiting := tput r.awaiting q.2 (some s.clock.count) })) s

/-- Whether a pass of a wing waits for a MIRROR_ACK (R293). -/
def mirrorWaits (s : State) (w : Nat) (p : Pass) : Bool :=
  decide (p.phase = .done) && (wingRings s w).any (fun n => (s.ring n).own.any (fun i => (tget (s.ring n).awaiting i).isSome && (match legObj s n i with
    | some o => p.objects.contains o
    | none => false)))

end Sys2Proof.Machine
end

