-- ==== Sys2Proof/Machine/Passes.lean ====
section
/-! DEFINITION. How an admitted pass goes on and ends: the loss-spike check, the end of the backward pass, the step's commit, and
the end of a serving pass (R12, R115, R121, R124 to R130, R157, R264, R350). -/

namespace Sys2Proof.Machine

open Sys2Proof

/-! ### Where a pass stands -/

/-- Whether a context runs and the keeper can record its pass's progress. -/
def passAtWork (s : State) (w c : Nat) : Bool :=
  (s.wing w).live && decide ((s.wing w).running = some c ∧ (s.ctx w c).st = .running) && s.keeper.up

/-- Whether the programs of a context's engines have ended. -/
def programsEnded (s : State) (w c : Nat) : Bool :=
  (wingTiles s w).all (fun t => decide ((s.tile t).owner ≠ some (w, c)) || !(s.tile t).engine.running)

/-- Whether every room of a pass has its image in full (R161). -/
def roomsArrived (s : State) (p : Pass) : Bool := p.rooms.all (fun r => decide ((s.room r).st ≠ .loading))

/-! ### FORWARD_PASS_END (R125 to R130) -/

/-- The FP32 value of the loss area for an adapter of the list: it lies in a tile of the wing, inside the context's program
space. Elsewhere the spec states no value: it is free (log entry 34). -/
def lossOf (s : State) (w c : Nat) (q : PassCmd) (i : Nat) : Nat :=
  let x := s.ctx w c
  let a := q.lossAddr + 4 * i
  match if (s.wing w).tiles.testBit q.lossTile ∧ a + 4 ≤ programSpace x then physTile s q.lossTile else none with
  | some t => leNat (mload (s.tile t).store (regionBase x + a) 4)
  | none => Config.freeNat (s.free + i) % 2 ^ 32

/-- The check of one adapter's loss, with the configuration in force when the pass started (R127, R128, R130). -/
def checkLoss (w c : Nat) (q : PassCmd) (s : State) (k : Nat × Nat × Detector) : State :=
  let i := k.2.1
  let d := (s.handle i).det
  let loss := lossOf s w c q k.1
  let r := detect k.2.2 d loss
  let s := s.modHandle i (fun x => { x with det := r.det })
  match r.spike with
  | none => s
  | some t =>
    let s := notify s .lossSpike { atWing s w with party := some (s.handle i).owner } [i, q.step, loss, d.m.toNat, t]
    let act := spikeAction k.2.2 r.det.c
    s.modPass w c (fun p =>
      { p with withheld := if act = 0 then p.withheld else p.withheld ++ [i], stops := if act = 2 then p.stops ++ [i] else p.stops })

/-- FORWARD_PASS_END: the forward program has ended; the losses are read and checked, and the backward program begins. -/
def forwardPassEnd (w c : Nat) (s : State) : State :=
  match (s.ctx w c).pass with
  | none => s
  | some p =>
    if passAtWork s w c && p.cmd.train && decide (p.phase = .forward) && programsEnded s w c && roomsArrived s p then
      let n := p.detectors.length
      let s := ((List.range n).zip p.detectors).foldl (checkLoss w c p.cmd) s.bump
      let s := { s with free := s.free + n }
      let s := assumeSweep (s.modPass w c (fun p => { p with phase := .backward })) w (s.wing w).window.base true
      startProgram s w c p.cmd.backward p.cmd.step
    else s

/-- FORWARD_PASS_END. -/
def execForwardPassEnd (wing context : Nat) (s : State) : Host.Outcome State Fault Refusal :=
  onPart wing 16 s (forwardPassEnd wing context)

/-! ### BACKWARD_PASS_END (R115, R124) -/

/-- The update job of a step on one of its adapters. -/
def stepJob (s : State) (w c : Nat) (q : PassCmd) (id : Nat) (a : PassAdapter) : Job :=
  { (default : Job) with
    wing := w, handle := a.handle, words := withRounding q.sr (programWords s w id), adapter := a, scalars := q.table.scalars
    layers := q.table.layers, sr := q.sr, step := q.step, context := c }

/-- Adapters whose update runs in this step: neither withheld nor lost on the way (R129, R166). -/
def toUpdate (p : Pass) : List PassAdapter :=
  if p.holdStep then [] else p.cmd.table.adapters.filter (fun a => !(p.withheld.contains a.handle) && !(p.faulted.contains a.handle))

/-- BACKWARD_PASS_END: the watch limits are checked, and the step's update jobs begin. -/
def backwardPassEnd (w c : Nat) (s : State) : State :=
  match (s.ctx w c).pass with
  | none => s
  | some p =>
    if passAtWork s w c && p.cmd.train && decide (p.phase = .backward) && programsEnded s w c
        && p.cmd.table.adapters.all (fun a => p.withheld.contains a.handle || p.faulted.contains a.handle || decide ((s.obj a.g).st = .home)) then
      let (s, held) := checkLimits s w p.cmd.step
      let p' : Pass := { p with phase := .updating, holdStep := held, withheld := if held then p.cmd.table.adapters.map (·.handle) else p.withheld }
      let s := s.modPass w c (fun _ => p')
      match p.cmd.update with
      | none => pokeGroups s w c
      | some id => pokeGroups ((toUpdate p').foldl (fun s a => addJob s (stepJob s w c p.cmd id a)) s) w c
    else s

/-- BACKWARD_PASS_END. -/
def execBackwardPassEnd (wing context : Nat) (s : State) : Host.Outcome State Fault Refusal :=
  onPart wing 16 s (backwardPassEnd wing context)

/-! ### STEP_COMMIT (R121, R129, R264) -/

/-- Whether a job of a context's own step is still to end. -/
def stepJobsLeft (s : State) (w c : Nat) : Bool :=
  s.jobs.any (fun j => j.2.live && decide (j.2.wing = w ∧ j.2.context = c) && j.2.ref.isNone)

/-- The final payload of a pass-train. -/
def stepPayload (s : State) (p : Pass) : Bytes :=
  leBytes 8 p.cmd.step ++ leBytes 4 p.rows.length ++ leBytes 4 p.denied ++ leBytes 2 p.updated.length ++ leBytes 2 p.withheld.length
    ++ leBytes 4 0 ++ leBytes 8 p.admitted ++ leBytes 8 s.clock.count

/-- STEP_COMMIT: one record commits the updates, the withholdings, the watch banks and the charges. -/
def stepCommit (w c : Nat) (s : State) : State :=
  match (s.ctx w c).pass with
  | none => s
  | some p =>
    if passAtWork s w c && p.cmd.train && decide (p.phase = .updating) && !stepJobsLeft s w c then
      let s := mapWatch s.bump w Watch.commit
      let s := p.stops.foldl (fun s i => s.modHandle i (fun x => { x with det := { x.det with held := true } })) s
      let s := chargeRows s p.rows
      let s := releaseRefs (releaseTable s p.cmd) p
      let s := s.modCtx w c (fun x => { x with pass := none })
      settleContext (finishIn s p.cmd.ref .ok (stepPayload s p)) w c
    else s

/-- STEP_COMMIT. -/
def execStepCommit (wing context : Nat) (s : State) : Host.Outcome State Fault Refusal := onPart wing 16 s (stepCommit wing context)

/-! ### PASS_END (R12, R157, R350) -/

/-- A session's part in a pass that has ended: its prompt tokens taken, and its token (R12). -/
def serveTook (v : Serve) (k : ServeTake) : Serve :=
  { v with promptLeft := if k.decode then v.promptLeft else v.promptLeft - k.rows, tokens := if k.lastChunk then v.tokens + 1 else v.tokens }

/-- A take settled: the session's token charged to its party. A session that ended on the way yields none. -/
def settleTake (w c : Nat) (s : State) (k : ServeTake) : State :=
  let v := tget (s.ctx w c).serves k.session
  if !v.live then s
  else
    let s := if k.lastChunk then charge s v.party { (default : Counts) with tokens := 1 } else s
    s.modCtx w c (fun x => { x with serves := tmod x.serves k.session (fun v => serveTook v k) })

/-- The tokens a pass yields. -/
def passTokens (s : State) (w c : Nat) (p : Pass) : Nat :=
  (p.takes.filter (fun k => k.lastChunk && (tget (s.ctx w c).serves k.session).live)).length

/-- The final payload of a pass-serve. -/
def runPayload (q : PassCmd) : Bytes := leBytes 2 q.passesRun ++ leBytes 6 0 ++ leBytes 8 q.tokens ++ leBytes 8 q.lastEnd

/-- A serving pass committed: its end is a record; the run goes on, or its command is answered. -/
def commitServe (w c : Nat) (s : State) (p : Pass) : State :=
  let q : PassCmd :=
    { p.cmd with passesRun := p.cmd.passesRun + 1, passesLeft := p.cmd.passesLeft - 1, tokens := p.cmd.tokens + passTokens s w c p, lastEnd := s.clock.count }
  let s := p.takes.foldl (settleTake w c) (chargeRows s.bump p.rows)
  let s := (releaseRefs s p).modCtx w c (fun x =>
    { x with pass := none, queue := if q.passesLeft = 0 then x.queue else q :: x.queue })
  let s := if q.passesLeft = 0 then finishIn s q.ref .ok (runPayload q) else s
  settleContext s w c

/-- Passes of a wing that have waited for their mirrors and wait no longer: they commit (R293, R294, R299). -/
def settleMirrors (s : State) (w : Nat) : State :=
  ((s.wing w).contexts.map (·.1)).foldl (fun s c =>
    match (s.ctx w c).pass with
    | some p => if p.phase = .done ∧ !p.cmd.train ∧ !mirrorWaits s w p ∧ s.keeper.up then commitServe w c s p else s
    | none => s) s

/-- PASS_END: a serving pass has ended at its last point. One that wrote to a mirrored leg waits for the mirror holder (R293). -/
def passEnd (w c : Nat) (s : State) : State :=
  match (s.ctx w c).pass with
  | none => s
  | some p =>
    if passAtWork s w c && !p.cmd.train && decide (p.phase ≠ .done) && programsEnded s w c && roomsArrived s p
        && p.objects.all (fun o => decide ((s.obj o).st ≠ .moving)) then
      match writtenLegs s w p with
      | [] => commitServe w c s p
      | l => (awaitLegs s l).modPass w c (fun p => { p with phase := .done })
    else s

/-- PASS_END. -/
def execPassEnd (wing context : Nat) (s : State) : Host.Outcome State Fault Refusal := onPart wing 16 s (passEnd wing context)

end Sys2Proof.Machine
end

