-- ==== Sys2Proof/Machine/Saves.lean ====
section
/-! DEFINITION. Pre-emption and resumption of a context (R81 to R83, R107, R108, R244, R245, R250 to R257): the save records of
Tables 4.4 and 5.5, and what a context does when it leaves a wing's tiles and comes back to them. -/

namespace Sys2Proof.Machine

open Sys2Proof

/-! ### Accumulator records (Table 4.4) -/

/-- The code of an accumulator format. -/
def accFmtCode : AccFmt → Nat
  | .wa40 => 0 | .fp32 => 1

/-- The code of a mode. -/
def modeCode : Mode → Nat
  | .w4a8 => 0 | .i8 => 1 | .w4bf => 2 | .w4t => 3 | .bf16 => 4

/-- A mode from its code. -/
def modeOf (n : Nat) : Option Mode :=
  match n with
  | 0 => some .w4a8 | 1 => some .i8 | 2 => some .w4bf | 3 => some .w4t | 4 => some .bf16 | _ => none

/-- The block of a row's last element. -/
def rowBlock (a : Acc) (r : Nat) : Nat := (tget a.elems (128 * r + 127)).block

/-- The block whose promotions are under way (Table 4.4): the last row's, or the last block of a closed accumulation. -/
def nextBlock (a : Acc) : Nat := if a.closed then a.blocks - 1 else rowBlock a (a.rows - 1)

/-- Rows of that block that are complete. -/
def rowsDone (a : Acc) : Nat := ((List.range a.rows).filter (fun r => decide (nextBlock a < rowBlock a r))).length

/-- Bytes 0 to 59 of a record. -/
def accHead (w c gen tracker : Nat) (a : Acc) : Bytes :=
  leBytes 2 1 ++ leBytes 1 (accFmtCode a.fmt) ++ leBytes 1 (modeCode a.mode) ++ leBytes 2 a.size ++ leBytes 2 a.rows ++ leBytes 2 a.blocks
    ++ leBytes 2 (nextBlock a) ++ leBytes 2 (rowsDone a) ++ leBytes 1 a.link
    ++ leBytes 1 ((if a.chained then 1 else 0) + (if a.closed then 2 else 0)) ++ leBytes 4 a.sat ++ leBytes 2 w ++ leBytes 2 c
    ++ leBytes 4 gen ++ leBytes 1 tracker ++ leBytes 31 0

/-- A record's element data, row-major. -/
def accData (a : Acc) : Bytes :=
  (List.range (128 * a.rows)).flatMap (fun i => leBytes (accBytes a.fmt) (tget a.elems i).bits)

/-- One save record (R82). -/
def accRecord (w c gen tracker : Nat) (a : Acc) : Bytes :=
  let h := accHead w c gen tracker a
  let d := accData a
  h ++ leBytes 4 (crc32c (h ++ d)) ++ d

/-- What an instruction stream names beside a record. -/
def accStream (tracker : Nat) (a : Acc) : OpenArgs :=
  { tracker := tracker, mode := a.mode, size := a.size, fmt := a.fmt, rows := a.rows, blocks := a.blocks, kDim := a.kDim, nDim := a.nDim
    tile0 := a.tile0, chain := a.chained, outliers := a.outliers, matrix := a.matrix }

/-- Whether a record's header keeps the ranges of Table 4.4 and agrees with itself (R83). -/
def accHeadOk (w c gen : Nat) (b : Bytes) : Bool :=
  let mode := field b 3 1
  let size := field b 4 2
  decide (field b 0 2 = 1 ∧ field b 2 1 < 2 ∧ mode < 5) && (if mode < 3 then sizeOk size else decide (size = 0)) && shapeOk (field b 6 2)
    && inRange (field b 8 2) 1 512 && decide (field b 10 2 < field b 8 2 ∧ field b 12 2 ≤ field b 6 2 ∧ field b 14 1 < 16 ∧ field b 15 1 < 4)
    && decide (field b 20 2 = w ∧ field b 22 2 = c ∧ field b 24 4 = gen ∧ field b 28 1 < 32) && zeros b 29 31

/-- The accumulation a record defines, if the tile does not refuse it (R83). -/
def readAcc (w c gen : Nat) (o : OpenArgs) (b : Bytes) : Option Acc :=
  let fmt : AccFmt := if field b 2 1 = 0 then .wa40 else .fp32
  let rows := field b 6 2
  let next := field b 10 2
  let done := field b 12 2
  let n := accBytes fmt
  match modeOf (field b 3 1) with
  | none => none
  | some mode =>
    if accHeadOk w c gen b && decide (b.length = 64 + 128 * rows * n ∧ field b 60 4 = crc32c (fieldBytes b 0 60 ++ b.drop 64)) then
      let blockOf (i : Nat) : Nat := if i / 128 < done then next + 1 else next
      let elems := (List.range (128 * rows)).foldl (fun t i => tput t i { bits := field b (64 + n * i) n, block := blockOf i, idx := 0 }) []
      some
        { live := true, mode := mode, size := field b 4 2, fmt := fmt, rows := rows, blocks := field b 8 2, kDim := o.kDim, nDim := o.nDim
          tile0 := o.tile0, link := field b 14 1, chained := (field b 15 1).testBit 0, matrix := o.matrix, outliers := o.outliers
          elems := elems, done := if next + 1 = field b 8 2 then 128 * done else 0, sat := field b 16 4, closed := (field b 15 1).testBit 1
          closedAt := 0 }
    else none

/-! ### Vector engine records (Table 5.5) -/

/-- A loop stack entry. -/
def loopBytes (l : LoopFrame) : Bytes := leBytes 2 l.first ++ leBytes 2 l.len ++ leBytes 4 l.left ++ leBytes 4 0

/-- A record, with a CRC field. -/
def vecBytes (w c gen crc : Nat) (e : Engine) : Bytes :=
  leBytes 2 1 ++ leBytes 2 e.pc ++ leBytes 2 0 ++ leBytes 2 e.flags ++ leBytes 2 e.tag ++ leBytes 2 w ++ leBytes 2 c ++ leBytes 2 0
    ++ leBytes 4 gen ++ leBytes 4 crc ++ leBytes 8 0
    ++ (List.range 4).flatMap (fun i => loopBytes (e.loops[i]?.getD default)) ++ leBytes 48 0
    ++ (List.range 4).flatMap (fun i => leBytes 8 (encodeStream (tget e.streams i).args).toNat ++ leBytes 4 (tget e.streams i).pos ++ leBytes 4 0)
    ++ (List.range 8).flatMap (fun i => leBytes 8 (maskOf e i))
    ++ (List.range 8).flatMap (fun i => leBytes 4 (tget e.scalars i).toNat) ++ leBytes 32 0
    ++ (List.range 64).flatMap (fun i => leBytes 8 (tget e.gens i).1.toNat ++ leBytes 8 (tget e.gens i).2.toNat)
    ++ (List.range 4096).flatMap (fun i => leBytes 4 (tget e.tile i).toNat)

/-- One save record: the CRC is over the record with its own bytes taken as 0. -/
def vecRecord (w c gen : Nat) (e : Engine) : Bytes := vecBytes w c gen (crc32c (vecBytes w c gen 0 e)) e

/-- Whether a record's reserved fields are 0. -/
def vecZeros (b : Bytes) : Bool :=
  zeros b 14 2 && zeros b 24 8 && (List.range 4).all (fun i => zeros b (32 + 12 * i + 8) 4) && zeros b 80 48
    && (List.range 4).all (fun i => zeros b (128 + 16 * i + 12) 4) && zeros b 288 32

/-- The loop stack of a record. An entry that is all 0 holds no loop, for a body starts at 1 or later. -/
def readLoops (b : Bytes) : List LoopFrame :=
  ((List.range 4).map (fun i =>
    ({ first := field b (32 + 12 * i) 2, len := field b (34 + 12 * i) 2, left := field b (36 + 12 * i) 4 } : LoopFrame))).filter
      (fun l => decide (l.first ≠ 0))

/-- The engine that a record restores for a program, if the tile does not refuse it (R108). -/
def readVec (w c gen : Nat) (e : Engine) (b : Bytes) : Option Engine :=
  let blank := fieldBytes b 0 20 ++ leBytes 4 0 ++ b.drop 24
  if decide (b.length = 17728 ∧ field b 0 2 = 1 ∧ field b 10 2 = w ∧ field b 12 2 = c ∧ field b 16 4 = gen ∧ field b 20 4 = crc32c blank)
      && vecZeros b then
    some
      { e with
        pc := field b 2 2, running := true, flags := field b 6 2, tag := field b 8 2, loops := readLoops b
        streams := (List.range 4).foldl (fun t i =>
          tput t i { args := wordStream (BitVec.ofNat 64 (field b (128 + 16 * i) 8)), pos := field b (136 + 16 * i) 4 }) []
        masks := (List.range 7).foldl (fun t i => tput t (i + 1) (BitVec.ofNat 64 (field b (200 + 8 * i) 8))) []
        scalars := (List.range 8).foldl (fun t i => tput t i (BitVec.ofNat 32 (field b (256 + 4 * i) 4))) []
        gens := (List.range 64).foldl (fun t i =>
          tput t i (BitVec.ofNat 64 (field b (320 + 16 * i) 8), BitVec.ofNat 64 (field b (328 + 16 * i) 8))) []
        tile := (List.range 4096).foldl (fun t i => tput t i (BitVec.ofNat 32 (field b (1344 + 4 * i) 4))) [] }
  else none

/-! ### Pre-emption -/

/-- Every delivered term added to its element (R81). -/
def flushTerms : Nat → Tile → Tile
  | 0, t => t
  | n + 1, t =>
    match t.terms.findSome? (fun x => promoteTile t x.tracker x.row x.col) with
    | none => t
    | some t' => flushTerms n t'

/-- The records of a tile, in the order they stand in the save area: the engine's, then the accumulations' (R245). -/
def tileRecords (w c gen : Nat) (t : Tile) : List (Option Nat × OpenArgs × Bytes) :=
  (none, default, vecRecord w c gen t.engine)
    :: (t.accs.filter (fun a => a.2.live)).map (fun a => (some a.1, accStream a.1 a.2, accRecord w c gen a.1 a.2))

/-- Records placed one after the other. -/
def placeRecords (n : Nat) : Nat → List (Option Nat × OpenArgs × Bytes) → List (SaveRec × Bytes)
  | _, [] => []
  | off, (tr, o, b) :: l =>
    ({ tile := n, tracker := tr, offset := off, length := b.length, stream := o }, b) :: placeRecords n (off + b.length) l

/-- The tile-store byte where a context's save area starts. -/
def saveBase (x : Ctx) : Nat := regionBase x + programSpace x

/-- A tile that runs a context stopped, its records written into the save area (R81, R107). -/
def saveTile (w c : Nat) (s : State) (n : Nat) : State :=
  match physTile s n with
  | none => s
  | some p =>
    let t := s.tile p
    if t.owner ≠ some (w, c) then s
    else
      let x := s.ctx w c
      let t := flushTerms t.terms.length t
      let recs := placeRecords n 0 (tileRecords w c x.gen t)
      let store := recs.foldl (fun m r => mstore m (saveBase x + r.1.offset) r.2) t.store
      (s.modTile p (fun _ => { idleTile t with store := store })).modCtx w c (fun x => { x with saves := x.saves ++ recs.map (·.1) })

/-- A context's tickets changed. -/
def mapTickets (s : State) (w c : Nat) (f : Ticket → Ticket) : State :=
  { s with tickets := s.tickets.map (fun p => if p.2.live ∧ p.2.wing = w ∧ p.2.context = c then (p.1, f p.2) else p) }

/-- A context's tickets parked against it (R255). -/
def parkTickets (s : State) (w c : Nat) : State :=
  mapTickets s w c (fun t => { t with st := if t.st = .open_ then .parked else t.st })

/-- The running context of a wing pre-empted (R254): its units stop, its state lies in its regions, its tickets are parked. -/
def preempt (s : State) (w : Nat) : State :=
  match (s.wing w).running with
  | none => s
  | some c =>
    let s := s.modCtx w c (fun x => { x with saves := [] })
    let s := if (s.ctx w c).pass.isSome then (maskList 128 (s.wing w).tiles).foldl (saveTile w c) s else releaseTiles s w c
    let s := (parkTickets s w c).modCtx w c (fun x =>
      { x with stagesRun := 0, st := match x.st with | .running => .runnable | st => st })
    s.modWing w (fun x => { x with running := none })

/-! ### Resumption -/

/-- A record's bytes in the store of the tile that now serves its logical tile. -/
def recordBytes (s : State) (x : Ctx) (r : SaveRec) : Bytes :=
  match physTile s r.tile with
  | some p => mload (s.tile p).store (saveBase x + r.offset) r.length
  | none => []

/-- The program that a pass's engines hold. -/
def phaseProgram (p : Pass) : Nat := if p.phase = .forward then p.cmd.forward else p.cmd.backward

/-- The engine of a pass before its record. -/
def phaseEngine (s : State) (w : Nat) (p : Pass) : Engine :=
  { (default : Engine) with program := programWords s w (phaseProgram p), party := (s.wing w).party, step := p.cmd.step }

/-- Why a record is refused, if it is. -/
def recordRefused (s : State) (w c : Nat) (p : Pass) (r : SaveRec) : Option Status :=
  let x := s.ctx w c
  let b := recordBytes s x r
  match r.tracker with
  | none => if (readVec w c x.gen (phaseEngine s w p) b).isSome then none else some .vecRestoreBad
  | some _ => if (readAcc w c x.gen r.stream b).isSome then none else some .accRestoreBad

/-- A record restored into its tile. -/
def restoreRecord (w c : Nat) (p : Pass) (s : State) (r : SaveRec) : State :=
  let x := s.ctx w c
  let b := recordBytes s x r
  match physTile s r.tile with
  | none => s
  | some t =>
    match r.tracker with
    | none => s.modTile t (fun t => { t with owner := some (w, c), engine := (readVec w c x.gen (phaseEngine s w p) b).getD default })
    | some _ => s.modTile t (fun t =>
        match readAcc w c x.gen r.stream b with
        | some a => { t with accs := tput t.accs (field b 28 1) a }
        | none => t)

/-- Held completions delivered before the first vector: the flags they name are set (R106, R256). -/
def deliverHeld (s : State) (w c : Nat) : State :=
  let x := s.ctx w c
  let flags := listMask (x.held.filterMap (fun h => h.flag.map (· % 16)))
  let s := (wingTiles s w).foldl (fun s t => s.modTile t (fun t => { t with engine := { t.engine with flags := t.engine.flags ||| flags } })) s
  let gone := x.held.map (·.ticket)
  spendTickets (s.modCtx w c (fun x => { x with held := [] })) (fun i _ => gone.contains i)

/-- A context given its wing's tiles (R250): its records restored, or its program begun; a pass marked to end ends (R257). A
refused record ends the context (R83, R108). -/
def resume (s : State) (w c : Nat) : State :=
  let s := s.modWing w (fun x => { x with running := some c, clean := false })
  let s := s.modCtx w c (fun x => { x with st := .running, blocked := .none, stagesRun := 0 })
  let s := mapTickets s w c (fun t => { t with st := if t.st = .parked then .open_ else t.st })
  let x := s.ctx w c
  match x.pass with
  | none => deliverHeld s w c
  | some p =>
    match x.ending with
    | some st => failPass s w c st
    | none =>
      match x.saves.findSome? (fun r => (recordRefused s w c p r).map (fun st => (st, r))) with
      | some (st, r) => endContext s w c st { atWing s w with address := saveBase x + r.offset } [r.tile, saveBase x + r.offset]
      | none =>
        let s := if x.saves = [] then startProgram s w c (phaseProgram p) p.cmd.step else x.saves.foldl (restoreRecord w c p) s
        deliverHeld (s.modCtx w c (fun x => { x with saves := [] })) w c

end Sys2Proof.Machine
end

