-- ==== Sys2Proof/Machine/Stages.lean ====
section
/-! DEFINITION. Stages and switches (R243, R247 to R251, R254), tickets (R255 to R257), fences (R443) and swaps (R258 to R261). -/

namespace Sys2Proof.Machine

open Sys2Proof

/-! ### Stage ends -/

/-- The parameters of a context-set taken at a boundary (R243). -/
def boundaryCtx (x : Ctx) : Ctx := { x with latency := x.nextLatency, runLen := x.nextRunLen, idleHint := x.nextIdleHint }

/-- A new stage length from the boundary on (R247): the stage after it ends at the first multiple at least 50 mp later. -/
def boundaryStage (m : Nat) (x : Wing) : Wing :=
  let x := if x.boundary = m then { x with boundary := 0 } else x
  if x.nextStage = x.stage then x
  else { x with stage := x.nextStage, boundary := ceilDiv (m + 50) (Nat.max x.nextStage 1) * Nat.max x.nextStage 1 }

/-- Passes of a wing built for a tile count that a lost tile has changed end with WING_SHAPE (R426). -/
def dropShaped (s : State) (w : Nat) (forced : Bool) : State :=
  if !forced then s
  else (((s.wing w).contexts.filter (fun c => c.2.live)).map (·.1)).foldl (fun s c => dropQueue (endPassIn s w c .wingShape) w c .wingShape) s

/-- A pending tile change at a boundary: a lost tile's does not wait for the wing to be quiet (R238, R426). -/
def boundaryTiles (s : State) (w : Nat) : State :=
  match (s.wing w).change with
  | none => s
  | some ch => if s.keeper.up then applyChange (dropShaped s w ch.forced) w else s

/-- STAGE_END: a boundary ends the running stage; changed parameters take effect (R238, R243, R247). -/
def stageEnd (w : Nat) (s : State) : State :=
  match takeDue s .stageEnd (some w) 0 with
  | none => s
  | some s =>
    let s := s.modWing w (fun x => boundaryStage s.clock.count { x with
      contexts := x.contexts.foldl (fun t c =>
        tput t c.1 (boundaryCtx (if x.running = some c.1 then { c.2 with stagesRun := c.2.stagesRun + 1 } else c.2))) x.contexts })
    boundaryTiles s w

/-- STAGE_END. -/
def execStageEnd (wing : Nat) (s : State) : Host.Outcome State Fault Refusal := onPart wing 16 s (stageEnd wing)

/-! ### Switches -/

/-- A context that a wing can run now. -/
def canRun (s : State) (w : Nat) (c : Option Nat) : Option Nat :=
  match c with
  | none => none
  | some c =>
    let x := s.ctx w c
    if x.live && x.resident && decide (x.st = .running ∨ x.st = .runnable) then some c else none

/-- The switch to a context, or to none; the keeper records it (R254). The running one goes on if it is the one named. -/
def switchTo (s : State) (w : Nat) (c : Option Nat) : State :=
  if (s.wing w).running = c then s
  else
    let s := preempt s w
    let s := match c with
      | some c => resume s w c
      | none => s
    s.bump

/-- STAGE_START: at a boundary the hardware switches to the context the next-context register names; a stale register keeps
the running one (R248). -/
def stageStart (w : Nat) (s : State) : State :=
  match takeDue s .stageStart (some w) 0 with
  | none => s
  | some s =>
    let x := s.wing w
    if !mayStage s x then s
    else
      let target := if x.nextFresh then canRun s w x.nextCtx else x.running
      let s := switchTo (s.modWing w (fun x => { x with nextFresh := false })) w target
      s.modWing w (fun x => { x with stageStart := s.clock.count, clean := x.clean && x.running.isNone })

/-- STAGE_START. -/
def execStageStart (wing : Nat) (s : State) : Host.Outcome State Fault Refusal := onPart wing 16 s (stageStart wing)

/-- SWITCH_EDGE: at the edge after a request the hardware pre-empts for the context chosen by R249 (R250); a removal's first
step acts (R240), and a spare mapping holds the wing until its switch (R425). -/
def switchEdge (w : Nat) (s : State) : State :=
  let x := s.wing w
  if !x.live || !x.wantSwitch || !s.keeper.up then s
  else if x.removing.isSome && !x.leaving then
    if x.scrub.isSome || x.reassign.isSome then s
    else startRemoval (s.modWing w (fun x => { x with wantSwitch := false })) w
  else
    let s := s.modWing w (fun x => { x with wantSwitch := false })
    if mappingTiles s w ≠ [] then (preempt s.bump w).modWing w (fun x => { x with switching := true })
    else if !mayStage s x then s
    else
      let (c, y) := choose (s.wing w) (·.latency) (·.runLen)
      switchTo (s.modWing w (fun _ => y)) w c

/-- SWITCH_EDGE. -/
def execSwitchEdge (wing : Nat) (s : State) : Host.Outcome State Fault Refusal := onPart wing 16 s (switchEdge wing)

/-! ### Tickets (R255 to R257) -/

/-- Tickets of a context that may still complete. -/
def ctxTickets (s : State) (w c : Nat) : List (Nat × Ticket) := (openTickets s w).filter (fun t => decide (t.2.context = c))

/-- PARK_THRESHOLD: the running context has waited on tickets for the wing's park threshold (R255). -/
def parkThreshold (w : Nat) (s : State) : State :=
  match (s.wing w).running with
  | none => s
  | some c =>
    if ctxTickets s w c ≠ [] ∧ (s.ctx w c).st = .running ∧ s.keeper.up then
      askSwitch ((parkTickets s.bump w c).modCtx w c (fun x => { x with st := .blocked, blocked := .parked, since := s.clock.count })) w
    else s

/-- PARK_THRESHOLD. -/
def execParkThreshold (wing : Nat) (s : State) : Host.Outcome State Fault Refusal := onPart wing 16 s (parkThreshold wing)

/-- A PARKED context made RUNNABLE (R256, R257). -/
def unpark (s : State) (w c : Nat) : State :=
  if (s.ctx w c).blocked = .parked then
    let s := s.bump.modCtx w c (fun x =>
      { x with blocked := .none, runnableAt := s.led.version + 1, st := match x.st with | .blocked => .runnable | st => st })
    noteRunnable s w c
  else s

/-- A late or stale completion counted (R257). -/
def countLateTicket (s : State) (w : Nat) : State :=
  if (s.wing w).live then s.modWing w (fun x => { x with counters := { x.counters with late := wrapAdd x.counters.late 1 } }) else s

/-- A flag set in the engines that run a context (R106). -/
def setFlag (s : State) (w c : Nat) (flag : Option Nat) : State :=
  match flag with
  | none => s
  | some f => (wingTiles s w).foldl (fun s t => s.modTile t (fun t =>
      if t.owner = some (w, c) then { t with engine := { t.engine with flags := t.engine.flags ||| 2 ^ (f % 16) } } else t)) s

/-- A ticket completed (R256): at once for a context that runs; held for one that does not, which becomes RUNNABLE with its
last blocking ticket. -/
def completeTicket (s : State) (n : Nat) : State :=
  let t := tget s.tickets n
  let w := t.wing
  let c := t.context
  if !t.live || decide (t.st = .expired ∨ t.st = .complete ∨ (s.ctx w c).gen ≠ t.ctxGen) then countLateTicket s w
  else if t.st = .open_ then setFlag (spendTickets s (fun i _ => decide (i = n))) w c t.flag
  else
    let s := { s with tickets := tput s.tickets n { t with st := .complete } }
    let s := s.modCtx w c (fun x => { x with held := x.held ++ [{ ticket := n, flag := t.flag }] })
    if ctxTickets s w c = [] then unpark s w c else s

/-- One ticket expired: its context's pass is to end when it resumes, or ends now if it runs (R257). -/
def expireTicket (s : State) (n : Nat) : State :=
  let t := tget s.tickets n
  let w := t.wing
  let c := t.context
  let s := { s with tickets := tput s.tickets n { t with st := .expired } }
  let s := (groupsOfTicket s n).foldl failGroup s
  if (s.ctx w c).gen ≠ t.ctxGen then s
  else if (s.ctx w c).st = .running then failPass s w c .ticketExpired
  else unpark (s.modCtx w c (fun x => { x with ending := if x.pass.isSome then some .ticketExpired else x.ending })) w c

/-- TICKET_EXPIRY: every ticket of the wing whose deadline has come (R257). -/
def ticketExpiry (w : Nat) (s : State) : State :=
  match takeDue s .ticketExpiry (some w) 0 with
  | none => s
  | some s => (((openTickets s w).filter (fun t => decide (t.2.deadline ≤ s.clock.count))).map (·.1)).foldl expireTicket s

/-- TICKET_EXPIRY. -/
def execTicketExpiry (wing : Nat) (s : State) : Host.Outcome State Fault Refusal := onPart wing 16 s (ticketExpiry wing)

/-! ### Fences (R443) -/

/-- Transfers of a wing's objects with the host ended (R443). -/
def endTransfers (s : State) (w : Nat) : State :=
  settleRemovals <| ((s.led.objects.filter (fun o => o.2.live && decide (o.2.wing = w) && hostTransfer o.2)).map (·.1)).foldl endHostWork s

/-- Loads of a wing's rooms from host buffers ended (R443). -/
def endHostLoads (s : State) (w : Nat) : State :=
  ((s.led.handles.filter (fun h => match h.2.load with
    | some l => !l.fromLoft && decide ((s.room l.room).wing = w)
    | none => false)).map (·.1)).foldl (fun s i => failLoad s i .hostAccessFault) s

/-- A wing fenced (R443): pre-empted, cut off, its entries of this milepost held. -/
def fenceWing (s : State) (w : Nat) : State :=
  if !(s.wing w).live then s
  else
    let s := (preempt s w).modWing w (fun x => { x with fenced := true, wantSwitch := x.wantSwitch && x.removing.isSome })
    let kept (e : TtEntry) : Bool := decide (e.wing ≠ some w ∨ e.cls = .fence ∨ e.cls = .scrub)
    let s := { s with tt := { s.tt with due := s.tt.due.filter kept
                                        entries := s.tt.entries ++ s.tt.due.filter (fun e => !kept e && decide (e.cls = TtClass.collective)) } }
    let s := s.bump
    notify (endHostLoads (endTransfers s w) w) .wingFenced (atWing s w) [w, (s.wing w).gen]

/-- FENCE_ENTRY: a FENCE entry acts at its edge (R443). -/
def fenceEntry (w : Nat) (s : State) : State :=
  match takeDue s .fence (some w) 0 with
  | none => s
  | some s => fenceWing { s with porter := { s.porter with running := if s.porter.running = some 3 then none else s.porter.running } } w

/-- FENCE_ENTRY. -/
def execFenceEntry (wing : Nat) (s : State) : Host.Outcome State Fault Refusal := onPart wing 16 s (fenceEntry wing)

/-! ### Swaps (R258 to R261) -/

/-- Resident contexts of a wing, by number. -/
def residents (x : Wing) : List (Nat × Ctx) := x.contexts.filter (fun c => c.2.live && c.2.resident)

/-- The lowest run of free granules of a size (R258). -/
def findGranules (x : Wing) (n : Nat) : Option Nat :=
  lowest 129 (fun g => decide (g + n ≤ 128) && (residents x).all (fun c => decide (g + n ≤ c.2.granule ∨ c.2.granule + c.2.region ≤ g)))

/-- Where a context can become resident (R258). -/
def canReside (x : Wing) (c : Ctx) : Option Nat :=
  if 64 ≤ (residents x).length ∨ (residents x).any (fun r => overlap r.2.slices c.slices) then none else findGranules x c.region

/-- Contexts that are OUT and RUNNABLE, the one to swap in first at the head (R260); one whose SAVE object lies in the Loft under an
absent key stays OUT (R407). -/
def waitingIn (s : State) (x : Wing) : List (Nat × Ctx) :=
  sortBy (fun a b : Nat × Ctx => (a.2.latency && !b.2.latency) || (decide (a.2.latency = b.2.latency) && decide (a.2.runnableAt < b.2.runnableAt)))
    (x.contexts.filter (fun c => c.2.live && decide (c.2.st = .out ∧ c.2.blocked = .none)
      && !loftKeyAbsent s (s.obj c.2.saveObj).owner (s.obj c.2.saveObj).place.tier))

/-- The estimate of remaining wait (Table 10.6). -/
def waitEstimate (s : State) (w : Nat) (c : Nat × Ctx) : Nat :=
  match c.2.blocked with
  | .idle => if c.2.idleHint = 0 then 4294967295 else c.2.idleHint - (s.clock.count - c.2.since)
  | .parked =>
    match (ctxTickets s w c.1).map (·.2.deadline) with
    | [] => 0
    | d :: l => l.foldl Nat.min d - s.clock.count
  | .roomWait => (s.wing w).stage
  | .none => 0

/-- Whether a resident context may be swapped out (R259). -/
def swapEligible (s : State) (w : Nat) (c : Nat × Ctx) : Bool :=
  decide (c.2.st = .blocked) && (ctxTickets s w c.1).all (fun t => t.2.object.isSome)

/-- The context to swap out: the largest estimate, best-effort before latency-critical, then the lower number (R259). -/
def swapVictim (s : State) (w : Nat) : Option (Nat × Ctx) :=
  ((residents (s.wing w)).filter (swapEligible s w)).foldl (fun best c =>
    match best with
    | none => some c
    | some b =>
      let e := waitEstimate s w c
      let f := waitEstimate s w b
      if f < e ∨ (e = f ∧ b.2.latency ∧ !c.2.latency) then some c else some b) none

/-- A swap begun (R258): the SAVE object's bytes move. -/
def startSwap (s : State) (w c : Nat) (out : Bool) : State :=
  s.bump.modWing w (fun x => { x with swap := some { context := c, out := out, bytes := (s.obj (tget x.contexts c).saveObj).size } })

/-- Whether a wing may swap now: one at a time, by the keeper. -/
def maySwap (s : State) (x : Wing) : Bool := x.live && x.swap.isNone && s.keeper.up && x.removing.isNone && !x.fenced && x.scrub.isNone

/-- SWAP_OUT_START: a context waits to come in, cannot, and every resident one is BLOCKED (R259). -/
def swapOutStart (w : Nat) (s : State) : State :=
  let x := s.wing w
  match waitingIn s x with
  | [] => s
  | (_, y) :: _ =>
    if maySwap s x && (canReside x y).isNone && (residents x).all (fun c => decide (c.2.st = .blocked)) then
      match swapVictim s w with
      | some (c, _) => (startSwap s w c true).modCtx w c (fun x => { x with st := .swappingOut })
      | none => s
    else s

/-- SWAP_OUT_START. -/
def execSwapOutStart (wing : Nat) (s : State) : Host.Outcome State Fault Refusal := onPart wing 16 s (swapOutStart wing)

/-- SWAP_IN_START: the context that R260 names can become resident; one whose SAVE object was damaged, or lost to a wipe, ends
(Table 8.8, R401). -/
def swapInStart (w : Nat) (s : State) : State :=
  let x := s.wing w
  match waitingIn s x with
  | [] => s
  | (c, y) :: _ =>
    if maySwap s x ∧ ((s.obj y.saveObj).st = .damaged ∨ (s.obj y.saveObj).st = .absent) then endContext s w c .contextLost (atObj s y.saveObj) []
    else match if maySwap s x && decide ((s.obj y.saveObj).st = .home) then canReside x y else none with
    | some g => (startSwap s w c false).modCtx w c (fun x => { x with st := .swappingIn, resident := true, granule := g })
    | none => s

/-- SWAP_IN_START. -/
def execSwapInStart (wing : Nat) (s : State) : Host.Outcome State Fault Refusal := onPart wing 16 s (swapInStart wing)

/-- A memory with a run of bytes replaced by another memory's. -/
def mput (m : Mem) (base len : Nat) (from_ : Mem) : Mem := from_.foldl (fun m c => mwrite m (base + c.1) c.2) (mclear m base len)

/-- The SAVE object's contents for a context's state (R258): its region of each tile in logical order, then its slices. -/
def swappedOut (s : State) (w : Nat) (x : Ctx) : Mem :=
  let r := x.region * 32768
  let tiles := maskList 128 (s.wing w).tiles
  let ofTile (i n : Nat) : Mem := match physTile s n with
    | some p => (mslice (s.tile p).store (regionBase x) r).map (fun c => (i * r + c.1, c.2))
    | none => []
  let slices := maskList 256 x.slices
  ((List.range tiles.length).zip tiles).flatMap (fun p => ofTile p.1 p.2)
    ++ ((List.range slices.length).zip slices).flatMap (fun p =>
        (mslice s.qmem (p.2 * 2 ^ 20) (2 ^ 20)).map (fun c => (tiles.length * r + p.1 * 2 ^ 20 + c.1, c.2)))

/-- A context's state moved out of its SAVE object into its regions and slices (R258). -/
def swappedIn (s : State) (w : Nat) (x : Ctx) (m : Mem) : State :=
  let r := x.region * 32768
  let tiles := maskList 128 (s.wing w).tiles
  let slices := maskList 256 x.slices
  let s := ((List.range tiles.length).zip tiles).foldl (fun s p =>
    match physTile s p.2 with
    | some t => s.modTile t (fun t => { t with store := mput t.store (regionBase x) r (mslice m (p.1 * r) r) })
    | none => s) s
  { s with qmem := ((List.range slices.length).zip slices).foldl (fun q p =>
      mput q (p.2 * 2 ^ 20) (2 ^ 20) (mslice m (tiles.length * r + p.1 * 2 ^ 20) (2 ^ 20))) s.qmem }

/-- A swap's counters (R261). -/
def countSwap (out : Bool) (bytes : Nat) (c : WingCounters) : WingCounters :=
  { c with
    swapsOut := wrapAdd c.swapsOut (if out then 1 else 0), swapsIn := wrapAdd c.swapsIn (if out then 0 else 1)
    swapBytes := wrapAdd c.swapBytes bytes }

/-- SWAP_COMMIT: a swap's move is complete (R258, R261). -/
def swapCommit (w : Nat) (s : State) : State :=
  match (s.wing w).swap with
  | none => s
  | some p =>
    if !s.keeper.up then s
    else
      let x := s.ctx w p.context
      let o := x.saveObj
      let s := s.bump.modWing w (fun v => { v with swap := none, counters := countSwap p.out p.bytes v.counters })
      if p.out then
        let m := swappedOut s w x
        (s.modObj o (fun y => { y with content := m })).modCtx w p.context (fun y => { y with st := .out, resident := false, granule := 0 })
      else
        let s := (swappedIn s w x (s.obj o).content).modObj o (fun y => { y with content := [] })
        noteRunnable (s.modCtx w p.context (fun y => { y with st := .runnable })) w p.context

/-- SWAP_COMMIT. -/
def execSwapCommit (wing : Nat) (s : State) : Host.Outcome State Fault Refusal := onPart wing 16 s (swapCommit wing)

end Sys2Proof.Machine
end

