-- ==== Sys2Proof/Machine/Scrubs.lean ====
section
/-! DEFINITION. The scrub of a sealed wing (R412 to R416): its start, which clears everything of Table 15.13, its fixed length,
and its completion. -/

namespace Sys2Proof.Machine

open Sys2Proof

/-- Mileposts to write a Loft channel whole: T_L (R413). -/
def loftScrub (s : State) : Nat :=
  let bytes := loftBytes s - regionPart s
  if regionBytes s = 0 then ceilDiv bytes (Nat.max s.link.loftRate 1) else ceilDiv (bytes * 8) (Nat.max s.link.loftRate 1 * 7)

/-- The length of a scrub: L_s (R413). -/
def scrubLength (s : State) (w : Nat) : Nat := 64 + Nat.max 50332 (if (s.wing w).loft = 0 then 0 else loftScrub s)

/-- Whether a place has a range on a wing's own units. -/
def placeInWing (x : Wing) (p : Place) : Bool :=
  decide (0 < p.len) && (match p.tier with
    | .hbm => overlap p.set x.pcs
    | .quarter => overlap p.set x.slices
    | .loft => overlap p.set x.loft
    | .host => false)

/-- Physical tiles cleared: stores, files, shadows, engines (Table 15.13). -/
def clearTiles (s : State) (l : List Nat) : State :=
  l.foldl (fun s t => s.modTile t (fun t => { idleTile t with store := [] })) s

/-- Ports with their replay and class buffers discarded; their counters stay (Table 15.13). -/
def clearPorts (s : State) (l : List Nat) : State :=
  l.foldl (fun s p => s.modPort p (fun x => { x with replay := [], wait := [], kept := [], rx := [] })) s

/-- Objects and adapter images on a wing's units written with zero (Table 15.13). -/
def clearRanges (s : State) (x : Wing) : State :=
  s.modLed (fun l => { l with
    objects := l.objects.foldl (fun t o => if o.2.live && placeInWing x o.2.place then tput t o.1 { o.2 with content := [] } else t) l.objects
    handles := l.handles.foldl (fun t h => if placeInWing x h.2.home then tput t h.1 { h.2 with blocks := [] } else t) l.handles })

/-- What a scrub clears at its start. -/
def scrubClear (s : State) (w : Nat) : State :=
  let x := s.wing w
  let s := clearPorts (clearTiles (clearRanges s x) (wingTiles s w)) (maskList 36 x.ports)
  let s := { s with qmem := (maskList 256 x.slices).foldl (fun q i => mclear q (i * 2 ^ 20) (2 ^ 20)) s.qmem }
  let s := s.modWing w (fun x => { x with programs := [], watch := [], window := { x.window with ring := [], plan := [] } })
  { s with tt := { s.tt with entries := s.tt.entries.filter (fun e => decide (e.wing ≠ some w ∨ e.cls = .scrub)) } }

/-- SCRUB: a SCRUB entry acts, for a reassignment, a removal, or the start of a wing that power-up brought back (R265, R412). -/
def scrub (w : Nat) (s : State) : State :=
  match takeDue s .scrub (some w) 0 with
  | none => s
  | some s =>
    let x := s.wing w
    if !x.live || !x.sealed || x.scrub.isSome then s
    else
      let sc : Scrub :=
        { start := s.clock.count, length := scrubLength s w, newParty := x.reassign.map (·.1), ref := x.reassign.map (·.2) }
      (scrubClear s w).modWing w (fun x => { x with scrub := some sc, mustScrub := false })

/-- SCRUB. -/
def execScrub (wing : Nat) (s : State) : Host.Outcome State Fault Refusal := onPart wing 16 s (scrub wing)

/-- A Loft channel that failed during the scrub leaves the wing at its end (R416). -/
def dropDeadLofts (s : State) (w : Nat) : State :=
  (maskList 16 (s.wing w).loft).foldl (fun s c =>
    if (s.loft c).st = .down ∧ !(s.loft c).downNoticed then
      notify ((s.modWing w (fun x => { x with loft := without x.loft (2 ^ c) })).modLoft c (fun l => { l with downNoticed := true }))
        .loftChannelDown { kind := 4, place := c } (loftBody s c)
    else s) s

/-- SCRUB_DONE: at its fixed length a scrub's completion is recorded and told (R241, R411, R416). -/
def scrubDone (w : Nat) (s : State) : State :=
  match (s.wing w).scrub with
  | none => s
  | some sc =>
    if s.clock.count < sc.start + sc.length ∨ !s.keeper.up then s
    else
      let s := s.modWing w (fun x => { x with scrub := none, clean := true })
      if (s.wing w).leaving then
        let lofts := (s.wing w).loft
        let s := releaseWing s w
        (maskList 16 lofts).foldl (fun s c =>
          if (s.loft c).st = .down ∧ !(s.loft c).downNoticed then
            notify (s.modLoft c (fun l => { l with downNoticed := true })) .loftChannelDown { kind := 4, place := c } (loftBody s c)
          else s) (carryMoves (settleMaps s))
      else
        let s := s.bump.modWing w (fun x =>
          let x := match sc.newParty with
            | some p => { x with party := p, baseStall := x.stall, baseCounters := x.counters, createdAt := s.clock.count }
            | none => x
          { x with reassign := none })
        let s := notify s .scrubDone (atWing s w) [w, (s.wing w).gen]
        carryMoves (settleMaps (dropDeadLofts (finishOpt s sc.ref .ok []) w))

/-- SCRUB_DONE. -/
def execScrubDone (wing : Nat) (s : State) : Host.Outcome State Fault Refusal := onPart wing 16 s (scrubDone wing)

end Sys2Proof.Machine
end

