-- ==== Sys2Proof/Machine/Cellar.lean ====
section
/-! DEFINITION. The Cellar (R205 to R231): regions, manifests, installation, fetches and their arrival, quarantine and re-fetch,
digest sweeps, and the Cellar commands. A shard's ciphertext is held as its digest. -/

namespace Sys2Proof.Machine

open Sys2Proof

/-! ### Regions (R205) -/

/-- The Cellar shard of an image shard in a region that begins at a row. -/
def regionShard (row0 j : Nat) : Nat := 1024 * (j % 8) + row0 + j / 8

/-- Rows of an image. -/
def imageRows (n : Nat) : Nat := ceilDiv n 8

/-- The Cellar shard of a base's image shard. -/
def Base.shardOf (b : Base) (j : Nat) : Nat := regionShard b.row0 j

/-- Whether a row belongs to an installed base's region. -/
def rowTaken (s : State) (row : Nat) : Bool :=
  s.cellar.bases.any (fun b => decide (b.2.st ≠ .empty ∧ b.2.row0 ≤ row ∧ row < b.2.row0 + imageRows b.2.shards))

/-- Whether a row may be given to a new region: every slot of it FREE. -/
def rowFree (s : State) (row : Nat) : Bool :=
  !rowTaken s row && (List.range 8).all (fun k => decide ((s.shard (1024 * k + row)).st = .free))

/-- First fit for a run of rows. -/
def findRegion (s : State) (n : Nat) : Option Nat :=
  lowest 1024 (fun r => decide (r + imageRows n ≤ 1024) && (List.range (imageRows n)).all (fun i => rowFree s (r + i)))

/-- The digest that a manifest gives a Cellar shard of a base. -/
def wantDigest (s : State) (k : Nat) : Option Nat := (s.base (s.shard k).base).digests[(s.shard k).index]?

/-- Whether a Cellar shard belongs to a base's image. -/
def inImage (s : State) (k : Nat) : Bool :=
  let b := s.base (s.shard k).base
  decide (b.st ≠ .empty ∧ (s.shard k).index < b.shards ∧ b.shardOf (s.shard k).index = k)

/-- Image shards of a base that are not VALID. -/
def needed (s : State) (b : Nat) : List Nat :=
  (List.range (s.base b).shards).filter (fun j => decide ((s.shard ((s.base b).shardOf j)).st ≠ .valid))

/-! ### Cellar root (R210) -/

/-- The module's Cellar root. -/
def cellarRoot (s : State) : Bytes :=
  shake256 ((s.cellar.bases.filter (fun b => decide (b.2.st ≠ .empty))).flatMap (fun b =>
    leBytes 1 b.1 ++ leBytes 1 (if b.2.st = .installing then 0 else 1) ++ b.2.rootBytes)) 64

/-! ### Requests to holders (R227, R228) -/

/-- The place of a Cellar shard. -/
def atShard (k : Nat) : At := { kind := 5, place := k }

/-- Wings whose windows wait for an image shard of a base. -/
def waitingWings (s : State) (b j : Nat) : List Nat :=
  s.liveWings.filter (fun w => (s.wing w).window.ring.any (fun r => decide (r.base = b ∧ r.shard = j) && !r.verified))

/-- A wing's slot for an image shard given up. -/
def dropSlot (s : State) (w b j : Nat) : State :=
  s.modWing w (fun x => { x with window := keepSlots x.window (fun r => r.verified || !(decide (r.base = b ∧ r.shard = j))) })

/-- A shard lost for the current fetch: every pass that needs it ends with SHARD_LOST (R229). -/
def loseShard (s : State) (k : Nat) : State :=
  let b := (s.shard k).base
  let j := (s.shard k).index
  (waitingWings s b j).foldl (fun s w =>
    let passes := ((s.wing w).contexts.filter (fun c => c.2.pass.isSome)).map (·.1)
    passes.foldl (fun s c => failPass s w c .shardLost) (dropSlot s w b j)) s

/-- The next holder to ask: in ascending roll-call position, beginning after the last one asked (R227). -/
def nextHolder (s : State) (base : Nat) (asked : List Nat) : Option Nat :=
  let last := tget s.cellar.lastHolder base
  let l := (holders s (s.base base).root).filter (fun i => !asked.contains i)
  (l.find? (fun i => decide (last < i))).orElse (fun _ => l.head?)

/-- The requests other than one shard's of one kind. -/
def otherRequests (s : State) (k : Nat) (paced : Bool) : List Request :=
  s.cellar.requests.filter (fun r => decide (r.shard ≠ k ∨ r.paced ≠ paced))

/-- The request of a shard and kind. -/
def requestOf (s : State) (k : Nat) (paced : Bool) : Option Request :=
  s.cellar.requests.find? (fun r => decide (r.shard = k ∧ r.paced = paced))

/-- The next holder asked for a shard; when every one has been asked, the fetch is lost, and a rewrite waits (R227 to R229). -/
def askNext (s : State) (k : Nat) (paced : Bool) (asked : List Nat) : State :=
  let base := (s.shard k).base
  match nextHolder s base asked with
  | some i =>
    let s := s.modCellar (fun c =>
      { c with requests := otherRequests s k paced ++ [{ shard := k, asked := asked ++ [i], last := some i, since := s.clock.count, paced := paced }]
               lastHolder := tput c.lastHolder base i })
    sendRouted s (newMsg 0x0050 i 0 0 0 [(s.base base).root, (s.shard k).index, k, if paced then 1 else 0] [])
  | none =>
    let s := s.modCellar (fun c => { c with requests := otherRequests s k paced })
    if paced then s else loseShard s k

/-- A fetch served by a peer (R227). While ADRIFT no request is sent, and the fetch waits (R228). -/
def askShard (s : State) (k : Nat) : State :=
  if (requestOf s k false).isSome ∨ s.clock.st = .adrift then s else askNext s k false []

/-- A paced transfer asked for, to rewrite a shard (R228). -/
def askRewrite (s : State) (k : Nat) : State :=
  if (requestOf s k true).isSome ∨ (s.shard k).incoming ∨ s.clock.st = .adrift ∨ holders s (s.base (s.shard k).base).root = [] then s
  else askNext s k true []

/-- A shard that failed its check becomes QUARANTINED, if it was VALID, and its rewrite is asked for (R226, R228). -/
def quarantine (s : State) (k : Nat) : State :=
  if (s.shard k).st = .valid then
    let s := notify (s.modShard k (fun x => { x with st := .quarantined })) .shardQuarantined (atShard k) [k, (s.shard k).base, (s.shard k).index]
    askRewrite s k
  else s

/-- Every rewrite that waits asked for again, when holders have joined (R228, R229). -/
def retryRewrites (s : State) : State :=
  ((s.cellar.shards.filter (fun p => decide (p.2.st = .quarantined ∨ p.2.st = .invalid) && inImage s p.1)).map (·.1)).foldl askRewrite s

/-! ### Installation (R211 to R216) -/

/-- The layer rows of a manifest. -/
def layerRows (b : Bytes) (n : Nat) : List LayerRow :=
  (List.range n).map (fun i =>
    { offset := field b (128 + 24 * i) 8, length := field b (136 + 24 * i) 8, outlierOffset := field b (144 + 24 * i) 4 })

/-- Layers in order, apart, and within a number of bytes (R211). -/
def layersOk (limit : Nat) : Nat → List LayerRow → Bool
  | _, [] => true
  | from_, r :: l => decide (from_ ≤ r.offset ∧ r.offset + r.length ≤ limit ∧ r.offset % 64 = 0) && layersOk limit (r.offset + r.length) l

/-- A manifest's root as R210 computes it. -/
def manifestRoot (b : Bytes) (L n : Nat) : Bytes := shake256 (fieldBytes b 0 64 ++ fieldBytes b 128 (24 * L + 64 * n)) 64

/-- Whether a manifest is sound (R211). -/
def manifestOk (b : Bytes) : Bool :=
  let L := field b 2 2
  let n := field b 4 4
  decide (b.length = 128 + 24 * L + 64 * n ∧ field b 0 2 = 1) && zeros b 20 4 && zeros b 40 24
    && (List.range L).all (fun i => zeros b (148 + 24 * i) 4)
    && layersOk (n * shardBytes) 0 (layerRows b L) && decide (fieldBytes b 64 64 = manifestRoot b L n)

/-- Whether a manifest keeps the limits of Table 9.2. -/
def manifestFits (b : Bytes) : Bool :=
  inRange (field b 2 2) 1 512 && inRange (field b 4 4) 1 8192 && inRange (field b 16 4) 1 32768 && decide (field b 24 8 ≤ 24 * gib)
    && decide (field b 32 8 ≤ 3600000000000)

/-- A base as its manifest gives it. -/
def baseOf (b : Bytes) (row0 : Nat) : Base :=
  { (default : Base) with
    st := .installing, row0 := row0, shards := field b 4 4, layers := field b 2 2, serial := field b 8 8, dModel := field b 16 4
    largest := field b 24 8, root := field b 64 16, rootBytes := fieldBytes b 64 64, table := layerRows b (field b 2 2)
    digests := (List.range (field b 4 4)).map (fun j => field b (128 + 24 * field b 2 2 + 64 * j) 64) }

/-- The final payload of a base-install: shards still needed. -/
def neededBytes (s : State) (b : Nat) : Bytes := leBytes 4 (needed s b).length

/-- A base-install ended short of its end (R216): shards in WRITING become INVALID. -/
def cutInstall (s : State) (b : Nat) (st : Status) : State :=
  match (s.base b).install with
  | none => s
  | some i =>
    let mine (p : Nat × Shard) : Bool := decide (p.2.base = b) && inImage s p.1
    let s := s.modCellar (fun c =>
      { c with
        shards := c.shards.foldl (fun t p =>
          if mine p then tput t p.1 { p.2 with st := if p.2.st = .writing then .invalid else p.2.st, incoming := false } else t) c.shards
        requests := c.requests.filter (fun r => !(r.paced && decide ((s.shard r.shard).base = b))) })
    let s := s.modBase b (fun x => { x with install := none })
    finishIn s i.ref st (neededBytes s b)

/-- Whether the secure store holds a base's key, bound to its root (R217). -/
def keyHeld (s : State) (b : Nat) : Bool :=
  match tget s.secure.baseKeys b with
  | some k => decide (k.root = (s.base b).rootBytes)
  | none => false

/-- The state of a base whose every shard is VALID. -/
def wholeState (s : State) (b : Nat) : BaseSt := if keyHeld s b then .ready else .installed

/-- An installation whose every shard is VALID (R216): INSTALLED with INSTALL_DONE, unless an outlier list is bad (R211). -/
def settleInstall (s : State) (b : Nat) : State :=
  if needed s b ≠ [] then s
  else if (s.base b).outlierBad then
    match (s.base b).install with
    | some i => finishIn (s.modBase b (fun x => { x with install := none })) i.ref .outlierListBad (neededBytes s b)
    | none => s
  else if (s.base b).st = .installing ∨ (s.base b).install.isSome then
    let i := (s.base b).install
    let s := s.modBase b (fun x => { x with st := if x.st = .installing then wholeState s b else x.st, install := none })
    let s := notify s .installDone {} [b]
    finishOpt s (i.map (·.ref)) .ok (leBytes 4 0)
  else s

/-- The shards a FILL asks for: the lowest missing image shard of each stack with none under way (R213). -/
def fillNext (s : State) (b : Nat) : State :=
  match (s.base b).install with
  | none => s
  | some i =>
    if i.role ≠ .fill then s
    else
      (List.range 8).foldl (fun s stack =>
        let mine := (needed s b).filter (fun j => decide (j % 8 = stack))
        let busy (j : Nat) : Bool :=
          let k := (s.base b).shardOf j
          (s.shard k).incoming || decide ((s.shard k).st = .writing) || (requestOf s k true).isSome
        if mine.any busy then s
        else match mine.find? (fun j => decide ((s.shard ((s.base b).shardOf j)).st ≠ .retired)) with
          | some j => askRewrite s ((s.base b).shardOf j)
          | none => s) s

/-- The roles' codes (Table 13.12). -/
def roleOf (n : Nat) : Role :=
  match n with
  | 0 => .source | 1 => .sink | _ => .fill

/-- The shards of a new region marked with their base and image index (R206). -/
def claimRegion (s : State) (b row0 n : Nat) : State :=
  (List.range n).foldl (fun s j => s.modShard (regionShard row0 j) (fun x => { x with base := b, index := j, retried := false })) s

/-- base-install (R211, R213, R357). -/
def baseInstallCmd (host : HostRead) : KCmd :=
  { code := 0x0701, cls := .long
    parse := fun p => fixedLayout 40 [(2, 6), (28, 4)] p && decide (field p 0 1 < 4 ∧ field p 1 1 < 3) && lineAligned p 16 && lineAligned p 32
      && (decide (field p 1 1 = 0) || decide (field p 32 8 = 0))
    perm := fromVf0
    body := fun s h p =>
      let n := field p 0 1
      let x := s.base n
      let ins : Install :=
        { role := roleOf (field p 1 1), ident := field p 8 8, ref := refOf h 0x0701, host := field p 32 8, hostFn := h.fn, sent := 0, source := none }
      if 2 ^ 20 < field p 24 4 then .refuse .baseTooLarge []
      else match hostBytes s h.fn host with
        | none =>
          .long (fun s => s) .accepted [] (some (fun s => finish s (refOf h 0x0701) .installIncomplete (neededBytes s n)))
        | some b =>
          if !(decide (b.length = field p 24 4) && manifestOk b) then .refuse .manifestBad []
          else if !manifestFits b then .refuse .baseTooLarge []
          else if x.st ≠ .empty ∧ (x.rootBytes ≠ fieldBytes b 64 64 ∨ x.install.isSome) then .refuse .baseBusy []
          else if x.st ≠ .empty then
            .long (fun s => fillNext (s.modBase n (fun x => { x with install := some ins })) n) .accepted []
              (if needed s n = [] then some (fun s => settleInstall s.bump n) else none)
          else match findRegion s (field b 4 4) with
            | none => .refuse .cellarFull []
            | some row =>
              .long (fun s =>
                let s := s.modBase n (fun _ => { baseOf b row with install := some ins })
                fillNext (claimRegion s n row (field b 4 4)) n) .accepted [] none }

/-- BASE_INSTALL. -/
def execBaseInstall (h : CmdHdr) (p : Bytes) (host : HostRead) (s : State) : Host.Outcome State Fault Refusal :=
  .next (kcp (baseInstallCmd host) h p s)

/-- The payload that names one base. -/
def baseParse (p : Bytes) : Bool := fixedLayout 1 [] p && decide (field p 0 1 < 4)

/-- install-cancel (R216). -/
def installCancelCmd : KCmd :=
  { code := 0x0702, cls := .commit, parse := baseParse, perm := fromVf0
    body := fun s _ p =>
      let n := field p 0 1
      if (s.base n).install.isNone then .refuse .notInstalling [] else .commit (fun s => cutInstall s n .installIncomplete) .ok [] }

/-- INSTALL_CANCEL. -/
def execInstallCancel (h : CmdHdr) (p : Bytes) (s : State) : Host.Outcome State Fault Refusal := .next (kcp installCancelCmd h p s)

/-- Whether a wing names a base, or a BASE_COPY of its shards exists (R218). -/
def baseInUse (s : State) (n : Nat) : Bool :=
  (s.liveWings.any (fun w => decide ((s.wing w).base = n)))
    || s.led.objects.any (fun o => o.2.live && decide (o.2.kind = .baseCopy ∧ o.2.base = n))

/-- A base removed (R218): its key is wiped, its shards become FREE and are erased in the background. -/
def removeBase (n : Nat) (s : State) : State :=
  let s := cutInstall s n .installIncomplete
  let mine (p : Nat × Shard) : Bool := decide (p.2.base = n) && inImage s p.1
  let s := s.modCellar (fun c =>
    { c with
      shards := c.shards.foldl (fun t p =>
        if mine p ∧ p.2.st ≠ .retired then
          tput t p.1 { (default : Shard) with programs := p.2.programs, erasing := decide (0 < p.2.programs) }
        else t) c.shards
      requests := c.requests.filter (fun r => decide ((s.shard r.shard).base ≠ n)) })
  (s.modBase n (fun _ => default)).modSecure (fun x => { x with baseKeys := terase x.baseKeys n })

/-- base-remove. -/
def baseRemoveCmd : KCmd :=
  { code := 0x0703, cls := .commit, parse := baseParse, perm := fromVf0
    body := fun s _ p => if baseInUse s (field p 0 1) then .refuse .baseBusy [] else .commit (removeBase (field p 0 1)) .ok [] }

/-- BASE_REMOVE. -/
def execBaseRemove (h : CmdHdr) (p : Bytes) (s : State) : Host.Outcome State Fault Refusal := .next (kcp baseRemoveCmd h p s)

/-- Whether a context of a wing holds a KV object: the wing has one (R230). -/
def holdsKv (s : State) (w : Nat) : Bool := s.led.objects.any (fun o => o.2.live && decide (o.2.kind = .kv ∧ o.2.wing = w))

/-- base-select (R230). -/
def baseSelectCmd : KCmd :=
  { code := 0x0704, cls := .commit
    parse := fun p => fixedLayout 8 [(2, 2)] p && decide (field p 0 1 < 16 ∧ field p 1 1 < 4)
    perm := fun s h p => mayNameWing s h.fn (field p 0 1)
    gens := fun s p => wingCurrent s (field p 0 1) (field p 4 4)
    names := fun _ p => [field p 0 1]
    body := fun s _ p =>
      if holdsKv s (field p 0 1) then .refuse .baseBusy []
      else if (s.base (field p 1 1)).st ≠ .ready then .refuse .baseNotReady []
      else .commit (fun s => s.modWing (field p 0 1) (fun x => { x with base := field p 1 1 })) .ok [] }

/-- BASE_SELECT. -/
def execBaseSelect (h : CmdHdr) (p : Bytes) (s : State) : Host.Outcome State Fault Refusal := .next (kcp baseSelectCmd h p s)

/-! ### Broadcast (R285, R286) -/

/-- A member's parent in a broadcast's tree: its neighbour with the fewest hops to the SOURCE, ties to the lower identity. -/
def parentOf (s : State) (source i : Nat) : Option Nat :=
  let l := hopsFrom s source
  match hopsTo l i with
  | some (d + 1) => (s.fabric.view.filter (fun a => linked s i a && decide (hopsTo l a = some d))).head?
  | _ => none

/-- This module's children in a broadcast's tree. -/
def children (s : State) (source : Nat) : List Nat := s.fabric.view.filter (fun i => decide (parentOf s source i = some Config.identity))

/-- Members below one of the view in a tree, itself included, to a depth. -/
def below (s : State) (source : Nat) : Nat → Nat → List Nat
  | 0, i => [i]
  | n + 1, i => i :: (s.fabric.view.filter (fun a => decide (parentOf s source a = some i))).flatMap (below s source n)

/-- Whether a SINK lies below a member: one whose entries report a base INSTALLING (R286). -/
def sinkBelow (s : State) (source i : Nat) : Bool :=
  (below s source 16 i).any (fun a => match (s.member a).last with
    | some b => b.bases.any (fun e => decide (e.state = 1))
    | none => false)

/-- A shard of a broadcast sent to this module's children. -/
def sendDown (s : State) (ident source j digest : Nat) : State :=
  (children s source).foldl (fun s c =>
    sendTrunk s (openPorts s) c { newMsg 0x0030 c (ident % 2 ^ 32) (ident / 2 ^ 32) (j * shardBytes) [j, 1, digest] [] with src := source }) s

/-- The base whose running installation carries an identifier, with a role. -/
def installOf (s : State) (ident : Nat) (role : Role) : Option Nat :=
  lowest 4 (fun b => match (s.base b).install with
    | some i => decide (i.ident = ident ∧ i.role = role)
    | none => false)

/-- A shard's acknowledgement sent to the parent once this module, if it is a SINK, and every SINK below hold it (R285). -/
def tryAck (s : State) (ident source j : Nat) : State :=
  let mine := match installOf s ident .sink with
    | some b => decide ((s.shard ((s.base b).shardOf j)).st = .valid)
    | none => true
  let theirs := ((children s source).filter (sinkBelow s source)).all (fun c =>
    s.fabric.bcastAcks.any (fun a => decide (a.ident = ident ∧ a.shard = j ∧ a.child = c)))
  if mine && theirs then
    match parentOf s source Config.identity with
    | some p => sendTrunk s (openPorts s) p (newMsg 0x0031 p (ident % 2 ^ 32) (ident / 2 ^ 32) (j * shardBytes) [j] [])
    | none => s
  else s

/-- The install identifier of a message (Table 11.4). -/
def identOf (h : MsgHdr) : Nat := h.ref + 2 ^ 32 * h.refGen

/-- A shard's data come to a SINK of the broadcast: programmed, or discarded where it is VALID already (R286). -/
def sinkData (s : State) (ident source j : Nat) (last : Bool) : State :=
  match installOf s ident .sink with
  | none => s
  | some b =>
    let s := s.modBase b (fun x => { x with install := x.install.map (fun i => { i with source := some source }) })
    let k := (s.base b).shardOf j
    if (s.base b).shards ≤ j ∨ !last ∨ (s.shard k).st = .valid ∨ (s.shard k).st = .writing ∨ (s.shard k).st = .retired then s
    else s.modShard k (fun x => { x with incoming := true })

/-- BCAST_DATA: written by a SINK and sent on to this module's children (R285). The row's last chunk of a shard stands for
the whole of it. -/
def bcastData (h : MsgHdr) (j : Nat) (last : Bool) (digest : Nat) (s : State) : State :=
  receiveHere s 0x0030 h (fun s =>
    let ident := identOf h
    if parentOf s h.src Config.identity ≠ (s.port h.port).peer then s
    else
      let s := s.modFabric (fun f =>
        { f with bcasts := (f.bcasts.filter (fun b => decide (b.ident ≠ ident))) ++ [{ ident := ident, source := h.src }] })
      let s := sinkData s ident h.src j last
      if last then tryAck (sendDown s ident h.src j digest) ident h.src j else s)

/-- BCAST_DATA. -/
def execBcastData (hdr : MsgHdr) (shard : Nat) (last : Bool) (digest : Nat) (s : State) : Host.Outcome State Fault Refusal :=
  .next (bcastData hdr shard last digest s)

/-- BCAST_ACK: a child's acknowledgement, sent up once every SINK below has acknowledged (R285). -/
def bcastAck (h : MsgHdr) (j : Nat) (s : State) : State :=
  receiveHere s 0x0031 h (fun s =>
    let ident := identOf h
    let s := s.modFabric (fun f =>
      { f with bcastAcks := (f.bcastAcks.filter (fun a => decide (a.ident ≠ ident ∨ a.shard ≠ j ∨ a.child ≠ h.src))) ++
          [{ ident := ident, shard := j, child := h.src }] })
    match s.fabric.bcasts.find? (fun b => decide (b.ident = ident)) with
    | some b => tryAck s ident b.source j
    | none => s)

/-- BCAST_ACK. -/
def execBcastAck (hdr : MsgHdr) (shard : Nat) (s : State) : Host.Outcome State Fault Refusal := .next (bcastAck hdr shard s)

/-- A SOURCE's shard sent to the broadcast (R213, R214). -/
def sourceShard (s : State) (k : Nat) : State :=
  let b := (s.shard k).base
  let j := (s.shard k).index
  match (s.base b).install with
  | some i =>
    if i.role = .source then
      sendDown (s.modBase b (fun x => { x with install := some { i with sent := Nat.max i.sent (j + 1) } })) i.ident Config.identity j
        (s.shard k).digest
    else s
  | none => s

/-- The lowest shard that some child with a SINK below has not acknowledged (R286). -/
def resumeShard (s : State) (ident sent : Nat) : Nat :=
  let cs := (children s Config.identity).filter (sinkBelow s Config.identity)
  (lowest sent (fun j => cs.any (fun c => !(s.fabric.bcastAcks.any (fun a => decide (a.ident = ident ∧ a.shard = j ∧ a.child = c)))))).getD sent

/-- A broadcast after a view change (R286): a SOURCE resumes in the new tree; a SINK whose SOURCE has left ends with
INSTALL_INCOMPLETE (R216). -/
def viewInstall (s : State) (b : Nat) : State :=
  match (s.base b).install with
  | none => s
  | some i =>
    match i.role, i.source with
    | .source, _ =>
      let from_ := resumeShard s i.ident i.sent
      (List.range (i.sent - from_)).foldl (fun s d =>
        let k := (s.base b).shardOf (from_ + d)
        if (s.shard k).st = .valid ∨ (s.shard k).st = .writing then sendDown s i.ident Config.identity (from_ + d) (s.shard k).digest else s) s
    | .sink, some src => if s.fabric.view.contains src then s else cutInstall s.bump b .installIncomplete
    | _, _ => s

/-- A SINK whose broadcast has sent its last shard ends, short of shards or whole (R357). -/
def settleSink (s : State) (b j : Nat) : State :=
  match (s.base b).install with
  | none => s
  | some i =>
    let busy := (List.range (s.base b).shards).any (fun j =>
      (s.shard ((s.base b).shardOf j)).incoming || decide ((s.shard ((s.base b).shardOf j)).st = .writing))
    if i.role = .sink ∧ j + 1 = (s.base b).shards ∧ !busy then cutInstall s b .installIncomplete else s

/-! ### Programs and read-backs (R215, R219) -/

/-- A shard's second failure makes it RETIRED; its first asks for a paced transfer (R215). -/
def failShard (s : State) (k : Nat) : State :=
  if (s.shard k).retried then
    notify (s.modShard k (fun x => { x with st := .retired, incoming := false })) .shardRetired (atShard k) [k, (s.shard k).base, (s.shard k).index]
  else askRewrite (s.modShard k (fun x => { x with st := .invalid, retried := true, incoming := false })) k

/-- The highest program count of a base's region. -/
def highestCount (s : State) (b : Nat) : Nat :=
  (List.range (s.base b).shards).foldl (fun m j => Nat.max m (s.shard ((s.base b).shardOf j)).programs) 0

/-- Whether a shard's data is there to be programmed: a transfer has brought it, or a SOURCE reads it from the host (R213). -/
def programmable (s : State) (k : Nat) : Bool :=
  let x := s.shard k
  inImage s k && !x.erasing && decide (x.st ≠ .valid ∧ x.st ≠ .writing ∧ x.st ≠ .retired) &&
    (x.incoming || (match (s.base x.base).install with
      | some i => decide (i.role = .source)
      | none => false))

/-- SHARD_PROGRAM_DONE: the shard enters WRITING for its read-back, or has failed (R215, R219). -/
def shardProgramDone (k : Nat) (ok : Bool) (digest : Nat) (s : State) : State :=
  if !programmable s k then s
  else
    let b := (s.shard k).base
    let s := s.modShard k (fun x => { x with programs := x.programs + 1, incoming := false })
    let s := if (s.shard k).programs = 2701 then notify s .cellarWear (atShard k) [b, highestCount s b] else s
    if ok then
      sourceShard (s.modShard k (fun x =>
        { x with st := .writing, digest := digest, rewrite := decide (x.st = .quarantined ∨ x.st = .invalid) })) k
    else failShard s k

/-- SHARD_PROGRAM_DONE. -/
def execShardProgramDone (shard : Nat) (ok : Bool) (digest : Nat) (s : State) : Host.Outcome State Fault Refusal :=
  onPart shard 8192 s (shardProgramDone shard ok digest)

/-- SHARD_READBACK_DONE: the digest read back decides between VALID, INVALID and RETIRED (R211, R215, R216, R228). -/
def shardReadbackDone (k digest : Nat) (listsOk : Bool) (s : State) : State :=
  let x := s.shard k
  if x.st ≠ .writing ∨ !inImage s k then s
  else
    let b := x.base
    let ins := (s.base b).install
    let s := s.bump
    if wantDigest s k = some digest then
      let s := s.modShard k (fun x => { x with st := .valid, digest := digest, retried := false, rewrite := false })
      let s := if x.rewrite then notify s .shardRestored (atShard k) [k, b, x.index] else s
      let s := match ins with
        | some i => (match i.source with
          | some src => tryAck s i.ident src x.index
          | none => s)
        | none => s
      let s := if listsOk then s else s.modBase b (fun y => { y with outlierBad := true })
      let s := if listsOk then s else match ins with
        | some i => finishIn (s.modBase b (fun y => { y with install := none })) i.ref .outlierListBad (neededBytes s b)
        | none => s
      settleSink (settleInstall (fillNext s b) b) b x.index
    else settleSink (fillNext (failShard s k) b) b x.index

/-- SHARD_READBACK_DONE. -/
def execShardReadbackDone (shard : Nat) (digest : Nat) (outlierListsOk : Bool) (s : State) : Host.Outcome State Fault Refusal :=
  onPart shard 8192 s (shardReadbackDone shard digest outlierListsOk)

/-- SHARD_ERASE_DONE: a shard that has received 3,000 programs becomes RETIRED (R219). -/
def shardEraseDone (k : Nat) (s : State) : State :=
  let x := s.shard k
  if !x.erasing then s
  else if 3000 ≤ x.programs then
    notify (s.modShard k (fun x => { x with erasing := false, st := .retired })) .shardRetired (atShard k) [k, x.base, x.index]
  else s.modShard k (fun x => { x with erasing := false })

/-- SHARD_ERASE_DONE. -/
def execShardEraseDone (shard : Nat) (s : State) : Host.Outcome State Fault Refusal := onPart shard 8192 s (shardEraseDone shard)

/-! ### Fetches (R194, R220, R226, R227) -/

/-- The next image shard of a wing's plan to be fetched (R194, R198): the first that is in no slot and in no copy. -/
def nextFetch (s : State) (w : Nat) : Option Nat :=
  let x := s.wing w
  (planAhead s w).find? (fun j => !(x.window.ring.any (fun r => decide (r.base = x.window.base ∧ r.shard = j))) && !copiedShard s w j)

/-- Whether a wing reads from a stack already: one shard at a time per stack (R194). -/
def stackBusy (x : Wing) (j : Nat) : Bool := x.window.ring.any (fun r => !r.arrived && decide (r.shard % 8 = j % 8))

/-- The window with its next slot's range found, where none is kept (R191). -/
def slotRange (s : State) (w : Nat) (v : Window) : Option Window :=
  if v.ring.length < v.places.length then some v
  else (findPlace s .hbm (windowUnits s w (v.set &&& (s.wing w).pcs)) shardBytes).map (fun p => { v with places := v.places ++ [p] })

/-- Whether a wing's window fetches: it runs, and nothing holds it. -/
def mayFetch (x : Wing) : Bool := x.live && !x.fenced && x.scrub.isNone && decide (x.window.plan ≠ [])

/-- The shard in use given up where it must make room: the pass has read it (R194). -/
def passOn (s : State) (w : Nat) : State :=
  let v := (s.wing w).window
  match v.plan with
  | j :: _ =>
    if v.slots ≤ v.ring.length ∧ v.ring.any (fun r => decide (r.shard = j) && r.verified) ∧ passRuns (s.wing w) then finishShard s w else s
  | [] => s

/-- SHARD_FETCH: the next shard of the plan is asked for, from the Cellar or from a peer (R194, R227). -/
def shardFetch (w : Nat) (s : State) : State :=
  if !mayFetch (s.wing w) then s
  else
    let s := passOn s w
    let x := s.wing w
    match nextFetch s w with
    | none => s
    | some j =>
      if x.window.slots ≤ x.window.ring.length ∨ stackBusy x j then s
      else match slotRange s w x.window with
        | none => s
        | some v =>
          let b := x.window.base
          let s := s.modWing w (fun x => { x with window := { v with ring := v.ring ++ [{ base := b, shard := j, arrived := false, verified := false }] } })
          let k := (s.base b).shardOf j
          if (s.shard k).st = .valid then s else askShard s k

/-- SHARD_FETCH. -/
def execShardFetch (wing : Nat) (s : State) : Host.Outcome State Fault Refusal := onPart wing 16 s (shardFetch wing)

/-- A slot that has its shard, checked: one more shard fetched, and one re-fetched where a digest had failed (Table 8.7). -/
def fillSlot (s : State) (w b j : Nat) (again : Bool) : State :=
  noteAhead (s.modWing w (fun x =>
    { x with
      window := { x.window with ring := x.window.ring.map (fun r =>
        if r.base = b ∧ r.shard = j then { r with arrived := true, verified := true } else r) }
      stall := { x.stall with fetched := wrapAdd x.stall.fetched 1, refetched := wrapAdd x.stall.refetched (if again then 1 else 0) } })) w

/-- SHARD_ARRIVAL: a shard read from the Cellar has arrived in full; a digest that fails discards the slot's contents,
quarantines the shard and asks a peer (R220, R226, R227). -/
def shardArrival (w j digest : Nat) (s : State) : State :=
  let x := s.wing w
  let b := x.window.base
  let k := (s.base b).shardOf j
  if !(x.window.ring.any (fun r => decide (r.base = b ∧ r.shard = j) && !r.arrived)) ∨ (requestOf s k false).isSome then s
  else if (s.base b).digests[j]? = some digest then fillSlot s w b j false
  else askShard (quarantine s k) k

/-- SHARD_ARRIVAL. -/
def execShardArrival (wing shard : Nat) (digest : Nat) (s : State) : Host.Outcome State Fault Refusal := onPart wing 16 s (shardArrival wing shard digest)

/-! ### Peers' shards (R227) -/

/-- A shard of an own base, by root prefix and image index. -/
def ownShard (s : State) (root j : Nat) : Option Nat :=
  (s.cellar.bases.find? (fun b => decide (b.2.st ≠ .empty ∧ b.2.root = root ∧ j < b.2.shards))).map (fun b => b.2.shardOf j)

/-- SHARD_REQUEST: served from a VALID copy, or answered NOT_HELD (R227). The request names the asker's own shard and pace in
its body; the row brings the root and the image shard, and the answer echoes the reference. -/
def shardRequest (h : MsgHdr) (root j : Nat) (s : State) : State :=
  receiveRouted s 0x0050 h [root, j] (fun s =>
    let answer (type : Nat) (body : List Nat) : State := sendRouted s (newMsg type h.src h.ref h.refGen h.offset body [])
    match ownShard s root j with
    | some k => if (s.shard k).st = .valid then answer 0x0051 [j, (s.shard k).digest] else answer 0x0052 [j]
    | none => answer 0x0052 [j])

/-- SHARD_REQUEST. -/
def execShardRequest (hdr : MsgHdr) (root shard : Nat) (s : State) : Host.Outcome State Fault Refusal := .next (shardRequest hdr root shard s)

/-- SHARD_DATA: a match fills every slot that waits, or is programmed for a rewrite; data that fails its digest reports the
holder, and the next one is asked. A copy nobody waits for is discarded (R227, R228). -/
def shardData (h : MsgHdr) (k : Nat) (paced : Bool) (digest : Nat) (s : State) : State :=
  receiveRouted s 0x0051 h [k, digest] (fun s =>
    match requestOf s k paced with
    | none => s
    | some r =>
      if r.last ≠ some h.src then s
      else if wantDigest s k ≠ some digest then askNext (accuse s h.src 6) k paced r.asked
      else
        let s := s.modCellar (fun c => { c with requests := otherRequests s k paced })
        if paced then s.modShard k (fun x => { x with incoming := true })
        else
          let b := (s.shard k).base
          let j := (s.shard k).index
          (waitingWings s b j).foldl (fun s w => fillSlot s w b j true) s)

/-- SHARD_DATA. -/
def execShardData (hdr : MsgHdr) (shard : Nat) (paced : Bool) (digest : Nat) (s : State) : Host.Outcome State Fault Refusal :=
  .next (shardData hdr shard paced digest s)

/-- The next holder asked in place of one that has not served. -/
def skipHolder (s : State) (k : Nat) (r : Request) : State := askNext s k r.paced r.asked

/-- NOT_HELD: the holder has the shard in another state; the next one is asked (R227). -/
def notHeld (h : MsgHdr) (k : Nat) (s : State) : State :=
  receiveRouted s 0x0052 h [k] (fun s =>
    match s.cellar.requests.find? (fun r => decide (r.shard = k ∧ r.last = some h.src)) with
    | some r => skipHolder s k r
    | none => s)

/-- NOT_HELD. -/
def execNotHeld (hdr : MsgHdr) (shard : Nat) (s : State) : Host.Outcome State Fault Refusal := .next (notHeld hdr shard s)

/-- HOLDER_TIMEOUT: a holder silent for 20,000 mp is skipped (R227). -/
def holderTimeout (k : Nat) (s : State) : State :=
  match s.cellar.requests.find? (fun r => decide (r.shard = k ∧ r.since + 20000 ≤ s.clock.count)) with
  | some r => skipHolder s k r
  | none => s

/-- HOLDER_TIMEOUT. -/
def execHolderTimeout (shard : Nat) (s : State) : Host.Outcome State Fault Refusal := onPart shard 8192 s (holderTimeout shard)

/-! ### The timetable and the sweep (R221 to R225) -/

/-- CELLAR_SLOT: a frame starts; changed slot maps and weights take effect (R224). -/
def cellarSlot (s : State) : State :=
  match takeDue s .cellarSlot none 0 with
  | none => s
  | some s => s.liveWings.foldl (fun s w => s.modWing w (fun x => { x with weight := x.nextWeight, slotMap := x.nextSlotMap }))
      (s.modCellar (fun c => { c with frame := s.clock.count / 1024 * 1024 }))

/-- CELLAR_SLOT. -/
def execCellarSlot (s : State) : Host.Outcome State Fault Refusal := .next (cellarSlot s)

/-- The spacing of visits: ⌊D ÷ 8,192⌋ (R225). -/
def sweepSpacing (s : State) : Nat := s.led.sweep / 8192

/-- Whether the Cellar's domain is on. -/
def cellarOn (s : State) : Bool := decide ((s.domain 5).st = .on)

/-- DIGEST_SWEEP: a visit falls due. One still under way is overdue; a shard that is not VALID, or a Cellar that is off, is
skipped (R225, R453). -/
def digestSweep (s : State) : State :=
  match takeDue s .digestSweep none 0 with
  | none => s
  | some s =>
    let next := s.cellar.nextVisit + sweepSpacing s
    let s := s.modCellar (fun c => { c with nextVisit := if next ≤ s.clock.count then s.clock.count + sweepSpacing s else next })
    match s.cellar.visiting with
    | some _ => s.modCellar (fun c => { c with overdue := c.overdue + 1 })
    | none =>
      let k := s.cellar.nextShard
      let s := s.modCellar (fun c => { c with nextShard := (k + 1) % 8192 })
      if (s.shard k).st = .valid ∧ cellarOn s then s.modCellar (fun c => { c with visiting := some k })
      else s.modCellar (fun c => { c with skipped := c.skipped + 1 })

/-- DIGEST_SWEEP. -/
def execDigestSweep (s : State) : Host.Outcome State Fault Refusal := .next (digestSweep s)

/-- SWEEP_READ_DONE: the visit's digest is compared (R225, R226). -/
def sweepReadDone (k digest : Nat) (s : State) : State :=
  if s.cellar.visiting ≠ some k then s
  else
    let s := s.modCellar (fun c => { c with visiting := none })
    if (s.shard k).st = .valid ∧ wantDigest s k ≠ some digest then quarantine s k else s

/-- SWEEP_READ_DONE. -/
def execSweepReadDone (shard : Nat) (digest : Nat) (s : State) : Host.Outcome State Fault Refusal := onPart shard 8192 s (sweepReadDone shard digest)

/-- sweep-set (R225): the new spacing counts from the next visit. -/
def sweepSetCmd : KCmd :=
  { code := 0x0705, cls := .commit
    parse := fun p => fixedLayout 8 [] p && inRange (field p 0 8) 3600000000 2592000000000, perm := fromVf0
    body := fun _ _ p => .commit (fun s => s.modLed (fun l => { l with sweep := field p 0 8 })) .ok [] }

/-- SWEEP_SET. -/
def execSweepSet (h : CmdHdr) (p : Bytes) (s : State) : Host.Outcome State Fault Refusal := .next (kcp sweepSetCmd h p s)

/-- The code of a base's state (Table 13.12). -/
def BaseSt.code : BaseSt → Nat
  | .empty => 0 | .installing => 1 | .installed => 2 | .ready => 3

/-- A base's 80 bytes of cellar-status. -/
def baseStatus (s : State) (n : Nat) : Bytes :=
  let b := s.base n
  leBytes 1 (BaseSt.code b.st) ++ leBytes 1 0 ++ leBytes 2 b.row0 ++ leBytes 4 b.shards ++ leBytes 4 (needed s n).length
    ++ leBytes 4 (highestCount s n) ++ (if b.st = .empty then leBytes 64 0 else b.rootBytes)

/-- cellar-status. -/
def cellarStatusCmd : KCmd :=
  { code := 0x0706, cls := .query, parse := fun p => decide (p = [])
    body := fun s _ _ =>
      .query (cellarRoot s ++ (List.range 4).flatMap (baseStatus s) ++ leBytes 8 s.led.sweep ++ leBytes 4 s.cellar.nextShard ++ leBytes 4 0
        ++ leBytes 8 s.cellar.overdue ++ leBytes 8 s.cellar.skipped) }

/-- CELLAR_STATUS. -/
def execCellarStatus (h : CmdHdr) (p : Bytes) (s : State) : Host.Outcome State Fault Refusal := .next (kcp cellarStatusCmd h p s)

end Sys2Proof.Machine
end

