-- ==== Sys2Proof/Machine/Collect.lean ====
section
/-! DEFINITION. Collectives (R287 to R290, R359): the group and post commands, the COLLECTIVE entry, the blocks that arrive and the
commit. -/

namespace Sys2Proof.Machine

open Sys2Proof

/-! ### collective-set, collective-post -/

/-- The identities of a collective-set. -/
def groupMembers (p : Bytes) : List Nat := (List.range (field p 8 1)).map (fun i => field p (16 + 8 * i) 8)

/-- Whether consecutive members are all linked (R280, R287). -/
def chained (s : State) : List Nat → Bool
  | a :: b :: l => linked s a b && chained s (b :: l)
  | _ => true

/-- collective-set (R287, R359). A generation of 0 sets a number that is not in use. -/
def collectiveSetCmd : KCmd :=
  { code := 0x0802, cls := .commit
    parse := fun p => inRange (field p 8 1) 2 64 && fixedLayout (16 + 8 * field p 8 1) [(9, 7)] p, perm := fromVf0
    gens := fun s p =>
      let g := s.group (field p 0 4)
      if field p 4 4 = 0 then !g.live else g.live && decide (g.gen = field p 4 4)
    body := fun s _ p =>
      let n := field p 0 4
      let l := groupMembers p
      let g := s.group n
      if !l.contains Config.identity then .refuse .notMember []
      else if l.any (fun i => !s.fabric.view.contains i) then .refuse .peerAbsent []
      else if !chained s l then .refuse .collectiveNotAdjacent []
      else if g.post.isSome then .refuse .collectiveBusy []
      else
        .commit (fun s => s.modGroup n (fun g => { (default : Group) with live := true, gen := g.gen + 1, members := l })) .ok
          (leBytes 4 n ++ leBytes 4 (g.gen + 1)) }

/-- COLLECTIVE_SET. -/
def execCollectiveSet (h : CmdHdr) (p : Bytes) (s : State) : Host.Outcome State Fault Refusal := .next (kcp collectiveSetCmd h p s)

/-- What a collective-post asks for. -/
def postedGroup (h : CmdHdr) (p : Bytes) (g : Group) : Group :=
  { g with
    post := some (refOf h 0x0803), wing := field p 8 1, context := field p 9 1, allReduce := decide (field p 10 1 = 1)
    destBf16 := decide (field p 11 1 = 1), source := field p 20 4, dest := field p 28 4, staging := field p 36 4, start := field p 48 8
    started := false, summed := 0, staged := 0, ticket := none, complete := false }

/-- Whether source, destination and staging agree in element count, and the source is FP32 or BF16 (R359). -/
def shapeAgrees (s : State) (g : Group) : Bool :=
  let e := groupElems s g
  let src := (s.obj g.source).size
  let stg := (s.obj g.staging).size
  decide ((s.obj g.dest).size = e * g.destBytes) && decide (src = 2 * e ∨ src = 4 * e) && decide (stg = e * g.destBytes ∨ stg = 4 * e)

/-- collective-post (R289, R359): its COLLECTIVE entry is set. Every object it names is owned by whoever may name the wing, and a
group takes one post at a time (log entry 39). -/
def collectivePostCmd : KCmd :=
  { code := 0x0803, cls := .long
    parse := fun p => fixedLayout 56 [(44, 4)] p && decide (field p 8 1 < 16 ∧ field p 10 1 < 2 ∧ field p 11 1 < 2)
    perm := fun s h p => mayNameWing s h.fn (field p 8 1)
    gens := fun s p =>
      let g := s.group (field p 0 4)
      (g.live && decide (g.gen = field p 4 4)) && wingCurrent s (field p 8 1) (field p 12 4) && ctxCurrent s (field p 8 1) (field p 9 1) (field p 16 4)
        && objCurrent s (field p 20 4) (field p 24 4) && objCurrent s (field p 28 4) (field p 32 4) && objCurrent s (field p 36 4) (field p 40 4)
    names := fun _ p => [field p 8 1]
    body := fun s h p =>
      let n := field p 0 4
      let g := postedGroup h p (s.group n)
      if !([g.source, g.dest, g.staging].all (fun o => decide ((s.obj o).wing = g.wing))) then .refuse .placeDenied []
      else if (s.group n).post.isSome then .refuse .collectiveBusy []
      else if [g.source, g.dest, g.staging].any (fun o => decide ((s.obj o).st = .damaged)) then .refuse .objectDamaged []
      else if [g.source, g.dest, g.staging].any (fun o => decide ((s.obj o).st = .absent)) then .refuse .objectNotResident []
      else if !shapeAgrees s g then .refuse .collectiveShape []
      else match entryRefused s h.stamp g.start with
        | some st => .refuse st []
        | none =>
          .long (fun s => setEntry (s.modGroup n (fun _ => g)) { mp := g.start, cls := .collective, wing := some g.wing, arg := n, late := false })
            .accepted [] none }

/-- COLLECTIVE_POST. -/
def execCollectivePost (h : CmdHdr) (p : Bytes) (s : State) : Host.Outcome State Fault Refusal := .next (kcp collectivePostCmd h p s)

/-! ### The run of a collective -/

/-- COLLECTIVE: the entry of a posted collective acts, and it starts (R289). -/
def collective (n : Nat) (s : State) : State :=
  match takeDue s .collective (some (s.group n).wing) n with
  | none => s
  | some s => if (s.group n).post.isSome then pokeGroup (s.modGroup n (fun g => { g with started := true })) n else s

/-- COLLECTIVE. -/
def execCollective (collective : Nat) (s : State) : Host.Outcome State Fault Refusal := .next (Sys2Proof.Machine.collective collective s)

/-- The ticket of a block that has come, completed. -/
def blockDone (s : State) (n : Nat) : State :=
  match (s.group n).ticket with
  | some t => (completeTicket s t).modGroup n (fun g => { g with ticket := none })
  | none => s

/-- A block's result written into the staging range. -/
def stageBlock (s : State) (n at_ count : Nat) (bytes : Bytes) : State :=
  let g := s.group n
  (s.modObj g.staging (fun x => { x with content := mstore x.content (at_ * g.destBytes) bytes })).modGroup n (fun g =>
    { g with staged := at_ + count })

/-- A running sum's block taken in turn: added to, and sent on or, at the last member, converted and staged (R288). -/
def takeSums (s : State) (n : Nat) (data : Bytes) : State :=
  let g := s.group n
  let e := groupElems s g
  let k := data.length / 4
  let sums := addBlock (blockSums data) (contribution s g g.summed k)
  let s := blockDone s n
  let s := s.modGroup n (fun g => { g with summed := g.summed + k })
  if g.index + 1 < g.members.length then
    let s := sendBlock s n (g.member (g.index + 1)) (4 * g.summed) false (sums.flatMap (leBytes 4))
    s.modGroup n (fun x => { x with complete := decide (g.summed + k = e) && !g.allReduce })
  else
    let s := stageBlock s n g.summed k (destBlock g sums)
    let s := if g.allReduce then sendBlock s n (g.member (g.index - 1)) (g.destBytes * g.summed) true (destBlock g sums) else s
    s.modGroup n (fun x => { x with complete := decide (g.summed + k = e) })

/-- A result's block taken in turn, staged and sent down the list (R288). -/
def takeResult (s : State) (n : Nat) (data : Bytes) : State :=
  let g := s.group n
  let k := data.length / g.destBytes
  let s := stageBlock (blockDone s n) n g.staged k data
  let s := if g.index = 0 then s else sendBlock s n (g.member (g.index - 1)) (g.destBytes * g.staged) true data
  s.modGroup n (fun x => { x with complete := decide (g.staged + k = groupElems s g) })

/-- Whether a block is the one its member awaits: its offset and length. Sums travel as FP32, results in the destination's
format. -/
def blockFits (s : State) (g : Group) (back : Bool) (offset length : Nat) : Bool :=
  let e := groupElems s g
  if back then decide (offset = g.destBytes * g.staged ∧ length = g.destBytes * Nat.min blockElems (e - g.staged))
  else decide (offset = 4 * g.summed ∧ length = 4 * Nat.min blockElems (e - g.summed))

/-- REDUCE_DATA: a block comes from the member before or, for a result, after this one. One from nobody in the group, or of the
wrong length, is an erring act, and so is one more than 8 mp before the start (R27, R283). One that comes while this member
cannot go on waits with its sender (R289). -/
def reduceData (h : MsgHdr) (back : Bool) (data : Bytes) (s : State) : State :=
  let n := h.ref
  let g := s.group n
  let from_ := if back then g.member (g.index + 1) else g.member (g.index - 1)
  if arrival s 0x0040 h = .taken ∧ g.live ∧ g.gen = h.refGen ∧ g.post.isSome ∧ h.src = from_ ∧ g.start ≤ s.clock.count + 8 ∧ g.ticket.isNone then s
  else
    receiveHere s 0x0040 h (fun s =>
      if !g.live || decide (g.gen ≠ h.refGen) then s
      else if h.src ≠ from_ ∨ (!back ∧ g.index = 0) ∨ (back ∧ g.index + 1 = g.members.length) then accuse s h.src 6
      else if g.post.isNone then s
      else if s.clock.count + 8 < g.start then accuse s h.src 5
      else if !blockFits s g back h.offset data.length then accuse s h.src 6
      else pokeGroup (if back then takeResult s n data else takeSums s n data) n)

/-- REDUCE_DATA. -/
def execReduceData (hdr : MsgHdr) (back : Bool) (data : Bytes) (s : State) : Host.Outcome State Fault Refusal := .next (reduceData hdr back data s)

/-- COLLECTIVE_COMMIT: the staged result reaches its destination, and the post is answered (R289). -/
def collectiveCommit (n : Nat) (s : State) : State :=
  let g := s.group n
  match g.post with
  | none => s
  | some ref =>
    if !g.complete || !s.keeper.up || decide ((s.obj g.dest).st ≠ .home) then s
    else
      let s := s.bump
      let result := mslice (s.obj g.staging).content 0 (groupElems s g * g.destBytes)
      let s := if g.staged = 0 then s else s.modObj g.dest (fun x => { x with content := result })
      finishIn (s.modGroup n (fun g => { g with post := none, started := false, summed := 0, staged := 0, ticket := none, complete := false })) ref .ok []

/-- COLLECTIVE_COMMIT. -/
def execCollectiveCommit (collective : Nat) (s : State) : Host.Outcome State Fault Refusal := .next (collectiveCommit collective s)

end Sys2Proof.Machine
end

