-- ==== Sys2Proof/Machine/Rings.lean ====
section
/-! DEFINITION. Rings of legs (R291 to R298, R359, R360): descriptors, blocks, mirrors and their areas, remote reads, re-mirrors, and
what a failover does to a ring. -/

namespace Sys2Proof.Machine

open Sys2Proof

/-! ### Mirror areas (R360) -/

/-- Ranges of MIRROR objects on a Loft channel. -/
def mirrorSpans (s : State) (ch : Nat) : List (Nat × Nat) :=
  (s.led.objects.filter (fun o => o.2.live && decide (o.2.kind = .mirror))).filterMap (fun o => o.2.place.spanOn .loft ch)

/-- Ranges on a Loft channel that are no MIRROR object's. -/
def plainSpans (s : State) (ch : Nat) : List (Nat × Nat) := (spansOn s .loft ch).filter (fun p => !((mirrorSpans s ch).contains p))

/-- mirror-area-set: the checks of R360, in its order. -/
def mirrorAreaSetCmd : KCmd :=
  { code := 0x0808, cls := .commit
    parse := fun p => fixedLayout 16 [(2, 6)] p && decide (field p 8 8 % 2 ^ 28 = 0 ∧ field p 8 8 ≤ 2 ^ 40), perm := fromVf0
    body := fun s _ p =>
      let size := field p 8 8
      let chs := maskList 16 (field p 0 2)
      let floor := areaTop s - size
      if s.liveWings.any (fun w => (s.wing w).sealed && overlap (s.wing w).loft (field p 0 2)) then .refuse .wingResourceBusy []
      else if chs.any (fun c => decide (areaTop s < size) || (plainSpans s c).any (fun r => decide (floor < r.1 + r.2 ∧ 0 < size))) then
        .refuse .placeNoSpace []
      else if chs.any (fun c => (mirrorSpans s c).any (fun r => decide (r.1 < floor ∨ size = 0))) then .refuse .resourceOccupied []
      else .commit (fun s => chs.foldl (fun s c => s.modLoft c (fun l => { l with mirror := size })) s) .ok [] }

/-- MIRROR_AREA_SET. -/
def execMirrorAreaSet (h : CmdHdr) (p : Bytes) (s : State) : Host.Outcome State Fault Refusal := .next (kcp mirrorAreaSetCmd h p s)

/-! ### ring-set, ring-status -/

/-- The leg entries of a ring-set (Table 13.13). -/
def readLegs (n : Nat) (b : Bytes) : List Leg :=
  (List.range n).map (fun i => { owner := field b (80 * i) 8, mirrorSet := field b (80 * i + 8) 2, takeover := field b (80 * i + 16) 64 })

/-- Owners in leg order with equal neighbours merged, round the ring (R291). -/
def ownerCycle (l : List Nat) : List Nat :=
  let m := l.foldr (fun a t => if t.head? = some a then t else a :: t) []
  if 1 < m.length ∧ m.head? = m.getLast? then m.dropLast else m

/-- Whether the owner cycle has the direct links that R291 wants. -/
def cycleLinked (s : State) (c : List Nat) : Bool :=
  let at_ (i : Nat) : Nat := c.getD (i % Nat.max 1 c.length) 0
  (List.range c.length).all (fun i =>
    (decide (at_ i = at_ (i + 1)) || linked s (at_ i) (at_ (i + 1)))
      && (decide (c.length < 3) || decide (at_ i = at_ (i + 2)) || linked s (at_ i) (at_ (i + 2))))

/-- Whether an admitted pass of the ring's wing uses it. -/
def ringUsed (s : State) (n : Nat) : Bool := (s.ring n).live && !wingQuiet (s.wing (s.ring n).wing)

/-- A descriptor set (R291). In a ring that is replaced, what stays as it was stays mirrored; the MIRROR objects of legs held here
no longer are freed. -/
def setRing (n w : Nat) (legs : List Leg) (s : State) : State :=
  let old := s.ring n
  let r : Ring :=
    { (default : Ring) with live := true, gen := old.gen + 1, wing := w, wingGen := (s.wing w).gen, legs := legs, mirrored := 2 ^ legs.length - 1 }
  let same (i : Nat) : Bool := decide (old.owner i = r.owner i ∧ old.holder i = r.holder i)
  let mine (i : Nat) : Bool := decide (r.owner i = some Config.identity ∨ r.holder i = some Config.identity)
  let r := if !old.live then r else
    { r with
      mirrored := listMask (r.indices.filter (fun i => if mine i then same i && old.mirrored.testBit i else true))
      kv := old.kv.filter (fun k => decide (r.owner k.1 = some Config.identity))
      mirror := old.mirror.filter (fun k => decide (r.holder k.1 = some Config.identity))
      taking := old.taking.filter (fun i => decide (r.owner i = some Config.identity)) }
  let gone := (old.mirror.filter (fun k => decide (r.holder k.1 ≠ some Config.identity))).filterMap (·.2)
  gone.foldl freeObj (s.modRing n (fun _ => r))

/-- The payload of a re-mirror's write: up to 1 MiB of the leg's KV object. -/
def legChunk (s : State) (o off : Nat) : Bytes := mload (s.obj o).content off (Nat.min (2 ^ 20) ((s.obj o).size - off))

/-- One write of a re-mirror sent to the mirror holder (R293, R295). -/
def sendMirror (s : State) (n i o off : Nat) : State :=
  let r := s.ring n
  match r.holder i with
  | none => s
  | some holder =>
    sendTrunk (s.modRing n (fun r => { r with remirror := tput r.remirror i (some off) })) (wingPorts s r.wing) holder
      (newMsg 0x0020 holder n r.gen off [i, (s.obj o).owner.getD 0xFFFF] (legChunk s o off))

/-- A leg whose re-mirror is complete is mirrored again (R295). -/
def remirrorDone (s : State) (n i : Nat) : State :=
  let s := s.modRing n (fun r => { r with mirrored := r.mirrored ||| 2 ^ i, remirror := terase r.remirror i })
  notify s .legMirrored (atWing s (s.ring n).wing) [n, i]

/-- The re-mirror of an unmirrored leg owned here begun, if it has a mirror holder in the view and no takeover move reads it. A leg
without a KV object has nothing to mirror (R295). -/
def startRemirror (n : Nat) (s : State) (i : Nat) : State :=
  let r := s.ring n
  match r.holder i with
  | none => s
  | some holder =>
    if !r.live || decide (r.owner i ≠ some Config.identity) || r.mirrored.testBit i || (tget r.remirror i).isSome || r.taking.contains i
        || !s.fabric.view.contains holder then s
    else match legObj s n i with
      | some o => if (s.obj o).size = 0 then remirrorDone s n i else sendMirror s n i o 0
      | none => s.modRing n (fun r => { r with mirrored := r.mirrored ||| 2 ^ i })

/-- Every leg of a ring that wants a re-mirror. -/
def startRemirrors (s : State) (n : Nat) : State := (s.ring n).own.foldl (startRemirror n) s

/-- Layout of ring-set. -/
def ringSetParse (p : Bytes) : Bool :=
  fixedLayout 24 [(10, 2)] p && decide (field p 8 1 < 16) && inRange (field p 9 1) 2 64 && lineAligned p 16

/-- ring-set (R291, R359): the leg entries are read from the host at its execution. -/
def ringSetCmd (host : HostRead) : KCmd :=
  { code := 0x0804, cls := .commit, parse := ringSetParse, perm := fromVf0
    gens := fun s p =>
      let r := s.ring (field p 0 4)
      (if field p 4 4 = 0 then !r.live else r.live && decide (r.gen = field p 4 4)) && wingCurrent s (field p 8 1) (field p 12 4)
    names := fun _ p => [field p 8 1]
    body := fun s h p =>
      let n := field p 0 4
      match hostBytes s h.fn host with
      | none => .refuse .hostAccessFault []
      | some b =>
        let legs := readLegs (field p 9 1) b
        let ids := legs.map (·.owner)
        if b.length ≠ 80 * field p 9 1 then .refuse .hostAccessFault []
        else if !ids.contains Config.identity then .refuse .notMember []
        else if ids.any (fun i => !s.fabric.view.contains i) then .refuse .peerAbsent []
        else if !cycleLinked s (ownerCycle ids) then .refuse .ringNotAdjacent []
        else if ringUsed s n then .refuse .ringBusy []
        else .commit (fun s => startRemirrors (setRing n (field p 8 1) legs s) n) .ok (leBytes 4 n ++ leBytes 4 ((s.ring n).gen + 1)) }

/-- RING_SET. -/
def execRingSet (h : CmdHdr) (p : Bytes) (host : HostRead) (s : State) : Host.Outcome State Fault Refusal := .next (kcp (ringSetCmd host) h p s)

/-- ring-status. -/
def ringStatusCmd : KCmd :=
  { code := 0x0805, cls := .query, parse := fun p => fixedLayout 8 [] p
    perm := fun s h p => mayNameWing s h.fn (s.ring (field p 0 4)).wing
    gens := fun s p => (s.ring (field p 0 4)).live && decide ((s.ring (field p 0 4)).gen = field p 4 4)
    body := fun s _ p =>
      let r := s.ring (field p 0 4)
      .query (leBytes 4 r.gen ++ leBytes 1 r.legs.length ++ leBytes 3 0 ++ leBytes 8 (listMask r.own)
        ++ leBytes 8 (listMask (r.indices.filter r.isMirrored))) }

/-- RING_STATUS. -/
def execRingStatus (h : CmdHdr) (p : Bytes) (s : State) : Host.Outcome State Fault Refusal := .next (kcp ringStatusCmd h p s)

/-! ### Completions that bring data (R256, R292) -/

/-- A context's state as one run of bytes: its region of each tile in logical order, then its slices, as its SAVE object lays them
out (R256, R258). -/
def writeRegion (s : State) (w : Nat) (x : Ctx) (off : Nat) (data : Bytes) : State :=
  let r := x.region * 32768
  let part (base len : Nat) : Nat × Bytes :=
    (Nat.max off base - base, (data.drop (base - off)).take (base + len - Nat.max off base))
  let tiles := maskList 128 (s.wing w).tiles
  let slices := maskList 256 x.slices
  let s := ((List.range tiles.length).zip tiles).foldl (fun s q =>
    match physTile s q.2 with
    | some t =>
      let (a, b) := part (q.1 * r) r
      s.modTile t (fun t => { t with store := mstore t.store (regionBase x + a) b })
    | none => s) s
  { s with qmem := ((List.range slices.length).zip slices).foldl (fun m q =>
      let (a, b) := part (tiles.length * r + q.1 * 2 ^ 20) (2 ^ 20)
      mstore m (q.2 * 2 ^ 20 + a) b) s.qmem }

/-- A completion's data written to its ticket's destination: an object, the regions of a resident context, or the same offset of
the SAVE object of one that is OUT (R256). -/
def ticketWrite (s : State) (t : Ticket) (off : Nat) (data : Bytes) : State :=
  let x := s.ctx t.wing t.context
  match t.object with
  | some o => s.modObj o (fun y => { y with content := mstore y.content (t.offset + off) data })
  | none =>
    if x.resident then writeRegion s t.wing x (t.offset + off) data
    else s.modObj x.saveObj (fun y => { y with content := mstore y.content (t.offset + off) data })

/-- Whether a ticket may still be completed by a peer. -/
def ticketOpen (s : State) (n peer : Nat) : Bool :=
  let t := tget s.tickets n
  t.live && decide (t.peer = peer ∧ (t.st = .open_ ∨ t.st = .parked) ∧ (s.ctx t.wing t.context).gen = t.ctxGen)

/-- A completion with its data: written and completed, or discarded and counted as late (R256, R257). -/
def complete (s : State) (n peer off : Nat) (data : Bytes) : State :=
  let t := tget s.tickets n
  if ticketOpen s n peer then completeTicket (ticketWrite s t off data) n else countLateTicket s t.wing

/-- REMOTE_DATA (R256). -/
def remoteData (h : MsgHdr) (ticket : Nat) (data : Bytes) (s : State) : State :=
  receiveHere s 0x0061 h (fun s => complete s ticket h.src h.offset data)

/-- REMOTE_DATA. -/
def execRemoteData (hdr : MsgHdr) (ticket : Nat) (data : Bytes) (s : State) : Host.Outcome State Fault Refusal := .next (remoteData hdr ticket data s)

/-- REMOTE_READ: a neighbour's read of an object, answered with REMOTE_DATA under its reference where the object is HOME and the
bytes lie inside it; else the request goes unanswered, and its ticket expires at the asker (log entry 40). -/
def remoteRead (h : MsgHdr) (o addr len : Nat) (s : State) : State :=
  receiveHere s 0x0060 h (fun s =>
    let x := s.obj o
    if x.live ∧ x.st = .home ∧ addr + len ≤ x.size ∧ 0 < len ∧ len ≤ 2 ^ 20 then
      sendTrunk s (wingPorts s x.wing) h.src (newMsg 0x0061 h.src h.ref h.refGen h.offset [] (mload x.content addr len))
    else s)

/-- REMOTE_READ. -/
def execRemoteRead (hdr : MsgHdr) (object addr len : Nat) (s : State) : Host.Outcome State Fault Refusal := .next (remoteRead hdr object addr len s)

/-- RING_BLOCK: written under its ticket, or discarded and counted where the ring generation is not this module's (R292). -/
def ringBlock (h : MsgHdr) (w ticket leg step : Nat) (data : Bytes) (s : State) : State :=
  receiveHere s 0x0010 h (fun s =>
    let r := s.ring h.ref
    if !r.live || decide (r.gen ≠ h.refGen ∨ r.wing ≠ w) then countLateTicket s w
    else complete (s.modRing h.ref (fun r => { r with blocks := tput r.blocks leg step })) ticket h.src h.offset data)

/-- RING_BLOCK. -/
def execRingBlock (hdr : MsgHdr) (wing ticket leg step : Nat) (data : Bytes) (s : State) : Host.Outcome State Fault Refusal :=
  onPart wing 16 s (ringBlock hdr wing ticket leg step data)

/-- RING_DONE: a block has come back to its origin; for one that this module never sent it is an erring act (R283, R292). -/
def ringDone (h : MsgHdr) (w ticket leg : Nat) (s : State) : State :=
  receiveHere s 0x0011 h (fun s =>
    let r := s.ring h.ref
    if !r.live || decide (r.gen ≠ h.refGen ∨ r.wing ≠ w) then countLateTicket s w
    else if r.owner leg ≠ some Config.identity then accuse s h.src 6
    else complete s ticket h.src h.offset [])

/-- RING_DONE. -/
def execRingDone (hdr : MsgHdr) (wing ticket leg : Nat) (s : State) : Host.Outcome State Fault Refusal := onPart wing 16 s (ringDone hdr wing ticket leg)

/-! ### Mirrors held here (R293, R294) -/

/-- The mirror set of this module in a ring. -/
def ownMirrorSet (r : Ring) : Nat := ((r.own.head?.bind (fun i => r.legs[i]?)).map (·.mirrorSet)).getD 0

/-- A mirror refused (R294): it is not acknowledged. -/
def refuseMirror (s : State) (n i : Nat) (why : List Nat) : State :=
  let s := s.modRing n (fun r => { r with mirrored := without r.mirrored (2 ^ i) })
  logEvent s (0x8000 + Status.mirrorRefused.value) 2 (atWing s (s.ring n).wing) ([n, i] ++ why)

/-- A write stored in the leg's MIRROR object, which is made or made longer in the mirror area as it needs (R182, R293). -/
def storeMirror (s : State) (n i party off : Nat) (data : Bytes) : Option State :=
  let r := s.ring n
  let need := ceilDiv (off + data.length) 4096 * 4096
  let put (s : State) (o : Nat) : State := s.modObj o (fun x => { x with content := mstore x.content off data })
  match tget r.mirror i with
  | some o =>
    if need ≤ (s.obj o).size then some (put s o)
    else (fitArea s [(s.obj o).place] (ownMirrorSet r) need).map (fun p => put (s.bump.modObj o (fun x => { x with size := need, place := p })) o)
  | none =>
    let o := freeObjNumber s
    (if 262144 ≤ o then none else fitArea s [] (ownMirrorSet r) (Nat.max need 4096)).map (fun p =>
      let x : Obj := { (default : Obj) with kind := .mirror, owner := some party, wing := r.wing, size := Nat.max need 4096, place := p }
      put ((newObj s.bump o x).modRing n (fun r => { r with mirror := tput r.mirror i (some o) })) o)

/-- MIRROR_WRITE: a KV entry of a leg whose mirror this module holds, stored and acknowledged (R293), or refused (R294). A
re-mirror waits while a takeover move here reads the mirror set (R295). -/
def mirrorWrite (h : MsgHdr) (i party : Nat) (data : Bytes) (s : State) : State :=
  let n := h.ref
  if arrival s 0x0020 h = .taken ∧ (s.ring n).live ∧ (s.ring n).gen = h.refGen ∧ (s.ring n).taking ≠ [] ∧ !(s.ring n).mirrored.testBit i then s
  else
    receiveHere s 0x0020 h (fun s =>
      let r := s.ring n
      if !r.live then s
      else if r.gen ≠ h.refGen then countLateTicket s r.wing
      else if r.owner i ≠ some h.src ∨ r.holder i ≠ some Config.identity then s
      else if keyAbsent s party then refuseMirror s n i [Status.keyAbsent.value]
      else match storeMirror s n i party h.offset data with
        | none => refuseMirror s n i [Status.placeNoSpace.value]
        | some s =>
          sendTrunk (s.modRing n (fun r => { r with mirrored := r.mirrored ||| 2 ^ i })) (openPorts s) h.src
            (newMsg 0x0021 h.src n r.gen h.offset [i] []))

/-- MIRROR_WRITE. -/
def execMirrorWrite (hdr : MsgHdr) (leg party : Nat) (data : Bytes) (s : State) : Host.Outcome State Fault Refusal :=
  .next (mirrorWrite hdr leg party data s)

/-! ### Mirrors of own legs (R293 to R295) -/

/-- A leg that has lost its mirror: the pass that waits commits, and the host is told (R294). -/
def unmirror (s : State) (n i : Nat) : State :=
  let w := (s.ring n).wing
  let s := s.modRing n (fun r =>
    { r with mirrored := without r.mirrored (2 ^ i), awaiting := terase r.awaiting i, remirror := terase r.remirror i })
  settleMirrors (notify s .mirrorLost (atWing s w) [n, i]) w

/-- The next write of a re-mirror, or its end. -/
def continueRemirror (s : State) (n i off : Nat) : State :=
  match legObj s n i with
  | none => s
  | some o => if off + 2 ^ 20 < (s.obj o).size then sendMirror s n i o (off + 2 ^ 20) else remirrorDone s n i

/-- MIRROR_ACK: an acknowledgement by the leg's mirror holder under the present generation. It lets the pass that waits commit, or
carries a re-mirror on; one that comes too late is discarded and counted; one for a leg that this module never mirrored there is
an erring act (R283, R293 to R295). One acknowledgement stands for all the writes of the pass. -/
def mirrorAck (h : MsgHdr) (i : Nat) (s : State) : State :=
  let n := h.ref
  receiveHere s 0x0021 h (fun s =>
    let r := s.ring n
    if !r.live then s
    else if r.gen ≠ h.refGen then countLateTicket s r.wing
    else if r.owner i ≠ some Config.identity ∨ r.holder i ≠ some h.src then accuse s h.src 6
    else if (tget r.awaiting i).isSome then settleMirrors (s.modRing n (fun r => { r with awaiting := terase r.awaiting i })) r.wing
    else if tget r.remirror i = some h.offset then continueRemirror s n i h.offset
    else if r.mirrored.testBit i then s
    else countLateTicket s r.wing)

/-- MIRROR_ACK. -/
def execMirrorAck (hdr : MsgHdr) (leg : Nat) (s : State) : Host.Outcome State Fault Refusal := .next (mirrorAck hdr leg s)

/-- MIRROR_ACK_TIMEOUT: no acknowledgement has come within 20,000 mp (R294). -/
def mirrorAckTimeout (n i : Nat) (s : State) : State :=
  match tget (s.ring n).awaiting i with
  | some m => if (s.ring n).live ∧ m + 20000 ≤ s.clock.count then startRemirror n (unmirror s n i) i else s
  | none => s

/-- MIRROR_ACK_TIMEOUT. -/
def execMirrorAckTimeout (ring leg : Nat) (s : State) : Host.Outcome State Fault Refusal := .next (mirrorAckTimeout ring leg s)

/-! ### Takeover (R296 to R298) -/

/-- Serving sessions of every context of a wing ended with a status. -/
def endWingServes (s : State) (w : Nat) (st : Status) : State :=
  (((s.wing w).contexts.filter (fun c => c.2.live)).map (·.1)).foldl (fun s c => endServes s w c st) s

/-- An object of a ring freed, with the passes that hold it. -/
def freeLegObj (s : State) (o : Nat) : State := if (s.obj o).live then freeObj s o else s

/-- Everything a ring holds here discarded: its legs' KV objects, its mirrors and its descriptor; only its number's generation
stays (R281, R297). Passes and sessions of its wing end with a status. -/
def discardRing (s : State) (n : Nat) (st : Status) : State :=
  let r := s.ring n
  let passes := ((s.wing r.wing).contexts.filter (fun c => c.2.pass.isSome)).map (·.1)
  let s := passes.foldl (fun s c => failPass s r.wing c st) s
  let objs := r.own.filterMap (legObj s n) ++ r.mirror.filterMap (·.2)
  let s := endWingServes s r.wing st
  (objs.foldl freeLegObj s).modRing n (fun r => { (default : Ring) with gen := r.gen })

/-- Distinct owners of a ring. -/
def Ring.owners (r : Ring) : List Nat := (r.legs.map (·.owner)).dedup

/-- Whether the view's side keeps a ring (R297). -/
def keepsRing (s : State) (r : Ring) : Bool :=
  let here := (r.owners.filter (fun i => s.fabric.view.contains i)).length
  decide (r.owners.length < 2 * here) ||
    (decide (r.owners.length = 2 * here) && (match r.owner 0 with
      | some o => s.fabric.view.contains o
      | none => false))

/-- The module that takes over a leg of a departed owner, if its mirror is whole and present (R297). -/
def takerOf (s : State) (r : Ring) (i : Nat) : Option Nat :=
  match r.holder i with
  | some m => if r.mirrored.testBit i && s.fabric.view.contains m then some m else none
  | none => none

/-- The leg entry of a module's own first leg. -/
def entryOf (r : Ring) (m : Nat) : Leg := (r.legs.find? (fun l => decide (l.owner = m))).getD default

/-- A mirror that this module takes over: the object becomes the leg's KV object in place, and its move into the takeover set
begins; without room it stays in the Loft (R298). -/
def takeLeg (n : Nat) (s : State) (i : Nat) : State :=
  let r := s.ring n
  match tget r.mirror i with
  | none => s
  | some o =>
    let s := s.modObj o (fun x => { x with kind := .kv })
    let s := s.modRing n (fun r => { r with mirror := terase r.mirror i, kv := tput r.kv i (some o) })
    match findPlace s .hbm ((entryOf r Config.identity).takeover &&& (s.wing r.wing).pcs) (s.obj o).size with
    | some d =>
      (s.modObj o (fun x => { x with st := .moving, work := .move d x.size none })).modRing n (fun r => { r with taking := r.taking ++ [i] })
    | none => notify s .takeoverNoSpace (atWing s r.wing) [n, i]

/-- A ring after members have left (R296 to R298). -/
def failoverRing (gone : List Nat) (s : State) (n : Nat) : State :=
  let r := s.ring n
  if !r.live || !(r.owners.any (fun o => gone.contains o)) then s
  else if !keepsRing s r then discardRing s n .ringLost
  else
    let dead := r.indices.filter (fun i => match r.owner i with
      | some o => gone.contains o
      | none => false)
    let taken := dead.filter (fun i => (takerOf s r i).isSome)
    let lost := dead.filter (fun i => (takerOf s r i).isNone)
    let mine := taken.filter (fun i => decide (takerOf s r i = some Config.identity))
    let orphans := r.own.filter (fun i => match r.holder i with
      | some m => gone.contains m
      | none => false)
    let legs := ((List.range r.legs.length).zip r.legs).map (fun q =>
      match if taken.contains q.1 then takerOf s r q.1 else none with
      | some m => entryOf r m
      | none => q.2)
    let s := s.bump
    let s := mine.foldl (takeLeg n) s
    let s := orphans.foldl (fun s i => unmirror s n i) s
    let s := s.modRing n (fun r =>
      let r' : Ring := { r with gen := r.gen + 1, legs := legs, remirror := [], awaiting := [], blocks := [] }
      let fresh (i : Nat) : Bool := (decide (r'.owner i = some Config.identity) && taken.contains i)
        || decide (r'.holder i = some Config.identity ∧ r.holder i ≠ some Config.identity)
      { r' with mirrored := listMask (r'.indices.filter (fun i => r.mirrored.testBit i && !fresh i)) })
    let s := settleMirrors s r.wing
    let s := taken.foldl (fun s i => notify s .legTaken (atWing s r.wing) [n, i, ((s.ring n).owner i).getD 0, r.gen + 1]) s
    let s := lost.foldl (fun s i => notify s .legLost (atWing s r.wing) [n, i]) s
    let s := if lost = [] then s else endWingServes s r.wing .ringLost
    startRemirrors s n

/-- A takeover move that has committed: the leg's re-mirror may begin (R295, R298). -/
def takeoverMoved (s : State) (o : Nat) : State :=
  ((s.led.rings.filter (fun r => r.2.live && r.2.taking.any (fun i => decide (tget r.2.kv i = some o)))).map (·.1)).foldl (fun s n =>
    startRemirrors (s.modRing n (fun r => { r with taking := r.taking.filter (fun i => decide (tget r.kv i ≠ some o)) })) n) s

/-- A move committed, with what waited for it. -/
def objectMoved (i : Nat) (s : State) : State :=
  let t := objectMoveCommit i s
  if (s.obj i).st = .moving ∧ (t.obj i).st = .home then takeoverMoved t i else t

/-- OBJECT_MOVE_COMMIT. -/
def execObjectMoveCommit (object : Nat) (s : State) : Host.Outcome State Fault Refusal := onPart object 262144 s (objectMoved object)

end Sys2Proof.Machine
end

