-- ==== Sys2Proof/Machine/RollCall.lean ====
section
/-! DEFINITION. Roll call and membership (R20, R22, R27, R28, R277 to R284, R296), withdrawal (R281), the fabric's parameters (R34,
R358), and the time events that withdraw the module (R24 to R26). -/

namespace Sys2Proof.Machine

open Sys2Proof

/-! ### Withdrawal (R281) -/

/-- Contexts that hold a ticket, a ring leg or a collective role. -/
def fabricContexts (s : State) : List (Nat × Nat) :=
  let tickets := (s.tickets.filter (fun t => t.2.live)).map (fun t => (t.2.wing, t.2.context))
  let posts := (postedGroups s).map (fun n => ((s.group n).wing, (s.group n).context))
  let rings := (s.led.rings.filter (fun r => r.2.live && decide (r.2.own ≠ []))).map (·.2.wing)
  let legs := rings.flatMap (fun w => (s.wing w).contexts.map (fun c => (w, c.1)))
  (tickets ++ posts ++ legs).dedup

/-- The module leaves the fabric, to join it again as a new member. -/
def withdraw (s : State) : State :=
  let s := (fabricContexts s).foldl (fun s q => failPass s q.1 q.2 .fabricWithdrawn) s
  let s := (postedGroups s).foldl failGroup s
  let s := spendTickets s (fun _ _ => true)
  let s := ((s.led.rings.filter (fun r => r.2.live)).map (·.1)).foldl (fun s n => discardRing s n .fabricWithdrawn) s
  let s := s.modFabric (fun f => { f with withdrawn := true, joined := 0, unsent := 0, stopped := false })
  notify s .fabricWithdrawn {} []

/-! ### ENTRY bodies (Table 11.6) -/

/-- The digest of a view: the first 8 bytes of SHAKE256 over its identities. -/
def viewDigest (view : List Nat) : Nat := leNat (shake256 (view.flatMap (leBytes 8)) 8)

/-- What an entry says of a base. -/
def entryBase (b : Nat × Base) : Option EntryBase :=
  match b.2.st with
  | .empty => none
  | .installing => some { rootPrefix := b.2.root, state := 1, number := b.1 }
  | .installed => some { rootPrefix := b.2.root, state := 2, number := b.1 }
  | .ready => some { rootPrefix := b.2.root, state := 3, number := b.1 }

/-- The last `n` of a list. -/
def newest {α : Type} (n : Nat) (l : List α) : List α := l.drop (l.length - n)

/-- The body that the keeper prepares for a roll call; of more accusations or absences than an entry holds, the newest. -/
def prepareBody (s : State) (c : Nat) : EntryBody :=
  let f := s.fabric
  { count := c, timeState := TimeSt.value s.clock.st, absenceM := s.led.fab.absenceM, uncertainty := uncertainty s, interval := s.led.fab.interval
    epoch := f.epoch, digest := viewDigest f.view, heartbeat := f.heartbeat
    neighbours := (servicePorts s).map (fun p =>
      { identity := (s.port p).peer.getD 0, port := p, lanes := (s.port p).lanes, farPort := (s.port p).farPort })
    accusations := newest 8 f.accusing, absences := newest 16 (f.absences.map (·.1)), bases := s.cellar.bases.filterMap entryBase }

/-- An entry's bytes. -/
def entryBytes (b : EntryBody) : Bytes :=
  leBytes 8 b.count ++ leBytes 1 b.timeState ++ leBytes 1 b.absenceM ++ leBytes 1 b.accusations.length ++ leBytes 1 b.absences.length
    ++ leBytes 4 b.uncertainty ++ leBytes 4 b.interval ++ leBytes 4 b.epoch ++ leBytes 8 b.digest ++ leBytes 4 b.heartbeat
    ++ leBytes 1 b.neighbours.length ++ leBytes 1 b.bases.length ++ leBytes 2 0
    ++ b.neighbours.flatMap (fun n => leBytes 8 n.identity ++ leBytes 1 n.port ++ leBytes 1 n.lanes ++ leBytes 1 n.farPort ++ leBytes 5 0)
    ++ b.accusations.flatMap (fun a => leBytes 8 a.identity ++ leBytes 1 a.reason ++ leBytes 3 0 ++ leBytes 4 a.rounds)
    ++ b.absences.flatMap (leBytes 8)
    ++ b.bases.flatMap (fun e => leBytes 16 e.rootPrefix ++ leBytes 1 e.state ++ leBytes 1 e.number ++ leBytes 6 0)

/-- The ENTRY message of a body. -/
def entryMsg (src hop : Nat) (b : EntryBody) : OutMsg :=
  { type := 1, dst := 2 ^ 64 - 1, src := src, hop := hop, ref := 0, refGen := 0, offset := 0, body := [], data := entryBytes b }

/-! ### ROLL_CALL (R277, R278) -/

/-- The keeper's part of a round: the body refreshed, with a higher heartbeat; hardware that had stopped starts again once the
module has withdrawn. With the keeper down, the round's staleness rises, and at M the hardware stops. -/
def refreshBody (s : State) : State :=
  if s.keeper.up then
    let s := if s.fabric.stopped then withdraw s else s
    s.modFabric (fun f => { f with heartbeat := (f.heartbeat + 1) % 2 ^ 32, staleRounds := 0 })
  else s.modFabric (fun f => { f with staleRounds := f.staleRounds + 1, stopped := f.stopped || decide (s.led.fab.absenceM ≤ f.staleRounds + 1) })

/-- The body that leaves: what the keeper last prepared, with count, time state and uncertainty filled in at the edge. -/
def bodyToSend (s : State) (c : Nat) : EntryBody :=
  if s.keeper.up then prepareBody s c
  else { (s.fabric.sent.getD (prepareBody s c)) with count := c, timeState := TimeSt.value s.clock.st, uncertainty := uncertainty s }

/-- This module's entry sent on every port in service that is not held to IDLE frames. -/
def sendEntry (s : State) (c : Nat) : State :=
  let b := bodyToSend s c
  let s := s.modFabric (fun f => { f with sent := some b, unsent := 0, joined := if f.withdrawn then f.joined + 1 else f.joined })
  ((servicePorts s).filter (fun p => !mutedPort s p)).foldl (fun s p => sendOn s p (entryMsg Config.identity 16 b)) s

/-- ROLL_CALL: the round of its milepost begins. An entry of a skipped milepost sends nothing (R29). -/
def rollCall (s : State) : State :=
  match s.tt.due.find? (fun e => decide (e.cls = TtClass.rollCall)), takeDue s .rollCall none 0 with
  | some e, some s =>
    let s := refreshBody (s.modFabric (fun f => { f with round := some e.mp }))
    if s.fabric.stopped ∨ e.mp ≠ s.clock.count then s.modFabric (fun f => { f with unsent := f.unsent + 1 }) else sendEntry s e.mp
  | _, _ => s

/-- ROLL_CALL. -/
def execRollCall (s : State) : Host.Outcome State Fault Refusal := .next (rollCall s)

/-! ### ENTRY (R20, R22, R27, R28, R277) -/

/-- The difference of a stamp from this module's count, as a notice gives it. -/
def stampDiff (s : State) (stamp : Nat) : Nat := unsigned 64 ((stamp : Int) - (s.clock.count : Int))

/-- How far a stamp lies from this module's count, in mp. -/
def stampDist (s : State) (stamp : Nat) : Nat := Nat.max stamp s.clock.count - Nat.min stamp s.clock.count

/-- A TIME_SPLIT with a peer. -/
def timeSplit (s : State) (peer stamp : Nat) : State := notify s .timeSplit {} [peer, stampDiff s stamp]

/-- A stamp kept for adoption or for the check of R28; a peer counts once. -/
def hear (s : State) (peer stamp : Nat) : State :=
  s.modClock (fun c => { c with heard := c.heard.filter (fun h => decide (h.peer ≠ peer)) ++ [{ peer := peer, stamp := stamp }] })

/-- What the stamp of an entry received directly is used for (R20 to R22, R28). -/
def entryTime (s : State) (peer : Nat) (b : EntryBody) (near : Bool) : State :=
  if b.timeState = TimeSt.value .locked then
    let s := s.modClock (fun c => { c with lockedHeard := true })
    match s.clock.st with
    | .unset => if near then s else hear s peer b.count
    | .locked => if b.count ≠ s.clock.count then accuse (timeSplit s peer b.count) peer 4 else s
    | _ =>
      let s := if uncertainty s < stampDist s b.count * 1000 then timeSplit s peer b.count else s
      if s.clock.st = .relock ∧ s.clock.slewed ∧ !near then hear s peer b.count else s
  else if s.clock.st = .locked ∧ b.uncertainty < stampDist s b.count * 1000 then timeSplit s peer b.count
  else s

/-- Whether an entry is one that this module sent. -/
def ownEntry (s : State) (b : EntryBody) : Bool :=
  match s.fabric.sent with
  | some b' => decide (b = b')
  | none => false

/-- An entry with this module's identity that it did not send: it withdraws (R284). -/
def foreignSelf (s : State) : State :=
  let s := accuse s Config.identity 3
  notify (if s.fabric.withdrawn then s else withdraw s) .duplicateIdentity {} [Config.identity]

/-- Whether an entry names this module absent, and its sender's last one did not (R281). -/
def newlyAbsent (s : State) (src : Nat) (b : EntryBody) : Bool :=
  b.absences.contains Config.identity && (match (s.member src).last with
    | some l => !l.absences.contains Config.identity
    | none => true)

/-- An entry forwarded on every other port in service, never across a sealed wing's (R274, R275, R277). -/
def forwardEntry (s : State) (h : MsgHdr) (b : EntryBody) : State :=
  if h.hop ≤ 1 then s
  else
    ((servicePorts s).filter (fun p => decide (p ≠ h.port) && !sealedPort s p && !mutedPort s p)).foldl (fun s p =>
      sendOn s p (entryMsg h.src (h.hop - 1) b)) s

/-- A new entry: its time, its window, its parameters, what it says of this module, and its way on. -/
def freshEntry (s : State) (h : MsgHdr) (b : EntryBody) (near : Bool) : State :=
  let onTime := decide (stampDist s b.count ≤ 8)
  let late := decide (s.clock.st = .locked) && !onTime
  let s := if h.hop = 16 then entryTime s h.src b near else s
  let s := if late then accuse s h.src 5 else s
  let s := if b.interval ≠ s.led.fab.interval ∨ b.absenceM ≠ s.led.fab.absenceM then accuse s h.src 7 else s
  let s := if newlyAbsent s h.src b ∧ !s.fabric.withdrawn then withdraw s else s
  let s := s.modFabric (fun f => { f with entries := f.entries ++ [{ src := h.src, onTime := onTime, body := b }] })
  forwardEntry s h b

/-- ENTRY: a repeat is dropped, or tells of two devices with one identity where its body differs (R277, R283). -/
def entry (h : MsgHdr) (b : EntryBody) (near : Bool) (s : State) : State :=
  match arrival s 1 h with
  | .unheard => s
  | .bad => countMalformedMsg s h.port
  | .taken =>
    if h.src = Config.identity then (if ownEntry s b then s else foreignSelf s)
    else if !allowed s h.src then s
    else match s.fabric.entries.find? (fun e => decide (e.src = h.src ∧ e.body.count = b.count)) with
      | some e =>
        if e.body = b then s
        else accuse (s.modFabric (fun f => { f with duplicates := if f.duplicates.contains h.src then f.duplicates else f.duplicates ++ [h.src] })) h.src 3
      | none => freshEntry s h b near

/-- ENTRY. -/
def execEntry (hdr : MsgHdr) (body : EntryBody) (nearEdge : Bool) (s : State) : Host.Outcome State Fault Refusal := .next (entry hdr body nearEdge s)

/-! ### ROLL_CALL_CLOSE (R279 to R284) -/

/-- The entries of a round. -/
def roundEntries (s : State) (c : Nat) : List HeardEntry := s.fabric.entries.filter (fun e => e.onTime && decide (e.body.count = c))

/-- Identities that a close looks at: those known, those heard, and the neighbours in service. -/
def roundIds (s : State) (es : List HeardEntry) : List Nat :=
  ((s.fabric.members.map (·.1)) ++ s.fabric.view ++ es.map (·.src) ++ neighbourIds s Config.identity).dedup.filter (fun i => decide (i ≠ Config.identity))

/-- One identity's history after a round. -/
def memberRound (e : Option HeardEntry) (m : Member) : Member :=
  match e with
  | some e => { heard := (m.heard * 2 + 1) % 256, missed := 0, last := some e.body }
  | none => { m with heard := m.heard * 2 % 256, missed := m.missed + 1 }

/-- Histories brought up to a round; an identity not heard for 8 rounds that is no member is forgotten. -/
def closeHistories (s : State) (es : List HeardEntry) : State :=
  let near := neighbourIds s Config.identity
  s.modFabric (fun f => { f with members := (roundIds s es).foldl (fun t i =>
    let m := memberRound (es.find? (fun e => decide (e.src = i))) (tget t i)
    tput t i (if 8 < m.missed ∧ !f.view.contains i ∧ !near.contains i then default else m)) f.members })

/-- Neighbours in service that have sent no entry for M rounds (Table 11.7). -/
def accuseSilent (s : State) : State :=
  ((neighbourIds s Config.identity).dedup.filter (fun i => decide ((s.member i).missed = s.led.fab.absenceM))).foldl (fun s i => accuse s i 2) s

/-- Identities excluded at a close (R284): accusations read in ascending identity of the accuser, an excluded accuser's ignored. -/
def excludedIds (s : State) (es : List HeardEntry) (c : Nat) : List Nat :=
  let own : List (Nat × List Accusation) := match s.fabric.sent with
    | some b => if b.count = c then [(Config.identity, b.accusations)] else []
    | none => []
  let all := own ++ (es.filter (fun e => s.fabric.view.contains e.src)).map (fun e => (e.src, e.body.accusations))
  (sortBy (fun a b : Nat × List Accusation => decide (a.1 < b.1)) all).foldl (fun x a =>
    if x.contains a.1 then x else x ++ (a.2.map (·.identity)).filter (fun i => !x.contains i)) s.fabric.duplicates

/-- Whether an identity qualifies for the view (R279). -/
def qualifies (s : State) (excluded : List Nat) (i : Nat) : Bool :=
  let M := s.led.fab.absenceM
  let m := s.member i
  !excluded.contains i &&
    (if i = Config.identity then !s.fabric.withdrawn || decide (M ≤ s.fabric.joined)
     else allowed s i && (if s.fabric.view.contains i then decide (m.missed < M) else decide (m.heard % 2 ^ M = 2 ^ M - 1)))

/-- Every identity that qualifies, ascending. -/
def candidatesOf (s : State) (es : List HeardEntry) (excluded : List Nat) : List Nat :=
  sortBy (fun a b : Nat => decide (a < b)) ((Config.identity :: roundIds s es).filter (qualifies s excluded))

/-- What a changed view sets off: its epoch, MEMBERSHIP, the FAILOVER entry, the absences, broadcasts, rewrites and routes. -/
def viewChanged (s : State) (c : Nat) (old : List Nat) : State :=
  let new := s.fabric.view
  let joined := new.filter (fun i => !old.contains i)
  let left := old.filter (fun i => !new.contains i)
  let s := s.bump.modFabric (fun f =>
    { f with
      epoch := (f.epoch + 1) % 2 ^ 32, departed := f.departed ++ left
      absences := f.absences.filter (fun a => !left.contains a.1) ++ (left.filter (fun i => decide (i ≠ Config.identity))).map (fun i => (i, 64))
      members := left.foldl (fun t i => tmod t i (fun m => { m with heard := 0 })) f.members })
  let s := notify s .membership {} (joined.length :: joined ++ left)
  let s := setEntry s { mp := c + 100, cls := .failover, wing := none, arg := 0, late := false }
  retryStuck (retryRewrites ((List.range 4).foldl viewInstall s))

/-- VIEW_SPLIT for each member whose digest is not that of this module's previous view (R282). -/
def tellSplits (s : State) (es : List HeardEntry) (old : List Nat) : State :=
  (es.filter (fun e => old.contains e.src && decide (e.body.digest ≠ viewDigest old))).foldl (fun s e => notify s .viewSplit {} [e.src]) s

/-- The view formed from a round (R279). -/
def formView (s : State) (es : List HeardEntry) (c : Nat) : State :=
  let old := s.fabric.view
  let all := candidatesOf s es (excludedIds s es c)
  let s := s.modFabric (fun f =>
    { f with view := all.take 1024, withdrawn := f.withdrawn && decide (f.joined < s.led.fab.absenceM) })
  let s := if 1024 < all.length then notify s .viewFull {} [] else s
  let s := tellSplits s es old
  if s.fabric.view = old then s else viewChanged s c old

/-- A round's bookkeeping ended: accusations and absences last 64 rounds, and malformed messages and duplicates are counted anew. -/
def ageRound (s : State) (c : Nat) : State :=
  s.modFabric (fun f =>
    { f with
      round := none, malformed := [], duplicates := [], entries := f.entries.filter (fun e => decide (c < e.body.count))
      accusing := (f.accusing.map (fun a => { a with rounds := a.rounds - 1 })).filter (fun a => decide (0 < a.rounds))
      absences := (f.absences.map (fun a => (a.1, a.2 - 1))).filter (fun a => decide (0 < a.2)) })

/-- The check of R28 where no LOCKED peer was heard in the first roll call after the slew: the count is kept, and LOCKED follows. -/
def closeRelock (s : State) (c : Nat) : State :=
  if s.clock.st = .relock ∧ s.clock.slewed ∧ s.clock.slewAt ≤ c ∧ s.clock.holdFor = 0 ∧ s.clock.heard = [] then
    s.modClock (fun k => { k with lockNext := true })
  else s

/-- ROLL_CALL_CLOSE: the round closes 50 mp after it began. With the keeper down, only the histories are kept. -/
def rollCallClose (s : State) : State :=
  match s.fabric.round with
  | none => s
  | some c =>
    if s.clock.count < c + 50 then s
    else
      let es := roundEntries s c
      let s := closeRelock (closeHistories s es) c
      if s.keeper.up then
        let s := if s.led.fab.absenceM ≤ s.fabric.unsent ∧ !s.fabric.withdrawn then withdraw s else s
        ageRound (accuseSilent (formView s es c)) c
      else ageRound s c

/-- ROLL_CALL_CLOSE. -/
def execRollCallClose (s : State) : Host.Outcome State Fault Refusal := .next (rollCallClose s)

/-! ### FAILOVER (R296) -/

/-- Tickets that name a departed member fail, and the passes that hold them end with LEG_MOVED (R296). -/
def failTickets (gone : List Nat) (s : State) : State :=
  let hit := (s.tickets.filter (fun t => t.2.live && gone.contains t.2.peer)).map (fun t => (t.2.wing, t.2.context))
  let s := spendTickets s (fun _ t => gone.contains t.peer)
  hit.dedup.foldl (fun s q => failPass s q.1 q.2 .legMoved) s

/-- FAILOVER: the keeper acts on every member that has left since the last one. -/
def failover (s : State) : State :=
  match takeDue s .failover none 0 with
  | none => s
  | some s =>
    let gone := s.fabric.departed
    let s := s.modFabric (fun f => { f with departed := [] })
    let s := ((postedGroups s).filter (fun n => (s.group n).members.any (fun i => gone.contains i))).foldl failGroup s
    let s := failTickets gone s
    ((s.led.rings.filter (fun r => r.2.live)).map (·.1)).foldl (failoverRing gone) s

/-- FAILOVER. -/
def execFailover (s : State) : Host.Outcome State Fault Refusal := .next (failover s)

/-! ### Parameters (R34, R358) -/

/-- Ports that an allow-list change lets in train again; ports in service to an identity it shuts out are HELD (R267, R272). -/
def applyAllow (s : State) : State :=
  (List.range 36).foldl (fun s p =>
    match (s.port p).held with
    | some (.notAllowed, i) => if (s.port p).st = .held ∧ allowed s i then s.modPort p trainPort else s
    | _ =>
      match (s.port p).peer with
      | some i =>
        if inService (s.port p) ∧ !allowed s i then
          notify ((dropPort s p .held).modPort p (fun x => { x with held := some (.notAllowed, i) })) .portNotAllowed (atPort p) [p, i]
        else s
      | none => s) s

/-- A fabric-set's parameters in force. -/
def applyParams (s : State) (n : FabricNext) : State :=
  let s := s.modLed (fun l => { l with fab :=
    { interval := if n.interval = 0 then l.fab.interval else n.interval, absenceM := if n.absenceM = 0 then l.fab.absenceM else n.absenceM
      allow := n.allow.getD l.fab.allow, next := none } })
  if n.allow.isSome then applyAllow s else s

/-- FABRIC_PARAMS_APPLY: the effective milepost has come (R358). -/
def fabricParamsApply (s : State) : State :=
  match s.led.fab.next with
  | some n => if n.at_ ≤ s.clock.count then applyParams s n else s
  | none => s

/-- FABRIC_PARAMS_APPLY. -/
def execFabricParamsApply (s : State) : Host.Outcome State Fault Refusal := .next (fabricParamsApply s)

/-- Layout of fabric-set. -/
def fabricSetParse (p : Bytes) : Bool :=
  fixedLayout 24 [] p && zeroOr (field p 0 4) 1000 100000 && zeroOr (field p 4 1) 1 8 && decide (field p 5 1 < 2 ∧ field p 6 2 ≤ 1024) && lineAligned p 8

/-- fabric-set (R272, R358). -/
def fabricSetCmd (host : HostRead) : KCmd :=
  { code := 0x0801, cls := .commit, parse := fabricSetParse, perm := fromVf0
    body := fun s h p =>
      let n := field p 6 2
      let replaces := decide (field p 5 1 = 1)
      let list : Option (List Nat) :=
        if !replaces then some []
        else if n = 0 then some []
        else match hostBytes s h.fn host with
          | some b => if b.length = 8 * n then some ((List.range n).map (fun i => field b (8 * i) 8)) else none
          | none => none
      match list with
      | none => .refuse .hostAccessFault []
      | some l =>
        let next : FabricNext :=
          { interval := field p 0 4, absenceM := field p 4 1, allow := if replaces then some l else none, at_ := field p 16 8 }
        if next.at_ = 0 then .commit (fun s => applyParams s next) .ok []
        else match entryRefused s h.stamp next.at_ with
          | some st => .refuse st []
          | none => .commit (fun s => s.modLed (fun l => { l with fab := { l.fab with next := some next } })) .ok [] }

/-- FABRIC_SET. -/
def execFabricSet (h : CmdHdr) (p : Bytes) (host : HostRead) (s : State) : Host.Outcome State Fault Refusal :=
  .next (kcp (fabricSetCmd host) h p s)

/-- fabric-status. -/
def fabricStatusCmd : KCmd :=
  { code := 0x0806, cls := .query, parse := fun p => fixedLayout 2 [] p
    body := fun s _ p =>
      let v := s.fabric.view
      let i := field p 0 2
      .query (leBytes 4 s.fabric.epoch ++ leBytes 2 v.length ++ leBytes 2 i ++ leBytes 8 (viewDigest v) ++ leBytes 1 (if s.fabric.withdrawn then 1 else 0)
        ++ leBytes 3 0 ++ portStates s ++ ((v.drop i).take 448).flatMap (leBytes 8)) }

/-- FABRIC_STATUS. -/
def execFabricStatus (h : CmdHdr) (p : Bytes) (s : State) : Host.Outcome State Fault Refusal := .next (kcp fabricStatusCmd h p s)

/-! ### MPCLK lost (R24 to R26) -/

/-- ADRIFT entered: the module withdraws, and cross-module classes are suspended (R25, R26). -/
def enterAdrift (s : State) : State :=
  let s := notify (s.modClock (fun c => { c with st := .adrift, holdoverFlag := true })) .timeAdrift {} []
  (withdraw s).modFabric (fun f => { f with round := none })

/-- Whether the holdover limit has been reached (R25). -/
def holdoverSpent (s : State) : Bool := decide (s.clock.lastGood + 1000000 ≤ s.clock.count)

/-- MPCLK_LOSS: two expected edges are missing, or four periods lie outside the limits (R24). -/
def mpclkLoss (missing : Nat) (s : State) : State :=
  if !s.power.alwaysOn || !s.clock.qualified || !(decide (2 ≤ missing) || decide (4 ≤ s.clock.badRun)) then s
  else
    let s := s.modClock (fun c => { c with qualified := false, goodRun := 0, badRun := 0, slewed := false, lockNext := false, holdFor := 0 })
    let holdover (s : State) : State := notify (s.modClock (fun c => { c with st := .holdover, holdoverFlag := true })) .timeHoldover {} []
    match s.clock.st with
    | .locked => holdover s
    | .relock => if holdoverSpent s then enterAdrift s else holdover s
    | _ => s

/-- MPCLK_LOSS. -/
def execMpclkLoss (missing : Nat) (s : State) : Host.Outcome State Fault Refusal := .next (mpclkLoss missing s)

/-- HOLDOVER_LIMIT. -/
def holdoverLimit (s : State) : State := if s.clock.st = .holdover ∧ holdoverSpent s then enterAdrift s else s

/-- HOLDOVER_LIMIT. -/
def execHoldoverLimit (s : State) : Host.Outcome State Fault Refusal := .next (holdoverLimit s)

end Sys2Proof.Machine
end

