-- ==== Sys2Proof/Machine/Damage.lean ====
section
/-! DEFINITION. Errors of the memory tiers: the effects of Table 8.8, the thresholds of Table 16.2 on pseudo-channels, Loft
channels and stores, the retirement that a second uncorrectable error starts (R429), and the loss of a Loft channel
(R435). -/

namespace Sys2Proof.Machine

open Sys2Proof

/-! ### Objects (Table 8.8) -/

/-- Contexts whose admitted pass references an object. -/
def readersOf (s : State) (i : Nat) : List (Nat × Nat) :=
  s.led.wings.flatMap (fun w => (w.2.contexts.filter (fun c => match c.2.pass with
    | some p => p.objects.contains i
    | none => false)).map (fun c => (w.1, c.1)))

/-- The contexts whose pass an error in an ACTIVATION object ends: those that reference it, else the one that runs on its wing,
which met it (DEDUCED, log entry 41). -/
def activationReaders (s : State) (i : Nat) : List (Nat × Nat) :=
  match readersOf s i with
  | [] => ((s.wing (s.obj i).wing).running.map (fun c => ((s.obj i).wing, c))).toList
  | l => l

/-- Whether an adapter of a table binds an object. -/
def bindsObj (i : Nat) (a : PassAdapter) : Bool :=
  decide (a.g = i) || decide (a.s1.map (·.1) = some i) || decide (a.s2.map (·.1) = some i)

/-- The adapters of training passes that bind an object left out of the step's updates, and the updates under way that read
it faulted (Table 8.8, R116). -/
def withholdObj (s : State) (i : Nat) : State :=
  let jobs := (s.jobs.filter (fun j => j.2.live && bindsObj i j.2.adapter)).map (·.1)
  let s := s.mapCtx (fun _ _ c => { c with pass := c.pass.map (fun p =>
    let l := ((p.cmd.table.adapters.filter (bindsObj i)).map (·.handle)).filter (fun h => !(p.withheld.contains h))
    if p.cmd.train then { p with withheld := p.withheld ++ l } else p) })
  jobs.foldl faultJob s

/-- The mirrors that lie in a MIRROR object are no longer held (Table 8.8). -/
def dropMirrors (s : State) (i : Nat) : State :=
  { s with led := { s.led with rings := s.led.rings.foldl (fun t p =>
      (p.2.mirror.filter (fun m => decide (m.2 = some i))).foldl (fun t m =>
        tmod t p.1 (fun r => { r with mirrored := without r.mirrored (2 ^ m.1) })) t) s.led.rings } }

/-- An uncorrectable error in an object: the object is DAMAGED, with the effect of its kind (Table 8.8). -/
def objectHit (s : State) (i : Nat) (st : Status) (at_ : At) (body : List Nat) : State :=
  let x := s.obj i
  if !x.live || decide (x.st = .damaged ∨ x.st = .absent) then s
  else
    let readers := readersOf s i
    let active := activationReaders s i
    let s := damageObj s.bump i st
    let s := match x.kind with
      | .kv => endKvSessions s i
      | .activation => active.foldl (fun s p => failPass s p.1 p.2 st) s
      | .gradient => withholdObj s i
      | .moment => withholdObj s i
      | .mirror => dropMirrors s i
      | .scratch => readers.foldl (fun s p => endContext s p.1 p.2 st at_ []) s
      | _ => s
    carryMoves (notify s (if x.kind = .mirror then .mirrorLost else .objectDamaged) at_ (i :: body))

/-- An uncorrectable error in a room (R166): the handle is DAMAGED and the room FREE; a load not yet used by a pass only
fails. -/
def roomHit (s : State) (r pc : Nat) (st : Status) (at_ : At) : State :=
  let i := (s.room r).handle
  let loading := match (s.handle i).load with
    | some l => decide (l.room = r)
    | none => false
  if (s.room r).st = .free then s
  else if loading then
    let used := decide (0 < (s.room r).refs)
    let s := failLoad s.bump i st
    if used then notify (damageHandle s i) .adapterDamaged at_ [i, pc] else s
  else notify (damageHandle s.bump i) .adapterDamaged at_ [i, pc]

/-- An uncorrectable error in an adapter's image at its Loft home: the handle is DAMAGED (R166). -/
def imageHit (s : State) (i ch : Nat) (st : Status) (at_ : At) : State :=
  if (s.handle i).home.len = 0 then s
  else notify (damageHandle (failLoad s.bump i st) i) .adapterDamaged at_ [i, ch]

/-- A window slot discarded; its shard is fetched again (Table 8.8). -/
def slotHit (s : State) (w k : Nat) : State :=
  match (s.wing w).window.ring[k]? with
  | none => s
  | some x => s.modWing w (fun v =>
      { v with
        window := keepSlots v.window (fun r => decide (r ≠ x))
        stall := { v.stall with refetched := wrapAdd v.stall.refetched 1 } })

/-- Where an error lies, for the log: the object, and its owner and wing. -/
def placeAt (s : State) (kind unit addr : Nat) (p : ErrPlace) : At :=
  let base : At := { kind := kind, place := unit, address := addr }
  let ofObj (i : Nat) : At := { base with wing := some (s.obj i).wing, party := (s.obj i).owner, object := some i }
  match p with
  | .windowSlot w _ => { base with wing := some w }
  | .object i => ofObj i
  | .moveDest i => ofObj i
  | .room r => { base with wing := some (s.room r).wing, party := some (s.handle (s.room r).handle).owner }
  | .swap w c => ofObj (s.ctx w c).saveObj
  | .image i => { base with party := some (s.handle i).owner }
  | .region _ => base
  | .empty => base

/-- An error in the destination of a move (Table 8.5): the move stops, its destination is released, the source is kept, and its
command ends with the status. -/
def destHit (s : State) (i : Nat) (st : Status) : State :=
  let x := s.obj i
  if !x.live || (workDest x.work).isNone then s
  else carryMoves (finishOpt (s.bump.modObj i (fun x => { x with st := .home, work := .none })) (workRef x.work) st [])

/-- What an uncorrectable error falls in loses it (Table 8.8); a swap that meets one ends its context (R261). -/
def errorAt (s : State) (unit : Nat) (st : Status) (at_ : At) (body : List Nat) (p : ErrPlace) : State :=
  match p with
  | .windowSlot w k => slotHit s w k
  | .object i => objectHit s i st at_ body
  | .moveDest i => destHit s i st
  | .room r => roomHit s r unit st at_
  | .swap w c => endContext s w c .contextLost at_ []
  | .image i => imageHit s i unit st at_
  | .region a => s.modLink (fun l => { l with poisoned := if a / 64 ∈ l.poisoned then l.poisoned else l.poisoned ++ [a / 64] })
  | .empty => s

/-! ### Pseudo-channels (R177, R419, R428, R429) -/

/-- A wing's window without a pseudo-channel, as a window-set would leave it (R197, R428). Where the rest cannot hold its
slots at once, ranges are found as they are refilled. -/
def windowDrops (pc : Nat) (s : State) (w : Nat) : State :=
  let v := (s.wing w).window
  if !v.set.testBit pc then s
  else
    let set := without v.set (2 ^ pc)
    let ring := if passRuns (s.wing w) then v.ring else []
    let v' := (resizedWindow s w v.nextSlots set).getD { v with set := set, ring := ring, places := v.places.take ring.length }
    retryBlocked (s.modWing w (fun x => { x with window := v' })) w

/-- A retirement begun (R428): no new range is placed on the pseudo-channel, and what lies there moves. -/
def startRetirement (pc : Nat) (ref : Option CmdRef) (s : State) : State :=
  let s := s.modPc pc (fun x => { x with retiring := true, ref := ref })
  carryMoves (s.liveWings.foldl (windowDrops pc) s)

/-- HBM_CORRECTED_ERROR: counted; 10,000 within 1,000,000,000 mp are a crossing (R177, Table 16.2). -/
def hbmCorrected (u addr : Nat) (s : State) : State :=
  let l := inCountedWindow s.clock.count 1000000000 (s.pc u).correctedAt
  let full := decide (10000 ≤ countedTotal l)
  let s := markChanged (s.modPc u (fun x => { x with corrected := wrapAdd x.corrected 1, correctedAt := if full then [] else l })) 3 u
  if full then crossing s .pcSuspect { kind := 3, place := u, address := addr } [u] else s

/-- HBM_CORRECTED_ERROR. -/
def execHbmCorrectedError (pc addr : Nat) (s : State) : Host.Outcome State Fault Refusal := onPart pc 512 s (hbmCorrected pc addr)

/-- HBM_UNCORRECTABLE_ERROR: counted and told, the object it falls in takes the effect of Table 8.8, and a second one within
1,000,000,000 mp starts a retirement (R203, R419, R429). -/
def hbmUncorrectable (u addr : Nat) (p : ErrPlace) (s : State) : State :=
  let at_ := placeAt s 3 u addr p
  let l := inWindow s.clock.count 1000000000 (s.pc u).uncorrectedAt
  let full := decide (2 ≤ l.length)
  let s := markChanged (s.modPc u (fun x => { x with uncorrected := wrapAdd x.uncorrected 1, uncorrectedAt := if full then [] else l })) 3 u
  let s := errorAt (crossing s .pcSuspect at_ [u]) u .hbmUncorrectable at_ [u, addr] p
  if full ∧ !(s.pc u).retiring ∧ !(s.pc u).retired then startRetirement u none s.bump else s

/-- HBM_UNCORRECTABLE_ERROR. -/
def execHbmUncorrectableError (pc addr : Nat) (place : ErrPlace) (s : State) : Host.Outcome State Fault Refusal :=
  onPart pc 512 s (hbmUncorrectable pc addr place)

/-! ### Loft channels (R178, R419, R431, R435) -/

/-- LOFT_CORRECTED_ERROR: counted; 100,000 within 1,000,000,000 mp are a crossing (Table 16.2). -/
def loftCorrected (c addr : Nat) (s : State) : State :=
  let l := inCountedWindow s.clock.count 1000000000 (s.loft c).correctedAt
  let full := decide (100000 ≤ countedTotal l)
  let s := markChanged (s.modLoft c (fun x => { x with corrected := wrapAdd x.corrected 1, correctedAt := if full then [] else l })) 4 c
  if full then crossing s .loftSuspect { kind := 4, place := c, address := addr } (loftBody s c) else s

/-- LOFT_CORRECTED_ERROR. -/
def execLoftCorrectedError (channel addr : Nat) (s : State) : Host.Outcome State Fault Refusal := onPart channel 16 s (loftCorrected channel addr)

/-- LOFT_UNCORRECTABLE_ERROR: counted and told, and the object it falls in takes the effect of Table 8.8 (R203). -/
def loftUncorrectable (c addr : Nat) (p : ErrPlace) (s : State) : State :=
  let at_ := placeAt s 4 c addr p
  let s := markChanged (s.modLoft c (fun x => { x with uncorrected := wrapAdd x.uncorrected 1 })) 4 c
  errorAt (crossing s .loftSuspect at_ (loftBody s c)) c .loftUncorrectable at_ (loftBody s c ++ [addr]) p

/-- LOFT_UNCORRECTABLE_ERROR. -/
def execLoftUncorrectableError (channel addr : Nat) (place : ErrPlace) (s : State) : Host.Outcome State Fault Refusal :=
  onPart channel 16 s (loftUncorrectable channel addr place)

/-- The wing that owns a Loft channel, if one does. -/
def wingOfLoft (s : State) (c : Nat) : Option Nat := lowest 16 (fun w => (s.wing w).live && (s.wing w).loft.testBit c)

/-- Whether a place has a range in a Loft channel. -/
def onLoft (c : Nat) (p : Place) : Bool := (p.spanOn .loft c).isSome

/-- A move whose destination needs a lost channel stopped: the object stays at its home (R184). -/
def stopMovesTo (c : Nat) (s : State) : State :=
  carryMoves <| (s.led.objects.filter (fun o => o.2.live && ((workDest o.2.work).map (onLoft c)).getD false && !onLoft c o.2.place)).foldl (fun s o =>
    finishOpt (s.modObj o.1 (fun x => { x with st := .home, work := .none })) (workRef o.2.work) .loftUncorrectable []) s

/-- Region units of a channel: lines whose unit lies on it (R389). -/
def lineChannel (line : Nat) : Nat := line / 64 % 16

/-- Every object and adapter image with a range in a lost channel damaged (Table 8.8). -/
def loseLoftData (c : Nat) (s : State) : State :=
  let objs := (s.led.objects.filter (fun o => o.2.live && onLoft c o.2.place)).map (·.1)
  let images := (s.led.handles.filter (fun h => onLoft c h.2.home)).map (·.1)
  let s := stopMovesTo c s
  let s := objs.foldl (fun s i => objectHit s i .loftUncorrectable (placeAt s 4 c 0 (.object i)) (loftBody s c)) s
  let s := images.foldl (fun s i => imageHit s i c .loftUncorrectable (placeAt s 4 c 0 (.image i))) s
  s.modLink (fun l => { l with written := l.written.filter (fun a => decide (lineChannel a ≠ c)) })

/-- A Loft channel lost (R435): it is DOWN, told once, and everything in it is damaged. During a scrub of its wing the notice
waits for the scrub's end (R416). -/
def loseLoft (c : Nat) (s : State) : State :=
  if (s.loft c).st = .inService ∨ (s.loft c).st = .evacuating then
    let ref := (s.loft c).ref
    let quiet := ((wingOfLoft s c).map (fun w => (s.wing w).scrub.isSome)).getD false
    let s := s.bump.modLoft c (fun x => { x with st := .down, ref := none, downNoticed := !quiet })
    let s := if quiet then s
      else notify s .loftChannelDown { kind := 4, place := c, wing := wingOfLoft s c } (loftBody s c)
    loseLoftData c (finishOpt s ref .loftUncorrectable [])
  else s

/-- LOFT_CHANNEL_LOSS. -/
def execLoftChannelLoss (channel : Nat) (s : State) : Host.Outcome State Fault Refusal := onPart channel 16 s (loseLoft channel)

/-! ### Tile and quarter stores (R172) -/

/-- STORE_CORRECTED_ERROR in a tile's or a quarter's store (R172). -/
def quarterCorrected (q : Nat) (s : State) : State :=
  markChanged (s.modQuarter q (fun x => { x with corrected := wrapAdd x.corrected 1 })) 2 q

/-- STORE_CORRECTED_ERROR. -/
def execStoreCorrectedError (quarterStore : Bool) (unit : Nat) (s : State) : Host.Outcome State Fault Refusal :=
  if quarterStore then onPart unit 4 s (quarterCorrected unit) else onPart unit 136 s (fun s => tileCorrected s unit)

/-- The context that met a double-bit error ended with STORE_ECC, logged with the part and the word (R172). -/
def endReader (s : State) (reader : Option (Nat × Nat)) (kind unit word : Nat) : State :=
  match reader with
  | some (w, c) => endContext s w c .storeEcc { kind := kind, place := unit, wing := some w, address := word * 64 } [word]
  | none => s

/-- A double-bit error in a tile's store: the tile is offered for mapping (R172, Table 16.2). -/
def tileStoreEcc (t word : Nat) (reader : Option (Nat × Nat)) (s : State) : State :=
  let place : At := { atTile s t with address := word * 64 }
  let s := markChanged (s.modTile t (fun x => { x with uncorrected := wrapAdd x.uncorrected 1 })) 1 t
  endReader (tileSuspect s t place) reader 1 t word

/-- A double-bit error in a quarter store: a fault-log record only, under STORE_ECC where it ends a context (Table 16.2,
R495). -/
def quarterStoreEcc (q word : Nat) (reader : Option (Nat × Nat)) (s : State) : State :=
  let s := markChanged (s.modQuarter q (fun x => { x with uncorrected := wrapAdd x.uncorrected 1 })) 2 q
  let met := (reader.map (fun r => (s.ctx r.1 r.2).live)).getD false
  let s := if met then endReader s reader 2 q word
    else logOnly s .quarterStoreEcc { kind := 2, place := q, address := word * 64 } [q]
  snapshotPart s 2 q

/-- STORE_ECC_ERROR. -/
def execStoreEccError (quarterStore : Bool) (unit word : Nat) (reader : Option (Nat × Nat)) (s : State) : Host.Outcome State Fault Refusal :=
  if quarterStore then onPart unit 4 s (quarterStoreEcc unit word reader) else onPart unit 136 s (tileStoreEcc unit word reader)

end Sys2Proof.Machine
end

