-- ==== Sys2Proof/Machine/Service.lean ====
section
/-! DEFINITION. Repair in service (chapter 16): the fault log's records and fault-log-read, tile-map and the switch to a
spare, pc-retire, loft-evacuate and what ends them, and wing-fence. -/

namespace Sys2Proof.Machine

open Sys2Proof

/-! ### The fault log (R421, R423) -/

/-- The bytes of a record before its CRC (Table 16.3). The detail holds up to three values, four bytes each (log entry 48). -/
def logHead (r : LogRec) : Bytes :=
  leBytes 4 r.number ++ leBytes 2 r.code ++ leBytes 1 r.severity ++ leBytes 1 r.timeState.value ++ leBytes 8 r.milepost
    ++ leBytes 8 r.version ++ leBytes 2 r.placeKind ++ leBytes 2 r.place ++ leBytes 1 (r.wing.getD 0xFF) ++ leBytes 1 0
    ++ leBytes 2 (r.party.getD 0xFFFF) ++ leBytes 8 r.address ++ leBytes 4 (r.object.getD 0xFFFFFFFF) ++ leBytes 4 r.count
    ++ (List.range 3).flatMap (fun i => leBytes 4 (r.detail.getD i 0))

/-- A record's 64 bytes. -/
def LogRec.bytes (r : LogRec) : Bytes := logHead r ++ leBytes 4 (crc32c (logHead r))

/-- Journal records from a number on, ascending: from the oldest held where the number is held no more (R423). -/
def journalFrom (s : State) (first count : Nat) : List LogRec :=
  ((s.keeper.journalLog.reverse).filter (fun r => decide (first ≤ r.number))).take count

/-- fault-log-read. -/
def faultLogReadCmd : KCmd :=
  { code := 0x0A01, cls := .query, inMinimal := true
    parse := fun p => fixedLayout 6 [] p && inRange (field p 4 2) 1 56
    perm := fromVf0
    body := fun s _ p =>
      let l := journalFrom s (field p 0 4) (field p 4 2)
      let first := ((l.head?).map (·.number)).getD (field p 0 4)
      .query (leBytes 4 first ++ leBytes 2 l.length ++ leBytes 2 0 ++ leBytes 8 s.keeper.journalLog.length ++ l.flatMap LogRec.bytes) }

/-- FAULT_LOG_READ. -/
def execFaultLogRead (h : CmdHdr) (p : Bytes) (s : State) : Host.Outcome State Fault Refusal := .next (kcp faultLogReadCmd h p s)

/-! ### tile-map (R424 to R427) -/

/-- tile-map: a mapping that cannot begin yet waits (R427, Table 16.10). -/
def tileMapCmd : KCmd :=
  { code := 0x0A02, cls := .long
    parse := fun p => fixedLayout 3 [] p && decide (field p 0 2 < 128 ∧ field p 2 1 < 2), perm := fromVf0
    body := fun s h p =>
      let n := field p 0 2
      let m : MapReq := { tile := n, out := decide (field p 2 1 = 1), ref := some (refOf h 0x0A02) }
      if !mapReady s n then .long (fun s => s.modLed (fun l => { l with maps := l.maps ++ [m] })) .accepted [] none
      else if m.out then
        .long (fun s => s) .accepted [] (some (fun s =>
          if (physTile s n).isNone then finish s (refOf h 0x0A02) .ok (leBytes 2 0xFFFF) else beginMap s m))
      else match spareFor s n with
        | none => .refuse .spareNone []
        | some sp =>
          match wingOfTile s n, physTile s n with
          | some _, some _ => .long (fun s => startMapping s n sp m.ref) .accepted [] none
          | _, _ => .long (fun s => s) .accepted [] (some (fun s => startMapping s.bump n sp m.ref)) }

/-- TILE_MAP. -/
def execTileMap (h : CmdHdr) (p : Bytes) (s : State) : Host.Outcome State Fault Refusal := .next (kcp tileMapCmd h p s)

/-- A tile's store as it is copied to the spare: words that could not be read are zero (R425). -/
def copiedStore (t : Tile) (badWords : List Nat) : Mem := badWords.foldl (fun m k => mclear m (64 * k) 64) t.store

/-- Contexts of a wing whose region of a tile holds one of some words (R425). -/
def contextsAt (s : State) (w : Nat) (words : List Nat) : List Nat :=
  ((s.wing w).contexts.filter (fun c => c.2.live && c.2.resident && words.any (fun k =>
    decide (regionBase c.2 ≤ 64 * k ∧ 64 * k < regionBase c.2 + c.2.region * 32768)))).map (·.1)

/-- SPARE_SWITCH: the failing tile's store is on the spare, the mapping switches, contexts that lost a word end, and the wing
goes on with the context that R249 chooses (Table 16.4). -/
def spareSwitch (p : Nat) (badWords : List Nat) (s : State) : State :=
  match (s.tile p).spare, logicalOf s p with
  | some sp, some n =>
    match wingOfTile s n with
    | none => s
    | some w =>
      if (s.wing w).scrub.isSome ∨ (s.wing w).running.isSome then s
      else
        let ref := (s.tile p).mapRef
        let store := copiedStore (s.tile p) badWords
        let lost := contextsAt s w badWords
        let s := switchMap s.bump n (some p) sp
        let s := settleGates (s.modTile sp (fun t => { t with store := store }))
        let s := lost.foldl (fun s c => endContext s w c .storeEcc { kind := 1, place := p, wing := some w } badWords) s
        let s := finishOpt (tileMapped s n sp (some p)) ref .ok (leBytes 2 sp)
        let s := settleMaps (s.modWing w (fun x => { x with switching := decide ((mappingTiles s w) ≠ []) }))
        if (s.wing w).switching || !mayStage s (s.wing w) then s
        else
          let (c, y) := choose (s.wing w) (·.latency) (·.runLen)
          switchTo (s.modWing w (fun _ => y)) w c
  | _, _ => s

/-- SPARE_SWITCH. -/
def execSpareSwitch (tile : Nat) (badWords : List Nat) (s : State) : Host.Outcome State Fault Refusal := onPart tile 136 s (spareSwitch tile badWords)

/-! ### pc-retire (R428 to R430) -/

/-- pc-retire. -/
def pcRetireCmd : KCmd :=
  { code := 0x0A03, cls := .long, parse := fun p => fixedLayout 2 [] p && decide (field p 0 2 < 512), perm := fromVf0
    body := fun s h p =>
      let x := s.pc (field p 0 2)
      if x.retired ∨ x.retiring then .refuse .pcRetired []
      else .long (startRetirement (field p 0 2) (some (refOf h 0x0A03))) .accepted [] none }

/-- PC_RETIRE. -/
def execPcRetire (h : CmdHdr) (p : Bytes) (s : State) : Host.Outcome State Fault Refusal := .next (kcp pcRetireCmd h p s)

/-- The wing that owns a pseudo-channel, if one does. -/
def wingOfPc (s : State) (u : Nat) : Option Nat := lowest 16 (fun w => (s.wing w).live && (s.wing w).pcs.testBit u)

/-- A pseudo-channel that leaves service for good: it belongs to no wing (R8, R428). -/
def retirePc (u : Nat) (s : State) : State :=
  let s := match wingOfPc s u with
    | some w => s.modWing w (fun x => { x with pcs := without x.pcs (2 ^ u), window := { x.window with set := without x.window.set (2 ^ u) } })
    | none => s
  s.modPc u (fun x => { x with retired := true, retiring := false, ref := none })

/-- PC_RETIRE_DONE: nothing has a range on the pseudo-channel any more (R428); not during a scrub of its wing (Table 15.17). -/
def pcRetireDone (u : Nat) (s : State) : State :=
  let scrubbing := ((wingOfPc s u).map (fun w => (s.wing w).scrub.isSome)).getD false
  if (s.pc u).retiring ∧ !unitHolds s .hbm u ∧ !scrubbing ∧ s.keeper.up then
    let ref := (s.pc u).ref
    let place : At := { kind := 3, place := u, wing := wingOfPc s u }
    finishOpt (notify (retirePc u s.bump) .pcRetired place [u]) ref .ok []
  else s

/-- PC_RETIRE_DONE. -/
def execPcRetireDone (pc : Nat) (s : State) : Host.Outcome State Fault Refusal := onPart pc 512 s (pcRetireDone pc)

/-! ### loft-evacuate (R431 to R434) -/

/-- A place for each of some things, one after the other, in what the ones before have left; none where one does not fit. -/
def placeAll (s : State) (find : State → Nat → Option Place) (keep : State → Nat → Place → State) : List Nat → State → Option State
  | [], t => some t
  | i :: l, t =>
    match find t i with
    | some d => placeAll s find keep l (keep t i d)
    | none => none

/-- A further range taken up in a trial of an evacuation: it stands as an object of its own beyond every number in use. -/
def trialRange (t : State) (i : Nat) (d : Place) : State :=
  t.modObj (262144 + i) (fun x => { x with live := true, place := d })

/-- MIRROR objects on a channel, and whether any other channel has a mirror area. -/
def mirrorsOn (s : State) (c : Nat) : List Nat := (objectsOn s .loft c).filter (fun i => decide ((s.obj i).kind = .mirror))

/-- Whether another channel in service has a mirror area. -/
def otherArea (s : State) (c : Nat) : Bool := (List.range 16).any (fun u => decide (u ≠ c ∧ 0 < (s.loft u).mirror ∧ (s.loft u).st = .inService))

/-- Whether the region's part of a channel fits at the top of the other fifteen (R432). -/
def regionFits (s : State) (c : Nat) : Bool :=
  decide (regionBytes s = 0) ||
    (List.range 16).all (fun u => decide (u = c) ||
      (decide ((s.loft u).st = .inService ∧ (s.loft u).mirror = 0 ∧ redirectShare s ≤ areaTop s) &&
        spanFree (spansOn s .loft u) (areaTop s - redirectShare s) (redirectShare s)))

/-- The state with a channel's part of the region redirected. -/
def redirect (c : Nat) (s : State) : State := s.modLoft c (fun x => { x with redirect := decide (0 < regionBytes s) })

/-- Whether the space an evacuation needs is free at its acceptance (R432). -/
def evacuationFits (s : State) (c : Nat) : Bool :=
  let objs := (objectsOn s .loft c).filter (fun i => otherArea s c || decide ((s.obj i).kind ≠ .mirror))
  regionFits s c &&
    (match placeAll s (fun t i => evacuatedPlace t i c) (fun t i d => trialRange t i d) objs (redirect c s) with
     | none => false
     | some t => (placeAll s (fun t i => findPlace t .loft (imageSet t i c) (t.handle i).image.bytes)
         (fun t i d => trialRange t (262144 + i) d) (imagesOn s c) t).isSome)

/-- A MIRROR object discarded, its leg unmirrored (R294, R432). -/
def discardMirror (s : State) (i : Nat) : State :=
  let s := notify (dropMirrors s i) .mirrorLost (atObj s i) [i]
  let s := { s with led := { s.led with rings := s.led.rings.foldl (fun t r =>
    tput t r.1 { r.2 with mirror := r.2.mirror.foldl (fun m e => if e.2 = some i then terase m e.1 else m) r.2.mirror }) s.led.rings } }
  freeObj s i

/-- An evacuation begun (R432, R433). -/
def startEvacuation (c : Nat) (ref : CmdRef) (s : State) : State :=
  let s := redirect c (s.modLoft c (fun x => { x with st := .evacuating, ref := some ref }))
  carryMoves (if otherArea s c then s else (mirrorsOn s c).foldl discardMirror s)

/-- loft-evacuate. An action for which the channel is in the wrong state is refused with PLACE_DENIED (log entry 44). -/
def loftEvacuateCmd : KCmd :=
  { code := 0x0A04, cls := .long, parse := fun p => fixedLayout 2 [] p && decide (field p 0 1 < 16 ∧ field p 1 1 < 2), perm := fromVf0
    body := fun s h p =>
      let c := field p 0 1
      let st := (s.loft c).st
      if field p 1 1 = 0 then
        if st ≠ .inService then .refuse .placeDenied []
        else if !evacuationFits s c then .refuse .loftNoSpace []
        else .long (startEvacuation c (refOf h 0x0A04)) .accepted [] none
      else if st = .evacuated ∨ st = .down then
        .long (fun s => s.modLoft c (fun x => { x with st := .returning, ref := some (refOf h 0x0A04) })) .accepted [] none
      else .refuse .placeDenied [] }

/-- LOFT_EVACUATE. -/
def execLoftEvacuate (h : CmdHdr) (p : Bytes) (s : State) : Host.Outcome State Fault Refusal := .next (kcp loftEvacuateCmd h p s)

/-- LOFT_EVACUATE_DONE: the channel holds nothing and is EVACUATED (R433). -/
def loftEvacuateDone (c : Nat) (s : State) : State :=
  if (s.loft c).st = .evacuating ∧ !unitHolds s .loft c ∧ s.keeper.up then
    let ref := (s.loft c).ref
    finishOpt (s.bump.modLoft c (fun x => { x with st := .evacuated, ref := none })) ref .ok []
  else s

/-- LOFT_EVACUATE_DONE. -/
def execLoftEvacuateDone (channel : Nat) (s : State) : Host.Outcome State Fault Refusal := onPart channel 16 s (loftEvacuateDone channel)

/-- LOFT_RETURN_DONE: the channel has trained with DIMMs that match and is IN_SERVICE again, or is EVACUATED (R434). -/
def loftReturnDone (c : Nat) (dimmsMatch : Bool) (s : State) : State :=
  if (s.loft c).st = .returning ∧ s.keeper.up then
    let ref := (s.loft c).ref
    if dimmsMatch then
      finishOpt (s.bump.modLoft c (fun x => { x with st := .inService, ref := none, redirect := false, downNoticed := false })) ref .ok []
    else finishOpt (s.bump.modLoft c (fun x => { x with st := .evacuated, ref := none })) ref .dimmMismatch []
  else s

/-- LOFT_RETURN_DONE. -/
def execLoftReturnDone (channel : Nat) (dimmsMatch : Bool) (s : State) : Host.Outcome State Fault Refusal :=
  onPart channel 16 s (loftReturnDone channel dimmsMatch)

/-! ### wing-fence (R443) -/

/-- A fence released: the wing's ports send again, and its stages go on at its next boundary. -/
def releaseFence (w : Nat) (s : State) : State :=
  (maskList 36 (s.wing w).ports).foldl pumpPort (s.modWing w (fun x => { x with fenced := false }))

/-- wing-fence: a FENCE entry at the first edge after the commit, or the fence released. A fence of a fenced wing sets no
entry. -/
def wingFenceCmd : KCmd :=
  { code := 0x0A05, cls := .commit
    parse := fun p => fixedLayout 8 [(2, 2)] p && decide (field p 0 1 < 16 ∧ field p 1 1 < 2), perm := fromVf0
    gens := fun s p => wingCurrent s (field p 0 1) (field p 4 4)
    names := fun _ p => [field p 0 1]
    body := fun s _ p =>
      let w := field p 0 1
      if field p 1 1 = 0 then .commit (releaseFence w) .ok []
      else if (s.wing w).fenced then .commit (fun s => s) .ok []
      else .commit (fun s => setEntry s { mp := s.clock.count + 1, cls := .fence, wing := some w, arg := 0, late := false }) .ok [] }

/-- WING_FENCE. -/
def execWingFence (h : CmdHdr) (p : Bytes) (s : State) : Host.Outcome State Fault Refusal := .next (kcp wingFenceCmd h p s)

/-! ### Counter snapshots (R420) -/

/-- COUNTER_SNAPSHOT: at every whole multiple of 3,600,000,000 mp, a record for each part whose counters changed. -/
def counterSnapshot (s : State) : State :=
  if s.clock.count % 3600000000 = 0 then s.keeper.changed.foldl (fun s p => snapshotPart s p.1 p.2) s else s

/-- COUNTER_SNAPSHOT. -/
def execCounterSnapshot (s : State) : Host.Outcome State Fault Refusal := .next (counterSnapshot s)

end Sys2Proof.Machine
end

