-- ==== Sys2Proof/Machine/PowerOps.lean ====
section
/-! DEFINITION. What the Porter does with power: STAT, FAULT_N and in-band interrupts (R454, R455, R484), what a loss of main
power leaves of the ledger and the hardware (R168, R204, R265, R300, R446), the power-off sequence (R444, R445), failed
starts and minimal mode (R464 to R468). -/

namespace Sys2Proof.Machine

open Sys2Proof

/-! ### STAT and the management bus's interrupt (R455, R484) -/

/-- A STAT value (Table 17.5). -/
def StatV.value : StatV → Nat
  | .starting => 0 | .waiting => 1 | .boot => 2 | .ready => 3 | .keeperReset => 4 | .minimal => 5 | .powerFail => 6
  | .poweredOff => 7 | .tripped => 8

/-- MG_STATUS (Table 18.9). -/
def mgStatus (s : State) : Nat :=
  s.power.stat.value + 2 ^ 8 * (if s.clock.holdoverFlag then 1 else 0) + 2 ^ 9 * (if s.power.ready then 1 else 0)
    + 2 ^ 10 * (if s.power.faultN then 1 else 0) + 2 ^ 11 * s.power.failed + 2 ^ 13 * s.clock.st.value
    + 2 ^ 16 * s.power.minReason

/-- An in-band interrupt raised for an event whose enable bit is set: none without a dynamic address; one that is pending
keeps its byte (R484, log entry 49). -/
def raiseIbi (bit : Nat) (s : State) : State :=
  if s.mgmt.dynAddr.isSome && s.mgmt.ibiEnable.testBit bit && s.mgmt.ibi.isNone then
    s.modMgmt (fun m => { m with ibi := some (mgStatus s % 256) })
  else s

/-- Whether FAULT_N is asserted for a STAT value (Table 17.4). -/
def faultFor (v : StatV) : Bool := decide (v = .minimal ∨ v = .tripped)

/-- STAT set, with FAULT_N as Table 17.4 says, and the interrupts of a change (Table 18.11). -/
def setStat (v : StatV) (s : State) : State :=
  let old := s.power
  let s := s.modPower (fun p => { p with stat := v, faultN := faultFor v })
  let s := if old.stat ≠ v then raiseIbi 1 s else s
  if faultFor v && !old.faultN then raiseIbi 2 s else s

/-- Whether the main domains are powered, all of them or CXL only. -/
def mainOn (s : State) : Bool :=
  match s.power.stat with
  | .boot => true
  | .ready => true
  | .keeperReset => true
  | .minimal => true
  | _ => false

/-! ### The journal (R437) -/

/-- Records the journal holds, newest first, once a log has been copied: the newest 65,536 (R423). -/
def mergeLog (log old : List LogRec) : List LogRec :=
  let newestOld := ((old.head?).map (·.number)).getD 0
  ((log.filter (fun r => decide (newestOld < r.number))) ++ old.map (fun r => (log.find? (fun x => decide (x.number = r.number))).getD r)).take 65536

/-- A journal write completed: the ledger written is durable, and the fault log copied (R437). -/
def journaled (l : Led) (log : List LogRec) (s : State) : State :=
  { s with durable := l, keeper := { s.keeper with journalLog := mergeLog log s.keeper.journalLog } }

/-! ### What a loss of main power leaves -/

/-- A wing that comes back: its grade, party, resources and parameters, in status EMPTY; a sealed wing is to be scrubbed before
its first stage (R265). -/
def coldWing (x : Wing) : Wing :=
  if !x.live then { (default : Wing) with gen := x.gen }
  else
    { (default : Wing) with
      live := true, gen := x.gen, sealed := x.sealed, base := x.base, party := x.party, stage := x.stage, nextStage := x.nextStage
      park := x.park, ticketLife := x.ticketLife, weight := x.weight, slotMap := x.slotMap, nextWeight := x.nextWeight
      nextSlotMap := x.nextSlotMap, tiles := x.tiles, pcs := x.pcs, slices := x.slices, loft := x.loft, ports := x.ports
      mustScrub := x.sealed, contexts := tmap (fun _ c => { (default : Ctx) with gen := c.gen }) x.contexts
      window := { (default : Window) with slots := x.window.nextSlots, nextSlots := x.window.nextSlots, set := x.window.set }
      createdAt := x.createdAt }

/-- An object that comes back: ABSENT unless its home is a host buffer (R204); SAVE objects and BASE_COPYs are gone (R204,
R265), and one that was not yet created never was. -/
def coldObj (x : Obj) : Obj :=
  let made := match x.work with
    | .create _ => true
    | .saveCreate _ _ _ => true
    | _ => false
  if !x.live || made || decide (x.kind = .save ∨ x.kind = .baseCopy) then { (default : Obj) with gen := x.gen }
  else if x.place.tier = .host then { x with st := if x.st = .damaged then .damaged else .home, work := .none, refs := 0, blocked := false }
  else { x with st := .absent, place := default, work := .none, content := [], refs := 0, blocked := false }

/-- A room after a loss of main power: FREE (R168). -/
def coldRoom (x : Room) : Room := if x.st = .free then x else { (default : Room) with gen := x.gen + 1 }

/-- A handle that comes back: HOME where its home is a host buffer, else ABSENT (R168). -/
def coldHandle (x : Handle) : Handle :=
  let x := { x with load := none, reading := [], room := 0, home := default }
  match x.st with
  | .unused => x
  | .damaged => { x with blocks := [] }
  | .absent => x
  | .home => if x.homeHost then x else { x with st := .absent, blocks := [] }
  | _ => { x with st := .absent, blocks := [] }

/-- What the ledger comes to when everything volatile that it records is lost (R168, R204, R265, R300). A function that is
ABSENT has no binding (R378). -/
def coldLed (l : Led) : Led :=
  { l with
    wings := tmap (fun _ x => coldWing x) l.wings
    objects := tmap (fun _ x => coldObj x) l.objects
    rooms := tmap (fun _ x => coldRoom x) l.rooms
    handles := tmap (fun _ x => coldHandle x) l.handles
    maps := []
    pcs := tmap (fun _ x => { x with ref := none, correctedAt := [], uncorrectedAt := [] }) l.pcs
    lofts := tmap (fun _ x => { x with ref := none, correctedAt := [], redirect := false }) l.lofts
    rings := tmap (fun _ x => { (default : Ring) with gen := x.gen }) l.rings
    groups := tmap (fun _ x => { (default : Group) with gen := x.gen }) l.groups
    binds := [] }

/-- The ledger as the journal holds it (Table 16.9). What is no record stays: counters of parts, which never clear (R420), and
the bytes of an object or a handle that the durable ledger still knows. -/
def rollback (s : State) : State :=
  let now := s.led
  let d := s.durable
  { s with led :=
    { d with
      objects := tmap (fun i x => if (tget now.objects i).gen = x.gen then { x with content := (tget now.objects i).content } else x) d.objects
      handles := tmap (fun i x => if (tget now.handles i).gen = x.gen then { x with blocks := (tget now.handles i).blocks } else x) d.handles
      pcs := (List.range 512).foldl (fun t i => tmod t i (fun x =>
        { x with corrected := (tget now.pcs i).corrected, uncorrected := (tget now.pcs i).uncorrected })) d.pcs
      lofts := (List.range 16).foldl (fun t i => tmod t i (fun x =>
        { x with corrected := (tget now.lofts i).corrected, uncorrected := (tget now.lofts i).uncorrected })) d.lofts } }

/-- A function's registers after a loss of its power: its counters never clear (R309, R376). -/
def countersOnly (f : Fn) : Fn := { Fn.blank with counters := f.counters, stale := f.stale }

/-- Everything the main domains hold lost (R453, Table 16.9): counters of parts stay (R420). With `keepCxl` the CXL domain stays
as it is, its link up and its configuration space too (R465, R467). -/
def loseMain (keepCxl : Bool) (s : State) : State :=
  { s with
    led := coldLed s.led
    tt := { s.tt with entries := [], due := [] }
    writing := none
    fns := if keepCxl then s.fns else s.fns.foldl (fun t p => tputD Fn.blank t p.1 (countersOnly p.2)) []
    wingPages := []
    stamped := if keepCxl then s.stamped else []
    tickets := []
    tiles := tmap (fun _ t => { (default : Tile) with corrected := t.corrected, uncorrected := t.uncorrected, parity := t.parity }) s.tiles
    quarters := tmap (fun _ q => { (default : Quarter) with corrected := q.corrected, uncorrected := q.uncorrected }) s.quarters
    qmem := []
    updEngines := []
    jobs := []
    runs := []
    cellar := { s.cellar with requests := [], visiting := none, lastHolder := [] }
    ports := tmap (fun _ p => { (default : Port) with
      corrected := p.corrected, uncorrected := p.uncorrected, symbols := p.symbols, discarded := p.discarded }) s.ports
    fabric := { (default : Fabric) with withdrawn := true, relayDiscards := s.fabric.relayDiscards }
    clock := { s.clock with lockedHeard := false, heard := [] }
    secure := { s.secure with waitingPassports := [], removals := [],
                              ideKeys := if keepCxl then s.secure.ideKeys else [], ideIo := keepCxl && s.secure.ideIo, ideCm := keepCxl && s.secure.ideCm }
    keeper := { s.keeper with up := false, resetting := false, doze := false, alarm := none, handover := .none, unrecorded := 0,
                              image := [], memCorrectedAt := [] }
    porter := { s.porter with running := none }
    power := { s.power with ready := false, memActive := false
                            domains := if keepCxl then s.power.domains.filter (fun d => decide (d.1 = 7)) else [] }
    link :=
      if keepCxl then { s.link with decoders := [], region := [], written := [], poisoned := [], poisonAll := false }
      else { (default : Link) with staleTotal := s.link.staleTotal } }

/-- The power-off sequence from t0 + 20 ns on (R444, Table 16.8): every wing is fenced at once; where it is asked for and the
keeper runs, a last journal write takes every record (a start that has not reached READY has made none) and the fault log; then the main domains go off. STAT ends at `final`,
and no start begins until PERST_N has been asserted and deasserted (R448). -/
def powerOff (final : StatV) (journal : Bool) (s : State) : State :=
  let s := if journal && s.keeper.up then journaled (if s.power.ready then s.led else s.durable) s.keeper.log s else rollback s
  let s := (loseMain false s).modPower (fun p =>
    { p with step := 0, bootStep := 0, minimal := false, minReason := 0, retryWait := false, startsHeld := true })
  setStat final s

/-- A power-off asked for while the main domains are on; otherwise there is nothing to turn off. -/
def powerOffIfOn (final : StatV) (journal : Bool) (s : State) : State := if mainOn s then powerOff final journal s else s

/-! ### Failed starts and minimal mode (R464 to R468) -/

/-- The effects of a loss of the link on the functions in minimal mode's entry (R374, R467): VFs are ABSENT, and VF0 has its
registers' reset values. -/
def minimalFns (s : State) : Tbl Fn :=
  let f := s.fn 0
  tputD Fn.blank (s.fns.foldl (fun t p => tputD Fn.blank t p.1 { (countersOnly p.2) with gen := p.2.gen }) []) 0
    { (countersOnly f) with st := .enabled, gen := if f.st = .enabled then f.gen + 1 else f.gen }

/-- Minimal mode entered (R467): the journal is written first if the keeper runs, every main domain but CXL goes off, the keeper
runs from its ROM, the link trains again as CXL.io only, and MINIMAL, MIN_REASON, STAT, FAULT_N and the log say so. -/
def enterMinimal (reason : Nat) (s : State) : State :=
  let s := if s.keeper.up then journaled (if s.power.ready then s.led else s.durable) s.keeper.log s else rollback s
  let wasUp := s.link.up
  let s := loseMain true s
  let fns := minimalFns s
  let s := { s with fns := fns, stamped := [] }
  let s := s.modLink (fun l =>
    { l with up := wasUp, cache := false, mem := false, vfEnable := false, numVfs := 0 })
  let s := s.modSecure (fun x => { x with ideIo := false, ideCm := false, ideKeys := [] })
  let s := s.modKeeper (fun k => { k with up := true, image := Config.romImage })
  let s := s.modPower (fun p => { p with minimal := true, minReason := reason, step := 0, retryWait := false, startsHeld := true })
  logOnly (setStat .minimal s) .minimalMode {} [reason]

/-- Reasons marked "at once" in Table 17.10. -/
def atOnce (reason : Nat) : Bool :=
  decide (reason = 0x0101 ∨ reason = 0x0102 ∨ reason = 0x0103 ∨ reason = 0x0201 ∨ reason = 0x0202)

/-- Held commands lost at a keeper reset (R326, R334). -/
def dropHeld (s : State) : State :=
  s.modLed (fun l => { l with sessions := tmap (fun _ x => { x with held := [], gapNoticed := 0 }) l.sessions })

/-- The keeper stopped by a reset: its cores stop, and the hardware runs on (R438). Held commands are lost (R334), a journal
write under way is cut off, and a handover's fate is Table 16.10's and R441's. -/
def stopKeeper (s : State) : State :=
  let h := match s.keeper.handover with
    | .checked _ ref => Handover.failed ref
    | .restarting _ ref _ => Handover.failed ref
    | .failed ref => Handover.failed ref
    | _ => Handover.none
  let s := { dropHeld s with writing := none, secure := { s.secure with waitingPassports := [] } }
  let s := s.modKeeper (fun k => { k with up := false, resetting := true, since := s.clock.count, doze := false, alarm := none,
                                          handover := h, image := if s.power.minimal then Config.romImage else k.stored })
  if s.power.ready then setStat .keeperReset s else s

/-- A failed start (R464 to R466): logged and counted; then minimal mode, or a further attempt. -/
def failedStart (reason : Nat) (s : State) : State :=
  let s := logOnly s .failedStart {} [reason]
  let s := s.modPower (fun p => { p with failed := Nat.min (p.failed + 1) 3 })
  if atOnce reason || decide (s.power.failed = 3) then enterMinimal reason s
  else if s.power.ready then stopKeeper s
  else (loseMain true (rollback s)).modPower (fun p => { p with step := 0, bootStep := 1, retryWait := true })

end Sys2Proof.Machine
end

