-- ==== Sys2Proof/Machine/Domains.lean ====
section
/-! DEFINITION. Power domains in service: domain-set with its one running and one queued request (R362, R363, R451, R469), the
sequences of Table 17.3, power-good and its absence (R452), and what a domain that goes off loses (R300, R453). -/

namespace Sys2Proof.Machine

open Sys2Proof

/-! ### What a request finds -/

/-- Physical tiles of a quarter, or those of them that a mask names (Table 13.16). -/
def quarterTiles (q mask : Nat) : List Nat :=
  ((List.range 34).filter (fun i => decide (mask = 0) || mask.testBit i)).map (fun i => 34 * q + i)

/-- Ports of a Waylink group (Table 17.2). -/
def groupPorts (d : Nat) : List Nat := (List.range 6).map (fun i => 6 * (d - 8) + i)

/-- Physical tiles that serve a logical tile some wing owns. -/
def ownedTiles (s : State) : List Nat :=
  (maskList 128 (s.liveWings.foldl (fun m w => m ||| (s.wing w).tiles) 0)).filterMap (physTile s)

/-- Whether anything has a home or a range in the Loft (R451), or a decoder is committed (R388). -/
def loftUsed (s : State) : Bool :=
  s.led.objects.any (fun o => o.2.live && (decide (o.2.place.tier = .loft) || decide ((workDest o.2.work).map (·.tier) = some .loft)))
    || s.led.handles.any (fun h => !h.2.homeHost && decide (h.2.st ≠ .unused ∧ h.2.st ≠ .absent ∧ h.2.st ≠ .damaged))
    || s.led.lofts.any (fun c => decide (0 < c.2.mirror)) || s.link.decoders.any (fun d => d.2.committed)

/-- Whether a domain-set off is refused (R363, R388, R451). -/
def domainBusy (s : State) (d mask : Nat) : Bool :=
  if d < 4 then (quarterTiles d mask).any (fun p => (ownedTiles s).contains p)
  else if d = 4 then decide (s.liveWings ≠ [])
  else if d = 5 then decide (s.liveWings ≠ []) || s.cellar.bases.any (fun b => b.2.install.isSome)
  else if d = 6 then decide (s.liveWings ≠ []) || loftUsed s
  else s.liveWings.any (fun w => (groupPorts d).any (fun p => (s.wing w).ports.testBit p))

/-- Whether a domain already is as a request asks (R362). A whole quarter is on when its domain and every tile's supply are. -/
def domainAlready (s : State) (d : Nat) (r : DomReq) : Bool :=
  let tiles := quarterTiles d r.mask
  if r.mask ≠ 0 then tiles.all (fun p => decide (tget s.led.tilesOff p = !r.on))
  else if r.on then decide ((s.domain d).st = .on) && (decide (4 ≤ d) || tiles.all (fun p => !tget s.led.tilesOff p))
  else decide ((s.domain d).st = .off)

/-! ### Sequences (R452, R453, Table 17.3) -/

/-- Supplies behind the gates of some tiles: while one is off its gate cannot open (R450). -/
def setSupplies (off : Bool) (tiles : List Nat) (s : State) : State :=
  settleGates (tiles.foldl (fun s p => s.modTile p (fun t => { t with supplyOff := off })) s)

/-- A request's sequence begun. -/
def startDomain (d : Nat) (r : DomReq) (s : State) : State :=
  let s := s.modDomain d (fun x =>
    { x with run := some r, ended := false
             st := if r.mask ≠ 0 then x.st else if !r.on then .falling else if x.st = .off then .rising else x.st })
  if d < 4 ∧ !r.on then setSupplies true (quarterTiles d r.mask) s else s

/-- What a domain holds once it is on: the gates of the wings' tiles open (R450). -/
def domainOn (d : Nat) (s : State) : State :=
  let s := s.modDomain d (fun x => { x with st := .on })
  if d < 4 then
    settleGates ((quarterTiles d 0).foldl (fun s p => s.modTile p (fun t => { t with supplyOff := tget s.led.tilesOff p })) s)
  else s

/-- A port taken OFF with the effects of DOWN (R271, R300). -/
def portOff (s : State) (p : Nat) : State :=
  let was := inService (s.port p)
  let s := dropPort s p .off
  let s := s.modPort p (fun x => { x with retryAt := none, held := none })
  if was then notify s .portDown (atPort p) [p] else s

/-- A domain gone off: everything it held is lost but its parts' counters (R420, R453). -/
def domainOff (d : Nat) (s : State) : State :=
  let s := s.modDomain d (fun x => { x with st := .off })
  if d < 4 then
    let s := (quarterTiles d 0).foldl (fun s p => s.modTile p (fun t =>
      { (default : Tile) with supplyOff := true, corrected := t.corrected, uncorrected := t.uncorrected, parity := t.parity })) s
    { s with qmem := mclear s.qmem (d * 64 * 2 ^ 20) (64 * 2 ^ 20), updEngines := terase s.updEngines d }
  else if d = 5 then s.modCellar (fun c => { c with requests := [], visiting := none })
  else if 8 ≤ d then settleRetrains ((groupPorts d).foldl portOff s)
  else s

/-- The ledger's record of a request that has completed (R449). -/
def recordDomain (d : Nat) (r : DomReq) (s : State) : State :=
  let s := if d < 4 then (quarterTiles d r.mask).foldl (fun s p =>
      s.modLed (fun l => { l with tilesOff := if r.mask = 0 ∧ !r.on then l.tilesOff else tput l.tilesOff p (!r.on) })) s else s
  if r.mask = 0 then s.modLed (fun l => { l with domainsOff := tput l.domainsOff d (!r.on) }) else s

/-- The queued request taken up once none runs: refused if it now fails its check, complete at once if the domain already is as
it asks, else begun (R362, R363). -/
def nextDomain (d : Nat) (s : State) : State :=
  match (s.domain d).queue with
  | none => s
  | some q =>
    let s := s.modDomain d (fun x => { x with queue := none })
    if !q.on && domainBusy s d q.mask then finish s q.ref .domainBusy []
    else if domainAlready s d q then finish s q.ref .complete []
    else startDomain d q s

/-- The completion of a domain's running request recorded, once the keeper runs (R362, R472), and the next one begun. -/
def settleDomain (d : Nat) (s : State) : State :=
  match (s.domain d).run with
  | none => s
  | some r =>
    if !s.keeper.up || !(s.domain d).ended then s
    else
      let s := s.bump.modDomain d (fun x => { x with run := none, ended := false })
      let s := recordDomain d r s
      let s := if d < 4 ∧ r.on then domainOn d s else s
      nextDomain d (finishIn s r.ref .complete [])

/-- Domains whose sequences ended while the keeper did not run. -/
def settleDomains (s : State) : State := (List.range 14).foldl (fun s d => settleDomain d s) s

/-! ### domain-set -/

/-- Layout of domain-set. -/
def domainSetParse (p : Bytes) : Bool :=
  fixedLayout 16 [(2, 6)] p && decide (field p 0 1 < 16 ∧ field p 1 1 < 2 ∧ field p 8 8 < 2 ^ 34)
    && (decide (field p 0 1 < 4) || decide (field p 8 8 = 0))

/-- domain-set: CXL and the always-on domain are not switched by command (Table 13.15). -/
def domainSetCmd : KCmd :=
  { code := 0x0A07, cls := .long, parse := domainSetParse
    perm := fun s h p => fromVf0 s h p && decide (field p 0 1 ≠ 7 ∧ field p 0 1 ≠ 14 ∧ field p 0 1 ≠ 15)
    body := fun s h p =>
      let d := field p 0 1
      let r : DomReq := { on := decide (field p 1 1 = 1), mask := field p 8 8, ref := refOf h 0x0A07 }
      if !r.on && domainBusy s d r.mask then .refuse .domainBusy []
      else if (s.domain d).run.isSome then
        .long (fun s =>
          let old := (s.domain d).queue
          let s := s.modDomain d (fun x => { x with queue := some r })
          match old with
          | some q => finishIn s q.ref .superseded []
          | none => s) .deferred [] none
      else if domainAlready s d r then .long (fun s => s) .accepted [] (some (fun s => finish s r.ref .complete []))
      else .long (startDomain d r) .accepted [] none }

/-- DOMAIN_SET. -/
def execDomainSet (h : CmdHdr) (p : Bytes) (s : State) : Host.Outcome State Fault Refusal := .next (kcp domainSetCmd h p s)

/-! ### Events -/

/-- A Waylink group's ports begin to train as its supply comes good (Table 17.3, R300). -/
def trainGroup (d : Nat) (s : State) : State :=
  (groupPorts d).foldl (fun s p => s.modPort p (fun x => if x.st = .off then trainPort x else x)) s

/-- DOMAIN_POWER_GOOD: the isolation cells are released and the work of Table 17.3 begins. -/
def powerGood (d : Nat) (s : State) : State :=
  if (s.domain d).st = .rising then
    let s := s.modDomain d (fun x => { x with st := .settling })
    if 8 ≤ d then trainGroup d s else s
  else s

/-- DOMAIN_POWER_GOOD. -/
def execDomainPowerGood (domain : Nat) (s : State) : Host.Outcome State Fault Refusal := onPart domain 14 s (powerGood domain)

/-- POWER_GOOD_TIMEOUT: the supply is turned off again; a request ends with DOMAIN_FAULT and a fault-log record, and a start
fails (R452, Table 17.10). -/
def powerGoodTimeout (d : Nat) (s : State) : State :=
  if (s.domain d).st = .rising then
    let run := (s.domain d).run
    let s := s.modDomain d (fun x => { x with st := .off, run := none, ended := false })
    match run with
    | some r => nextDomain d (finish s r.ref .domainFault [])
    | none => if s.power.step ≠ 0 then failedStart 0x0301 s else s
  else s

/-- POWER_GOOD_TIMEOUT. -/
def execPowerGoodTimeout (domain : Nat) (s : State) : Host.Outcome State Fault Refusal := onPart domain 14 s (powerGoodTimeout domain)

/-- DOMAIN_SEQUENCE_DONE: the sequence's end, by hardware, and its record once the keeper runs. A group's is not done while a port
of it trains. -/
def domainSequenceDone (d : Nat) (s : State) : State :=
  let x := s.domain d
  let done (s : State) : State := settleDomain d (s.modDomain d (fun x => { x with ended := x.run.isSome }))
  let tilesOnly := (x.run.map (fun r => decide (r.mask ≠ 0) || (r.on && decide (x.st = .on)))).getD false
  match x.st with
  | .settling =>
    if 8 ≤ d ∧ (groupPorts d).any (fun p => decide ((s.port p).st = .training)) then s
    else done (domainOn d s)
  | .falling => done (domainOff d s)
  | _ => if tilesOnly then done s else s

/-- DOMAIN_SEQUENCE_DONE. -/
def execDomainSequenceDone (domain : Nat) (s : State) : Host.Outcome State Fault Refusal := onPart domain 14 s (domainSequenceDone domain)

end Sys2Proof.Machine
end

