-- ==== Sys2Proof/Machine/Keeper.lean ====
section
/-! DEFINITION. The keeper and its journal (R436 to R441): journal writes, resets and what follows them, errors of keeper memory,
and live handover to a new image. -/

namespace Sys2Proof.Machine

open Sys2Proof

/-! ### The journal (R437) -/

/-- JOURNAL_WRITE: at a milepost that is a whole multiple of 1,000 the keeper starts to write every record it has committed. -/
def journalWrite (s : State) : State :=
  if s.clock.count % 1000 = 0 ∧ s.keeper.up ∧ !s.keeper.doze ∧ s.power.ready ∧ s.writing.isNone then
    { s with writing := some (s.led, s.keeper.log) }
  else s

/-- JOURNAL_WRITE. -/
def execJournalWrite (s : State) : Host.Outcome State Fault Refusal := .next (journalWrite s)

/-- A journal write since a new image took over counts toward R441. -/
def noteWrite (s : State) : State :=
  match s.keeper.handover with
  | .running image _ => s.modKeeper (fun k => { k with handover := .running image true })
  | _ => s

/-- JOURNAL_WRITE_DONE: the write is complete and DURABLE_VERSION changes. -/
def journalWriteDone (s : State) : State :=
  match s.writing with
  | some (l, log) => noteWrite (journaled l log { s with writing := none })
  | none => s

/-- JOURNAL_WRITE_DONE. -/
def execJournalWriteDone (s : State) : Host.Outcome State Fault Refusal := .next (journalWriteDone s)

/-! ### Resets (R438, R334) -/

/-- WATCHDOG_EXPIRY: a core has not signalled for 10 ms. -/
def watchdogExpiry (core : Nat) (s : State) : State :=
  if s.keeper.up && !s.keeper.doze then stopKeeper (logOnly s .keeperWatchdog { kind := 10, place := core } [core]) else s

/-- WATCHDOG_EXPIRY. -/
def execWatchdogExpiry (core : Nat) (s : State) : Host.Outcome State Fault Refusal := .next (watchdogExpiry core s)

/-- KEEPER_CACHE_ERROR: an uncorrectable error in a core's caches resets the keeper. -/
def keeperCacheError (s : State) : State := if s.keeper.up then stopKeeper s else s

/-- KEEPER_CACHE_ERROR. -/
def execKeeperCacheError (_core : Nat) (s : State) : Host.Outcome State Fault Refusal := .next (keeperCacheError s)

/-- Loads cut short by a keeper reset: their rooms are FREE and their sources kept (R167, log entry 47). -/
def cutLoads (s : State) : State :=
  ((s.led.handles.filter (fun h => h.2.load.isSome)).map (·.1)).foldl (fun s i => failLoad s i .adapterBad) s

/-- The keeper runs again: what hardware did meanwhile is recorded (R442), and a module whose entries lapsed for M rounds
withdraws (R281). -/
def resumeKeeper (s : State) : State :=
  let n := s.keeper.unrecorded
  let s := s.modKeeper (fun k => { k with up := true, resetting := false, unrecorded := 0 })
  let s := s.modLed (fun l => { l with version := l.version + n })
  let s := if s.power.ready ∧ !s.fabric.withdrawn ∧ s.led.fab.absenceM ≤ s.fabric.unsent then withdraw s.bump else s
  if s.power.ready then setStat .ready s else s

/-- Work of hardware that ended while the keeper did not run, recorded. -/
def settleAll (s : State) : State := carryMoves (settleMaps (settleRetrains (settleDomains s)))

/-- KEEPER_RESTART_DONE: KEEPER_UP reads 1 and KEEPER_RESTARTED is sent on every function. A reset that has lasted longer than 1 s
is a failed start (R438, R464), but not in minimal mode, which PERST_N alone ends (R468). -/
def keeperRestartDone (s : State) : State :=
  if !s.keeper.resetting then s
  else if s.keeper.since + 1000000 < s.clock.count ∧ !s.power.minimal then failedStart 0x0501 s
  else
    let h := s.keeper.handover
    let s := cutLoads (resumeKeeper s)
    let s := s.modKeeper (fun k => { k with handover := .none })
    let s := match h with
      | .failed ref => finish s ref .firmwareBad []
      | _ => s
    let s := if s.power.ready then s.modPower (fun p => { p with failed := 0 }) else s
    let s := { s with porter := { s.porter with running := if s.porter.running = some 1 then none else s.porter.running } }
    settleAll (notifyEvery s .keeperRestarted [])

/-- KEEPER_RESTART_DONE. -/
def execKeeperRestartDone (s : State) : Host.Outcome State Fault Refusal := .next (keeperRestartDone s)

/-! ### Keeper memory (R436) -/

/-- Host sessions after a RESTART record (R335): LAPSED, their lapse holds counted from it. -/
def lapseAll (s : State) : State :=
  s.modLed (fun l => { l with sessions := tmap (fun _ x =>
    if x.st = .closed then x
    else { x with st := .lapsed, before := if x.st = .lapsed then x.before else x.st, held := [], gapNoticed := 0
                  lapsedAt := s.clock.count }) l.sessions })

/-- The RESTART record (R321): its version is the durable one and 2^24. -/
def restartRecord (s : State) : State :=
  lapseAll (s.modLed (fun l => { l with version := s.durable.version + 2 ^ 24 }))

/-- A record's copies in both banks uncorrectable: the ledger is rebuilt from the journal (R436). -/
def rebuildLedger (s : State) : State := restartRecord { (rollback s) with writing := none }

/-- KEEPER_MEMORY_ERROR, by the banks whose copy is uncorrectable: a corrected error is counted, and 100 within 1,000,000,000 mp
are a crossing; one bank's copy is written back from the other's (R419, R436). -/
def keeperMemoryError (banksBad : Nat) (s : State) : State :=
  if banksBad = 0 then
    let l := inWindow s.clock.count 1000000000 s.keeper.memCorrectedAt
    let full := decide (100 ≤ l.length)
    let s := s.modKeeper (fun k => { k with memCorrected := wrapAdd k.memCorrected 1, memCorrectedAt := if full then [] else l })
    if full then notify s .keeperMemorySuspect {} [] else s
  else if banksBad = 1 then s
  else rebuildLedger s

/-- KEEPER_MEMORY_ERROR. -/
def execKeeperMemoryError (banksBad : Nat) (s : State) : Host.Outcome State Fault Refusal := .next (keeperMemoryError banksBad s)

/-! ### Live handover (R439 to R441) -/

/-- The outcome of reading and checking an image (R439, Table 14.4). A second handover while one is under way is told
FIRMWARE_BAD (log entry 45). -/
def checkImage (ref : CmdRef) (fn n : Nat) (host : HostRead) (s : State) : State :=
  match hostBytes s fn host with
  | none => finish s ref .firmwareBad []
  | some b =>
    if 2 ^ 24 < n ∨ b.length ≠ n ∨ !Config.imageAccepted b ∨ s.keeper.handover ≠ .none then finish s ref .firmwareBad []
    else s.modKeeper (fun k => { k with handover := .checked b ref })

/-- firmware-handover. -/
def firmwareHandoverCmd (host : HostRead) : KCmd :=
  { code := 0x0A06, cls := .long, parse := fun p => fixedLayout 12 [] p && lineAligned p 0, perm := fromVf0
    body := fun _ h p =>
      .long (fun s => s) .accepted [] (some (checkImage (refOf h 0x0A06) h.fn (field p 8 4) host)) }

/-- FIRMWARE_HANDOVER. -/
def execFirmwareHandover (h : CmdHdr) (p : Bytes) (host : HostRead) (s : State) : Host.Outcome State Fault Refusal :=
  .next (kcp (firmwareHandoverCmd host) h p s)

/-- HANDOVER_TAKEOVER, in its two halves (log entry 46): at a journal-write milepost the journal is written and the cores restart
on the new image; then the new firmware has resumed the ledger and commits the completion (R440). -/
def handoverTakeover (s : State) : State :=
  match s.keeper.handover with
  | .checked image ref =>
    if s.clock.count % 1000 = 0 ∧ s.keeper.up ∧ s.power.ready then
      let s := journaled s.led s.keeper.log { s with writing := none }
      setStat .keeperReset (s.modKeeper (fun k =>
        { k with up := false, doze := false, alarm := none, since := s.clock.count, handover := .restarting image ref s.clock.count }))
    else s
  | .restarting image ref _ =>
    let s := resumeKeeper s
    let s := s.modKeeper (fun k => { k with image := image, handover := .running image false })
    let s := notifyEvery (finish s ref .complete []) .firmwareChanged []
    settleAll (s.modSecure (fun x => { x with passports := [] }))
  | _ => s

/-- HANDOVER_TAKEOVER. -/
def execHandoverTakeover (s : State) : Host.Outcome State Fault Refusal := .next (handoverTakeover s)

/-- HANDOVER_TIMEOUT: the new firmware has not resumed within 100 ms, so the cores restart on the stored image, and the attempt
counts as a failed start (R441). -/
def handoverTimeout (s : State) : State :=
  match s.keeper.handover with
  | .restarting _ _ since =>
    if since + 100000 ≤ s.clock.count then failedStart 0x0504 s else s
  | _ => s

/-- HANDOVER_TIMEOUT. -/
def execHandoverTimeout (s : State) : Host.Outcome State Fault Refusal := .next (handoverTimeout s)

/-- IMAGE_STORE_WRITE: after a further journal write the new image is staged, programmed, read back and checked (R441). -/
def imageStoreWrite (s : State) : State :=
  match s.keeper.handover with
  | .running image true => if s.keeper.up then s.modKeeper (fun k => { k with stored := image, handover := .none }) else s
  | _ => s

/-- IMAGE_STORE_WRITE. -/
def execImageStoreWrite (s : State) : Host.Outcome State Fault Refusal := .next (imageStoreWrite s)

end Sys2Proof.Machine
end

