-- ==== Sys2Proof/Machine/HostPort.lean ====
section
/-! DEFINITION. The host port (chapter 14): functions and their resets (R371 to R374), host accesses and their failures (R375 to
R377), vf-set (R362), ring registers and plain register writes (R379, R382, R385), the link (R366 to R370), the HDM decoders
and CXL.mem (R388, R389), IDE failures (R390), DOE discovery (R391), and the Porter's operations (R384, R442). -/

namespace Sys2Proof.Machine

open Sys2Proof

/-! ### Host accesses of a function (R375 to R377) -/

/-- The function whose address a load from a host buffer reads (R375). -/
def loadFn (x : Handle) (l : Load) : Nat := match l.ref with
  | some r => r.fn
  | none => x.hostFn

/-- Whether an object's work reads or writes host memory of a function. -/
def worksFor (fn : Nat) (x : Obj) : Bool :=
  x.live && hostTransfer x && (match x.work with
    | .write _ _ _ r => decide (r.fn = fn)
    | .read _ _ _ r => decide (r.fn = fn)
    | .move d _ _ => (decide (d.tier = .host ∧ d.hostFn = fn)) || decide (x.place.tier = .host ∧ x.place.hostFn = fn)
    | .create _ => decide (x.place.hostFn = fn)
    | .grow _ d _ => decide (d.hostFn = fn)
    | _ => false)

/-- A load from a host buffer ended by a failed access: a reload's sessions end, a command's room is FREE and its source kept
(Table 14.4). -/
def endHostLoad (s : State) (i : Nat) : State :=
  match (s.handle i).load with
  | some l => if l.reload then endReload s i .hostAccessFault else failLoad s i .hostAccessFault
  | none => s

/-- Adapter-reads of a handle for a function ended by a failed access. -/
def endHostReads (fn : Nat) (s : State) (i : Nat) : State :=
  let l := (s.handle i).reading.filter (fun r => decide (r.fn = fn))
  l.foldl (fun s r => finish s r .hostAccessFault [])
    (s.modHandle i (fun x => { x with reading := x.reading.filter (fun r => decide (r.fn ≠ fn)) }))

/-- An installation whose source reads a function's memory ended as by install-cancel (R216). -/
def endHostInstall (s : State) (b : Nat) : State := cutInstall s.bump b .installIncomplete

/-- Whether a base is being installed from a function's memory. -/
def installsFrom (fn : Nat) (b : Base) : Bool := match b.install with
  | some i => decide (i.role = .source ∧ i.hostFn = fn)
  | none => false

/-- Every host access of a function stopped, with the effect of Table 14.4 on the work that needed it (R372, R373). -/
def stopHostAccesses (fn : Nat) (s : State) : State :=
  let objs := (s.led.objects.filter (fun o => worksFor fn o.2)).map (·.1)
  let loads := (s.led.handles.filter (fun h => match h.2.load with
    | some l => !l.fromLoft && decide (loadFn h.2 l = fn)
    | none => false)).map (·.1)
  let reads := (s.led.handles.filter (fun h => h.2.reading.any (fun r => decide (r.fn = fn)))).map (·.1)
  let bases := (s.cellar.bases.filter (fun b => installsFrom fn b.2)).map (·.1)
  let s := objs.foldl (fun s i => endHostWork s.bump i) s
  let s := loads.foldl (fun s i => endHostLoad s.bump i) s
  let s := reads.foldl (endHostReads fn) s
  carryMoves (bases.foldl endHostInstall s)

/-- A stale completion discarded and counted (R376). -/
def staleCompletion (fn : Nat) (s : State) : State :=
  (s.modFn fn (fun f => { f with stale := wrapAdd f.stale 1 })).modLink (fun l => { l with staleTotal := wrapAdd l.staleTotal 1 })

/-- What a failed host access does (Table 14.4). -/
def accessFails (fn : Nat) (a : HostAccess) (s : State) : State :=
  match a with
  | .ringRead => if (s.fn fn).window then s else ringFault s fn
  | .replyWrite => if (s.fn fn).window then s else ringFault s fn
  | .noticeWrite => if (s.fn fn).window then s else ringFault s fn
  | .objectWrite i => if worksFor fn (s.obj i) && inTransfer (s.obj i).work then carryMoves (endHostWork s.bump i) else s
  | .objectRead i => if worksFor fn (s.obj i) && inTransfer (s.obj i).work then carryMoves (endHostWork s.bump i) else s
  | .objectMove i => if worksFor fn (s.obj i) && !inTransfer (s.obj i).work then carryMoves (endHostWork s.bump i) else s
  | .objectCreate i => if worksFor fn (s.obj i) && !inTransfer (s.obj i).work then carryMoves (endHostWork s.bump i) else s
  | .adapterRead i => if (s.handle i).reading.any (fun r => decide (r.fn = fn)) then endHostReads fn s i else s
  | .adapterLoad r =>
    match (s.handle (s.room r).handle).load with
    | some l =>
      if l.room = r ∧ !l.fromLoft ∧ !l.reload ∧ loadFn (s.handle (s.room r).handle) l = fn then endHostLoad s.bump (s.room r).handle else s
    | none => s
  | .reload r =>
    match (s.handle (s.room r).handle).load with
    | some l =>
      if l.room = r ∧ !l.fromLoft ∧ l.reload ∧ loadFn (s.handle (s.room r).handle) l = fn then endHostLoad s.bump (s.room r).handle else s
    | none => s
  | .baseInstall b => if installsFrom fn (s.base b) then endHostInstall s b else s
  | .firmware => s
  | .translation _ => s

/-- A translation that enters a function's cache of 4,096 entries (R375). Where the cache is full it displaces one, which
the spec does not choose: a free value (log entry 64). -/
def cacheTranslation (fn page : Nat) (s : State) : State :=
  let l := (s.fn fn).atc.filter (fun q => decide (q ≠ page))
  if (s.fn fn).ats = false then s
  else if l.length < 4096 then s.modFn fn (fun f => { f with atc := page :: l })
  else s.draw.modFn fn (fun f => { f with atc := page :: l.eraseIdx (Config.freeNat s.free % 4096) })

/-- What a host access that completes without error does of its own: the work that needed it goes on by its own rows. -/
def accessDone (fn : Nat) (a : HostAccess) (s : State) : State :=
  match a with
  | .translation page => cacheTranslation fn page s
  | _ => s

/-- HOST_COMPLETION: one of an older generation is discarded and counted; one that failed, or that translates an address, has
its effect. -/
def hostCompletion (fn gen : Nat) (ok : Bool) (a : HostAccess) (s : State) : State :=
  if gen < (s.fn fn).gen then staleCompletion fn s
  else if gen = (s.fn fn).gen then (if ok then accessDone fn a s else accessFails fn a s)
  else s

/-- HOST_COMPLETION. -/
def execHostCompletion (fn gen : Nat) (ok : Bool) (access : HostAccess) (s : State) : Host.Outcome State Fault Refusal :=
  onPart fn 256 s (hostCompletion fn gen ok access)

/-- ATS_INVALIDATE: a page leaves the translation cache (R375). -/
def atsInvalidate (fn page : Nat) (s : State) : State := s.modFn fn (fun f => { f with atc := f.atc.filter (fun p => decide (p ≠ page)) })

/-- ATS_INVALIDATE. -/
def execAtsInvalidate (fn page : Nat) (s : State) : Host.Outcome State Fault Refusal := onPart fn 256 s (atsInvalidate fn page)

/-! ### Function states (R372 to R374) -/

/-- A function state's value in FUNCTION_STATE (Table 14.3). -/
def FnSt.value : FnSt → Nat
  | .absent => 0xFF | .disabled => 0 | .enabled => 1 | .resetting => 2

/-- FUNCTION_STATE for a virtual function (R373). -/
def tellFunction (s : State) (fn : Nat) : State :=
  if fn = 0 then s else notify s .functionState (atFn fn) [fn, (s.fn fn).st.value, (s.fn fn).gen]

/-- The generation of a function that leaves a state: it rises as it leaves ENABLED (R372). -/
def leavingGen (f : Fn) : Nat := if f.st = .enabled then (f.gen + 1) % 2 ^ 32 else f.gen

/-- Steps 1 to 4 of R373: no further host access, words not yet stamped discarded, host sessions LAPSED, and the function block and
MSI-X table at their reset values. Counters never clear (R309), and the vf-set queue and the kept session-open replies stay. -/
def resetSteps (fn : Nat) (to_ : FnSt) (keepBme : Bool) (s : State) : State :=
  let f : Fn := s.fn fn
  let s := s.setFn fn
    { (countersOnly f) with st := to_, before := if f.st = .resetting then f.before else f.st, gen := leavingGen f
                            bme := f.bme && keepBme, ats := f.ats && keepBme, opens := f.opens, vfRun := f.vfRun, vfQueue := f.vfQueue
                            page := f.page }
  stopHostAccesses fn (lapseFunction s fn)

/-- A virtual function made ABSENT: steps 1 to 4 of R373; its binding is lost (R378), and vf-set requests for it end with
FUNCTION_ABSENT (Table 14.19). -/
def makeAbsent (s : State) (fn : Nat) : State :=
  if (s.fn fn).st = .absent then s
  else
    let s := resetSteps fn .absent false s
    let run := (s.fn fn).vfRun
    let queue := (s.fn fn).vfQueue
    let s := s.modFn fn (fun f => { f with vfRun := none, vfQueue := none })
    let s := s.modLed (fun l => { l with binds := l.binds.filter (fun b => decide (b.2 ≠ some fn)) })
    let s := (run.toList ++ queue.toList).foldl (fun s q => finish s q.ref .functionAbsent []) s
    tellFunction s fn

/-- Virtual functions that are not ABSENT, ascending. -/
def presentVfs (s : State) : List Nat := (s.fns.filter (fun p => decide (p.1 ≠ 0 ∧ p.2.st ≠ .absent))).map (·.1)

/-- VF Enable cleared: every VF becomes ABSENT (R374). -/
def clearVfEnable (s : State) : State :=
  (presentVfs s).foldl makeAbsent (s.modLink (fun l => { l with vfEnable := false }))

/-- FLR of VF0: VF0 resets, and VF Enable is cleared (R374). -/
def resetVf0 (s : State) : State :=
  let s := s.bump
  let s := if (s.fn 0).st = .absent ∨ (s.fn 0).st = .resetting then s else resetSteps 0 .resetting false s
  clearVfEnable s

/-- FLR (R373): it joins a reset that runs (Table 14.19). -/
def flr (fn : Nat) (s : State) : State :=
  if !mainOn s then s
  else if fn = 0 then resetVf0 s
  else if (s.fn fn).st = .absent ∨ (s.fn fn).st = .resetting then s
  else tellFunction (resetSteps fn .resetting false s.bump) fn

/-- FLR. -/
def execFlr (fn : Nat) (s : State) : Host.Outcome State Fault Refusal := onPart fn 256 s (flr fn)

/-- A vf-set request begun for a function with none running (R362, R372): an enable completes at once where no reset runs. -/
def startVf (fn : Nat) (q : VfReq) (s : State) : State :=
  let f : Fn := s.fn fn
  let same : Bool := match q.act with
    | .disable => decide (f.st = .disabled)
    | .enable => decide (f.st = .enabled)
    | .reset => false
  if same then finish s q.ref .complete []
  else if f.st = .resetting then s.modFn fn (fun f => { f with vfRun := some q })
  else if q.act = .enable then finish (tellFunction (s.modFn fn (fun f => { f with st := .enabled })) fn) q.ref .complete []
  else tellFunction (resetSteps fn .resetting true (s.modFn fn (fun f => { f with vfRun := some q }))) fn

/-- Whether a virtual function exists (R371). -/
def vfExists (s : State) (fn : Nat) : Bool := s.link.vfEnable && decide (1 ≤ fn ∧ fn ≤ s.link.numVfs)

/-- The action a code names (Table 13.16). -/
def vfActOf (n : Nat) : VfAct := if n = 0 then .disable else if n = 1 then .enable else .reset

/-- vf-set. -/
def vfSetCmd : KCmd :=
  { code := 0x0A08, cls := .long
    parse := fun p => fixedLayout 2 [] p && decide (1 ≤ field p 0 1 ∧ field p 1 1 < 3), perm := fromVf0
    body := fun s h p =>
      let fn := field p 0 1
      let q : VfReq := { act := vfActOf (field p 1 1), ref := refOf h 0x0A08 }
      if !vfExists s fn then .refuse .functionAbsent []
      else if (s.fn fn).vfRun.isSome then
        .long (fun s =>
          let old := (s.fn fn).vfQueue
          let s := s.modFn fn (fun f => { f with vfQueue := some q })
          match old with
          | some o => finishIn s o.ref .superseded []
          | none => s) .deferred [] none
      else .long (fun s => s) .accepted [] (some (startVf fn q)) }

/-- VF_SET. -/
def execVfSet (h : CmdHdr) (p : Bytes) (s : State) : Host.Outcome State Fault Refusal := .next (kcp vfSetCmd h p s)

/-- FUNCTION_RESET_DONE (R373): the function returns, in window mode, to the state it had, or to what the running vf-set asks; the
queued request follows (R362). -/
def functionResetDone (fn : Nat) (s : State) : State :=
  let f : Fn := s.fn fn
  if f.st ≠ .resetting then s
  else
    let st := match f.vfRun with
      | some q => (match q.act with
        | .disable => FnSt.disabled
        | .enable => FnSt.enabled
        | .reset => f.before)
      | none => f.before
    let run := f.vfRun
    let queue := f.vfQueue
    let s := s.modFn fn (fun f => { f with st := st, before := st, vfRun := none, vfQueue := none })
    let s := tellFunction s fn
    let s := match run with
      | some q => finish s q.ref .complete []
      | none => s
    match queue with
    | some q => startVf fn q s
    | none => s

/-- FUNCTION_RESET_DONE. -/
def execFunctionResetDone (fn : Nat) (s : State) : Host.Outcome State Fault Refusal := onPart fn 256 s (functionResetDone fn)

/-- VF_ENABLE_SET: VFs 1 to NumVFs leave ABSENT and become DISABLED (R371, R372). -/
def vfEnableSet (n : Nat) (s : State) : State :=
  if s.link.vfEnable ∨ 255 < n ∨ !s.link.up ∨ s.power.minimal ∨ s.power.bootStep < 2 then s
  else
    let s := s.modLink (fun l => { l with vfEnable := true, numVfs := n })
    (List.range n).foldl (fun s i => tellFunction (s.modFn (i + 1) (fun f => { f with st := .disabled })) (i + 1)) s

/-- VF_ENABLE_SET. -/
def execVfEnableSet (numVfs : Nat) (s : State) : Host.Outcome State Fault Refusal := .next (vfEnableSet numVfs s)

/-- VF_ENABLE_CLEAR. -/
def vfEnableClear (s : State) : State := if s.link.vfEnable then clearVfEnable s.bump else s

/-- VF_ENABLE_CLEAR. -/
def execVfEnableClear (s : State) : Host.Outcome State Fault Refusal := .next (vfEnableClear s)

/-- BUS_MASTER_ENABLE_SET: the module may issue host accesses for the function (R375). -/
def busMasterSet (fn : Nat) (s : State) : State :=
  if (s.fn fn).st = .absent then s else s.modFn fn (fun f => { f with bme := true })

/-- BUS_MASTER_ENABLE_SET. -/
def execBusMasterEnableSet (fn : Nat) (s : State) : Host.Outcome State Fault Refusal := onPart fn 256 s (busMasterSet fn)

/-- BUS_MASTER_ENABLE_CLEAR: the function's host accesses stop, and in ring mode its queues too (R374, R380). -/
def busMasterClear (fn : Nat) (s : State) : State :=
  let f : Fn := s.fn fn
  if f.st = .absent ∨ !f.bme then s
  else
    let s := s.bump.modFn fn (fun f => { f with bme := false, gen := (f.gen + 1) % 2 ^ 32 })
    let s := if f.st = .enabled ∧ !f.window then ringFault s fn else s
    stopHostAccesses fn s

/-- BUS_MASTER_ENABLE_CLEAR. -/
def execBusMasterEnableClear (fn : Nat) (s : State) : Host.Outcome State Fault Refusal := onPart fn 256 s (busMasterClear fn)

/-! ### The link (R366 to R370, R374) -/

/-- The link lost or hot-reset: as an FLR of VF0; IDE leaves the secure state with it. -/
def linkLoss (s : State) : State :=
  if !s.link.up then s
  else
    let s := s.modLink (fun l => { l with up := false, width := 0, rate := 0, cache := false, mem := false, numVfs := 0 })
    resetVf0 (s.modSecure (fun x => { x with ideIo := false, ideCm := false }))

/-- LINK_LOSS. -/
def execLinkLoss (s : State) : Host.Outcome State Fault Refusal := .next (linkLoss s)

/-- LINK_UP: the link trains up from down; in minimal mode it negotiates CXL.io only (R366, R370). -/
def linkUp (width rate : Nat) (cache mem : Bool) (s : State) : State :=
  if s.link.up ∨ !mainOn s ∨ !(decide (width = 4 ∨ width = 8 ∨ width = 16)) ∨ !(decide (rate = 8 ∨ rate = 16 ∨ rate = 32)) then s
  else s.modLink (fun l =>
    { l with up := true, width := width, rate := rate, cache := cache && !s.power.minimal, mem := mem && !s.power.minimal })

/-- LINK_UP. -/
def execLinkUp (width rate : Nat) (cache mem : Bool) (s : State) : Host.Outcome State Fault Refusal := .next (linkUp width rate cache mem s)

/-- CONFIG_REQUEST (R369): nothing answers while the link is down; then with Configuration Request Retry Status until the space is
ready; a request to a function that does not exist is unsupported. The answer: 0 none, 1 CRS, 2 completed, 3 unsupported. A completed
write of the ATS Enable bit sets it (R375); the cache starts empty when it rises (PRESUMED, log entry 64). -/
def configRequest (fn : Nat) (ats : Option Bool) (s : State) : State :=
  let answer :=
    if !s.link.up || !mainOn s then 0
    else if s.power.bootStep < 2 ∧ !s.power.minimal then 1
    else if fn = 0 ∨ (s.fn fn).st ≠ .absent then 2
    else 3
  let s := s.modLink (fun l => { l with cfgAnswer := answer })
  match ats with
  | some b =>
    if answer = 2 then s.modFn fn (fun f => { f with ats := b, atc := if b = true ∧ f.ats = false then [] else f.atc }) else s
  | none => s

/-- CONFIG_REQUEST. -/
def execConfigRequest (fn : Nat) (ats : Option Bool) (s : State) : Host.Outcome State Fault Refusal :=
  onPart fn 256 s (configRequest fn ats)

/-- SNOOP: the module holds no line, and answers RspIHitI (R387). The state keeps the address answered. -/
def execSnoop (addr : Nat) (s : State) : Host.Outcome State Fault Refusal :=
  .next (if s.link.up && s.link.cache then s.modLink (fun l => { l with snoop := some addr }) else s)

/-! ### Ring registers (R379) -/

/-- Whether a written FN_CTRL.APPLY with MODE = 0 is valid (R379). -/
def ringsValid (s : State) (f : Fn) : Bool :=
  let ok (n : Nat) : Bool := decide (6 ≤ n ∧ n ≤ 16)
  s.link.up && s.link.cache && ok (bits f.ringSizes 0 5) && ok (bits f.ringSizes 8 5) && ok (bits f.ringSizes 16 5)
    && decide (f.cmdBase ≠ 0 ∧ f.replyBase ≠ 0 ∧ f.noticeBase ≠ 0)

/-- What a valid APPLY does: indices at 0, unstamped words discarded, the command queue running; words of rings that are left, and
of window queues that are left, are lost. -/
def applied (f : Fn) (window : Bool) : Fn :=
  let stays := f.window && window
  { f with
    window := window, cfgBad := false, stopped := false, faulted := false, words := [], part := [], failures := []
    cmdProd := 0, cmdHead := 0, replyTail := 0, replyHead := 0, noticeTail := 0, noticeHead := 0
    cmdLog := if window then f.cmdLog else bits f.ringSizes 0 5, replyLog := if window then f.replyLog else bits f.ringSizes 8 5
    noticeLog := if window then f.noticeLog else bits f.ringSizes 16 5
    replyWords := if stays then f.replyWords else [], noticeWords := if stays then f.noticeWords else []
    replyWait := if stays then f.replyWait else [] }

/-- Whether a function's registers take writes: it is ENABLED (Table 14.3). -/
def takesWrites (s : State) (fn : Nat) : Bool := decide ((s.fn fn).st = .enabled)

/-- FN_CTRL written with APPLY = 1. -/
def fnCtrlApply (fn value : Nat) (s : State) : State :=
  if !takesWrites s fn || !value.testBit 1 then s
  else
    let s := s.modFn fn (fun f => { f with modeReg := value.testBit 0 })
    let f := s.fn fn
    if f.modeReg || ringsValid s f then s.setFn fn (applied f f.modeReg) else s.setFn fn { f with cfgBad := true }

/-- FN_CTRL_APPLY. -/
def execFnCtrlApply (fn value : Nat) (s : State) : Host.Outcome State Fault Refusal := onPart fn 256 s (fnCtrlApply fn value)

/-! ### The Porter's operations (R384, R442) -/

/-- A write to PORTER_OP: tested for its key, its OP and ARG, and BUSY, in that order (Table 14.12). -/
def porterWrite (op key : Nat) (argOk : Bool) (act : State → State) (s : State) : State :=
  if !mainOn s then s
  else
    let put (r : Nat) : State := { s with porter := { s.porter with lastOp := op, result := r } }
    if key ≠ 0x51A7 then put 1
    else if !argOk then put 2
    else if s.porter.running.isSome then put 3
    else act { s with porter := { s.porter with lastOp := op, result := 0, accepted := (s.porter.accepted + 1) % 256 } }

/-- The state with an operation of the Porter running. -/
def porterBusy (op : Nat) (s : State) : State := { s with porter := { s.porter with running := some op } }

/-- PORTER_KEEPER_RESET: BUSY until the keeper runs again (R438). -/
def execPorterKeeperReset (key arg : Nat) (s : State) : Host.Outcome State Fault Refusal :=
  .next (porterWrite 1 key (decide (arg = 0)) (fun s => stopKeeper (porterBusy 1 s)) s)

/-- WING_FENCE: a FENCE entry at the next edge, BUSY until it has acted; a fenced wing gets none (R443). -/
def porterFence (w : Nat) (s : State) : State :=
  if (s.wing w).fenced then s
  else setEntry (porterBusy 3 s) { mp := s.clock.count + 1, cls := .fence, wing := some w, arg := 0, late := false }

/-- PORTER_WING_FENCE. -/
def execPorterWingFence (key arg : Nat) (s : State) : Host.Outcome State Fault Refusal :=
  .next (porterWrite 3 key (decide (arg < 16)) (porterFence arg) s)

/-- PORTER_POWER_OFF (R444). -/
def execPorterPowerOff (key arg : Nat) (s : State) : Host.Outcome State Fault Refusal :=
  .next (porterWrite 4 key (decide (arg = 0)) (powerOff .poweredOff true) s)

/-! ### Registers without a row of their own (R382, R385) -/

/-- Half of a 64-bit register replaced. -/
def setHalf (old v : Nat) (high : Bool) : Nat := if high then old % 2 ^ 32 + 2 ^ 32 * v else old / 2 ^ 32 * 2 ^ 32 + v

/-- A write of 4 bytes to a ring base, whose low 12 bits are reserved (Table 14.13). -/
def setBase (old v : Nat) (high : Bool) : Nat := let n := setHalf old v high; n - n % 4096

/-- The MSI-X table written; a vector unmasked with its pending bit set is sent, which clears the bit (R381). -/
def writeMsix (off v : Nat) (f : Fn) : Fn :=
  let f := { f with msix := mstore f.msix (off - 0x800) (leBytes 4 v) }
  (List.range 2).foldl (fun f i => if (mread f.msix (16 * i + 12)).toNat % 2 = 0 then { f with msixPending := without f.msixPending (2 ^ i) } else f) f

/-- A 4-byte write to a function block; offsets that have a row of their own, are read-only or are unused change nothing. -/
def writeFn4 (off v : Nat) (f : Fn) : Fn :=
  if off = 0 then (if v.testBit 1 then f else { f with modeReg := v.testBit 0 })
  else if off = 0x0C then { f with ringSizes := v &&& 0x001F1F1F }
  else if off = 0x10 ∨ off = 0x14 then { f with cmdBase := setBase f.cmdBase v (decide (off = 0x14)) }
  else if off = 0x18 ∨ off = 0x1C then { f with replyBase := setBase f.replyBase v (decide (off = 0x1C)) }
  else if off = 0x20 ∨ off = 0x24 then { f with noticeBase := setBase f.noticeBase v (decide (off = 0x24)) }
  else if 0x800 ≤ off ∧ off < 0x820 then writeMsix off v f
  else f

/-- Where a function's block begins in its BAR0 (Table 14.5). -/
def blockBase (fn : Nat) : Nat := if fn = 0 then 0x2000 else 0

/-- A 4-byte write to BAR0 of a function: its function block, and for VF0 the Porter block's FLOG_INDEX and a PORTER_OP whose OP is
not one of Table 14.11. -/
def writeBar4 (fn off v : Nat) (s : State) : State :=
  if fn = 0 ∧ off = 0x1040 then s.modMgmt (fun m => { m with flogIndex := v })
  else if fn = 0 ∧ off = 0x1020 then
    if inRange (v % 256) 1 4 then s else porterWrite (v % 256) (bits v 16 16) false (fun s => s) s
  else if blockBase fn ≤ off ∧ off < blockBase fn + 0x1000 ∧ takesWrites s fn then s.modFn fn (writeFn4 (off - blockBase fn) v)
  else s

/-- REGISTER_WRITE: naturally aligned 4-byte or 8-byte writes of BAR0, the second as two halves; over I3C only MG_IBI changes
(R382, R483). -/
def registerWrite (space : RegSpace) (fn off width v : Nat) (s : State) : State :=
  match space with
  | .i3c =>
    if s.power.alwaysOn ∧ off = 0x0C ∧ width = 4 then s.modMgmt (fun m => { m with ibiEnable := v % 8 }) else s
  | .bar0 =>
    if !s.link.up || !mainOn s || decide (off % width ≠ 0) then s
    else if width = 4 then writeBar4 fn off (v % 2 ^ 32) s
    else if width = 8 then writeBar4 fn (off + 4) (v / 2 ^ 32 % 2 ^ 32) (writeBar4 fn off (v % 2 ^ 32) s)
    else s

/-- REGISTER_WRITE. -/
def execRegisterWrite (space : RegSpace) (fn offset width value : Nat) (s : State) : Host.Outcome State Fault Refusal :=
  onPart fn 256 s (registerWrite space fn offset width value)

/-- The 64-bit registers of BAR0 by offset (Tables 14.6, 14.10, 14.13); another offset has none. -/
def wideRegister (s : State) (fn off : Nat) : Option Nat :=
  let f : Fn := s.fn fn
  if fn = 0 ∧ off = 0x10 then some s.led.version
  else if fn = 0 ∧ off = 0x18 then some s.durable.version
  else if fn = 0 ∧ off = 0x20 then some s.link.staleTotal
  else if fn = 0 ∧ off = 0x1000 then some s.clock.count
  else if off = blockBase fn + 0x10 then some f.cmdBase
  else if off = blockBase fn + 0x18 then some f.replyBase
  else if off = blockBase fn + 0x20 then some f.noticeBase
  else none

/-- LOW_HALF_READ: a 4-byte read of a 64-bit register's low half returns it and latches the high half, for the next read of the
high half within 1 mp (R382). A read of MP_COUNT takes its snapshot (R384). -/
def lowHalfRead (fn off : Nat) (s : State) : State :=
  if !s.link.up || !mainOn s then s
  else match wideRegister s fn off with
    | none => s
    | some v =>
      let s := if fn = 0 ∧ off = 0x1000 then mpCountRead s else s
      returned (s.modFn fn (fun f => { f with latch := some (off, v / 2 ^ 32, s.clock.count) })) (leBytes 4 v)

/-- LOW_HALF_READ. -/
def execLowHalfRead (fn offset : Nat) (s : State) : Host.Outcome State Fault Refusal := onPart fn 256 s (lowHalfRead fn offset)

/-! ### HDM decoders and CXL.mem (R388, R389) -/

/-- A decoder. -/
def State.decoder (s : State) (d : Nat) : Decoder := tget s.link.decoders d
/-- The state with a decoder changed. -/
def State.modDecoder (s : State) (d : Nat) (g : Decoder → Decoder) : State :=
  s.modLink (fun l => { l with decoders := tmod l.decoders d g })

/-- Whether the top of every Loft channel is free of objects, images and mirror areas for a region of a size (R388). -/
def topFree (s : State) (total : Nat) : Bool :=
  (List.range 16).all (fun c =>
    decide ((s.loft c).mirror = 0 ∧ total / 16 ≤ loftBytes s) && (spansOn s .loft c).all (fun r => decide (r.1 + r.2 ≤ loftBytes s - total / 16)))

/-- Whether a commit succeeds (R368, R388, Table 16.10). -/
def commitOk (s : State) (d base size : Nat) : Bool :=
  let total := regionBytes s + size
  s.link.mem && s.power.memActive && !s.power.minimal && decide (base % 2 ^ 28 = 0 ∧ size % 2 ^ 28 = 0 ∧ 0 < size ∧ total ≤ 2 ^ 40)
    && (decide (d = 0) || (s.decoder 0).committed)
    && (List.range 16).all (fun c => decide ((s.loft c).st = .inService ∨ (s.loft c).st = .down)) && topFree s total

/-- DECODER_COMMIT: Committed and recorded, or Error Not Committed. Lock is set as the decoder commits where its Lock-on-commit
bit is (PRESUMED of CXL 2.0, log entry 64). -/
def decoderCommit (d base size : Nat) (lock : Bool) (s : State) : State :=
  if (s.decoder d).committed ∨ !s.link.up then s
  else if commitOk s d base size then
    s.bump.modDecoder d (fun x => { x with base := base, size := size, committed := true, error := false, locked := lock })
  else s.modDecoder d (fun x => { x with base := base, size := size, error := true })

/-- DECODER_COMMIT. -/
def execDecoderCommit (decoder base size : Nat) (lock : Bool) (s : State) : Host.Outcome State Fault Refusal :=
  onPart decoder 2 s (decoderCommit decoder base size lock)

/-- Where a decoder's part of the region begins (R388). -/
def regionStart (s : State) (d : Nat) : Nat := if d = 0 then 0 else (s.decoder 0).size

/-- DECODER_UNCOMMIT: the decoder's part is released and its contents discarded, unless Lock is set (R388). -/
def decoderUncommit (d : Nat) (s : State) : State :=
  let x := s.decoder d
  if !x.committed || x.locked then s
  else
    let a := regionStart s d
    let outside (line : Nat) : Bool := decide (line * 64 < a ∨ a + x.size ≤ line * 64)
    (s.bump.modDecoder d (fun x => { x with committed := false })).modLink (fun l =>
      { l with region := mclear l.region a x.size, written := l.written.filter outside, poisoned := l.poisoned.filter outside })

/-- DECODER_UNCOMMIT. -/
def execDecoderUncommit (decoder : Nat) (s : State) : Host.Outcome State Fault Refusal := onPart decoder 2 s (decoderUncommit decoder)

/-- The region offset of a host physical address, if a committed decoder covers it. -/
def regionOffset (s : State) (addr : Nat) : Option Nat :=
  (List.range 2).findSome? (fun d =>
    let x := s.decoder d
    if x.committed ∧ x.base ≤ addr ∧ addr < x.base + x.size then some (regionStart s d + (addr - x.base)) else none)

/-- A channel that an access found down, told once (R389). -/
def tellDown (c : Nat) (s : State) : State :=
  if (s.loft c).downNoticed then s
  else notify (s.modLoft c (fun x => { x with downNoticed := true })) .loftChannelDown { kind := 4, place := c, wing := wingOfLoft s c } (loftBody s c)

/-- Whether a line lies on a channel that is down. -/
def lineDown (s : State) (line : Nat) : Bool := decide ((s.loft (lineChannel line)).st = .down) && !(s.loft (lineChannel line)).redirect

/-- A line's bytes: what was written, or free values where nothing has been since the region's key was drawn. -/
def regionLine (s : State) (line : Nat) : Bytes :=
  if line ∈ s.link.written then mload s.link.region (line * 64) 64
  else (Config.regionBytes s.secure.loftEpoch line ++ List.replicate 64 0).take 64

/-- CXL_MEM_READ: 64 bytes of the region, or poison where the line has an uncorrectable error, lies on a channel that is down, or
has not been written since a wipe (R389, R401). -/
def cxlMemRead (addr : Nat) (s : State) : State :=
  if !s.link.up || !s.link.mem then s
  else match regionOffset s addr with
    | none => s
    | some o =>
      let line := o / 64
      if lineDown s line then returned (tellDown (lineChannel line) (s.modLink (fun l => { l with poison := true }))) []
      else if line ∈ s.link.poisoned ∨ (s.link.poisonAll ∧ line ∉ s.link.written) then returned (s.modLink (fun l => { l with poison := true })) []
      else returned (s.modLink (fun l => { l with poison := false })) (regionLine s line)

/-- CXL_MEM_READ. -/
def execCxlMemRead (addr : Nat) (s : State) : Host.Outcome State Fault Refusal := .next (cxlMemRead addr s)

/-- CXL_MEM_WRITE: a line written, or dropped where its channel is down (R389). -/
def cxlMemWrite (addr : Nat) (data : Bytes) (s : State) : State :=
  if !s.link.up || !s.link.mem || decide (addr % 64 ≠ 0 ∨ data.length ≠ 64) then s
  else match regionOffset s addr with
    | none => s
    | some o =>
      let line := o / 64
      if lineDown s line then tellDown (lineChannel line) s
      else s.modLink (fun l =>
        { l with region := mstore l.region o data, written := if line ∈ l.written then l.written else insertBy (fun a b => decide (a < b)) line l.written
                 poisoned := l.poisoned.filter (fun x => decide (x ≠ line)) })

/-- CXL_MEM_WRITE. -/
def execCxlMemWrite (addr : Nat) (data : Bytes) (s : State) : Host.Outcome State Fault Refusal := .next (cxlMemWrite addr data s)

/-! ### IDE and the mailbox (R390, R391) -/

/-- IDE_INTEGRITY_FAILURE: the failing traffic is discarded, the failure reported, the stream leaves the secure state, and the
module treats it as a loss of the link. Stream 0 is CXL.io's. -/
def ideFailure (stream : Nat) (s : State) : State :=
  if (if stream = 0 then s.secure.ideIo else s.secure.ideCm) then
    linkLoss (s.modLink (fun l => { l with ideError := if stream ∈ l.ideError then l.ideError else l.ideError ++ [stream] }))
  else s

/-- IDE_INTEGRITY_FAILURE. -/
def execIdeIntegrityFailure (stream : Nat) (s : State) : Host.Outcome State Fault Refusal := onPart stream 4 s (ideFailure stream)

/-- Whether the mailbox accepts an object: not while KEEPER_UP is 0, when it holds DOE Busy (R391). -/
def doeOpen (s : State) : Bool := s.keeper.up && s.link.up && decide (2 ≤ s.power.bootStep ∨ s.power.minimal = true)

/-- A response put in the mailbox. -/
def doeAnswer (s : State) (b : Bytes) : State := s.modLink (fun l => { l with doeResponse := b })

/-- The discovery response for an index, as PCIe lays it out (PRESUMED): vendor, type, next index. -/
def discovery (i : Nat) : Bytes :=
  if i = 0 then leBytes 2 0x0001 ++ leBytes 1 0x00 ++ leBytes 1 1
  else if i = 1 then leBytes 2 Config.doeVendor ++ leBytes 1 0x01 ++ leBytes 1 0
  else leBytes 2 0xFFFF ++ leBytes 1 0xFF ++ leBytes 1 0

/-- DOE_DISCOVERY. -/
def execDoeDiscovery (index : Nat) (s : State) : Host.Outcome State Fault Refusal :=
  .next (if doeOpen s then doeAnswer s (discovery index) else s)

/-- DOE_ABORT: the mailbox is empty and its error clear. -/
def execDoeAbort (s : State) : Host.Outcome State Fault Refusal :=
  .next (if s.link.up then s.modLink (fun l => { l with doeError := false, doeResponse := [] }) else s)

end Sys2Proof.Machine
end

