-- ==== Sys2Proof/Machine/Security.lean ====
section
/-! DEFINITION. Security (chapter 15): the wipe of the secure store and what follows it (R399 to R401), errors in keys (R174), the
attestation and release keys (R398), the passport (R403) and the messages that ask for one (R404), key release (R405, R406),
party keys and bindings (R361, R378, R407), and the life cycle (R393 to R396). -/

namespace Sys2Proof.Machine

open Sys2Proof

/-- Exactly `n` bytes of a run of bytes whose length a standard fixes, but which an opaque constant gives. -/
def fit (n : Nat) (b : Bytes) : Bytes := (b ++ List.replicate n 0).take n

/-- ASCII text as bytes. -/
def ascii (t : String) : Bytes := t.toList.map (fun c => BitVec.ofNat 8 c.toNat)

/-- A life-cycle state's value (Table 15.1). -/
def Life.value : Life → Nat
  | .manufacture => 0 | .provisioned => 1 | .deployed => 2 | .return_ => 3 | .scrapped => 4

/-- The state a value names. -/
def lifeOf (n : Nat) : Life := if n = 0 then .manufacture else if n = 1 then .provisioned else if n = 2 then .deployed else if n = 3 then .return_ else .scrapped

/-- A wipe cause's number, in the row order of Table 15.6 (R496). -/
def WipeCause.value : WipeCause → Nat
  | .mesh => 1 | .supply => 2 | .clock => 3 | .thermal => 4 | .tamperIn => 5 | .porter => 6 | .lifeCycle => 7

/-! ### The wipe (R399 to R401) -/

/-- The store zeroed: every key, and every digest of a passport (Table 15.5). A tamper cause adds to the tamper count (R400). The
new Loft key is drawn at once. -/
def zeroStore (cause : WipeCause) (s : State) : State :=
  let s := s.draw
  s.modSecure (fun x =>
    { x with
      baseKeys := [], partyKeys := [], ak := none, rk := none, ideKeys := [], passports := [], wipedSinceStart := true
      loftKey := fit 64 (Config.freeBytes s.free 64), loftEpoch := x.loftEpoch + 1
      tamper := if cause.value ≤ 5 then Nat.min (x.tamper + 1) 65535 else x.tamper })

/-- An object whose contents the wipe loses: ABSENT, its range released; work it is under ends with SECURE_WIPED, and one that was
still being created is freed. -/
def loseObj (s : State) (i : Nat) : State :=
  let x := s.obj i
  let s := match x.kind with
    | .kv => endKvSessions s i
    | .gradient => withholdObj s i
    | .moment => withholdObj s i
    | .mirror => dropMirrors s i
    | _ => s
  let s := match x.work with
    | .create _ => freeObj s i
    | .saveCreate _ _ _ => freeObj s i
    | _ => s.modObj i (fun x => { x with st := .absent, place := default, work := .none, content := [], blocked := false })
  finishOpt s (workRef x.work) .secureWiped []

/-- Objects that a wipe makes ABSENT: those at home in the Loft, and every BASE_COPY (R401). -/
def wipedObjs (s : State) : List Nat :=
  (s.led.objects.filter (fun o => o.2.live && decide (o.2.st ≠ .absent) && decide (o.2.place.tier = .loft ∨ o.2.kind = .baseCopy))).map (·.1)

/-- Moves into the Loft stopped: what they have written there is under a key that is gone; the source is kept. -/
def stopIntoLoft (s : State) : State :=
  (s.led.objects.filter (fun o => o.2.live && ((workDest o.2.work).map (fun d => decide (d.tier = .loft))).getD false)).foldl (fun s o =>
    finishOpt (s.modObj o.1 (fun x => { x with st := .home, work := .none })) (workRef o.2.work) .secureWiped []) s

/-- Contexts that are being swapped out to or in from a SAVE object in the Loft. -/
def loftSwaps (s : State) : List (Nat × Nat) :=
  s.liveWings.filterMap (fun w => match (s.wing w).swap with
    | some p => if (s.obj (s.ctx w p.context).saveObj).place.tier = .loft then some (w, p.context) else none
    | none => none)

/-- An adapter handle at home in the Loft becomes ABSENT; loads and reads of its image there end. -/
def loseHandle (s : State) (i : Nat) : State :=
  let s := match (s.handle i).load with
    | some l => if l.fromLoft then (if l.reload then endReload s i .secureWiped else failLoad s i .secureWiped) else s
    | none => s
  let x := s.handle i
  if x.st = .home ∧ !x.homeHost then
    let s := x.reading.foldl (fun s r => finishIn s r .secureWiped []) (s.modHandle i (fun x => { x with reading := [] }))
    s.modHandle i (fun x => { x with st := .absent, blocks := [], home := default })
  else s

/-- Contexts with an admitted pass. -/
def passContexts (s : State) : List (Nat × Nat) :=
  s.led.wings.flatMap (fun w => (w.2.contexts.filter (fun c => c.2.pass.isSome)).map (fun c => (w.1, c.1)))

/-- READY bases are INSTALLED again (R401). -/
def unreadyBases (s : State) : State :=
  s.modCellar (fun c => { c with bases := tmap (fun _ b => { b with st := if b.st = .ready then .installed else b.st }) c.bases })

/-- What a wipe does, within the record being committed (R399 to R401). -/
def wipeIn (cause : WipeCause) (s : State) : State :=
  let s := unreadyBases (zeroStore cause s)
  let s := (passContexts s).foldl (fun s p => endPassIn s p.1 p.2 .secureWiped) s
  let s := s.liveWings.foldl (fun s w => s.modWing w (fun x => { x with window := keepSlots x.window (fun _ => false) })) s
  let s := (loftSwaps s).foldl (fun s p => endContextIn s p.1 p.2 .contextLost) s
  let s := stopIntoLoft s
  let s := (wipedObjs s).foldl loseObj s
  let s := (s.led.handles.map (·.1)).foldl loseHandle s
  let s := s.modLink (fun l => { l with poisonAll := true, region := [], written := [], poisoned := [] })
  let s := notify s .secureWiped {} [cause.value]
  let s := if s.secure.ideIo || s.secure.ideCm then linkLoss s else s
  if mainOn s then carryMoves s else s

/-- A wipe by a cause that hardware meets, in a record of its own where the module records. -/
def wipe (cause : WipeCause) (s : State) : State := wipeIn cause (if mainOn s && !s.power.minimal then s.bump else s)

/-- A wipe by a cause that the always-on domain watches for (Table 15.6). -/
def watched (cause : WipeCause) (met : Bool) (s : State) : State := if s.power.alwaysOn && met then wipe cause s else s

/-- MESH_BREAK. -/
def execMeshBreak (s : State) : Host.Outcome State Fault Refusal := .next (watched .mesh true s)

/-- SUPPLY_EXCURSION: longer than 100 ns. -/
def execSupplyExcursion (ns : Nat) (s : State) : Host.Outcome State Fault Refusal := .next (watched .supply (decide (100 < ns)) s)

/-- CLOCK_EXCURSION: longer than 1 µs. -/
def execClockExcursion (ns : Nat) (s : State) : Host.Outcome State Fault Refusal := .next (watched .clock (decide (1000 < ns)) s)

/-- THERMAL_EXCURSION: below −25 °C or above 130 °C, in eighths of a degree. -/
def execThermalExcursion (eighths : Int) (s : State) : Host.Outcome State Fault Refusal :=
  .next (watched .thermal (decide (eighths < -200 ∨ 1040 < eighths)) s)

/-- TAMPER_IN: held low for at least 1 µs. -/
def execTamperIn (ns : Nat) (s : State) : Host.Outcome State Fault Refusal := .next (watched .tamperIn (decide (1000 ≤ ns)) s)

/-- PORTER_SECURE_WIPE (R384, R400). -/
def execPorterSecureWipe (key arg : Nat) (s : State) : Host.Outcome State Fault Refusal :=
  .next (porterWrite 2 key (decide (arg = 0)) (wipe .porter) s)

/-! ### Errors in keys (R174) -/

/-- The key of a slot treated as absent from now on. The spec numbers no slots; here 0 to 3 are the base keys, 4 to 4,099 the party
keys, then the Loft key, the AK, the RK and the IDE keys of four streams, in the order of Table 15.5. -/
def dropKey (slot : Nat) (s : State) : State :=
  if slot < 4 then
    (s.modSecure (fun x => { x with baseKeys := terase x.baseKeys slot })).modBase slot (fun b => { b with st := if b.st = .ready then .installed else b.st })
  else if slot < 4100 then s.modSecure (fun x => { x with partyKeys := terase x.partyKeys (slot - 4) })
  else if slot = 4100 then
    (s.modSecure (fun x => { x with loftKey := [] })).modLink (fun l => { l with poisonAll := true, region := [], written := [], poisoned := [] })
  else if slot = 4101 then s.modSecure (fun x => { x with ak := none })
  else if slot = 4102 then s.modSecure (fun x => { x with rk := none })
  else
    let stream := slot - 4103
    let was := if stream = 0 then s.secure.ideIo else s.secure.ideCm
    let s := s.modSecure (fun x => { x with ideKeys := terase x.ideKeys stream })
    if was then linkLoss s else s

/-- SECURE_STORE_KEY_ERROR. -/
def secureStoreKeyError (slot : Nat) (s : State) : State :=
  if s.power.alwaysOn then notify (dropKey slot (if mainOn s && !s.power.minimal then s.bump else s)) .keyLost {} [slot] else s

/-- SECURE_STORE_KEY_ERROR. -/
def execSecureStoreKeyError (slot : Nat) (s : State) : Host.Outcome State Fault Refusal := onPart slot 4107 s (secureStoreKeyError slot)

/-! ### The passport (R397, R398, R402, R403) -/

/-- The firmware digest (R402). -/
def firmwareDigest (s : State) : Bytes := shake256 s.keeper.image 64

/-- What the DIK's endorsement signs (R398). -/
def endorsed (s : State) : Bytes :=
  leBytes 8 Config.identity ++ leBytes 1 Config.stepping.1 ++ leBytes 1 Config.stepping.2 ++ leBytes 1 s.secure.life.value
    ++ leBytes 2 s.secure.transitions ++ firmwareDigest s ++ s.secure.akPub ++ s.secure.rkPub

/-- A wing's 8 bytes of the configuration block (Table 15.8). -/
def wingEntry (s : State) (w : Nat) : Bytes :=
  let x := s.wing w
  leBytes 1 (if !x.live then 0xFF else if x.sealed then 1 else 0) ++ leBytes 1 x.base
    ++ leBytes 2 (if x.live ∧ x.sealed then x.party else 0xFFFF) ++ leBytes 4 x.gen

/-- The allow-list's digest (Table 15.8). -/
def allowDigest (l : List Nat) : Bytes :=
  if l = [] then leBytes 8 0 else shake256 ((sortBy (fun a b => decide (a < b)) l).flatMap (leBytes 8)) 8

/-- The configuration block (Table 15.8). -/
def configBlock (s : State) : Bytes :=
  leBytes 2 s.link.numVfs ++ leBytes 1 ((if s.secure.ideIo then 1 else 0) + (if s.secure.ideCm then 2 else 0))
    ++ leBytes 1 ((List.range 4).foldl (fun a b => a + 4 ^ b * (s.base b).st.code) 0) ++ leBytes 4 s.led.fab.interval
    ++ allowDigest s.led.fab.allow ++ (List.range 16).flatMap (wingEntry s)
    ++ leBytes 8 ((s.liveWings.filter (fun w => (s.wing w).sealed)).foldl (fun m w => m ||| (s.wing w).slotMap) 0) ++ List.replicate 104 0

/-- Programs held, in ascending wing and then program id (Table 15.9). -/
def programEntries (s : State) : List Bytes :=
  s.liveWings.flatMap (fun w => ((s.wing w).programs.filter (fun p => p.2.live)).map (fun p =>
    leBytes 1 w ++ leBytes 1 p.1 ++ leBytes 1 (if p.2.update then 1 else 0) ++ List.replicate 5 0 ++ fit 64 p.2.digest))

/-- A passport before its signature (Table 15.7). -/
def passportBody (s : State) (nonce : Bytes) : Bytes :=
  let entries := programEntries s
  let k := entries.length
  leBytes 2 1 ++ leBytes 2 0 ++ leBytes 4 (16013 + 72 * k) ++ leBytes 8 Config.identity
    ++ leBytes 1 Config.stepping.1 ++ leBytes 1 Config.stepping.2 ++ leBytes 1 s.secure.life.value ++ leBytes 1 s.clock.st.value
    ++ leBytes 2 s.secure.transitions ++ leBytes 2 s.secure.tamper ++ leBytes 8 s.clock.count
    ++ leBytes 8 (if s.power.minimal then s.durable.version else s.led.version) ++ leBytes 4 (uncertainty s) ++ leBytes 2 k
    ++ leBytes 1 ((if s.power.minimal then 1 else 0) + (if s.secure.wipedSinceStart then 2 else 0) + (if s.secure.debug then 4 else 0))
    ++ leBytes 1 0 ++ fit 32 nonce ++ firmwareDigest s ++ leBytes 8 (Config.imageVersion s.keeper.image) ++ fit 128 Config.dieRecords
    ++ cellarRoot s ++ configBlock s ++ fit 1952 s.secure.akPub ++ fit 1568 s.secure.rkPub ++ fit 1952 Config.dikPublic
    ++ fit 3309 (Config.mlDsaSign Config.dikSecret (ascii "QHL-ENDORSE") (endorsed s)) ++ leBytes 3 0
    ++ leBytes 1 Config.dikCertificate.1 ++ leBytes 7 0 ++ fit 3309 Config.dikCertificate.2 ++ leBytes 3 0 ++ entries.flatMap id

/-- A passport signed by an attestation key. -/
def passport (s : State) (ak nonce : Bytes) : Bytes :=
  let b := passportBody s nonce
  b ++ fit 3309 (Config.mlDsaSign ak (ascii "QHL-PASSPORT") b)

/-- A passport's length (Table 15.7). -/
def passportLength (s : State) : Nat := 16013 + 72 * (programEntries s).length

/-- An issued passport's digest kept among the last 16, its used flag clear (R403). -/
def keepPassport (b : Bytes) (s : State) : State :=
  s.modSecure (fun x =>
    { x with passports := (x.passports ++ [({ digest := shake256 b 64, used := false } : PassportMark)]).drop ((x.passports.length + 1) - 16) })

/-- passport-get answered by an attestation key: refused for want of capacity, or where the host's memory cannot be written; else
issued. Neither refusal keeps the passport. -/
def givePassport (s : State) (ak nonce : Bytes) (capacity : Nat) (hostOk : Bool) : KRes :=
  if capacity < passportLength s then .refuse .passportSpace []
  else if !hostOk then .refuse .hostAccessFault []
  else .keep (keepPassport (passport s ak nonce)) .ok (leBytes 4 (passportLength s))

/-- passport-get (R403): while no key exists, it is answered once one does (R401). -/
def passportGetCmd (host : HostRead) : KCmd :=
  { code := 0x0901, cls := .query, inMinimal := true
    parse := fun p => fixedLayout 44 [] p && lineAligned p 32
    body := fun s h p =>
      let ok := (hostBytes s h.fn host).isSome
      match s.secure.ak with
      | some ak => givePassport s ak (fieldBytes p 0 32) (field p 40 4) ok
      | none =>
        let q : WaitingPassport := { ref := some (refOf h 0x0901), nonce := fieldBytes p 0 32, capacity := field p 40 4, hostOk := ok }
        .later (fun s => s.modSecure (fun x => { x with waitingPassports := x.waitingPassports ++ [q] })) }

/-- PASSPORT_GET. -/
def execPassportGet (h : CmdHdr) (p : Bytes) (host : HostRead) (s : State) : Host.Outcome State Fault Refusal :=
  .next (kcp (passportGetCmd host) h p s)

/-! ### The attestation protocol (R404)

In minimal mode the mailbox serves discovery and passport requests only (R370): the others are answered ERROR 3. -/

/-- A message of the attestation protocol: its header and body. -/
def attestMessage (type : Nat) (body : Bytes) : Bytes := leBytes 1 1 ++ leBytes 1 type ++ leBytes 2 0 ++ leBytes 4 body.length ++ body

/-- The ERROR response with a body of 1 byte: 1 malformed, 2 unknown type, 3 refused. -/
def attestError (s : State) (n : Nat) : State := doeAnswer s (attestMessage (Config.doeErrorType % 256) (leBytes 1 n))

/-- A passport sent through the mailbox. -/
def answerPassport (s : State) (ak nonce : Bytes) : State :=
  doeAnswer (keepPassport (passport s ak nonce) s) (attestMessage 0x81 (passport s ak nonce))

/-- A request longer than 256 KiB sets DOE Error (R391). -/
def doeRequest (length : Nat) (s : State) (f : State → State) : State :=
  if !doeOpen s then s
  else if 262144 < length then s.modLink (fun l => { l with doeError := true })
  else f s

/-- PASSPORT_REQUEST: `length` is the body length its header gives. -/
def passportRequest (length : Nat) (nonce : Bytes) (s : State) : State :=
  doeRequest (8 + length) s (fun s =>
    if length ≠ 32 ∨ nonce.length ≠ 32 then attestError s 1
    else match s.secure.ak with
      | some ak => answerPassport s ak nonce
      | none => s.modSecure (fun x =>
          { x with waitingPassports := x.waitingPassports ++ [({ ref := none, nonce := nonce, capacity := 0, hostOk := true } : WaitingPassport)] }))

/-- PASSPORT_REQUEST. -/
def execPassportRequest (length : Nat) (nonce : Bytes) (s : State) : Host.Outcome State Fault Refusal := .next (passportRequest length nonce s)

/-- One waiting passport answered. -/
def answerWaiting (ak : Bytes) (s : State) (q : WaitingPassport) : State :=
  match q.ref with
  | none => answerPassport s ak q.nonce
  | some r =>
    let reply (s : State) (st : Status) (payload : Bytes) : State :=
      let m := mkReply s r st true payload
      pushReply s r.fn (if s.power.minimal then { m with version := s.durable.version } else m)
    match givePassport s ak q.nonce q.capacity q.hostOk with
    | .keep f st payload => reply (f s) st payload
    | .refuse st payload => reply s st payload
    | _ => s

/-- The AK and the RK drawn (R398), and the endorsement with them. -/
def drawKeys (s : State) : State :=
  let ak := fit 4032 (Config.freeBytes s.free 4032)
  let rk := fit 3168 (Config.freeBytes (s.free + 1) 3168)
  s.draw.draw.modSecure (fun x =>
    { x with ak := some ak, akPub := fit 1952 (Config.publicKey ak), rk := some rk, rkPub := fit 1568 (Config.publicKey rk) })

/-- AK_REDRAW_DONE: a new key pair exists, and the passports that waited for it are answered (R401). -/
def akRedrawDone (s : State) : State :=
  if !s.power.alwaysOn || (s.secure.ak.isSome && s.secure.rk.isSome) then s
  else
    let s := drawKeys s
    let l := s.secure.waitingPassports
    let s := s.modSecure (fun x => { x with waitingPassports := [] })
    match s.secure.ak with
    | some ak => l.foldl (answerWaiting ak) s
    | none => s

/-- AK_REDRAW_DONE. -/
def execAkRedrawDone (s : State) : Host.Outcome State Fault Refusal := .next (akRedrawDone s)

/-! ### The key release wrapper (R405, R406) -/

/-- The layout of Table 15.11 for a kind. -/
def wrapperShaped (kind : Nat) (b : Bytes) : Bool :=
  decide (b.length = 1808 ∧ field b 0 2 = 1 ∧ field b 2 1 = kind) && zeros b 6 2
    && (if kind = 1 then decide (field b 3 1 < 4) else zeros b 3 1 && zeros b 80 64)
    && (if kind = 2 then decide (field b 4 2 < 4096) else zeros b 4 2) && (if kind = 3 then zeros b 1712 64 else true)

/-- Check 1 of R406. -/
def keysAccepted (s : State) : Bool := decide (s.secure.life = .provisioned ∨ s.secure.life = .deployed)

/-- Check 3 of R406. -/
def passportUsable (s : State) (b : Bytes) : Bool :=
  s.secure.passports.any (fun x => decide (x.digest = fieldBytes b 16 64) && !x.used) && decide (s.clock.st ≠ .unset)
    && decide (s.clock.count ≤ field b 8 8)

/-- Step 4 of R406: the digest's used flag set. -/
def usePassport (b : Bytes) (s : State) : State :=
  s.modSecure (fun x => { x with passports := x.passports.map (fun q => if q.digest = fieldBytes b 16 64 then { q with used := true } else q) })

/-- Two runs of bytes combined by exclusive or. -/
def xorBytes (a b : Bytes) : Bytes := List.zipWith (· ^^^ ·) a b

/-- Step 5 of R406: the 96 bytes of Z where the tag agrees. -/
def unwrap (s : State) (b : Bytes) : Option Bytes :=
  match s.secure.rk with
  | none => none
  | some rk =>
    let z := shake256 (fit 32 (Config.mlKemDecaps rk (fieldBytes b 144 1568)) ++ fieldBytes b 0 144 ++ ascii "QHL-KEY") 96
    if shake256 (z.drop 64 ++ fieldBytes b 0 1776) 32 = fieldBytes b 1776 32 then some z else none

/-- The key that a wrapper carries. -/
def wrappedKey (z b : Bytes) : Bytes := xorBytes (fieldBytes b 1712 64) (z.take 64)

/-- A command payload that ends in a message of stated length. -/
def messageParse (p : Bytes) : Bool := decide (4 ≤ p.length ∧ p.length = 4 + field p 2 2)

/-- The message of such a payload. -/
def messageOf (p : Bytes) : Bytes := p.drop 4

/-- The rest of key-release once the wrapper has been unwrapped: the root, then the store (R406, R212). -/
def storeBaseKey (s : State) (b : Nat) (m z : Bytes) : KRes :=
  let root := fieldBytes m 80 64
  let key := wrappedKey z m
  if root ≠ (s.base b).rootBytes then .keep (usePassport m) .keyRootMismatch []
  else if (s.base b).st = .ready ∧ (tget s.secure.baseKeys b).map (·.key) ≠ some key then .keep (usePassport m) .keyRefused []
  else .commit (fun s =>
    ((usePassport m s).modSecure (fun x => { x with baseKeys := tput x.baseKeys b (some { key := key, root := root }) })).modBase b
      (fun x => { x with st := .ready })) .ok []

/-- key-release (R406): a payload that names another base than its message is refused. -/
def keyReleaseCmd : KCmd :=
  { code := 0x0902, cls := .commit, perm := fromVf0
    parse := fun p => messageParse p && zeros p 1 1 && decide (field p 0 1 < 4) && wrapperShaped 1 (messageOf p)
    body := fun s _ p =>
      let b := field p 0 1
      let m := messageOf p
      if !keysAccepted s then .refuse .keyRefused []
      else if (s.base b).st ≠ .installed ∧ (s.base b).st ≠ .ready then .refuse .baseNotInstalled []
      else if field m 3 1 ≠ b ∨ !passportUsable s m then .refuse .keyRefused []
      else match unwrap s m with
        | none => .keep (usePassport m) .keyRefused []
        | some z => storeBaseKey s b m z }

/-- KEY_RELEASE. -/
def execKeyRelease (h : CmdHdr) (p : Bytes) (s : State) : Host.Outcome State Fault Refusal := .next (kcp keyReleaseCmd h p s)

/-- party-key-load (R406). -/
def partyKeyLoadCmd : KCmd :=
  { code := 0x0903, cls := .commit, perm := fromVf0
    parse := fun p => messageParse p && decide (field p 0 2 < 4096) && wrapperShaped 2 (messageOf p)
    body := fun s _ p =>
      let party := field p 0 2
      let m := messageOf p
      if !keysAccepted s then .refuse .keyRefused []
      else if (tget s.secure.partyKeys party).isSome then .refuse .keyPresent []
      else if field m 4 2 ≠ party ∨ !passportUsable s m then .refuse .keyRefused []
      else match unwrap s m with
        | none => .keep (usePassport m) .keyRefused []
        | some z => .commit (fun s =>
            (usePassport m s).modSecure (fun x => { x with partyKeys := tput x.partyKeys party (some (wrappedKey z m)) })) .ok [] }

/-- PARTY_KEY_LOAD. -/
def execPartyKeyLoad (h : CmdHdr) (p : Bytes) (s : State) : Host.Outcome State Fault Refusal := .next (kcp partyKeyLoadCmd h p s)

/-- Reloads from the Loft of a party's adapters, whose sessions end with KEY_ABSENT (R407). -/
def endLoftReloads (party : Nat) (s : State) : State :=
  ((s.led.handles.filter (fun h => decide (h.2.owner = party) && (match h.2.load with
    | some l => l.reload && l.fromLoft
    | none => false))).map (·.1)).foldl (fun s i => endReload s i .keyAbsent) s

/-- party-key-remove (R407): new placements are refused at once; the key is wiped once the party's moves have committed. -/
def partyKeyRemoveCmd : KCmd :=
  { code := 0x0904, cls := .long, perm := fromVf0
    parse := fun p => fixedLayout 2 [] p && decide (field p 0 2 < 4096)
    body := fun s h p =>
      let party := field p 0 2
      if (tget s.secure.partyKeys party).isNone then .refuse .keyAbsent []
      else .long (fun s => endLoftReloads party
          (s.modSecure (fun x => { x with removals := x.removals ++ [{ party := party, ref := refOf h 0x0904 }] }))) .accepted []
        (some settleRemovals) }

/-- PARTY_KEY_REMOVE. -/
def execPartyKeyRemove (h : CmdHdr) (p : Bytes) (s : State) : Host.Outcome State Fault Refusal := .next (kcp partyKeyRemoveCmd h p s)

/-- The parties a party-bind names. -/
def bindList (p : Bytes) : List Nat := (List.range (field p 2 2)).map (fun i => field p (8 + 2 * i) 2)

/-- party-bind (R361, R378). -/
def partyBindCmd : KCmd :=
  { code := 0x0905, cls := .commit, perm := fromVf0
    parse := fun p => decide (8 ≤ p.length) && zeros p 4 4 && inRange (field p 0 2) 1 255 && decide (field p 2 2 ≤ 1024)
      && decide (p.length = 8 + 2 * field p 2 2) && (bindList p).all (fun q => decide (q < 4096))
    body := fun s _ p =>
      let fn := field p 0 2
      if !vfExists s fn then .refuse .functionAbsent []
      else if (bindList p).any (fun q => match tget s.led.binds q with
        | some f => decide (f ≠ fn)
        | none => false) then .refuse .partyBound []
      else .commit (fun s => s.modLed (fun l =>
        { l with binds := (bindList p).foldl (fun t q => tput t q (some fn)) (l.binds.filter (fun b => decide (b.2 ≠ some fn))) })) .ok [] }

/-- PARTY_BIND. -/
def execPartyBind (h : CmdHdr) (p : Bytes) (s : State) : Host.Outcome State Fault Refusal := .next (kcp partyBindCmd h p s)

/-! ### The life cycle (R393 to R396) -/

/-- The checks of R395 on a token, from a state to a state. -/
def tokenAccepted (s : State) (from_ to_ : Life) (b : Bytes) : Bool :=
  decide (b.length = 3389 ∧ field b 0 2 = 1 ∧ field b 2 1 = from_.value ∧ field b 3 1 = to_.value ∧ field b 6 1 ≤ 1) && zeros b 7 1
    && decide (s.secure.life = from_ ∧ field b 4 2 = s.secure.transitions ∧ field b 8 8 = Config.identity)
    && (zeros b 16 64 || decide (fieldBytes b 16 64 = firmwareDigest s))
    && Config.tokenVerify (field b 6 1) (fieldBytes b 0 80) (fieldBytes b 80 3309)

/-- Whether a transition is listed and authorised (Table 15.2); once 63 have been made, only the one to SCRAPPED (R393). -/
def transitionAllowed (s : State) (to_ : Life) (token : Bytes) : Bool :=
  let byToken := tokenAccepted s s.secure.life to_ token
  let byIdentity := decide (token = leBytes 8 Config.identity)
  match to_ with
  | .scrapped => (match s.secure.life with
    | .manufacture => byToken
    | .scrapped => false
    | _ => byIdentity)
  | .return_ => decide (s.secure.transitions < 63) && decide (s.secure.life = .provisioned ∨ s.secure.life = .deployed) && byToken
  | .deployed => decide (s.secure.transitions < 63) && decide (s.secure.life = .provisioned) && byToken
  | .provisioned =>
    decide (s.secure.transitions < 63) && decide (s.secure.life = .manufacture ∨ s.secure.life = .deployed ∨ s.secure.life = .return_) && byToken
  | .manufacture => false

/-- Every base removed as by base-remove, and every shard FREE and erased in the background (Table 15.2). -/
def eraseCellar (s : State) : State :=
  let s := ((s.cellar.bases.filter (fun b => decide (b.2.st ≠ .empty))).map (·.1)).foldl (fun s n => removeBase n s) s
  s.modCellar (fun c => { c with shards := tmap (fun _ x =>
    if x.st = .retired then x else { (default : Shard) with programs := x.programs, erasing := decide (0 < x.programs) }) c.shards })

/-- The tally once a state has been left or entered: periods run in DEPLOYED only; going back to PROVISIONED discards the last closed
one (Tables 15.1, 15.2). -/
def tallyAfter (old new : Life) (t : Tally) : Tally :=
  if old ≠ .deployed then t
  else if new = .provisioned then default
  else { t with period := 0, start := 0, cur := [] }

/-- A transition made (R396): the fuse word programmed, the store wiped, and LIFE_CYCLE sent. -/
def setLife (new : Life) (s : State) : State :=
  let old := s.secure.life
  let s := if new = .return_ ∨ new = .scrapped then eraseCellar s else s
  let s := s.modLed (fun l => { l with tally := tallyAfter old new l.tally })
  let s := s.modSecure (fun x => { x with life := new, transitions := x.transitions + 1, debug := false })
  notify (wipeIn .lifeCycle s) .lifeCycle {} [old.value, new.value]

/-- life-cycle-set (R394). -/
def lifeCycleSetCmd : KCmd :=
  { code := 0x0906, cls := .commit, perm := fromVf0
    parse := fun p => messageParse p && zeros p 1 1 && decide (field p 0 1 < 5)
    body := fun s _ p =>
      let new := lifeOf (field p 0 1)
      if !transitionAllowed s new (messageOf p) || decide (s.liveWings ≠ []) || s.cellar.bases.any (fun b => b.2.install.isSome) then
        .refuse .lifeCycleRefused []
      else .commit (setLife new) .ok []
    follow := fun _ _ s => if s.secure.life = .scrapped ∧ !s.power.minimal then failedStart 0x0201 s else s }

/-- LIFE_CYCLE_SET. -/
def execLifeCycleSet (h : CmdHdr) (p : Bytes) (s : State) : Host.Outcome State Fault Refusal := .next (kcp lifeCycleSetCmd h p s)

/-- DEBUG_UNLOCK (R404): in RETURN, with a token from RETURN to RETURN. -/
def debugUnlock (token : Bytes) (s : State) : State :=
  doeRequest (8 + token.length) s (fun s =>
    if s.power.minimal then attestError s 3
    else if token.length ≠ 3389 then attestError s 1
    else if s.secure.life = .return_ ∧ tokenAccepted s .return_ .return_ token then
      doeAnswer (s.modSecure (fun x => { x with debug := true })) (attestMessage 0x83 [])
    else attestError s 3)

/-- DEBUG_UNLOCK. -/
def execDebugUnlock (token : Bytes) (s : State) : Host.Outcome State Fault Refusal := .next (debugUnlock token s)

/-! ### IDE keys (R390, R404) -/

/-- An IDE_KM message with the key and IV fields of a KEY_PROG unmasked: 40 bytes from offset 7, as PCIe lays it out (PRESUMED). -/
def unmasked (z m : Bytes) : Bytes :=
  if field m 0 1 = 0x02 then m.take 7 ++ xorBytes ((m.drop 7).take 40) (z.take 40) ++ m.drop 47 else m

/-- One of a stream's two key sets replaced (Table 15.5). -/
def setIdeKey (old : Bytes) (set : Nat) (m : Bytes) : Bytes :=
  let key := fit 32 ((m.drop 7).take 32)
  if set = 0 then key ++ (fit 64 old).drop 32 else (fit 64 old).take 32 ++ key

/-- What an IDE_KM message does: KEY_PROG puts a key set in its stream's slot, K_SET_GO brings the stream into the secure state, and
K_SET_STOP takes it out. Stream 0 is CXL.io's. -/
def ideKm (m : Bytes) (s : State) : State :=
  let stream := field m 3 1
  let secure (on : Bool) : State := s.modSecure (fun x => if stream = 0 then { x with ideIo := on } else { x with ideCm := on })
  let type := field m 0 1
  if 4 ≤ stream then s
  else if type = 0x02 then s.modSecure (fun x => { x with ideKeys := tput x.ideKeys stream (setIdeKey (tget x.ideKeys stream) (field m 5 1 % 2) m) })
  else if type = 0x04 then (if (tget s.secure.ideKeys stream).length = 0 then s else secure true)
  else if type = 0x05 then secure false
  else s

/-- IDE_KEYS: the wrapper is checked as by R406, and the message acted on. -/
def ideKeys (wrapper message : Bytes) (s : State) : State :=
  doeRequest (8 + wrapper.length + message.length) s (fun s =>
    if s.power.minimal then attestError s 3
    else if !wrapperShaped 3 wrapper then attestError s 1
    else if !keysAccepted s || !passportUsable s wrapper then attestError s 3
    else
      let s := usePassport wrapper s
      match unwrap s wrapper with
      | none => attestError s 3
      | some z =>
        let m := unmasked z message
        doeAnswer (ideKm m s) (attestMessage 0x82 (Config.ideKmResponse m)))

/-- IDE_KEYS. -/
def execIdeKeys (wrapper message : Bytes) (s : State) : Host.Outcome State Fault Refusal := .next (ideKeys wrapper message s)

end Sys2Proof.Machine
end

