-- ==== Sys2Proof/Machine/Boot.lean ====
section
/-! DEFINITION. Start-up and power-down (chapter 17): the input voltage (R448, R460), PERST_N and PFAIL_N (R445, R461), the five boot
steps (R462, R463, Table 17.9), what a start restores (R265, R321, R335, R470), overruns and retries (R464, R465), and the
keeper's doze (R457 to R459). -/

namespace Sys2Proof.Machine

open Sys2Proof

/-! ### Starts -/

/-- Whether the input is at least 50 V and within range, so that the Porter powers domains (R462). -/
def vinOk (s : State) : Bool := decide (s.power.vin = .good ∨ s.power.vin = .high)

/-- The domains that a boot step powers (Table 17.9). -/
def stepDomains (n : Nat) : List Nat :=
  if n = 1 then [7] else if n = 3 then [0, 1, 2, 3, 4, 5, 6] else if n = 4 then [8, 9, 10, 11, 12, 13] else []

/-- The domains of the running step powered, where the input allows (R462); a Waylink group's ports begin to train. -/
def raiseStep (s : State) : State :=
  if !vinOk s then s
  else (stepDomains s.power.step).foldl (fun s d =>
    if (s.domain d).st = .off then
      let s := s.modDomain d (fun x => { x with st := .rising })
      if 8 ≤ d then trainGroup d s else s
    else s) s

/-- A boot step begun. -/
def beginStep (n : Nat) (s : State) : State := raiseStep (s.modPower (fun p => { p with step := n }))

/-- A start begun where every condition of R462 holds, and none has been refused until PERST_N toggles (R448, R468). -/
def tryStart (s : State) : State :=
  if s.power.alwaysOn ∧ !s.power.perst ∧ vinOk s ∧ !s.power.startsHeld ∧ s.power.step = 0 ∧ !mainOn s then
    beginStep 1 (setStat .boot (s.modPower (fun p => { p with bootStep := 0, stacksDown := [] })))
  else s

/-! ### Pins -/

/-- PERST_N_ASSERT (R461): a power-off if anything is on; a start that runs stops, and is not counted. STAT keeps TRIPPED or
POWERED_OFF. -/
def perstAssert (s : State) : State :=
  (powerOffIfOn .poweredOff true s).modPower (fun p => { p with perst := true, startsHeld := false })

/-- PERST_N_ASSERT. -/
def execPerstNAssert (s : State) : Host.Outcome State Fault Refusal := .next (perstAssert s)

/-- PERST_N_DEASSERT (R462). The boundary-scan instructions end with it (R417). -/
def perstDeassert (s : State) : State :=
  let s := s.modPower (fun p => { p with perst := false })
  let s := s.modMgmt (fun m =>
    { m with boundaryDriven := false, jtagIr := if m.jtagIr = 0x00 ∨ m.jtagIr = 0x02 ∨ m.jtagIr = 0x03 then 0xFF else m.jtagIr })
  tryStart s

/-- PERST_N_DEASSERT. -/
def execPerstNDeassert (s : State) : Host.Outcome State Fault Refusal := .next (perstDeassert s)

/-- PFAIL_N_ASSERT: the sequence of Table 16.8, to its end. -/
def execPfailNAssert (s : State) : Host.Outcome State Fault Refusal := .next (powerOffIfOn .poweredOff true s)

/-! ### The 56 V input (R448, Table 17.1) -/

/-- VIN_RISE_ALWAYS_ON: the input crosses 36 V; FAULT_N is low until the Porter's self-check ends (Table 17.4). -/
def vinRise (s : State) : State :=
  if s.power.vin = .off then s.modPower (fun p => { p with vin := .alwaysOn, stat := .starting, faultN := true }) else s

/-- VIN_RISE_ALWAYS_ON. -/
def execVinRiseAlwaysOn (s : State) : Host.Outcome State Fault Refusal := .next (vinRise s)

/-- ALWAYS_ON_UP (R460): STAT reads WAITING, the count starts in UNSET (R16), and MADDR is sampled. -/
def alwaysOnUp (maddr : Nat) (s : State) : State :=
  if s.power.vin = .off ∨ s.power.alwaysOn then s
  else
    let s := { s with clock := default }
    tryStart ((s.modMgmt (fun m => { m with maddr := maddr % 8 })).modPower (fun p => { p with alwaysOn := true, stat := .waiting, faultN := false }))

/-- ALWAYS_ON_UP. -/
def execAlwaysOnUp (maddr : Nat) (s : State) : Host.Outcome State Fault Refusal := .next (alwaysOnUp maddr s)

/-- What the always-on domain holds lost with its supply: the count and time state, the secure store, the Porter's fault-log buffer and
registers, the management target and the test access port. Fuses, the failed-start counter, the Cellar, the journal and the
image store stay (R393, R464, Table 16.9). -/
def loseAlwaysOn (s : State) : State :=
  let x := s.secure
  { s with
    clock := default
    tt := default
    secure := { (default : Secure) with
      life := x.life, transitions := x.transitions, tamper := x.tamper, loftEpoch := x.loftEpoch }
    keeper := { s.keeper with log := [], logNext := ((s.keeper.journalLog.head?).map (·.number)).getD 0 }
    porter := default
    snapshot := default
    mgmt := default
    power := { (default : Power) with failed := s.power.failed, perst := s.power.perst } }

/-- VIN_FALL_ALWAYS_OFF: below 34 V nothing is powered; main domains still on are lost without a journal write. -/
def vinFall (s : State) : State := loseAlwaysOn (powerOffIfOn .poweredOff false s)

/-- VIN_FALL_ALWAYS_OFF. -/
def execVinFallAlwaysOff (s : State) : Host.Outcome State Fault Refusal := .next (vinFall s)

/-- The input in a range, since now. -/
def setVin (v : Vin) (s : State) : State := s.modPower (fun p => { p with vin := v, vinSince := s.clock.count })

/-- VIN_GOOD: at least 50 V for 10 ms: a start that waits for it begins, and one that runs powers its step's domains. -/
def vinGood (s : State) : State := if s.power.vin = .off then s else tryStart (raiseStep (setVin .good s))

/-- VIN_GOOD. -/
def execVinGood (s : State) : Host.Outcome State Fault Refusal := .next (vinGood s)

/-- VIN_HIGH: 59 V to 60 V: the module runs on, with a record. -/
def vinHigh (s : State) : State :=
  if s.power.vin = .off then s else tryStart (raiseStep (logOnly (setVin .high s) .inputHigh {} []))

/-- VIN_HIGH. -/
def execVinHigh (s : State) : Host.Outcome State Fault Refusal := .next (vinHigh s)

/-- VIN_OVER: above 60 V: a power-off, TRIPPED. -/
def vinOver (s : State) : State :=
  if s.power.vin = .off then s else powerOffIfOn .tripped true (logOnly (setVin .over s) .inputOver {} [])

/-- VIN_OVER. -/
def execVinOver (s : State) : Host.Outcome State Fault Refusal := .next (vinOver s)

/-- Whether the input has been at 50 V or more, so that a lower one is falling. -/
def vinFalls (s : State) : Bool :=
  match s.power.vin with
  | .off => false
  | .alwaysOn => false
  | _ => true

/-- VIN_LOW: 50 V down to 46 V, falling: the module runs on, with a record. -/
def vinLow (s : State) : State := if vinFalls s then logOnly (setVin .low s) .inputLow {} [] else s

/-- VIN_LOW. -/
def execVinLow (s : State) : Host.Outcome State Fault Refusal := .next (vinLow s)

/-- VIN_LOW_NO_WARN: below 46 V with PFAIL_N deasserted: as though it had been asserted. -/
def vinLowNoWarn (s : State) : State :=
  if vinFalls s then powerOffIfOn .poweredOff true (logOnly (setVin .noWarn s) .inputLowNoWarn {} []) else s

/-- VIN_LOW_NO_WARN. -/
def execVinLowNoWarn (s : State) : Host.Outcome State Fault Refusal := .next (vinLowNoWarn s)

/-- VIN_BELOW_HOLDUP: below 44 V main domains are held up no longer; one still on is lost without a journal write. -/
def vinBelowHoldup (s : State) : State :=
  if vinFalls s then powerOffIfOn .poweredOff false (setVin .belowHoldup s) else s

/-- VIN_BELOW_HOLDUP. -/
def execVinBelowHoldup (s : State) : Host.Outcome State Fault Refusal := .next (vinBelowHoldup s)

/-- VOLTAGE_RECORD_REPEAT: an INPUT_HIGH or INPUT_LOW record once per 1,000,000 mp. -/
def voltageRepeat (s : State) : State :=
  if s.power.vinSince + 1000000 ≤ s.clock.count then
    match s.power.vin with
    | .high => logOnly (setVin .high s) .inputHigh {} []
    | .low => logOnly (setVin .low s) .inputLow {} []
    | _ => s
  else s

/-- VOLTAGE_RECORD_REPEAT. -/
def execVoltageRecordRepeat (s : State) : Host.Outcome State Fault Refusal := .next (voltageRepeat s)

/-! ### What a start finds (Table 17.9, R8, R229, R231, R462) -/

/-- Step 1: the CXL domain is on, the link trains, and VF0 is DISABLED (Table 14.3). -/
def bootCxl (f : BootFound) (s : State) : State :=
  let s := s.modDomain 7 (fun x => { x with st := .on })
  linkUp f.linkWidth f.linkRate f.cacheNegotiated f.memNegotiated (s.modFn 0 (fun x => { x with st := .disabled, before := .disabled }))

/-- Step 2: the keeper runs the stored image, and the AK and the RK are drawn (R398). -/
def bootKeeper (s : State) : State :=
  drawKeys (s.modKeeper (fun k => { k with up := true, resetting := false, image := k.stored, unrecorded := 0 }))

/-- A channel whose DIMMs do not match the population kept is DOWN (R462). -/
def mismatched (s : State) (c : Nat) : State :=
  logOnly (s.modLoft c (fun x => { x with st := .down })) .dimmMismatch { kind := 4, place := c } [c]

/-- Shards as the start finds them: those of a failed stack, and those found WRITING, are INVALID (R229, R231). -/
def foundShards (dead : List Nat) (t : Tbl Shard) : Tbl Shard :=
  tmap (fun k x =>
    let lost := decide (x.st = .writing) || (dead.contains (k / 1024) && decide (x.st = .valid ∨ x.st = .quarantined))
    { x with st := if lost then .invalid else x.st, incoming := false, rewrite := false }) t

/-- A base's roots as the start finds them (R231). -/
def foundBase (f : BootFound) (b : Nat) (x : Base) : Base := { x with rootBad := decide (x.st ≠ .empty) && f.badRoots.contains b }

/-- Step 3: quarters, HBM, Cellar and Loft are on, with what failed to train put out of service. -/
def bootMemories (f : BootFound) (s : State) : State :=
  let s := [0, 1, 2, 3, 4, 5, 6].foldl (fun s d => s.modDomain d (fun x => { x with st := .on })) s
  let s := (f.failedPcs.filter (fun u => decide (u < 512))).foldl (fun s u => retirePc u s) s
  let s := s.modLink (fun l => { l with loftDimms := f.loftDimms, loftDimmGiB := f.loftDimmGiB, loftRate := f.loftRate })
  let s := (f.badLoft.filter (fun c => decide (c < 16))).foldl mismatched s
  let s := s.modCellar (fun c => { c with shards := foundShards f.failedStacks c.shards, bases := tmap (foundBase f) c.bases })
  s.modPower (fun p => { p with memActive := true, stacksDown := f.failedStacks })

/-- An HBM stack, of 64 pseudo-channels, none of which trains (Table 17.10). -/
def stackLost (s : State) (f : BootFound) : Bool :=
  (List.range 8).any (fun k =>
    ((List.range 64).all (fun i => f.failedPcs.contains (64 * k + i) || (s.pc (64 * k + i)).retired))
      && ((List.range 64).any (fun i => f.failedPcs.contains (64 * k + i))))

/-! ### Step 5: the ledger resumed (R321, R335, R265) -/

/-- Whether a long command overtaken by the loss is told SUPERSEDED (R470). -/
def overtaken (r : CmdRef) : Bool := decide (r.code = 0x0A07 ∨ r.code = 0x0A08)

/-- The base that a base-install is filling. -/
def installBase (s : State) (r : CmdRef) : Option Nat :=
  (s.cellar.bases.find? (fun b => match b.2.install with
    | some i => decide (i.ref = r)
    | none => false)).map (·.1)

/-- The final reply of a long command that the loss cut off, in a record of its own (R335). -/
def cutLong (s : State) (r : CmdRef) : State :=
  if r.code = 0x0701 then
    match installBase s r with
    | some b => cutInstall s.bump b .installIncomplete
    | none => finish s r .installIncomplete (leBytes 4 0)
  else finish s r .powerLost []

/-- Every long command without its final reply gets it: SUPERSEDED in the first record after RESTART (R470), the others in the
order of their acceptances (R335). An installation whose acceptance was lost is gone. -/
def cutLongs (s : State) : State :=
  let l := s.led.longs
  let behind := l.filter overtaken
  let s := if behind = [] then s else behind.foldl (fun s r => finishIn s r .superseded []) s.bump
  let s := (l.filter (fun r => !overtaken r)).foldl cutLong s
  s.modCellar (fun c => { c with bases := tmap (fun _ b => { b with install := none }) c.bases })

/-- Contexts of the wings that come back end with CONTEXT_LOST (R265). Table 19.3 has no notice for it: each is logged. -/
def loseContexts (s : State) : State :=
  s.durable.wings.foldl (fun s w => (w.2.contexts.filter (fun c => c.2.live)).foldl (fun s _ => logStatus s .contextLost (atWing s w.1)) s) s

/-- Domains and supplies that the ledger records as off turned off (Table 17.9). -/
def applyOff (s : State) : State :=
  let s := ((s.led.domainsOff.filter (fun d => d.2)).map (·.1)).foldl (fun s d => domainOff d s) s
  setSupplies true ((s.led.tilesOff.filter (fun p => p.2)).map (·.1)) s

/-- Each base READY where its root recomputes and its key is held, else INSTALLED (R231, R463). -/
def restoreBases (s : State) : State :=
  s.modCellar (fun c => { c with bases := tmap (fun n b =>
    { b with st := if b.st = .ready ∨ b.st = .installed then (if keyHeld s n ∧ !b.rootBad then .ready else .installed) else b.st }) c.bases })

/-- The module Loft key drawn afresh (R179, R463). -/
def drawLoftKey (s : State) : State :=
  s.draw.modSecure (fun x => { x with loftKey := fit 64 (Config.freeBytes s.free 64), loftEpoch := x.loftEpoch + 1, wipedSinceStart := false })

/-- Tally period 1 opens at the first start-up in DEPLOYED (R364). -/
def openTally (s : State) : State :=
  if s.secure.life = .deployed ∧ s.led.tally.period = 0 then
    s.modLed (fun l => { l with tally := { l.tally with period := 1, start := l.version, cur := [] } })
  else s

/-- The notices of a start, once VF0 is ENABLED: stacks that failed (R229), bases whose roots are bad (R231), MODULE_READY, and
TIME_UNSET (R23). -/
def bootNotices (s : State) : State :=
  let s := s.power.stacksDown.foldl (fun s k => notify s .cellarStackDown {} [k]) s
  let s := ((s.cellar.bases.filter (fun b => b.2.rootBad)).map (·.1)).foldl (fun s b => notify s .manifestBad {} [b]) s
  let s := notify s .moduleReady {} []
  if s.clock.st = .unset then notify s .timeUnset {} [] else s

/-- Step 5: the ledger resumed behind its RESTART record, and the module READY. -/
def bootReady (s : State) : State :=
  let s := openTally (loseContexts (cutLongs (restartRecord s)))
  let s := restoreBases (drawLoftKey (applyOff s))
  let s := s.modFn 0 (fun f => { f with st := .enabled, before := .enabled })
  let s := setStat .ready (s.modPower (fun p => { p with ready := true, step := 0, bootStep := 5, failed := 0, minReason := 0 }))
  settleGates (bootNotices s)

/-! ### Boot events -/

/-- A step's end: BOOT_STEP reports it, and the next begins. -/
def endStep (n : Nat) (s : State) : State := beginStep (n + 1) (s.modPower (fun p => { p with bootStep := n }))

/-- BOOT_STEP_DONE (R462). A step is not done while a domain of it is unpowered, or a port trains in step 4. -/
def bootStepDone (f : BootFound) (s : State) : State :=
  let n := s.power.step
  let waits := (stepDomains n).any (fun d => decide ((s.domain d).st = .off))
    || (decide (n = 4) && s.ports.any (fun p => decide (p.2.st = .training)))
  if s.power.retryWait || waits then s
  else if n = 1 then
    let s := bootCxl f s
    if s.secure.life = .scrapped then failedStart 0x0201 s else endStep 1 s
  else if n = 2 then endStep 2 (bootKeeper s)
  else if n = 3 then (if stackLost s f then failedStart 0x0401 s else endStep 3 (bootMemories f s))
  else if n = 4 then endStep 4 ([8, 9, 10, 11, 12, 13].foldl (fun s d => s.modDomain d (fun x => { x with st := .on })) s)
  else if n = 5 then bootReady s
  else s

/-- BOOT_STEP_DONE. -/
def execBootStepDone (found : BootFound) (s : State) : Host.Outcome State Fault Refusal := .next (bootStepDone found s)

/-- The reasons that an overrun or a failure of a step may have (Table 17.10). POWER_GOOD and THERMAL come by their own events. -/
def overrunReason (r : Nat) : Bool :=
  decide (r = 0x0101 ∨ r = 0x0102 ∨ r = 0x0103 ∨ r = 0x0202 ∨ r = 0x0401 ∨ r = 0x0402 ∨ r = 0x0403 ∨ r = 0x0501 ∨ r = 0x0502 ∨ r = 0x0503
    ∨ r = 0x0504 ∨ r = 0x0601)

/-- BOOT_STEP_OVERRUN: a step of a start, or a keeper reset after READY, fails (R464). -/
def bootStepOverrun (reason : Nat) (s : State) : State :=
  if overrunReason reason ∧ ((s.power.step ≠ 0 ∧ !s.power.retryWait) ∨ (s.power.ready ∧ s.keeper.resetting)) then failedStart reason s else s

/-- BOOT_STEP_OVERRUN. -/
def execBootStepOverrun (reason : Nat) (s : State) : Host.Outcome State Fault Refusal := .next (bootStepOverrun reason s)

/-- RETRY_WAIT_END: 1 s after a failed start the next attempt runs from step 2 (R465). -/
def retryWaitEnd (s : State) : State :=
  if s.power.retryWait then beginStep 2 (s.modPower (fun p => { p with retryWait := false })) else s

/-- RETRY_WAIT_END. -/
def execRetryWaitEnd (s : State) : Host.Outcome State Fault Refusal := .next (retryWaitEnd s)

/-! ### Doze (R457 to R459) -/

/-- Whether a keeper-dispatched entry falls due at a milepost. -/
def keeperEntryAt (s : State) (m : Nat) : Bool :=
  ((recurring s m) ++ s.tt.entries.filter (fun e => decide (e.mp ≤ m)) ++ s.tt.due).any (fun e => keeperClass e.cls)

/-- The wake alarm: 1 mp before the next keeper-dispatched entry, or 100 mp ahead (R457). -/
def alarmFor (s : State) : Nat :=
  match (List.range 100).find? (fun i => keeperEntryAt s (s.clock.count + i + 1)) with
  | some i => s.clock.count + i
  | none => s.clock.count + 100

/-- DOZE_REQUEST: the keeper dozes where R457 allows it, unless a level wake stands (R458). -/
def dozeRequest (s : State) : State :=
  let level := s.mgmt.warning || s.power.perst || s.tt.due.any (fun e => keeperClass e.cls)
  if normalMode s ∧ (nextPacket s).isNone ∧ !keeperEntryAt s (s.clock.count + 2) ∧ !level then
    s.modKeeper (fun k => { k with doze := true, alarm := some (alarmFor s) })
  else s

/-- DOZE_REQUEST. -/
def execDozeRequest (s : State) : Host.Outcome State Fault Refusal := .next (dozeRequest s)

/-- The keeper awake. -/
def wake (s : State) : State := s.modKeeper (fun k => { k with doze := false })

/-- Whether the alarm has come. -/
def alarmDue (s : State) : Bool := (s.keeper.alarm.map (fun a => decide (a ≤ s.clock.count))).getD false

/-- DOZE_WAKE: a source of Table 17.7 ends the doze; the keeper then takes every stamped packet, in order (R459). -/
def execDozeWake (source : WakeSource) (s : State) : Host.Outcome State Fault Refusal :=
  .next (if source = .alarm ∧ !alarmDue s then s else wake s)

/-- WAKE_ALARM: the milepost of the alarm has come. -/
def execWakeAlarm (s : State) : Host.Outcome State Fault Refusal := .next (if alarmDue s then wake s else s)

end Sys2Proof.Machine
end

