-- ==== Sys2Proof/Machine/Drains.lean ====
section
/-! DEFINITION. DRAIN with the bounds of the quarter store (R78 to R80, R153, R171). -/

namespace Sys2Proof.Machine

open Sys2Proof

/-- Whether an object lies in a quarter-store slice that is not a wing's (R171). -/
def outsideSlices (s : State) (w object : Nat) : Bool :=
  let p := (s.obj object).place
  decide (p.tier = .quarter) && !within p.set (s.wing w).slices

/-- An access of a tile to a slice that is not its wing's: the write is discarded, the wing's counter gains 1, and the context
ends with STORE_BOUNDS (R171). -/
def boundsFault (s : State) (tile w c : Nat) : State :=
  endContext (s.modWing w (fun x => { x with counters := { x.counters with bounds := wrapAdd x.counters.bounds 1 } })) w c .storeBounds
    (atTile s tile) []

/-- Whether a tile's drain is one into a gradient object that lies in a slice of no wing or of another. -/
def drainOutside (tile : Nat) (d : DrainArgs) (s : State) : Option (Nat × Nat) :=
  let t := s.tile tile
  match t.owner, d.dest with
  | some (w, c), .gradient object _ _ _ =>
    if !t.stopped && mayDrain t d.tracker && decide (d.tag ≤ 1023) && outsideSlices s w object then some (w, c) else none
  | _, _ => none

/-- A drain, within the slices of its wing. -/
def drainWithin (tile : Nat) (d : DrainArgs) (s : State) : State :=
  match drainOutside tile d s with
  | some (w, c) => boundsFault s tile w c
  | none => drain tile d s

/-- DRAIN. -/
def execDrain (tile : Nat) (args : DrainArgs) (s : State) : Host.Outcome State Fault Refusal :=
  onPart tile 136 s (drainWithin tile args)

end Sys2Proof.Machine
end

