-- ==== Sys2Proof/Machine/Pins.lean ====
section
/-! DEFINITION. Temperatures (R487), the management bus (R482 to R484) and the test access port (R417, R485). -/

namespace Sys2Proof.Machine

open Sys2Proof

/-! ### Temperatures (R487, Table 18.13)

Parts are numbered as HOT_PART (Table 18.10): 0 to 7 the dies in the order of R397, 8 to 15 the HBM stacks. The Cellar stacks, which
that table does not number, are 16 to 23. Temperatures are in units of 0.125 °C. -/

/-- A part's warning limit. -/
def warnLimit (part : Nat) : Int := if part < 8 then 800 else if part < 16 then 720 else 680

/-- A part's trip limit. -/
def tripLimit (part : Nat) : Int := if part < 8 then 920 else if part < 16 then 800 else 760

/-- Where a part's event is logged: die, HBM stack as its first pseudo-channel, or Cellar stack as its first shard. -/
def atPart (part : Nat) : At :=
  if part < 8 then { kind := 9, place := part } else if part < 16 then { kind := 3, place := 64 * (part - 8) } else atShard (1024 * (part - 16))

/-- A part's temperature. -/
def setTemp (part : Nat) (t : Int) (s : State) : State := s.modMgmt (fun m => { m with temps := tput m.temps part t })

/-- THERMAL_WARNING_CROSS: a part reaches its warning limit: WARNING is set and VF0 is told. -/
def thermalWarning (part : Nat) (t : Int) (s : State) : State :=
  if t < warnLimit part ∨ !mainOn s then s
  else
    let s := setTemp part t s
    if part ∈ s.mgmt.warned then s
    else
      let was := s.mgmt.warning
      let s := s.modMgmt (fun m => { m with warned := insertBy (fun a b => decide (a < b)) part m.warned, warning := true })
      let s := if was then s else raiseIbi 0 s
      notify s .thermalWarning (atPart part) [part, unsigned 16 t]

/-- THERMAL_WARNING_CROSS. -/
def execThermalWarningCross (part : Nat) (eighths : Int) (s : State) : Host.Outcome State Fault Refusal := onPart part 24 s (thermalWarning part eighths)

/-- THERMAL_WARNING_CLEAR: every part is 5 °C below its warning limit. -/
def execThermalWarningClear (s : State) : Host.Outcome State Fault Refusal :=
  .next (s.modMgmt (fun m => { m with warned := [], warning := false }))

/-- A thermal trip: a power-off, TRIPPED; one during a start is a failed start, counted as THERMAL (Table 17.11). -/
def trip (part : Nat) (s : State) : State :=
  if !mainOn s then s
  else
    let s := (logOnly s .thermalTrip (atPart part) [part]).modMgmt (fun m => { m with tripped := true })
    let s := if s.power.step ≠ 0 ∨ s.power.retryWait then
        (logOnly s .failedStart {} [0x0302]).modPower (fun p => { p with failed := Nat.min (p.failed + 1) 3 })
      else s
    powerOff .tripped true s

/-- THERMAL_TRIP. -/
def thermalTrip (part : Nat) (t : Int) (s : State) : State :=
  if t < tripLimit part ∨ !mainOn s then s else trip part (setTemp part t s)

/-- THERMAL_TRIP. -/
def execThermalTrip (part : Nat) (eighths : Int) (s : State) : Host.Outcome State Fault Refusal := onPart part 24 s (thermalTrip part eighths)

/-- Sensors of a die: 8 on a compute die, 4 on a base die, in the order of R397. -/
def sensorsOf (part : Nat) : Nat := if part % 2 = 0 then 8 else 4

/-- SENSOR_FAULT: the sensor is ignored and a record written; a die with none left counts as at its trip limit. -/
def sensorFault (part sensor : Nat) (s : State) : State :=
  if !s.power.alwaysOn ∨ (part < 8 ∧ sensorsOf part ≤ sensor) then s
  else
    let s := s.modMgmt (fun m => { m with sensorBad := if (part, sensor) ∈ m.sensorBad then m.sensorBad else m.sensorBad ++ [(part, sensor)] })
    let s := logOnly s .sensorFault (atPart part) [part]
    if part < 8 ∧ (List.range (sensorsOf part)).all (fun i => s.mgmt.sensorBad.contains (part, i)) then trip part s else s

/-- SENSOR_FAULT. -/
def execSensorFault (part sensor : Nat) (s : State) : Host.Outcome State Fault Refusal := onPart part 24 s (sensorFault part sensor)

/-! ### The management bus (R482, R484) -/

/-- A dynamic address given to the target, which takes one only while it has none, as I3C has it (PRESUMED). -/
def takeAddress (a : Nat) (s : State) : State :=
  if s.power.alwaysOn ∧ s.mgmt.dynAddr.isNone ∧ a < 128 then s.modMgmt (fun m => { m with dynAddr := some a }) else s

/-- I3C_SETDASA: for the static address 0x68 + MADDR. -/
def execI3cSetdasa (staticAddr dynAddr : Nat) (s : State) : Host.Outcome State Fault Refusal :=
  .next (if staticAddr = 0x68 + s.mgmt.maddr then takeAddress dynAddr s else s)

/-- I3C_ENTDAA. -/
def execI3cEntdaa (dynAddr : Nat) (s : State) : Host.Outcome State Fault Refusal := .next (takeAddress dynAddr s)

/-- I3C_RSTDAA: the dynamic address is given up, and with it a pending interrupt (R484). -/
def execI3cRstdaa (s : State) : Host.Outcome State Fault Refusal :=
  .next (if s.power.alwaysOn then s.modMgmt (fun m => { m with dynAddr := none, ibi := none }) else s)

/-- I3C_GETSTATUS: two bytes, the pending-interrupt field in the low four bits of the second, as I3C lays them out (PRESUMED). -/
def execI3cGetstatus (s : State) : Host.Outcome State Fault Refusal :=
  .next (if s.power.alwaysOn && s.mgmt.dynAddr.isSome then returned s [0, if s.mgmt.ibi.isSome then 1 else 0] else s)

/-! ### The test access port (R417, R485, Table 15.16) -/

/-- An instruction selected. -/
def selectIr (code : Nat) (s : State) : State :=
  s.modMgmt (fun m => { m with jtagIr := code, boundaryDriven := decide (code = 0x00) })

/-- Whether a boundary-scan instruction is accepted: not when SCRAPPED, and only while PERST_N is asserted. -/
def scanAccepted (s : State) : Bool := decide (s.secure.life ≠ .scrapped) && s.power.perst

/-- Whether a debug instruction is accepted. -/
def debugAccepted (s : State) : Bool :=
  decide (s.secure.life = .manufacture) || (decide (s.secure.life = .return_) && s.secure.debug)

/-- A boundary-scan instruction, or BYPASS in its place. -/
def boundaryScan (code : Nat) (act : State → State) (s : State) : State :=
  if !s.power.alwaysOn then s else if scanAccepted s then act (selectIr code s) else selectIr 0xFF s

/-- JTAG_BYPASS. -/
def execJtagBypass (s : State) : Host.Outcome State Fault Refusal := .next (if s.power.alwaysOn then selectIr 0xFF s else s)

/-- The IDCODE value: R485 gives stepping B0's; another stepping's is free. -/
def idcodeValue : Nat := if Config.stepping = (0x42, 0) then 0x1960096B else Config.idcode

/-- JTAG_IDCODE. -/
def execJtagIdcode (s : State) : Host.Outcome State Fault Refusal :=
  .next (if s.power.alwaysOn then returned (selectIr 0x01 s) (leBytes 4 idcodeValue) else s)

/-- JTAG_EXTEST: the boundary register drives the pins. -/
def execJtagExtest (s : State) : Host.Outcome State Fault Refusal := .next (boundaryScan 0x00 (fun s => s) s)

/-- JTAG_SAMPLE: the boundary register takes the pins' levels. -/
def execJtagSample (s : State) : Host.Outcome State Fault Refusal :=
  .next (boundaryScan 0x02 (fun s => s.draw.modMgmt (fun m => { m with boundary := Config.pinSample s.free })) s)

/-- JTAG_PRELOAD: the boundary register is loaded. -/
def execJtagPreload (value : List Bool) (s : State) : Host.Outcome State Fault Refusal :=
  .next (boundaryScan 0x03 (fun s => s.modMgmt (fun m => { m with boundary := value })) s)

/-- JTAG_DEBUG: an accepted debug instruction goes to the debug unit, of which the spec says nothing; any other selects BYPASS. -/
def execJtagDebug (_code : Nat) (s : State) : Host.Outcome State Fault Refusal :=
  if s.power.alwaysOn && debugAccepted s then .refused .debugUnit
  else .next (if s.power.alwaysOn then selectIr 0xFF s else s)

end Sys2Proof.Machine
end

