-- ==== Sys2Proof/Machine/Dispatch.lean ====
section
/-! DEFINITION. One arm per command or event: the meaning of each row of the opcode table. -/

namespace Sys2Proof.Machine

open Sys2Proof

/-- A command's or event's effect on everything but the queue. -/
def exec (i : Instr) (s : State) : Host.Outcome State Fault Refusal :=
  match i with
  | .mpclkEdge dt offset => Sys2Proof.Machine.execMpclkEdge dt offset s
  | .localMilepostEdge => Sys2Proof.Machine.execLocalMilepostEdge s
  | .mpclkLoss missing => Sys2Proof.Machine.execMpclkLoss missing s
  | .mpclkRequalify => Sys2Proof.Machine.execMpclkRequalify s
  | .slewDone => Sys2Proof.Machine.execSlewDone s
  | .countAdopt => Sys2Proof.Machine.execCountAdopt s
  | .holdoverLimit => Sys2Proof.Machine.execHoldoverLimit s
  | .timeUnsetReminder => Sys2Proof.Machine.execTimeUnsetReminder s
  | .rollCall => Sys2Proof.Machine.execRollCall s
  | .failover => Sys2Proof.Machine.execFailover s
  | .fenceEntry wing => Sys2Proof.Machine.execFenceEntry wing s
  | .stageEnd wing => Sys2Proof.Machine.execStageEnd wing s
  | .scrub wing => Sys2Proof.Machine.execScrub wing s
  | .stageStart wing => Sys2Proof.Machine.execStageStart wing s
  | .cellarSlot => Sys2Proof.Machine.execCellarSlot s
  | .collective collective => Sys2Proof.Machine.execCollective collective s
  | .ticketExpiry wing => Sys2Proof.Machine.execTicketExpiry wing s
  | .digestSweep => Sys2Proof.Machine.execDigestSweep s
  | .arrayRow tile row => Sys2Proof.Machine.execArrayRow tile row s
  | .shadowLoad tile block => Sys2Proof.Machine.execShadowLoad tile block s
  | .blockSwap tile => Sys2Proof.Machine.execBlockSwap tile s
  | .arrayParityError tile => Sys2Proof.Machine.execArrayParityError tile s
  | .accOpen tile args => Sys2Proof.Machine.execAccOpen tile args s
  | .promotion tile tracker row col corrected => Sys2Proof.Machine.execPromotion tile tracker row col corrected s
  | .drain tile args => Sys2Proof.Machine.execDrain tile args s
  | .accEccError tile corrected => Sys2Proof.Machine.execAccEccError tile corrected s
  | .nop tile args => Sys2Proof.Machine.execNop tile args s
  | .endProgram tile args => Sys2Proof.Machine.execEndProgram tile args s
  | .loop tile args => Sys2Proof.Machine.execLoop tile args s
  | .wait tile args => Sys2Proof.Machine.execWait tile args s
  | .post tile args => Sys2Proof.Machine.execPost tile args s
  | .tag tile args => Sys2Proof.Machine.execTag tile args s
  | .sld tile args => Sys2Proof.Machine.execSld tile args s
  | .stream tile args => Sys2Proof.Machine.execStream tile args s
  | .add tile args => Sys2Proof.Machine.execAdd tile args s
  | .sub tile args => Sys2Proof.Machine.execSub tile args s
  | .mul tile args => Sys2Proof.Machine.execMul tile args s
  | .fma tile args => Sys2Proof.Machine.execFma tile args s
  | .min tile args => Sys2Proof.Machine.execMin tile args s
  | .max tile args => Sys2Proof.Machine.execMax tile args s
  | .abs tile args => Sys2Proof.Machine.execAbs tile args s
  | .neg tile args => Sys2Proof.Machine.execNeg tile args s
  | .sel tile args => Sys2Proof.Machine.execSel tile args s
  | .cmp tile args => Sys2Proof.Machine.execCmp tile args s
  | .exp2 tile args => Sys2Proof.Machine.execExp2 tile args s
  | .log2 tile args => Sys2Proof.Machine.execLog2 tile args s
  | .rcp tile args => Sys2Proof.Machine.execRcp tile args s
  | .sqrt tile args => Sys2Proof.Machine.execSqrt tile args s
  | .rsqrt tile args => Sys2Proof.Machine.execRsqrt tile args s
  | .tanh tile args => Sys2Proof.Machine.execTanh tile args s
  | .cvt tile args => Sys2Proof.Machine.execCvt tile args s
  | .quant tile args => Sys2Proof.Machine.execQuant tile args s
  | .iadd tile args => Sys2Proof.Machine.execIadd tile args s
  | .iand tile args => Sys2Proof.Machine.execIand tile args s
  | .ior tile args => Sys2Proof.Machine.execIor tile args s
  | .ixor tile args => Sys2Proof.Machine.execIxor tile args s
  | .ishl tile args => Sys2Proof.Machine.execIshl tile args s
  | .ishr tile args => Sys2Proof.Machine.execIshr tile args s
  | .mset tile args => Sys2Proof.Machine.execMset tile args s
  | .mand tile args => Sys2Proof.Machine.execMand tile args s
  | .mor tile args => Sys2Proof.Machine.execMor tile args s
  | .mxor tile args => Sys2Proof.Machine.execMxor tile args s
  | .mnot tile args => Sys2Proof.Machine.execMnot tile args s
  | .gseed tile args => Sys2Proof.Machine.execGseed tile args s
  | .rand tile args => Sys2Proof.Machine.execRand tile args s
  | .drop tile args => Sys2Proof.Machine.execDrop tile args s
  | .rtz tile args => Sys2Proof.Machine.execRtz tile args s
  | .rtacc tile args => Sys2Proof.Machine.execRtacc tile args s
  | .rtred tile args => Sys2Proof.Machine.execRtred tile args s
  | .rtout tile args => Sys2Proof.Machine.execRtout tile args s
  | .updateJobStart job handle => Sys2Proof.Machine.execUpdateJobStart job handle s
  | .updateSlice quarter => Sys2Proof.Machine.execUpdateSlice quarter s
  | .updateCommit job handle => Sys2Proof.Machine.execUpdateCommit job handle s
  | .passAdmit wing context => Sys2Proof.Machine.execPassAdmit wing context s
  | .forwardPassEnd wing context => Sys2Proof.Machine.execForwardPassEnd wing context s
  | .backwardPassEnd wing context => Sys2Proof.Machine.execBackwardPassEnd wing context s
  | .stepCommit wing context => Sys2Proof.Machine.execStepCommit wing context s
  | .passEnd wing context => Sys2Proof.Machine.execPassEnd wing context s
  | .pointArrival room block => Sys2Proof.Machine.execPointArrival room block s
  | .replacementCommit handle => Sys2Proof.Machine.execReplacementCommit handle s
  | .checkoutMoveCommit room => Sys2Proof.Machine.execCheckoutMoveCommit room s
  | .adapterReadDone handle => Sys2Proof.Machine.execAdapterReadDone handle s
  | .objectMoveCommit object => Sys2Proof.Machine.execObjectMoveCommit object s
  | .objectFillDone object => Sys2Proof.Machine.execObjectFillDone object s
  | .objectTransferDone object bytes => Sys2Proof.Machine.execObjectTransferDone object bytes s
  | .shardFetch wing => Sys2Proof.Machine.execShardFetch wing s
  | .shardArrival wing shard digest => Sys2Proof.Machine.execShardArrival wing shard digest s
  | .hbmCorrectedError pc addr => Sys2Proof.Machine.execHbmCorrectedError pc addr s
  | .hbmUncorrectableError pc addr place => Sys2Proof.Machine.execHbmUncorrectableError pc addr place s
  | .loftCorrectedError channel addr => Sys2Proof.Machine.execLoftCorrectedError channel addr s
  | .loftUncorrectableError channel addr place => Sys2Proof.Machine.execLoftUncorrectableError channel addr place s
  | .loftChannelLoss channel => Sys2Proof.Machine.execLoftChannelLoss channel s
  | .storeCorrectedError quarterStore unit => Sys2Proof.Machine.execStoreCorrectedError quarterStore unit s
  | .storeEccError quarterStore unit word reader => Sys2Proof.Machine.execStoreEccError quarterStore unit word reader s
  | .secureStoreKeyError slot => Sys2Proof.Machine.execSecureStoreKeyError slot s
  | .shardProgramDone shard ok digest => Sys2Proof.Machine.execShardProgramDone shard ok digest s
  | .shardReadbackDone shard digest outlierListsOk => Sys2Proof.Machine.execShardReadbackDone shard digest outlierListsOk s
  | .sweepReadDone shard digest => Sys2Proof.Machine.execSweepReadDone shard digest s
  | .shardEraseDone shard => Sys2Proof.Machine.execShardEraseDone shard s
  | .holderTimeout shard => Sys2Proof.Machine.execHolderTimeout shard s
  | .switchEdge wing => Sys2Proof.Machine.execSwitchEdge wing s
  | .parkThreshold wing => Sys2Proof.Machine.execParkThreshold wing s
  | .swapOutStart wing => Sys2Proof.Machine.execSwapOutStart wing s
  | .swapInStart wing => Sys2Proof.Machine.execSwapInStart wing s
  | .swapCommit wing => Sys2Proof.Machine.execSwapCommit wing s
  | .wingRemoveDone wing => Sys2Proof.Machine.execWingRemoveDone wing s
  | .trainingPhaseDone port lanes => Sys2Proof.Machine.execTrainingPhaseDone port lanes s
  | .trainingPhaseOverrun port => Sys2Proof.Machine.execTrainingPhaseOverrun port s
  | .trainingRetry port => Sys2Proof.Machine.execTrainingRetry port s
  | .hello port body => Sys2Proof.Machine.execHello port body s
  | .laneLockLoss port lane locked => Sys2Proof.Machine.execLaneLockLoss port lane locked s
  | .uncorrectableCodeword port locked => Sys2Proof.Machine.execUncorrectableCodeword port locked s
  | .dataFrame port frame => Sys2Proof.Machine.execDataFrame port frame s
  | .retryFrame port frame => Sys2Proof.Machine.execRetryFrame port frame s
  | .idleFrame port frame => Sys2Proof.Machine.execIdleFrame port frame s
  | .ackTimeout port => Sys2Proof.Machine.execAckTimeout port s
  | .linkRetrainDone port ok => Sys2Proof.Machine.execLinkRetrainDone port ok s
  | .entry hdr body nearEdge => Sys2Proof.Machine.execEntry hdr body nearEdge s
  | .rollCallClose => Sys2Proof.Machine.execRollCallClose s
  | .ringBlock hdr wing ticket leg step data => Sys2Proof.Machine.execRingBlock hdr wing ticket leg step data s
  | .ringDone hdr wing ticket leg => Sys2Proof.Machine.execRingDone hdr wing ticket leg s
  | .mirrorWrite hdr leg party data => Sys2Proof.Machine.execMirrorWrite hdr leg party data s
  | .mirrorAck hdr leg => Sys2Proof.Machine.execMirrorAck hdr leg s
  | .mirrorAckTimeout ring leg => Sys2Proof.Machine.execMirrorAckTimeout ring leg s
  | .bcastData hdr shard last digest => Sys2Proof.Machine.execBcastData hdr shard last digest s
  | .bcastAck hdr shard => Sys2Proof.Machine.execBcastAck hdr shard s
  | .reduceData hdr back data => Sys2Proof.Machine.execReduceData hdr back data s
  | .collectiveCommit collective => Sys2Proof.Machine.execCollectiveCommit collective s
  | .shardRequest hdr root shard => Sys2Proof.Machine.execShardRequest hdr root shard s
  | .shardData hdr shard paced digest => Sys2Proof.Machine.execShardData hdr shard paced digest s
  | .notHeld hdr shard => Sys2Proof.Machine.execNotHeld hdr shard s
  | .remoteRead hdr object addr len => Sys2Proof.Machine.execRemoteRead hdr object addr len s
  | .remoteData hdr ticket data => Sys2Proof.Machine.execRemoteData hdr ticket data s
  | .relayTimeout port => Sys2Proof.Machine.execRelayTimeout port s
  | .fabricParamsApply => Sys2Proof.Machine.execFabricParamsApply s
  | .cmdDoorbell fn value words => Sys2Proof.Machine.execCmdDoorbell fn value words s
  | .replyHeadWrite fn value => Sys2Proof.Machine.execReplyHeadWrite fn value s
  | .noticeHeadWrite fn value => Sys2Proof.Machine.execNoticeHeadWrite fn value s
  | .cmdWindowWrite fn offset data => Sys2Proof.Machine.execCmdWindowWrite fn offset data s
  | .replyWindowRead fn width => Sys2Proof.Machine.execReplyWindowRead fn width s
  | .noticeWindowRead fn width => Sys2Proof.Machine.execNoticeWindowRead fn width s
  | .packetArrivalTimeout fn => Sys2Proof.Machine.execPacketArrivalTimeout fn s
  | .gapNoticeTimeout fn session => Sys2Proof.Machine.execGapNoticeTimeout fn session s
  | .gapSkipTimeout fn session => Sys2Proof.Machine.execGapSkipTimeout fn session s
  | .leaseExpiry fn session => Sys2Proof.Machine.execLeaseExpiry fn session s
  | .lapseHoldExpiry fn session => Sys2Proof.Machine.execLapseHoldExpiry fn session s
  | .probationEnd fn session => Sys2Proof.Machine.execProbationEnd fn session s
  | .noOp h p => Sys2Proof.Machine.execNoOp h p s
  | .sessionOpen h p => Sys2Proof.Machine.execSessionOpen h p s
  | .sessionResume h p => Sys2Proof.Machine.execSessionResume h p s
  | .sessionStatus h p => Sys2Proof.Machine.execSessionStatus h p s
  | .sessionSet h p => Sys2Proof.Machine.execSessionSet h p s
  | .sessionClose h p => Sys2Proof.Machine.execSessionClose h p s
  | .functionStatus h p => Sys2Proof.Machine.execFunctionStatus h p s
  | .timeSeed h p => Sys2Proof.Machine.execTimeSeed h p s
  | .timeRead h p => Sys2Proof.Machine.execTimeRead h p s
  | .wingCreate h p => Sys2Proof.Machine.execWingCreate h p s
  | .wingResize h p => Sys2Proof.Machine.execWingResize h p s
  | .wingRemove h p => Sys2Proof.Machine.execWingRemove h p s
  | .wingReassign h p => Sys2Proof.Machine.execWingReassign h p s
  | .wingStatus h p => Sys2Proof.Machine.execWingStatus h p s
  | .stallRead h p => Sys2Proof.Machine.execStallRead h p s
  | .contextCreate h p => Sys2Proof.Machine.execContextCreate h p s
  | .contextSet h p => Sys2Proof.Machine.execContextSet h p s
  | .contextDestroy h p => Sys2Proof.Machine.execContextDestroy h p s
  | .programLoad h p host => Sys2Proof.Machine.execProgramLoad h p host s
  | .programFree h p => Sys2Proof.Machine.execProgramFree h p s
  | .passTrain h p => Sys2Proof.Machine.execPassTrain h p s
  | .passServe h p => Sys2Proof.Machine.execPassServe h p s
  | .serveOpen h p => Sys2Proof.Machine.execServeOpen h p s
  | .serveAppend h p => Sys2Proof.Machine.execServeAppend h p s
  | .serveClose h p => Sys2Proof.Machine.execServeClose h p s
  | .updateRun h p => Sys2Proof.Machine.execUpdateRun h p s
  | .watchRead h p => Sys2Proof.Machine.execWatchRead h p s
  | .watchSet h p => Sys2Proof.Machine.execWatchSet h p s
  | .watchReset h p => Sys2Proof.Machine.execWatchReset h p s
  | .detectorSet h p => Sys2Proof.Machine.execDetectorSet h p s
  | .detectorRelease h p => Sys2Proof.Machine.execDetectorRelease h p s
  | .objectCreate h p => Sys2Proof.Machine.execObjectCreate h p s
  | .objectMove h p => Sys2Proof.Machine.execObjectMove h p s
  | .objectResize h p => Sys2Proof.Machine.execObjectResize h p s
  | .objectFree h p => Sys2Proof.Machine.execObjectFree h p s
  | .objectStatus h p => Sys2Proof.Machine.execObjectStatus h p s
  | .objectWrite h p => Sys2Proof.Machine.execObjectWrite h p s
  | .objectRead h p => Sys2Proof.Machine.execObjectRead h p s
  | .windowSet h p => Sys2Proof.Machine.execWindowSet h p s
  | .adapterLoad h p host => Sys2Proof.Machine.execAdapterLoad h p host s
  | .roomPin h p => Sys2Proof.Machine.execRoomPin h p s
  | .checkout h p => Sys2Proof.Machine.execCheckout h p s
  | .adapterDelete h p => Sys2Proof.Machine.execAdapterDelete h p s
  | .adapterRead h p => Sys2Proof.Machine.execAdapterRead h p s
  | .adapterStatus h p => Sys2Proof.Machine.execAdapterStatus h p s
  | .baseInstall h p host => Sys2Proof.Machine.execBaseInstall h p host s
  | .installCancel h p => Sys2Proof.Machine.execInstallCancel h p s
  | .baseRemove h p => Sys2Proof.Machine.execBaseRemove h p s
  | .baseSelect h p => Sys2Proof.Machine.execBaseSelect h p s
  | .sweepSet h p => Sys2Proof.Machine.execSweepSet h p s
  | .cellarStatus h p => Sys2Proof.Machine.execCellarStatus h p s
  | .fabricSet h p host => Sys2Proof.Machine.execFabricSet h p host s
  | .collectiveSet h p => Sys2Proof.Machine.execCollectiveSet h p s
  | .collectivePost h p => Sys2Proof.Machine.execCollectivePost h p s
  | .ringSet h p host => Sys2Proof.Machine.execRingSet h p host s
  | .ringStatus h p => Sys2Proof.Machine.execRingStatus h p s
  | .fabricStatus h p => Sys2Proof.Machine.execFabricStatus h p s
  | .portRetrain h p => Sys2Proof.Machine.execPortRetrain h p s
  | .mirrorAreaSet h p => Sys2Proof.Machine.execMirrorAreaSet h p s
  | .passportGet h p host => Sys2Proof.Machine.execPassportGet h p host s
  | .keyRelease h p => Sys2Proof.Machine.execKeyRelease h p s
  | .partyKeyLoad h p => Sys2Proof.Machine.execPartyKeyLoad h p s
  | .partyKeyRemove h p => Sys2Proof.Machine.execPartyKeyRemove h p s
  | .partyBind h p => Sys2Proof.Machine.execPartyBind h p s
  | .lifeCycleSet h p => Sys2Proof.Machine.execLifeCycleSet h p s
  | .faultLogRead h p => Sys2Proof.Machine.execFaultLogRead h p s
  | .tileMap h p => Sys2Proof.Machine.execTileMap h p s
  | .pcRetire h p => Sys2Proof.Machine.execPcRetire h p s
  | .loftEvacuate h p => Sys2Proof.Machine.execLoftEvacuate h p s
  | .wingFence h p => Sys2Proof.Machine.execWingFence h p s
  | .firmwareHandover h p host => Sys2Proof.Machine.execFirmwareHandover h p host s
  | .domainSet h p => Sys2Proof.Machine.execDomainSet h p s
  | .vfSet h p => Sys2Proof.Machine.execVfSet h p s
  | .tallyRead h p => Sys2Proof.Machine.execTallyRead h p s
  | .tallyClose h p => Sys2Proof.Machine.execTallyClose h p s
  | .perstNAssert => Sys2Proof.Machine.execPerstNAssert s
  | .perstNDeassert => Sys2Proof.Machine.execPerstNDeassert s
  | .configRequest fn ats => Sys2Proof.Machine.execConfigRequest fn ats s
  | .flr fn => Sys2Proof.Machine.execFlr fn s
  | .vfEnableClear => Sys2Proof.Machine.execVfEnableClear s
  | .busMasterEnableClear fn => Sys2Proof.Machine.execBusMasterEnableClear fn s
  | .linkLoss => Sys2Proof.Machine.execLinkLoss s
  | .functionResetDone fn => Sys2Proof.Machine.execFunctionResetDone fn s
  | .hostCompletion fn gen ok access => Sys2Proof.Machine.execHostCompletion fn gen ok access s
  | .atsInvalidate fn page => Sys2Proof.Machine.execAtsInvalidate fn page s
  | .fnCtrlApply fn value => Sys2Proof.Machine.execFnCtrlApply fn value s
  | .decoderCommit decoder base size lock => Sys2Proof.Machine.execDecoderCommit decoder base size lock s
  | .decoderUncommit decoder => Sys2Proof.Machine.execDecoderUncommit decoder s
  | .cxlMemRead addr => Sys2Proof.Machine.execCxlMemRead addr s
  | .cxlMemWrite addr data => Sys2Proof.Machine.execCxlMemWrite addr data s
  | .ideIntegrityFailure stream => Sys2Proof.Machine.execIdeIntegrityFailure stream s
  | .passportRequest length nonce => Sys2Proof.Machine.execPassportRequest length nonce s
  | .ideKeys wrapper message => Sys2Proof.Machine.execIdeKeys wrapper message s
  | .debugUnlock token => Sys2Proof.Machine.execDebugUnlock token s
  | .doeDiscovery index => Sys2Proof.Machine.execDoeDiscovery index s
  | .doeAbort => Sys2Proof.Machine.execDoeAbort s
  | .porterKeeperReset key arg => Sys2Proof.Machine.execPorterKeeperReset key arg s
  | .porterSecureWipe key arg => Sys2Proof.Machine.execPorterSecureWipe key arg s
  | .porterWingFence key arg => Sys2Proof.Machine.execPorterWingFence key arg s
  | .porterPowerOff key arg => Sys2Proof.Machine.execPorterPowerOff key arg s
  | .mpCountRead => Sys2Proof.Machine.execMpCountRead s
  | .lowHalfRead fn offset => Sys2Proof.Machine.execLowHalfRead fn offset s
  | .registerWrite space fn offset width value => Sys2Proof.Machine.execRegisterWrite space fn offset width value s
  | .meshBreak => Sys2Proof.Machine.execMeshBreak s
  | .supplyExcursion ns => Sys2Proof.Machine.execSupplyExcursion ns s
  | .clockExcursion ns => Sys2Proof.Machine.execClockExcursion ns s
  | .thermalExcursion eighths => Sys2Proof.Machine.execThermalExcursion eighths s
  | .tamperIn ns => Sys2Proof.Machine.execTamperIn ns s
  | .akRedrawDone => Sys2Proof.Machine.execAkRedrawDone s
  | .scrubDone wing => Sys2Proof.Machine.execScrubDone wing s
  | .counterSnapshot => Sys2Proof.Machine.execCounterSnapshot s
  | .journalWrite => Sys2Proof.Machine.execJournalWrite s
  | .journalWriteDone => Sys2Proof.Machine.execJournalWriteDone s
  | .watchdogExpiry core => Sys2Proof.Machine.execWatchdogExpiry core s
  | .keeperCacheError core => Sys2Proof.Machine.execKeeperCacheError core s
  | .keeperRestartDone => Sys2Proof.Machine.execKeeperRestartDone s
  | .keeperMemoryError banksBad => Sys2Proof.Machine.execKeeperMemoryError banksBad s
  | .handoverTakeover => Sys2Proof.Machine.execHandoverTakeover s
  | .handoverTimeout => Sys2Proof.Machine.execHandoverTimeout s
  | .imageStoreWrite => Sys2Proof.Machine.execImageStoreWrite s
  | .spareSwitch tile badWords => Sys2Proof.Machine.execSpareSwitch tile badWords s
  | .pcRetireDone pc => Sys2Proof.Machine.execPcRetireDone pc s
  | .loftEvacuateDone channel => Sys2Proof.Machine.execLoftEvacuateDone channel s
  | .loftReturnDone channel dimmsMatch => Sys2Proof.Machine.execLoftReturnDone channel dimmsMatch s
  | .pfailNAssert => Sys2Proof.Machine.execPfailNAssert s
  | .thermalWarningCross part eighths => Sys2Proof.Machine.execThermalWarningCross part eighths s
  | .thermalWarningClear => Sys2Proof.Machine.execThermalWarningClear s
  | .thermalTrip part eighths => Sys2Proof.Machine.execThermalTrip part eighths s
  | .sensorFault part sensor => Sys2Proof.Machine.execSensorFault part sensor s
  | .vinRiseAlwaysOn => Sys2Proof.Machine.execVinRiseAlwaysOn s
  | .alwaysOnUp maddr => Sys2Proof.Machine.execAlwaysOnUp maddr s
  | .vinFallAlwaysOff => Sys2Proof.Machine.execVinFallAlwaysOff s
  | .vinGood => Sys2Proof.Machine.execVinGood s
  | .vinHigh => Sys2Proof.Machine.execVinHigh s
  | .vinOver => Sys2Proof.Machine.execVinOver s
  | .vinLow => Sys2Proof.Machine.execVinLow s
  | .vinLowNoWarn => Sys2Proof.Machine.execVinLowNoWarn s
  | .vinBelowHoldup => Sys2Proof.Machine.execVinBelowHoldup s
  | .voltageRecordRepeat => Sys2Proof.Machine.execVoltageRecordRepeat s
  | .domainPowerGood domain => Sys2Proof.Machine.execDomainPowerGood domain s
  | .powerGoodTimeout domain => Sys2Proof.Machine.execPowerGoodTimeout domain s
  | .domainSequenceDone domain => Sys2Proof.Machine.execDomainSequenceDone domain s
  | .dozeRequest => Sys2Proof.Machine.execDozeRequest s
  | .dozeWake source => Sys2Proof.Machine.execDozeWake source s
  | .wakeAlarm => Sys2Proof.Machine.execWakeAlarm s
  | .bootStepDone found => Sys2Proof.Machine.execBootStepDone found s
  | .bootStepOverrun reason => Sys2Proof.Machine.execBootStepOverrun reason s
  | .retryWaitEnd => Sys2Proof.Machine.execRetryWaitEnd s
  | .i3cSetdasa staticAddr dynAddr => Sys2Proof.Machine.execI3cSetdasa staticAddr dynAddr s
  | .i3cEntdaa dynAddr => Sys2Proof.Machine.execI3cEntdaa dynAddr s
  | .i3cRstdaa => Sys2Proof.Machine.execI3cRstdaa s
  | .i3cGetstatus => Sys2Proof.Machine.execI3cGetstatus s
  | .jtagBypass => Sys2Proof.Machine.execJtagBypass s
  | .jtagIdcode => Sys2Proof.Machine.execJtagIdcode s
  | .jtagExtest => Sys2Proof.Machine.execJtagExtest s
  | .jtagSample => Sys2Proof.Machine.execJtagSample s
  | .jtagPreload value => Sys2Proof.Machine.execJtagPreload value s
  | .jtagDebug code => Sys2Proof.Machine.execJtagDebug code s
  | .vfEnableSet numVfs => Sys2Proof.Machine.execVfEnableSet numVfs s
  | .busMasterEnableSet fn => Sys2Proof.Machine.execBusMasterEnableSet fn s
  | .linkUp width rate cache mem => Sys2Proof.Machine.execLinkUp width rate cache mem s
  | .snoop addr => Sys2Proof.Machine.execSnoop addr s

end Sys2Proof.Machine
end

