-- ==== Sys2Proof/WellFormed.lean ====
section
/-! DEFINITION. Which commands and events can occur at all: every part they name exists (Table 0.5 and the tables that
number the parts), and every field fits the bits its table gives it (Tables 5.1, 5.2, 11.4 and 12.4). -/

namespace Sys2Proof

/-- A part's number among so many. -/
def partIn (number count : Nat) : Bool := decide (number < count)

/-- A command header's fields fit their widths (Table 12.4). -/
def headerFits (h : CmdHdr) : Bool :=
  decide (h.fn < 256) && decide (h.session < 2 ^ 32) && decide (h.sgen < 2 ^ 32) && decide (h.seq < 2 ^ 64)
    && decide (h.deadline < 2 ^ 64) && decide (h.hostTag < 2 ^ 64) && decide (h.crc < 2 ^ 32) && decide (h.stamp < 2 ^ 64)

/-- A command's payload is at most 3,792 bytes (Table 12.4). -/
def payloadFits (p : Bytes) : Bool := decide (p.length ≤ 3792)

/-- The fields of a word of Table 5.2 fit their bits. -/
def tvxFits (a : TvxArgs) : Bool :=
  decide (a.mb < 8) && decide (a.ml < 8) && decide (a.rm < 4) && decide (a.immUse < 4) && decide (1 ≤ a.n) && decide (a.n ≤ 8192)

/-- The fields of a STREAM word fit their bits (Table 5.1). -/
def streamFits (a : StreamArgs) : Bool :=
  decide (a.slot < 4) && decide (a.format < 8) && decide (a.object < 8) && decide (a.base < 2 ^ 22)
    && decide (a.vstride < 2 ^ 21) && decide (a.q < 16)

/-- A fabric message arrives on one of the 36 ports (Table 11.4). -/
def messageFits (m : MsgHdr) : Bool := decide (m.port < 36)

/-- A command or event that can occur: its parts exist and its fields fit. -/
def Instr.wf : Instr → Bool
  | .mpclkEdge _ _ => true
  | .localMilepostEdge => true
  | .mpclkLoss _ => true
  | .mpclkRequalify => true
  | .slewDone => true
  | .countAdopt => true
  | .holdoverLimit => true
  | .timeUnsetReminder => true
  | .rollCall => true
  | .failover => true
  | .fenceEntry wing => partIn wing 16
  | .stageEnd wing => partIn wing 16
  | .scrub wing => partIn wing 16
  | .stageStart wing => partIn wing 16
  | .cellarSlot => true
  | .collective _ => true
  | .ticketExpiry wing => partIn wing 16
  | .digestSweep => true
  | .arrayRow tile _ => partIn tile 136
  | .shadowLoad tile _ => partIn tile 136
  | .blockSwap tile => partIn tile 136
  | .arrayParityError tile => partIn tile 136
  | .accOpen tile _ => partIn tile 136
  | .promotion tile _ _ _ _ => partIn tile 136
  | .drain tile _ => partIn tile 136
  | .accEccError tile _ => partIn tile 136
  | .nop tile args => partIn tile 136 && tvxFits args
  | .endProgram tile args => partIn tile 136 && tvxFits args
  | .loop tile args => partIn tile 136 && tvxFits args
  | .wait tile args => partIn tile 136 && tvxFits args
  | .post tile args => partIn tile 136 && tvxFits args
  | .tag tile args => partIn tile 136 && tvxFits args
  | .sld tile args => partIn tile 136 && tvxFits args
  | .stream tile args => partIn tile 136 && streamFits args
  | .add tile args => partIn tile 136 && tvxFits args
  | .sub tile args => partIn tile 136 && tvxFits args
  | .mul tile args => partIn tile 136 && tvxFits args
  | .fma tile args => partIn tile 136 && tvxFits args
  | .min tile args => partIn tile 136 && tvxFits args
  | .max tile args => partIn tile 136 && tvxFits args
  | .abs tile args => partIn tile 136 && tvxFits args
  | .neg tile args => partIn tile 136 && tvxFits args
  | .sel tile args => partIn tile 136 && tvxFits args
  | .cmp tile args => partIn tile 136 && tvxFits args
  | .exp2 tile args => partIn tile 136 && tvxFits args
  | .log2 tile args => partIn tile 136 && tvxFits args
  | .rcp tile args => partIn tile 136 && tvxFits args
  | .sqrt tile args => partIn tile 136 && tvxFits args
  | .rsqrt tile args => partIn tile 136 && tvxFits args
  | .tanh tile args => partIn tile 136 && tvxFits args
  | .cvt tile args => partIn tile 136 && tvxFits args
  | .quant tile args => partIn tile 136 && tvxFits args
  | .iadd tile args => partIn tile 136 && tvxFits args
  | .iand tile args => partIn tile 136 && tvxFits args
  | .ior tile args => partIn tile 136 && tvxFits args
  | .ixor tile args => partIn tile 136 && tvxFits args
  | .ishl tile args => partIn tile 136 && tvxFits args
  | .ishr tile args => partIn tile 136 && tvxFits args
  | .mset tile args => partIn tile 136 && tvxFits args
  | .mand tile args => partIn tile 136 && tvxFits args
  | .mor tile args => partIn tile 136 && tvxFits args
  | .mxor tile args => partIn tile 136 && tvxFits args
  | .mnot tile args => partIn tile 136 && tvxFits args
  | .gseed tile args => partIn tile 136 && tvxFits args
  | .rand tile args => partIn tile 136 && tvxFits args
  | .drop tile args => partIn tile 136 && tvxFits args
  | .rtz tile args => partIn tile 136 && tvxFits args
  | .rtacc tile args => partIn tile 136 && tvxFits args
  | .rtred tile args => partIn tile 136 && tvxFits args
  | .rtout tile args => partIn tile 136 && tvxFits args
  | .updateJobStart _ _ => true
  | .updateSlice quarter => partIn quarter 4
  | .updateCommit _ _ => true
  | .passAdmit wing _ => partIn wing 16
  | .forwardPassEnd wing _ => partIn wing 16
  | .backwardPassEnd wing _ => partIn wing 16
  | .stepCommit wing _ => partIn wing 16
  | .passEnd wing _ => partIn wing 16
  | .pointArrival room _ => partIn room 16384
  | .replacementCommit handle => partIn handle 65536
  | .checkoutMoveCommit room => partIn room 16384
  | .adapterReadDone handle => partIn handle 65536
  | .objectMoveCommit object => partIn object 262144
  | .objectFillDone object => partIn object 262144
  | .objectTransferDone object _ => partIn object 262144
  | .shardFetch wing => partIn wing 16
  | .shardArrival wing _ _ => partIn wing 16
  | .hbmCorrectedError pc _ => partIn pc 512
  | .hbmUncorrectableError pc _ _ => partIn pc 512
  | .loftCorrectedError channel _ => partIn channel 16
  | .loftUncorrectableError channel _ _ => partIn channel 16
  | .loftChannelLoss channel => partIn channel 16
  | .storeCorrectedError quarterStore unit => partIn unit (if quarterStore then 4 else 136)
  | .storeEccError quarterStore unit _ _ => partIn unit (if quarterStore then 4 else 136)
  | .secureStoreKeyError slot => partIn slot 4107
  | .shardProgramDone shard _ _ => partIn shard 8192
  | .shardReadbackDone shard _ _ => partIn shard 8192
  | .sweepReadDone shard _ => partIn shard 8192
  | .shardEraseDone shard => partIn shard 8192
  | .holderTimeout shard => partIn shard 8192
  | .switchEdge wing => partIn wing 16
  | .parkThreshold wing => partIn wing 16
  | .swapOutStart wing => partIn wing 16
  | .swapInStart wing => partIn wing 16
  | .swapCommit wing => partIn wing 16
  | .wingRemoveDone wing => partIn wing 16
  | .trainingPhaseDone port _ => partIn port 36
  | .trainingPhaseOverrun port => partIn port 36
  | .trainingRetry port => partIn port 36
  | .hello port _ => partIn port 36
  | .laneLockLoss port _ _ => partIn port 36
  | .uncorrectableCodeword port _ => partIn port 36
  | .dataFrame port _ => partIn port 36
  | .retryFrame port _ => partIn port 36
  | .idleFrame port _ => partIn port 36
  | .ackTimeout port => partIn port 36
  | .linkRetrainDone port _ => partIn port 36
  | .entry hdr _ _ => messageFits hdr
  | .rollCallClose => true
  | .ringBlock hdr wing _ _ _ _ => partIn wing 16 && messageFits hdr
  | .ringDone hdr wing _ _ => partIn wing 16 && messageFits hdr
  | .mirrorWrite hdr _ _ _ => messageFits hdr
  | .mirrorAck hdr _ => messageFits hdr
  | .mirrorAckTimeout _ _ => true
  | .bcastData hdr _ _ _ => messageFits hdr
  | .bcastAck hdr _ => messageFits hdr
  | .reduceData hdr _ _ => messageFits hdr
  | .collectiveCommit _ => true
  | .shardRequest hdr _ _ => messageFits hdr
  | .shardData hdr _ _ _ => messageFits hdr
  | .notHeld hdr _ => messageFits hdr
  | .remoteRead hdr _ _ _ => messageFits hdr
  | .remoteData hdr _ _ => messageFits hdr
  | .relayTimeout port => partIn port 36
  | .fabricParamsApply => true
  | .cmdDoorbell fn _ _ => partIn fn 256
  | .replyHeadWrite fn _ => partIn fn 256
  | .noticeHeadWrite fn _ => partIn fn 256
  | .cmdWindowWrite fn _ _ => partIn fn 256
  | .replyWindowRead fn _ => partIn fn 256
  | .noticeWindowRead fn _ => partIn fn 256
  | .packetArrivalTimeout fn => partIn fn 256
  | .gapNoticeTimeout fn session => partIn fn 256 && partIn session 16
  | .gapSkipTimeout fn session => partIn fn 256 && partIn session 16
  | .leaseExpiry fn session => partIn fn 256 && partIn session 16
  | .lapseHoldExpiry fn session => partIn fn 256 && partIn session 16
  | .probationEnd fn session => partIn fn 256 && partIn session 16
  | .noOp h p => headerFits h && payloadFits p
  | .sessionOpen h p => headerFits h && payloadFits p
  | .sessionResume h p => headerFits h && payloadFits p
  | .sessionStatus h p => headerFits h && payloadFits p
  | .sessionSet h p => headerFits h && payloadFits p
  | .sessionClose h p => headerFits h && payloadFits p
  | .functionStatus h p => headerFits h && payloadFits p
  | .timeSeed h p => headerFits h && payloadFits p
  | .timeRead h p => headerFits h && payloadFits p
  | .wingCreate h p => headerFits h && payloadFits p
  | .wingResize h p => headerFits h && payloadFits p
  | .wingRemove h p => headerFits h && payloadFits p
  | .wingReassign h p => headerFits h && payloadFits p
  | .wingStatus h p => headerFits h && payloadFits p
  | .stallRead h p => headerFits h && payloadFits p
  | .contextCreate h p => headerFits h && payloadFits p
  | .contextSet h p => headerFits h && payloadFits p
  | .contextDestroy h p => headerFits h && payloadFits p
  | .programLoad h p _ => headerFits h && payloadFits p
  | .programFree h p => headerFits h && payloadFits p
  | .passTrain h p => headerFits h && payloadFits p
  | .passServe h p => headerFits h && payloadFits p
  | .serveOpen h p => headerFits h && payloadFits p
  | .serveAppend h p => headerFits h && payloadFits p
  | .serveClose h p => headerFits h && payloadFits p
  | .updateRun h p => headerFits h && payloadFits p
  | .watchRead h p => headerFits h && payloadFits p
  | .watchSet h p => headerFits h && payloadFits p
  | .watchReset h p => headerFits h && payloadFits p
  | .detectorSet h p => headerFits h && payloadFits p
  | .detectorRelease h p => headerFits h && payloadFits p
  | .objectCreate h p => headerFits h && payloadFits p
  | .objectMove h p => headerFits h && payloadFits p
  | .objectResize h p => headerFits h && payloadFits p
  | .objectFree h p => headerFits h && payloadFits p
  | .objectStatus h p => headerFits h && payloadFits p
  | .objectWrite h p => headerFits h && payloadFits p
  | .objectRead h p => headerFits h && payloadFits p
  | .windowSet h p => headerFits h && payloadFits p
  | .adapterLoad h p _ => headerFits h && payloadFits p
  | .roomPin h p => headerFits h && payloadFits p
  | .checkout h p => headerFits h && payloadFits p
  | .adapterDelete h p => headerFits h && payloadFits p
  | .adapterRead h p => headerFits h && payloadFits p
  | .adapterStatus h p => headerFits h && payloadFits p
  | .baseInstall h p _ => headerFits h && payloadFits p
  | .installCancel h p => headerFits h && payloadFits p
  | .baseRemove h p => headerFits h && payloadFits p
  | .baseSelect h p => headerFits h && payloadFits p
  | .sweepSet h p => headerFits h && payloadFits p
  | .cellarStatus h p => headerFits h && payloadFits p
  | .fabricSet h p _ => headerFits h && payloadFits p
  | .collectiveSet h p => headerFits h && payloadFits p
  | .collectivePost h p => headerFits h && payloadFits p
  | .ringSet h p _ => headerFits h && payloadFits p
  | .ringStatus h p => headerFits h && payloadFits p
  | .fabricStatus h p => headerFits h && payloadFits p
  | .portRetrain h p => headerFits h && payloadFits p
  | .mirrorAreaSet h p => headerFits h && payloadFits p
  | .passportGet h p _ => headerFits h && payloadFits p
  | .keyRelease h p => headerFits h && payloadFits p
  | .partyKeyLoad h p => headerFits h && payloadFits p
  | .partyKeyRemove h p => headerFits h && payloadFits p
  | .partyBind h p => headerFits h && payloadFits p
  | .lifeCycleSet h p => headerFits h && payloadFits p
  | .faultLogRead h p => headerFits h && payloadFits p
  | .tileMap h p => headerFits h && payloadFits p
  | .pcRetire h p => headerFits h && payloadFits p
  | .loftEvacuate h p => headerFits h && payloadFits p
  | .wingFence h p => headerFits h && payloadFits p
  | .firmwareHandover h p _ => headerFits h && payloadFits p
  | .domainSet h p => headerFits h && payloadFits p
  | .vfSet h p => headerFits h && payloadFits p
  | .tallyRead h p => headerFits h && payloadFits p
  | .tallyClose h p => headerFits h && payloadFits p
  | .perstNAssert => true
  | .perstNDeassert => true
  | .configRequest fn _ => partIn fn 256
  | .flr fn => partIn fn 256
  | .vfEnableClear => true
  | .busMasterEnableClear fn => partIn fn 256
  | .linkLoss => true
  | .functionResetDone fn => partIn fn 256
  | .hostCompletion fn _ _ _ => partIn fn 256
  | .atsInvalidate fn _ => partIn fn 256
  | .fnCtrlApply fn _ => partIn fn 256
  | .decoderCommit decoder _ _ _ => partIn decoder 2
  | .decoderUncommit decoder => partIn decoder 2
  | .cxlMemRead _ => true
  | .cxlMemWrite _ _ => true
  | .ideIntegrityFailure k => partIn k 4
  | .passportRequest _ _ => true
  | .ideKeys _ _ => true
  | .debugUnlock _ => true
  | .doeDiscovery _ => true
  | .doeAbort => true
  | .porterKeeperReset _ _ => true
  | .porterSecureWipe _ _ => true
  | .porterWingFence _ _ => true
  | .porterPowerOff _ _ => true
  | .mpCountRead => true
  | .lowHalfRead fn _ => partIn fn 256
  | .registerWrite _ fn _ _ _ => partIn fn 256
  | .meshBreak => true
  | .supplyExcursion _ => true
  | .clockExcursion _ => true
  | .thermalExcursion _ => true
  | .tamperIn _ => true
  | .akRedrawDone => true
  | .scrubDone wing => partIn wing 16
  | .counterSnapshot => true
  | .journalWrite => true
  | .journalWriteDone => true
  | .watchdogExpiry _ => true
  | .keeperCacheError _ => true
  | .keeperRestartDone => true
  | .keeperMemoryError _ => true
  | .handoverTakeover => true
  | .handoverTimeout => true
  | .imageStoreWrite => true
  | .spareSwitch tile _ => partIn tile 136
  | .pcRetireDone pc => partIn pc 512
  | .loftEvacuateDone channel => partIn channel 16
  | .loftReturnDone channel _ => partIn channel 16
  | .pfailNAssert => true
  | .thermalWarningCross part _ => partIn part 24
  | .thermalWarningClear => true
  | .thermalTrip part _ => partIn part 24
  | .sensorFault part _ => partIn part 24
  | .vinRiseAlwaysOn => true
  | .alwaysOnUp _ => true
  | .vinFallAlwaysOff => true
  | .vinGood => true
  | .vinHigh => true
  | .vinOver => true
  | .vinLow => true
  | .vinLowNoWarn => true
  | .vinBelowHoldup => true
  | .voltageRecordRepeat => true
  | .domainPowerGood domain => partIn domain 14
  | .powerGoodTimeout domain => partIn domain 14
  | .domainSequenceDone domain => partIn domain 14
  | .dozeRequest => true
  | .dozeWake _ => true
  | .wakeAlarm => true
  | .bootStepDone _ => true
  | .bootStepOverrun _ => true
  | .retryWaitEnd => true
  | .i3cSetdasa _ _ => true
  | .i3cEntdaa _ => true
  | .i3cRstdaa => true
  | .i3cGetstatus => true
  | .jtagBypass => true
  | .jtagIdcode => true
  | .jtagExtest => true
  | .jtagSample => true
  | .jtagPreload _ => true
  | .jtagDebug _ => true
  | .vfEnableSet _ => true
  | .busMasterEnableSet fn => partIn fn 256
  | .linkUp _ _ _ _ => true
  | .snoop _ => true

end Sys2Proof
end

