-- ==== Sys2Proof/Safety.lean ====
section
/-! DEFINITION. What a safe run is: every step answers a next state. -/

namespace Sys2Proof.Safety

open Sys2Proof Sys2Proof.Machine

/-- `n` steps that all answer a next state. -/
def runs : Nat → State → Prop
  | 0, _ => True
  | n + 1, s => ∃ t, step s = .next t ∧ runs n t

/-- A command that names parts the module has, and is not a debug instruction of the test access port, whose unit the spec does not
describe (R417). -/
def ordinary (i : Instr) : Bool := i.wf && (match i with | .jtagDebug _ => false | _ => true)

/-- A queue of such commands. -/
def ordinaryQueue (s : State) : Bool := s.pending.all ordinary

end Sys2Proof.Safety
end

