-- ==== Sys2Proof/Safety/Tvx.lean ====
section
/-! DEFINITION. What the TVX rows do, in the terms of chapter 5: when an instruction of a vector engine completes, the
value Table 5.3 gives each element, what the control rows leave in the engine, and what no instruction touches. -/

namespace Sys2Proof.Safety

open Sys2Proof Sys2Proof.Machine

/-! ### Which word an instruction is -/

/-- The op code of Table 5.3 with the tile and the fields of a row, for the rows that write OUT. -/
def elementRow : Instr → Option (Nat × Nat × TvxArgs)
  | .add t a => some (0x10, t, a) | .sub t a => some (0x11, t, a) | .mul t a => some (0x12, t, a) | .fma t a => some (0x13, t, a)
  | .min t a => some (0x14, t, a) | .max t a => some (0x15, t, a) | .abs t a => some (0x16, t, a) | .neg t a => some (0x17, t, a)
  | .sel t a => some (0x18, t, a) | .exp2 t a => some (0x20, t, a) | .log2 t a => some (0x21, t, a) | .rcp t a => some (0x22, t, a)
  | .sqrt t a => some (0x23, t, a) | .rsqrt t a => some (0x24, t, a) | .tanh t a => some (0x25, t, a) | .cvt t a => some (0x28, t, a)
  | .quant t a => some (0x29, t, a) | .iadd t a => some (0x30, t, a) | .iand t a => some (0x31, t, a) | .ior t a => some (0x32, t, a)
  | .ixor t a => some (0x33, t, a) | .ishl t a => some (0x34, t, a) | .ishr t a => some (0x35, t, a) | .rand t a => some (0x41, t, a)
  | .drop t a => some (0x42, t, a) | .rtred t a => some (0x4A, t, a) | .rtout t a => some (0x4B, t, a)
  | _ => none

/-- The same for the rows that write no stream, STREAM apart. -/
def controlRow : Instr → Option (Nat × Nat × TvxArgs)
  | .nop t a => some (0x00, t, a) | .endProgram t a => some (0x01, t, a) | .loop t a => some (0x02, t, a)
  | .wait t a => some (0x03, t, a) | .post t a => some (0x04, t, a) | .tag t a => some (0x05, t, a) | .sld t a => some (0x06, t, a)
  | .cmp t a => some (0x19, t, a) | .mset t a => some (0x38, t, a) | .mand t a => some (0x39, t, a) | .mor t a => some (0x3A, t, a)
  | .mxor t a => some (0x3B, t, a) | .mnot t a => some (0x3C, t, a) | .gseed t a => some (0x40, t, a) | .rtz t a => some (0x48, t, a)
  | .rtacc t a => some (0x49, t, a)
  | _ => none

/-! ### When an instruction completes -/

/-- A tile's engine stands at a word: the tile serves a context, its engine runs and is not stopped, and its program
counter names that word (R87, R244). -/
def engineAt (s : State) (tile : Nat) (w : W64) : Bool :=
  let t := s.tile tile
  decide (tile < 136) && t.owner.isSome && t.engine.running && !t.stopped && decide (t.engine.program[t.engine.pc]? = some w)

/-- The store of a tile as its engine's streams address it (R90, R244). -/
def spaceAt (s : State) (tile : Nat) : List Space :=
  match (s.tile tile).owner with
  | some (w, c) => [storeSpace (s.ctx w c) (s.tile tile)]
  | none => []

/-- An instruction of Table 5.3 completes: its engine stands at it, its streams meet R90 and R97, and a WAIT finds its
flag set (R106). -/
def opCompletes (op tile : Nat) (a : TvxArgs) (s : State) : Bool :=
  let e := (s.tile tile).engine
  tvxFits a && engineAt s tile (encodeTvx op a) && decide (checkStreams e op a (spaceAt s tile) = none)
    && (decide (op ≠ 0x03) || e.flags.testBit (a.imm.toNat % 16))

/-! ### What an instruction leaves alone -/

/-- Only one tile's engine and store, and the watch counters, have changed. -/
def onlyTile (tile : Nat) (s t : State) : Prop :=
  t = { s with tiles := t.tiles, led := { s.led with wings := t.led.wings } }
    ∧ (∀ j, j ≠ tile → t.tile j = s.tile j)
    ∧ t.tile tile = { s.tile tile with engine := (t.tile tile).engine, store := (t.tile tile).store }

/-! ### The values of Table 5.3 -/

/-- Whether a row takes a draw of its own for each element (R105). -/
def takesDraw : Instr → Bool
  | .rand _ _ => true
  | .drop _ _ => true
  | _ => false

/-- The value a row gives lane `l` of its only vector, from its operands IA, IB, IC (`x 0`, `x 1`, `x 2`) and its draw `u`
(Table 5.3). -/
def elementValue (i : Instr) (e : Engine) (x : Nat → Opnd) (l u : Nat) : LaneVal :=
  let f (k : Nat) : Nat := asFp32 (x k)
  let n (k : Nat) : Nat := asInt (x k)
  match i with
  | .add _ _ => .fp (fpAdd (f 0) (f 1))
  | .sub _ _ => .fp (fpAdd (f 0) (fpNeg (f 1)))
  | .mul _ _ => .fp (fpMul (f 0) (f 1))
  | .fma _ _ => .fp (fpFma (f 0) (f 1) (f 2))
  | .min _ _ => .fp (plain (fpMin (f 0) (f 1)))
  | .max _ _ => .fp (plain (fpMax (f 0) (f 1)))
  | .abs _ _ => .fp (plain (mag32 (f 0)))
  | .neg _ _ => .fp (plain (fpNeg (f 0)))
  | .sel _ a => .fp (plain (if (maskOf e (a.imm.toNat % 8)).testBit l then f 0 else f 1))
  | .exp2 _ _ => .fp (fpExp2 (f 0))
  | .log2 _ _ => .fp (fpLog2 (f 0))
  | .rcp _ _ => .fp (fpRcp (f 0))
  | .sqrt _ _ => .fp (fpSqrt (f 0))
  | .rsqrt _ _ => .fp (fpRsqrt (f 0))
  | .tanh _ _ => .fp (fpTanh (f 0))
  | .cvt _ _ => .fp (plain (f 0))
  | .quant _ _ =>
    match (fpValue 23 (f 0)).mul (fpValue 23 (f 1)) with
    | .nan => .quant 0 false true
    | .num m k => .quant (clampInt 8 (roundInt m k)).1 (clampInt 8 (roundInt m k)).2 false
  | .iadd _ _ => .int ((n 0 + n 1) % 2 ^ 32)
  | .iand _ _ => .int (n 0 &&& n 1)
  | .ior _ _ => .int (n 0 ||| n 1)
  | .ixor _ _ => .int (n 0 ^^^ n 1)
  | .ishl _ _ => .int ((n 0 * 2 ^ (n 1 % 32)) % 2 ^ 32)
  | .ishr _ _ => .int (n 0 / 2 ^ (n 1 % 32))
  | .rand _ _ => .int u
  | .drop _ a => if u < a.imm.toNat then .fp (fpMul (f 0) (f 1)) else .fp (plain 0)
  | .rtred _ a =>
    .fp (reduce64 (a.imm.toNat / 2 % 4)
      ((List.range 64).map (fun j => if a.imm.toNat % 2 = 0 then tileAt e j l else tileAt e l j)))
  | .rtout _ a =>
    let r := a.imm.toNat / 2 ^ 8 % 64
    .fp (plain (if a.imm.toNat % 2 = 0 then tileAt e r l else tileAt e l r))
  | _ => .int 0

/-- What a row writes in lane `l` of its only vector: the value of Table 5.3 in the format of OUT, a stochastic rounding
taking the lane's next draw (R97, R103, R105). -/
def elementWritten (i : Instr) (e : Engine) (a : TvxArgs) (sp : List Space) (l : Nat) : Written :=
  let d := drawGen (tget e.gens l)
  let v := elementValue i e (fun k => operand e sp a k 0 l) l d.1
  let g := if takesDraw i then d.2 else tget e.gens l
  laneWrite (tget e.streams 3).args.format (if drawsSr a v then some (drawGen g).1 else none) v

/-- What an instruction that writes OUT has done. Its engine stands past it, its streams moved on by its vectors (R89);
no byte outside the range OUT touches has changed; a lane that is never active keeps its generator (R94). Where it is
one vector written to consecutive elements, every active lane's element is the value of Table 5.3. -/
def elementDone (i : Instr) (op tile : Nat) (a : TvxArgs) (s t : State) : Prop :=
  let e := (s.tile tile).engine
  let e' := (t.tile tile).engine
  let sp := spaceAt s tile
  let out := tget e.streams 3
  let act := activeBy e op a
  (∃ u, opUse op = some u ∧ e' = advancePc { e with gens := e'.gens, streams := advanceStreams (slotsUsed op u a) a.n e.streams })
    ∧ (∀ b, (∀ lo hi, touched out act = some (lo, hi) → b < (spaceOf sp 0).origin + lo ∨ (spaceOf sp 0).origin + hi ≤ b) →
        out.args.object = 0 → mread (t.tile tile).store b = mread (s.tile tile).store b)
    ∧ (∀ l, (∀ v, v < a.n → l ∉ activeLanes e a v) → tget e'.gens l = tget e.gens l)
    ∧ (a.n = 1 → out.args.contiguous = true → out.args.object = 0 → ∀ l, l ∈ activeLanes e a 0 → elemHeld sp out 0 l = true →
        (readElem [{ spaceOf sp 0 with mem := (t.tile tile).store }] out 0 l).raw
          = (elementWritten i e a sp l).raw % 2 ^ (8 * elemSize out.args.format))

/-! ### The control rows -/

/-- The engine a control row leaves (Table 5.3). `sp` is what its streams address. -/
def controlAfter (i : Instr) (e : Engine) (sp : List Space) (e' : Engine) : Prop :=
  match i with
  | .nop _ _ => e' = advancePc e
  | .endProgram _ _ => e' = { e with running := false }
  | .loop _ a =>
    e' = { e with pc := e.pc + 1
                  loops := { first := e.pc + 1, len := a.imm.toNat / 2 ^ 16, left := a.imm.toNat % 2 ^ 16 } :: e.loops }
  | .wait _ a => e' = advancePc { e with flags := without e.flags (2 ^ (a.imm.toNat % 16)) }
  | .post _ a => e' = advancePc { e with flags := e.flags ||| 2 ^ (a.imm.toNat % 16) }
  | .tag _ a => e' = advancePc { e with tag := a.imm.toNat }
  | .sld _ a =>
    e' = advancePc { e with scalars := tput e.scalars (a.imm.toNat % 8)
                              (BitVec.ofNat 32 (asFp32 (readElem sp (tget e.streams 0) 0 0)))
                            streams := advanceStreams [0] 1 e.streams }
  | .cmp _ a =>
    e' = advancePc { e with masks := e'.masks, streams := advanceStreams [0, 1] 1 e.streams }
      ∧ (∀ l, l < 64 → a.mb ≠ 0 → (maskOf e' a.mb).testBit l =
          (if (maskOf e a.ml).testBit l then
            fpCond (a.imm.toNat % 4) (asFp32 (operand e sp a 0 0 l)) (asFp32 (operand e sp a 1 0 l))
          else (maskOf e a.mb).testBit l))
      ∧ (∀ m, m ≠ a.mb → maskOf e' m = maskOf e m)
  | .mset _ a => e' = advancePc (setMask e a.mb (2 ^ Nat.min a.imm.toNat 64 - 1))
  | .mand _ a => e' = advancePc (setMask e a.mb (maskOf e a.ml &&& maskOf e (a.imm.toNat % 8)))
  | .mor _ a => e' = advancePc (setMask e a.mb (maskOf e a.ml ||| maskOf e (a.imm.toNat % 8)))
  | .mxor _ a => e' = advancePc (setMask e a.mb (maskOf e a.ml ^^^ maskOf e (a.imm.toNat % 8)))
  | .mnot _ a => e' = advancePc (setMask e a.mb ((2 ^ 64 - 1) ^^^ maskOf e a.ml))
  | .gseed _ a =>
    let fromIA := decide (a.rm % 2 = 1)
    let party := if fromIA then asInt (readElem sp (tget e.streams 0) 0 0) else e.party
    e' = advancePc { e with gens := e'.gens, streams := if fromIA then advanceStreams [0] 1 e.streams else e.streams }
      ∧ ∀ l, l < 64 → tget e'.gens l = seedLane party e.step a.imm.toNat e.slice l
  | .rtz _ a =>
    e' = advancePc { e with tile := e'.tile }
      ∧ ∀ row col, row < 64 → col < 64 →
          tileAt e' row col = (if a.imm.toNat = 1 then 0xFF7FFFFF else if a.imm.toNat = 2 then 0x7F7FFFFF else 0)
  | .rtacc _ a =>
    let imm := a.imm.toNat
    e' = advancePc { e with tile := e'.tile, streams := advanceStreams [0] a.n e.streams }
      ∧ ∀ row col, row < 64 → col < 64 →
          tileAt e' row col =
            (List.range a.n).foldl (fun x v =>
              if (imm % 64 + v / (imm / 2 ^ 16)) % 64 = row ∧ col ∈ activeLanes e a v then
                let y := asFp32 (readElem sp (tget e.streams 0) v col)
                (match imm / 2 ^ 6 % 4 with
                  | 0 => (fpAdd x y).bits
                  | 1 => fpMax x y
                  | 2 => fpMin x y
                  | _ => y) % 2 ^ 32
              else x) (tileAt e row col)
  | _ => True

end Sys2Proof.Safety
end

