-- ==== Sys2Proof/Safety/Array.lean ====
section
/-! DEFINITION. What the matrix array and the accumulator file do (chapters 3 and 4): when a weight load, a swap, a row,
an open, a promotion and a drain complete, and what each leaves. -/

namespace Sys2Proof.Safety

open Sys2Proof Sys2Proof.Machine

/-- Only one tile has changed. -/
def onlyTileChanged (tile : Nat) (s t : State) : Prop := t = { s with tiles := t.tiles } ∧ ∀ j, j ≠ tile → t.tile j = s.tile j

/-! ### The weight-load path -/

/-- The integer a W4 cell of column `n` holds in lane `k` (R40, R41): q − zc + 8, or 0 beyond K. -/
def w4Cell (b : WBlock) (n k : Nat) : Int :=
  if 128 * b.block + k < b.kDim then w4At b.bytes n k - (w4Zero b.bytes b.size n (k / b.size) : Nat) + 8 else 0

/-- The integer an I8 cell holds (R50): the stored two's-complement byte, or 0 beyond K. -/
def i8Cell (b : WBlock) (n k : Nat) : Int :=
  if 128 * b.block + k < b.kDim then signed 8 (byteAt b.bytes (n * 128 + k)) else 0

/-- A weight load acts: the block is whole, the tile serves a context and is not stopped. -/
def loadCompletes (tile : Nat) (b : WBlock) (s : State) : Bool :=
  decide (tile < 136) && blockOk b && (s.tile tile).owner.isSome && !(s.tile tile).stopped

/-- What a weight load leaves: the shadow holds the prepared operands, and nothing else has changed (R36). -/
def loadDone (tile : Nat) (b : WBlock) (s t : State) : Prop :=
  onlyTileChanged tile s t ∧ t.tile tile = { s.tile tile with shadow := (t.tile tile).shadow }
    ∧ ∃ c, (t.tile tile).shadow = some c ∧ c.mode = b.mode ∧ c.size = b.size ∧ c.block = b.block ∧ c.kDim = b.kDim
      ∧ ((b.mode = .w4a8 ∨ b.mode = .w4bf) → ∀ n k, n < 128 → k < 128 → at2 c.cols n k = w4Cell b n k)
      ∧ (b.mode = .i8 → ∀ n k, n < 128 → k < 128 → at2 c.cols n k = i8Cell b n k)
      ∧ ((b.mode = .w4a8 ∨ b.mode = .w4bf) → ∀ n j, n < 128 → j < 128 / b.size →
          at2 c.scales n j = w4Scale b.bytes b.size n j
            ∧ at2 c.bad n j = fpNonFinite 7 (w4Scale b.bytes b.size n j).toNat)

/-- A swap acts: the shadow is filled, and its mode and size are those of every open accumulation (R36, R39). -/
def swapCompletes (tile : Nat) (s : State) : Bool :=
  decide (tile < 136) && !(s.tile tile).stopped &&
    (match (s.tile tile).shadow with
     | some c => swapAllowed (s.tile tile) c
     | none => false)

/-! ### A row -/

/-- A row issues: the tile has an active block of the tracker's mode and size, and the row has not been through it. -/
def rowCompletes (tile : Nat) (r : RowData) (s : State) : Bool :=
  decide (tile < 136) &&
    (match (s.tile tile).active with
     | some c => rowIssues (s.tile tile) c r
     | none => false)

/-- What a row leaves: its terms follow those that wait, and nothing else has changed. In W4A8 a column's terms are one
for each group below K, of scale × Σ (q − zc + 8) × x (R44); a poisoned group's is the canonical NaN (R59). -/
def rowDone (tile : Nat) (r : RowData) (s t : State) : Prop :=
  onlyTileChanged tile s t
    ∧ ∃ c new, (s.tile tile).active = some c ∧ t.tile tile = { s.tile tile with terms := (s.tile tile).terms ++ new }
      ∧ (∀ x, x ∈ new → x.tracker = r.tracker ∧ x.row = r.row ∧ x.block = c.block ∧ x.col < 128)
      ∧ (c.mode = .w4a8 → ∀ n j, n < 128 → j < 128 / c.size → 128 * c.block + c.size * j < c.kDim →
          ∃ x, x ∈ new ∧ x.col = n ∧ x.sub = j ∧ x.part = .whole
            ∧ x.value = (if at2 c.bad n j then Exact.nan
                else Exact.num ((scaleParts (at2 c.scales n j)).1
                  * dot (((c.cols[n]?.getD []).drop (c.size * j)).take c.size)
                      (((feedI8 r.values (c.outliers.map (·.1))).ints.drop (c.size * j)).take c.size))
                  (scaleParts (at2 c.scales n j)).2))

/-! ### The accumulator file -/

/-- An open of a first link acts: the tracker is free, and the context's bytes and trackers allow it (R75, R76). -/
def openCompletes (tile : Nat) (a : OpenArgs) (s : State) : Bool :=
  let t := s.tile tile
  decide (tile < 136) && !t.stopped && t.owner.isSome && t.waiting.isNone && openOk a && decide (a.blocks ≤ 512)
    && (!sized a.mode || decide (a.kDim % a.size = 0)) && !a.chain && !(tget t.accs a.tracker).live
    && decide (bytesUsed t + fileBytes a.fmt a.rows ≤ (fileLimits s tile).1) && decide (trackersUsed t + 1 ≤ (fileLimits s tile).2)

/-- What it leaves: the tracker holds an open accumulation of the instruction's mode, size and shape, every element +0
(R65, R75). -/
def openDone (tile : Nat) (a : OpenArgs) (s t : State) : Prop :=
  onlyTileChanged tile s t
    ∧ t.tile tile = { s.tile tile with accs := (t.tile tile).accs }
    ∧ (∀ j, j ≠ a.tracker → tget (t.tile tile).accs j = tget (s.tile tile).accs j)
    ∧ (let x := tget (t.tile tile).accs a.tracker
       x.live = true ∧ x.closed = false ∧ x.mode = a.mode ∧ x.size = a.size ∧ x.fmt = a.fmt ∧ x.rows = a.rows ∧ x.blocks = a.blocks
        ∧ x.link = 0 ∧ x.sat = 0 ∧ ∀ k, (tget x.elems k).bits = 0)

/-- A chain link acts: the tracker's accumulation is closed after its 512 blocks, and agrees with the link (R74). -/
def chainCompletes (tile : Nat) (a : OpenArgs) (s : State) : Bool :=
  let t := s.tile tile
  let p := tget t.accs a.tracker
  decide (tile < 136) && !t.stopped && t.owner.isSome && t.waiting.isNone && openOk a && decide (a.blocks ≤ 512)
    && (!sized a.mode || decide (a.kDim % a.size = 0)) && a.chain && decide (p.link + 1 < 16) && p.live && p.closed
    && decide (p.mode = a.mode ∧ p.size = a.size ∧ p.fmt = a.fmt ∧ p.rows = a.rows ∧ p.blocks = 512) && twf default p.elems

/-- What it leaves: the accumulation goes on in place, every element with the bits it had (R74). -/
def chainDone (tile : Nat) (a : OpenArgs) (s t : State) : Prop :=
  let p := tget (s.tile tile).accs a.tracker
  let x := tget (t.tile tile).accs a.tracker
  onlyTileChanged tile s t ∧ t.tile tile = { s.tile tile with accs := (t.tile tile).accs }
    ∧ x.live = true ∧ x.closed = false ∧ x.link = p.link + 1 ∧ x.sat = p.sat ∧ x.blocks = a.blocks
    ∧ ∀ k, (tget x.elems k).bits = (tget p.elems k).bits

/-- A promotion acts: the accumulation is open and terms of the element's next unit wait (R69 to R72). -/
def promotionCompletes (tile tracker row col : Nat) (s : State) : Bool :=
  let a := tget (s.tile tile).accs tracker
  decide (tile < 136) && a.live && !a.closed && decide (row < a.rows) && decide (col < 128)
    && decide (elemTerms (s.tile tile) a tracker row col ≠ [])

/-- What a promotion leaves: the element is its old value plus the exact sum of its next unit's terms, rounded once (R68,
R69); those terms are gone; no other element has changed. -/
def promotionDone (tile tracker row col : Nat) (s t : State) : Prop :=
  let a := tget (s.tile tile).accs tracker
  let b := tget (t.tile tile).accs tracker
  let key := 128 * row + col
  let now := nextTerms a.mode (elemTerms (s.tile tile) a tracker row col)
  onlyTileChanged tile s t
    ∧ (tget b.elems key).bits = (promote a.fmt (tget a.elems key).bits (gamma now)).bits
    ∧ (∀ k, k ≠ key → tget b.elems k = tget a.elems k)
    ∧ (∀ j, j ≠ tracker → tget (t.tile tile).accs j = tget (s.tile tile).accs j)
    ∧ (∀ x, x ∈ (t.tile tile).terms ↔ x ∈ (s.tile tile).terms ∧ x ∉ now)
    ∧ (t.tile tile).store = (s.tile tile).store

/-- A drain acts: its accumulation is closed, and its rows lie in the context's program space (R78, R90,
R244), or its gradient object in the wing's slices (R171). -/
def drainCompletes (tile : Nat) (d : DrainArgs) (s : State) : Bool :=
  let t := s.tile tile
  decide (tile < 136) && !t.stopped && mayDrain t d.tracker && decide (d.tag ≤ 1023) &&
    (match t.owner, d.dest with
     | some (w, c), .tile addr =>
       decide (addr + (if d.bf16 then 256 else 512) * (tget t.accs d.tracker).rows ≤ programSpace (s.ctx w c))
     | some (w, _), .gradient object _ _ _ => !outsideSlices s w object
     | none, _ => false)

/-- The bank of a tag gains a drain's counts, each stopping at 2^64 − 1 (R80, R120). -/
def bankGains (x y b : Bank) : Prop :=
  x.written = satAdd y.written b.written ∧ x.zero = satAdd y.zero b.zero ∧ x.saturated = satAdd y.saturated b.saturated
    ∧ x.nan = satAdd y.nan b.nan ∧ x.accSat = satAdd y.accSat b.accSat

/-- What a drain leaves before a waiting open is tried again (R76): every element of the columns below N stands at its
place, rounded once from its exact product with its row's scale (R78, R79); no other byte of the store has changed; the
tracker is free; the flag is set (R106). -/
def drainDone (tile : Nat) (d : DrainArgs) (s t : State) : Prop :=
  let x := s.tile tile
  let a := tget x.accs d.tracker
  ∃ w c, x.owner = some (w, c)
    ∧ tget (t.tile tile).accs d.tracker = default
    ∧ (∀ j, j ≠ d.tracker → tget (t.tile tile).accs j = tget x.accs j)
    ∧ (∀ f, d.flag = some f → (t.tile tile).engine = { x.engine with flags := x.engine.flags ||| 2 ^ (f % 16) })
    ∧ (d.flag = none → (t.tile tile).engine = x.engine)
    ∧ (∀ j, j ≠ tile → t.tile j = s.tile j)
    ∧ (match d.dest with
       | .tile addr =>
         let base := regionBase (s.ctx w c) + addr
         t = { s with tiles := t.tiles, led := { s.led with wings := t.led.wings } }
          ∧ (∀ r n, r < a.rows → n < 128 → a.tile0 + n < a.nDim →
              mload (t.tile tile).store (drainAddr base d.bf16 r n) (if d.bf16 then 2 else 4)
                = leBytes (if d.bf16 then 2 else 4) (drainValue a.fmt d.bf16 (tget a.elems (128 * r + n)).bits (rowScale d r)).bits)
          ∧ (∀ b, b < base ∨ base + (if d.bf16 then 256 else 512) * a.rows ≤ b →
              mread (t.tile tile).store b = mread x.store b)
          ∧ (d.tag ≠ 0 → bankGains (tget (t.wing w).watch d.tag).cur (tget (s.wing w).watch d.tag).cur (drainCounts a (drained a d)))
       | .gradient object offset first k =>
         t = { s with tiles := t.tiles, led := { s.led with wings := t.led.wings, objects := t.led.objects } }
          ∧ (t.tile tile).store = x.store
          ∧ (∀ j, j ≠ object → t.obj j = s.obj j)
          ∧ (∀ r n, r < a.rows → n < 128 → a.tile0 + n < a.nDim →
              let p := offset + 2 * (r * a.nDim + a.tile0 + n)
              mload (t.obj object).content p 2
                = leBytes 2 (gradientElem a.fmt (tget a.elems (128 * r + n)).bits first k
                    (BitVec.ofNat 16 (leNat (mload (s.obj object).content p 2)))).bits))

end Sys2Proof.Safety
end

