-- ==== Sys2Proof/Safety/Commands.lean ====
section
/-! DEFINITION. The commands of the Kualne protocol (chapters 12 and 13) in general: when the keeper takes one and carries it out,
and what every query, every committing command and every long command leaves. -/

namespace Sys2Proof.Safety

open Sys2Proof Sys2Proof.Machine

/-- The command of a row (Table 13.1 on), with its header and payload. -/
def commandOf (i : Instr) : Option (KCmd × CmdHdr × Bytes) :=
  match i with
  | .noOp h p => some (noOpCmd, h, p)
  | .sessionOpen h p => some (sessionOpenCmd, h, p)
  | .sessionResume h p => some (sessionResumeCmd, h, p)
  | .sessionStatus h p => some (sessionStatusCmd, h, p)
  | .sessionSet h p => some (sessionSetCmd, h, p)
  | .sessionClose h p => some (sessionCloseCmd, h, p)
  | .functionStatus h p => some (functionStatusCmd, h, p)
  | .timeSeed h p => some (timeSeedCmd, h, p)
  | .timeRead h p => some (timeReadCmd, h, p)
  | .wingCreate h p => some (wingCreateCmd, h, p)
  | .wingResize h p => some (wingResizeCmd, h, p)
  | .wingRemove h p => some (wingRemoveCmd, h, p)
  | .wingReassign h p => some (wingReassignCmd, h, p)
  | .wingStatus h p => some (wingStatusCmd, h, p)
  | .stallRead h p => some (stallReadCmd, h, p)
  | .contextCreate h p => some (contextCreateCmd, h, p)
  | .contextSet h p => some (contextSetCmd, h, p)
  | .contextDestroy h p => some (contextDestroyCmd, h, p)
  | .programLoad h p host => some (programLoadCmd host, h, p)
  | .programFree h p => some (programFreeCmd, h, p)
  | .passTrain h p => some (passTrainCmd, h, p)
  | .passServe h p => some (passServeCmd, h, p)
  | .serveOpen h p => some (serveOpenCmd, h, p)
  | .serveAppend h p => some (serveAppendCmd, h, p)
  | .serveClose h p => some (serveCloseCmd, h, p)
  | .updateRun h p => some (updateRunCmd, h, p)
  | .watchRead h p => some (watchReadCmd, h, p)
  | .watchSet h p => some (watchSetCmd, h, p)
  | .watchReset h p => some (watchResetCmd, h, p)
  | .detectorSet h p => some (detectorSetCmd, h, p)
  | .detectorRelease h p => some (detectorReleaseCmd, h, p)
  | .objectCreate h p => some (objectCreateCmd, h, p)
  | .objectMove h p => some (objectMoveCmd, h, p)
  | .objectResize h p => some (objectResizeCmd, h, p)
  | .objectFree h p => some (objectFreeCmd, h, p)
  | .objectStatus h p => some (objectStatusCmd, h, p)
  | .objectWrite h p => some (objectWriteCmd, h, p)
  | .objectRead h p => some (objectReadCmd, h, p)
  | .windowSet h p => some (windowSetCmd, h, p)
  | .adapterLoad h p host => some (adapterLoadCmd host, h, p)
  | .roomPin h p => some (roomPinCmd, h, p)
  | .checkout h p => some (checkoutCmd, h, p)
  | .adapterDelete h p => some (adapterDeleteCmd, h, p)
  | .adapterRead h p => some (adapterReadCmd, h, p)
  | .adapterStatus h p => some (adapterStatusCmd, h, p)
  | .baseInstall h p host => some (baseInstallCmd host, h, p)
  | .installCancel h p => some (installCancelCmd, h, p)
  | .baseRemove h p => some (baseRemoveCmd, h, p)
  | .baseSelect h p => some (baseSelectCmd, h, p)
  | .sweepSet h p => some (sweepSetCmd, h, p)
  | .cellarStatus h p => some (cellarStatusCmd, h, p)
  | .fabricSet h p host => some (fabricSetCmd host, h, p)
  | .collectiveSet h p => some (collectiveSetCmd, h, p)
  | .collectivePost h p => some (collectivePostCmd, h, p)
  | .ringSet h p host => some (ringSetCmd host, h, p)
  | .ringStatus h p => some (ringStatusCmd, h, p)
  | .fabricStatus h p => some (fabricStatusCmd, h, p)
  | .portRetrain h p => some (portRetrainCmd, h, p)
  | .mirrorAreaSet h p => some (mirrorAreaSetCmd, h, p)
  | .passportGet h p host => some (passportGetCmd host, h, p)
  | .keyRelease h p => some (keyReleaseCmd, h, p)
  | .partyKeyLoad h p => some (partyKeyLoadCmd, h, p)
  | .partyKeyRemove h p => some (partyKeyRemoveCmd, h, p)
  | .partyBind h p => some (partyBindCmd, h, p)
  | .lifeCycleSet h p => some (lifeCycleSetCmd, h, p)
  | .faultLogRead h p => some (faultLogReadCmd, h, p)
  | .tileMap h p => some (tileMapCmd, h, p)
  | .pcRetire h p => some (pcRetireCmd, h, p)
  | .loftEvacuate h p => some (loftEvacuateCmd, h, p)
  | .wingFence h p => some (wingFenceCmd, h, p)
  | .firmwareHandover h p host => some (firmwareHandoverCmd host, h, p)
  | .domainSet h p => some (domainSetCmd, h, p)
  | .vfSet h p => some (vfSetCmd, h, p)
  | .tallyRead h p => some (tallyReadCmd, h, p)
  | .tallyClose h p => some (tallyCloseCmd, h, p)
  | _ => none

/-- The key of a command's own host session. -/
def ownKey (h : CmdHdr) : Nat := sessKey h.fn h.session

/-- The next command the keeper takes is this one, read without an error (R308, R318). -/
def isNext (c : KCmd) (h : CmdHdr) (p : Bytes) (s : State) : Bool :=
  (nextPacket s).any (fun k => decide (k.hdr = h ∧ k.payload = p ∧ k.code = c.code) && k.clean)

/-- The state with the next command taken from those that wait. -/
def takenFrom (s : State) : State :=
  match nextPacket s with
  | some k => { s with stamped := s.stamped.erase k }
  | none => s

/-- The state in which a command is evaluated: it has been taken, and its lease renewed (R324). -/
def taken (c : KCmd) (h : CmdHdr) (s : State) : State :=
  if c.sessionless then takenFrom s else (takenFrom s).modSess (ownKey h) (fun x => { x with leaseEnd := h.stamp + x.lease })

/-- The command stands in no host session, and a session-open is no repeat (R323). -/
def outsideSessions (c : KCmd) (h : CmdHdr) (s : State) : Bool :=
  decide (h.session = 0xFFFFFFFF ∧ h.sgen = 0 ∧ h.seq = 0)
    && (decide (c.code ≠ 0x0002) || (s.fn h.fn).opens.all (fun o => decide (o.hostTag ≠ h.hostTag)))

/-- The command bears the next number of its OPEN host session (R322, R329), past whose window nothing is marked; a long one finds
room among the outstanding (R332). -/
def inTurn (c : KCmd) (h : CmdHdr) (s : State) : Bool :=
  let x := s.sess (ownKey h)
  decide (h.session ≤ 15 ∧ h.seq ≠ 0 ∧ x.st = .opened ∧ x.gen = h.sgen ∧ x.next = h.seq ∧ tget x.marks (h.seq + 64) ≠ .skipped)
    && (decide (c.cls ≠ .long) || decide (x.longs < 64))

/-- A command whose turn has come, in time, well formed, permitted, with current generations, and of no fenced or scrubbed wing
(R323 to R330, R338 to R343, R415, R443): what its own rules say decides. -/
def starts (c : KCmd) (h : CmdHdr) (p : Bytes) (s : State) : Bool :=
  let u := taken c h s
  isNext c h p s && !s.power.minimal && decide (h.deadline = 0 ∨ s.clock.count ≤ h.deadline)
    && (if c.sessionless then outsideSessions c h s else inTurn c h s)
    && c.parse p && c.perm u h p && c.gens u p && !fenceRefuses c u p && !scrubRefuses c u p

/-- A query answered (R340): its reply is sent, and nothing but the queues and the host sessions changes. -/
def answered (c : KCmd) (h : CmdHdr) (u t : State) (b : Bytes) : Prop :=
  t.fns = (pushReply u h.fn (mkReply u (refOf h c.code) .ok true b)).fns
    ∧ t = { u with led := { u.led with sessions := t.led.sessions }, fns := t.fns, stamped := t.stamped }

/-- The number of a command passed and its final reply cached (R319, R322): the reply bears the version of its record. -/
def concluded (c : KCmd) (h : CmdHdr) (u t : State) (st : Status) (b : Bytes) : Prop :=
  h.seq < (t.sess (ownKey h)).next ∧ ∃ r, tget (t.sess (ownKey h)).marks h.seq = .cached h.crc r
    ∧ r = mkReply u.bump (refOf h c.code) st true b

/-- A committing command: one record, and its final reply (R319, R340). -/
def committed (c : KCmd) (h : CmdHdr) (u t : State) (st : Status) (b : Bytes) : Prop :=
  t.led.version = u.led.version + 1 ∧ concluded c h u t st b

/-- A long command accepted: outstanding, with its interim reply (R332, R340). -/
def acceptedLong (c : KCmd) (h : CmdHdr) (u t : State) (st : Status) (b : Bytes) : Prop :=
  refOf h c.code ∈ t.led.longs ∧ h.seq < (t.sess (ownKey h)).next
    ∧ ∃ r, tget (t.sess (ownKey h)).marks h.seq = .executing h.crc (some r) ∧ r = mkReply u.bump (refOf h c.code) st false b

/-- A long command accepted in one record that has no other effect on the version. -/
def accepted1 (c : KCmd) (h : CmdHdr) (u t : State) (b : Bytes) : Prop :=
  t.led.version = u.led.version + 1 ∧ acceptedLong c h u t .accepted b

/-- A long command that has ended: outstanding no more, its final reply cached (R332). -/
def finished (c : KCmd) (h : CmdHdr) (t : State) (st : Status) (b : Bytes) : Prop :=
  refOf h c.code ∉ t.led.longs ∧ h.seq < (t.sess (ownKey h)).next
    ∧ ∃ r, tget (t.sess (ownKey h)).marks h.seq = .cached h.crc r ∧ r.status = st ∧ r.payload = b ∧ r.final = true ∧ r.replayed = false

/-- Every wing but one stands as it was. -/
def otherWingsKept (w : Nat) (u t : State) : Prop := ∀ v, v ≠ w → t.wing v = u.wing v

/-- Every object but one stands as it was. -/
def otherObjsKept (o : Nat) (u t : State) : Prop := ∀ j, j ≠ o → t.obj j = u.obj j

end Sys2Proof.Safety
end

