-- ==== Sys2Proof/Safety/Passes.lean ====
section
/-! DEFINITION. Passes and update jobs as they go on (chapters 5, 6, 7 and 13): when each of their events acts, and what it
leaves. -/

namespace Sys2Proof.Safety

open Sys2Proof Sys2Proof.Machine

/-- The slice that an update engine runs next for a job (R111): what its program comes to. -/
def sliceOut (s : State) (j : Job) : SliceOut :=
  let i := (s.handle j.handle).image
  let seg := j.nextSlice / slicesPerSeg i
  let q := i.points[seg]?.getD default
  runSlice 20000 (sliceEngine s j (jobWords j q) q j.nextSlice)
    (sliceSpaces s j i seg (j.nextSlice % slicesPerSeg i * sliceElems)) []

/-- A training pass at the head of a context's queue passes the checks of its admission (R348, R349). -/
def trainAdmits (s : State) (w : Nat) (q : PassCmd) : Bool :=
  !(q.table.adapters.any (fun a => replacementReady s a.handle)) && (adaptersFail s q.table).isNone
    && (resourcesFail s w q.tileCount q.table).isNone

/-- A serving pass finds rows to take (R252, R350). -/
def serveAdmits (s : State) (w c : Nat) (q : PassCmd) : Bool :=
  decide (q.tileCount = popCount 128 (s.wing w).tiles) && decide (liveServes ((takeRows s w c).st.ctx w c) ≠ [])
    && decide ((takeRows s w c).takes ≠ [])

/-- When an event of a pass or of an update job has its effect. -/
def passCompletes (i : Instr) (s : State) : Bool :=
  match i with
  | .updateJobStart n h =>
    let j := s.job n
    let x := s.handle h
    j.live && decide (j.handle = h) && !j.started && boundHome s j && decide ((s.room x.room).refs ≤ ownRefs j)
      && (decide (x.st = .resident ∧ (s.room x.room).st = .ready)
          || (j.ref.isNone && decide (x.st = .leaving ∧ (s.room x.room).st = .leaving)))
  | .updateSlice q =>
    decide (q < 4) &&
      (match chooseJob s q with
       | some (_, j) => decide ((sliceOut s j).fault = none)
       | none => false)
  | .updateCommit n h =>
    let j := s.job n
    j.live && decide (j.handle = h) && j.started && decide (sliceTotal (s.handle h).image ≤ j.nextSlice)
  | .passAdmit w c =>
    decide (w < 16) && decide (c < 256) && (s.ctx w c).live && (s.ctx w c).pass.isNone && wingAdmits (s.wing w) && s.keeper.up &&
      (match (s.ctx w c).queue with
       | q :: _ => if q.train then trainAdmits s w q else serveAdmits s w c q
       | [] => false)
  | .forwardPassEnd w c =>
    decide (w < 16) && passAtWork s w c && programsEnded s w c &&
      (match (s.ctx w c).pass with
       | some p => p.cmd.train && decide (p.phase = .forward) && roomsArrived s p
       | none => false)
  | .backwardPassEnd w c =>
    decide (w < 16) && passAtWork s w c && programsEnded s w c &&
      (match (s.ctx w c).pass with
       | some p =>
         p.cmd.train && decide (p.phase = .backward)
          && p.cmd.table.adapters.all (fun a => p.withheld.contains a.handle || p.faulted.contains a.handle || decide ((s.obj a.g).st = .home))
       | none => false)
  | .stepCommit w c =>
    decide (w < 16) && passAtWork s w c && !stepJobsLeft s w c &&
      (match (s.ctx w c).pass with
       | some p => p.cmd.train && decide (p.phase = .updating)
       | none => false)
  | .passEnd w c =>
    decide (w < 16) && passAtWork s w c && programsEnded s w c &&
      (match (s.ctx w c).pass with
       | some p =>
         !p.cmd.train && decide (p.phase ≠ .done) && roomsArrived s p && p.objects.all (fun o => decide ((s.obj o).st ≠ .moving))
       | none => false)
  | _ => false

/-- What such an event leaves. -/
def passDone (i : Instr) (s t : State) : Prop :=
  match i with
  | .updateJobStart n h =>
    t = { s with led := { s.led with rooms := t.led.rooms }, jobs := t.jobs }
      ∧ (t.room (s.handle h).room).st = .updating ∧ (t.job n).started = true ∧ (t.job n).live = true
      ∧ (t.room (s.handle h).room).gen = (s.room (s.handle h).room).gen
      ∧ (∀ r, r ≠ (s.handle h).room → t.room r = s.room r) ∧ (∀ m, m ≠ n → t.job m = s.job m)
  | .updateSlice q =>
    ∃ n j, chooseJob s q = some (n, j) ∧ (t.job n).nextSlice = j.nextSlice + 1 ∧ (t.quarter q).pointer = (j.wing + 1) % 16
      ∧ (∀ h, h ≠ j.handle → t.handle h = s.handle h)
      ∧ (∀ o, o ≠ j.adapter.g → (∀ m, j.adapter.s1 = some m → o ≠ m.1) → (∀ m, j.adapter.s2 = some m → o ≠ m.1) → t.obj o = s.obj o)
      ∧ t.led.rooms = s.led.rooms ∧ t.led.version = s.led.version ∧ t.tiles = s.tiles
  | .updateCommit n h =>
    let r := (s.handle h).room
    (t.job n).live = false
      ∧ ((s.room r).checkouts = [] → (s.room r).waiting = [] → (s.room r).discard = false → (s.wing (s.room r).wing).leaving = false →
          (t.room r).st = .ready ∧ (t.room r).gen = (s.room r).gen ∧ (s.keeper.up = true → t.led.version = s.led.version + 1))
  | .passAdmit w c =>
    ∃ q l p, (s.ctx w c).queue = q :: l ∧ (t.ctx w c).queue = l ∧ (t.ctx w c).pass = some p ∧ p.cmd = q ∧ p.phase = .forward
      ∧ p.admitted = s.clock.count
      ∧ (q.train = true → (∀ x, x ∈ p.rows → rowPasses s q.table x = true) ∧ p.rows.length + p.denied = q.table.rows.length
          ∧ t.led.version = s.led.version + 1)
      ∧ (q.train = false → p.rows.length ≤ (s.ctx w c).rowTarget ∧ s.led.version + 1 ≤ t.led.version)
  | .forwardPassEnd w c =>
    (∃ p, (t.ctx w c).pass = some p ∧ p.phase = .backward) ∧ t.led.version = s.led.version + 1
      ∧ (∀ q, q ∈ wingTiles s w → (t.tile q).owner = some (w, c) ∧ (t.tile q).engine.running = true ∧ (t.tile q).engine.pc = 0)
  | .backwardPassEnd w c =>
    ∃ p, (t.ctx w c).pass = some p ∧ p.phase = .updating
      ∧ (∀ id, p.cmd.update = some id → twf default s.jobs = true → ∀ a, a ∈ toUpdate p →
          ∃ n, (t.job n).live = true ∧ (t.job n).handle = a.handle ∧ (t.job n).wing = w ∧ (t.job n).context = c)
      ∧ (p.holdStep = true → ∀ a, a ∈ p.cmd.table.adapters → a.handle ∈ p.withheld)
  | .stepCommit w c =>
    (t.ctx w c).pass = none ∧ t.led.version = s.led.version + 1
      ∧ (∀ p, (s.ctx w c).pass = some p → p.cmd.ref ∉ t.led.longs ∧ ∀ h, h ∈ p.stops → (t.handle h).det.held = true)
      ∧ (twf default (s.wing w).watch = true → ∀ k, tget (t.wing w).watch k = Watch.commit (tget (s.wing w).watch k))
  | .passEnd w c =>
    ∀ p, (s.ctx w c).pass = some p →
      (writtenLegs s w p = [] → (t.ctx w c).pass = none ∧ t.led.version = s.led.version + 1
          ∧ (p.cmd.passesLeft = 1 → (t.ctx w c).queue = (s.ctx w c).queue ∧ p.cmd.ref ∉ t.led.longs)
          ∧ (1 < p.cmd.passesLeft → ∃ q, (t.ctx w c).queue = q :: (s.ctx w c).queue ∧ q.passesRun = p.cmd.passesRun + 1
              ∧ q.passesLeft = p.cmd.passesLeft - 1 ∧ q.lastEnd = s.clock.count))
        ∧ (writtenLegs s w p ≠ [] → ∃ p', (t.ctx w c).pass = some p' ∧ p'.phase = .done ∧ p'.cmd = p.cmd)
  | _ => True

end Sys2Proof.Safety
end

