-- ==== Sys2Proof/Safety/Rooms.lean ====
section
/-! DEFINITION. Adapters, objects and shards as their moves, fills and programs end (chapters 7, 8 and 9): when each event
acts, and what it leaves. -/

namespace Sys2Proof.Safety

open Sys2Proof Sys2Proof.Machine

/-- No retirement, evacuation or key removal is under way, so a commit starts no other move (R407, R428, R433). -/
def noMovesWaiting (s : State) : Bool :=
  decide (s.secure.removals = []) && decide (retiringPcs s = []) && decide (evacuatingLofts s = [])

/-- A point block's digest and length are those of its image's next point (R138, R144). -/
def blockMatches (l : Load) (block : Bytes) : Bool :=
  match l.image.points[l.blocks.length]? with
  | some q => decide (block.length = blockBytes l.image.width l.image.rank l.image.biases ∧ pointDigest block = q.digest)
  | none => false

/-- The load that fills a room. -/
def roomLoad (s : State) (r : Nat) : Option Load := (s.handle (s.room r).handle).load

/-- A fetch of a shard can be made: from the Cellar, under a request already out, or from a holder (R227, R228). -/
def fetchable (s : State) (k : Nat) : Bool :=
  decide ((s.shard k).st = .valid) || (requestOf s k false).isSome
    || (decide (s.clock.st ≠ .adrift) && (nextHolder s (s.shard k).base []).isSome)

/-- When such an event has its effect. -/
def roomCompletes (i : Instr) (s : State) : Bool :=
  match i with
  | .pointArrival r _ =>
    let x := s.handle (s.room r).handle
    decide (r < 16384) && s.keeper.up && decide ((s.room r).st = .loading) && decide (x.st ≠ .leaving) &&
      (match x.load with
       | some l => decide (l.room = r) && decide (l.blocks.length < l.image.points.length)
       | none => false)
  | .replacementCommit h =>
    decide (h < 65536) && s.keeper.up && replacementReady s h && decide ((s.room (s.handle h).room).refs = 0)
      && decide ((s.handle h).reading = [])
  | .checkoutMoveCommit r =>
    let x := s.room r
    let hd := s.handle x.handle
    decide (r < 16384) && s.keeper.up && decide (x.st = .leaving) && decide (x.refs = 0) && !x.discard
      && (hd.homeHost || (findPlace s .loft hd.loftSet hd.image.bytes).isSome)
  | .adapterReadDone h =>
    let x := s.handle h
    decide (h < 65536) && s.keeper.up && decide (x.reading ≠ []) && decide (x.st = .resident ∨ x.st = .home)
      && !(decide (x.st = .resident) && decide ((s.room x.room).st = .updating))
  | .objectMoveCommit o =>
    let x := s.obj o
    decide (o < 262144) && s.keeper.up && x.live && decide (x.st = .moving) &&
      (match x.work with
       | .move _ _ _ => true
       | .retire _ => true
       | .evacuate _ => true
       | .grow _ _ _ => true
       | _ => false)
  | .objectFillDone o =>
    let x := s.obj o
    decide (o < 262144) && s.keeper.up && x.live &&
      (match x.work with
       | .create _ => true
       | .saveCreate _ _ _ => true
       | .grow _ _ _ => decide (x.st ≠ .moving)
       | _ => false)
  | .objectTransferDone o b =>
    let x := s.obj o
    decide (o < 262144) && s.keeper.up && x.live &&
      (match x.work with
       | .write _ len _ _ => decide (b.length = len)
       | .read _ _ _ _ => true
       | _ => false)
  | .shardFetch w =>
    let u := passOn s w
    decide (w < 16) && mayFetch (s.wing w) &&
      (match nextFetch u w with
       | some j =>
         decide ((u.wing w).window.ring.length < (u.wing w).window.slots) && !stackBusy (u.wing w) j
          && (slotRange u w (u.wing w).window).isSome && fetchable u ((u.base (u.wing w).window.base).shardOf j)
       | none => false)
  | .shardArrival w j _ =>
    let b := (s.wing w).window.base
    decide (w < 16) && (s.wing w).window.ring.any (fun r => decide (r.base = b ∧ r.shard = j) && !r.arrived)
      && (requestOf s ((s.base b).shardOf j) false).isNone
  | .shardProgramDone k _ _ => decide (k < 8192) && programmable s k
  | .shardReadbackDone k _ _ => decide (k < 8192) && decide ((s.shard k).st = .writing) && inImage s k
  | .sweepReadDone k _ => decide (k < 8192) && decide (s.cellar.visiting = some k)
  | .shardEraseDone k => decide (k < 8192) && (s.shard k).erasing
  | .holderTimeout k =>
    decide (k < 8192) && s.cellar.requests.any (fun r => decide (r.shard = k ∧ r.since + 20000 ≤ s.clock.count))
  | _ => false

/-- What such an event leaves. -/
def roomDone (i : Instr) (s t : State) : Prop :=
  match i with
  | .pointArrival r block =>
    let h := (s.room r).handle
    ∀ l, roomLoad s r = some l →
      (blockMatches l block = true →
          (l.blocks.length + 1 < l.image.points.length →
              (t.handle h).load = some { l with blocks := l.blocks ++ [block] } ∧ (t.room r).arrived = (s.room r).arrived + 1
                ∧ t = { s with led := { s.led with handles := t.led.handles, rooms := t.led.rooms } })
            ∧ (l.blocks.length + 1 = l.image.points.length → (s.handle h).st = .loading → (s.room r).waiting = [] →
                (s.wing (s.room r).wing).leaving = false →
                (t.handle h).st = .resident ∧ (t.handle h).room = r ∧ (t.handle h).load = none ∧ (t.handle h).blocks = l.blocks ++ [block]
                  ∧ (t.room r).st = .ready ∧ (t.room r).gen = (s.room r).gen ∧ t.led.version = s.led.version + 1
                  ∧ (∀ ref, l.ref = some ref → ref ∉ t.led.longs)))
        ∧ (blockMatches l block = false →
            (l.fromLoft = true → (s.handle h).room = r → (s.handle h).st = .loading ∧ l.before = .home) →
            (t.room r).st = .free ∧ (t.room r).gen = (s.room r).gen + 1 ∧ (t.handle h).load = none
              ∧ t.led.version = s.led.version + 1 ∧ (∀ ref, l.ref = some ref → ref ∉ t.led.longs))
  | .replacementCommit h =>
    let x := s.handle h
    ∀ l, x.load = some l → l.room ≠ x.room → (s.room l.room).waiting = [] → (s.wing (s.room l.room).wing).leaving = false →
      (t.room x.room).st = .free ∧ (t.room x.room).gen = (s.room x.room).gen + 1
        ∧ (t.handle h).st = .resident ∧ (t.handle h).room = l.room ∧ (t.handle h).blocks = l.blocks ∧ (t.handle h).load = none
        ∧ (t.room l.room).st = .ready ∧ t.led.version = s.led.version + 1
  | .checkoutMoveCommit r =>
    let h := (s.room r).handle
    (t.room r).st = .free ∧ (t.room r).gen = (s.room r).gen + 1
      ∧ (t.handle h).st = (if (s.handle h).load.isSome then .loading else .home)
      ∧ (t.handle h).blocks = (s.handle h).blocks ∧ t.led.version = s.led.version + 1
      ∧ (∀ c, c ∈ (s.room r).checkouts ∨ c ∈ (s.room r).waiting → c.ref ∉ t.led.longs)
  | .adapterReadDone h =>
    ∃ ref l, (s.handle h).reading = ref :: l ∧ (t.handle h).reading = l ∧ ref ∉ t.led.longs ∧ t.led.version = s.led.version + 1
      ∧ (t.handle h).blocks = (s.handle h).blocks
  | .objectMoveCommit o =>
    noMovesWaiting s = true →
      (t.obj o).st = .home ∧ (t.obj o).work = .none ∧ (t.obj o).content = (s.obj o).content ∧ (t.obj o).gen = (s.obj o).gen
        ∧ t.led.version = s.led.version + 1
        ∧ (match (s.obj o).work with
           | .move d _ ref => (t.obj o).place = d ∧ (t.obj o).size = (s.obj o).size ∧ (∀ f, ref = some f → f ∉ t.led.longs)
           | .retire d => (t.obj o).place = d ∧ (t.obj o).size = (s.obj o).size
           | .evacuate d => (t.obj o).place = d ∧ (t.obj o).size = (s.obj o).size
           | .grow n d ref => (t.obj o).place = d ∧ (t.obj o).size = n ∧ ref ∉ t.led.longs
           | _ => True)
  | .objectFillDone o =>
    t.led.version = s.led.version + 1 ∧ (t.obj o).work = .none ∧ (t.obj o).content = (s.obj o).content
      ∧ (match (s.obj o).work with
         | .create ref => (t.obj o).st = .home ∧ ref ∉ t.led.longs
         | .saveCreate _ _ ref => (t.obj o).st = .home ∧ ref ∉ t.led.longs
         | .grow n d ref => (t.obj o).place = d ∧ (t.obj o).size = n ∧ ref ∉ t.led.longs
         | _ => True)
      ∧ (∀ j, j ≠ o → t.obj j = s.obj j)
  | .objectTransferDone o bytes =>
    t.led.version = s.led.version + 1 ∧ (t.obj o).work = .none ∧ (∀ j, j ≠ o → t.obj j = s.obj j)
      ∧ (match (s.obj o).work with
         | .write off len _ ref =>
           ref ∉ t.led.longs
            ∧ (∀ b, b < len → mread (t.obj o).content (off + b) = bytes[b]?.getD 0)
            ∧ (∀ a, a < off ∨ off + len ≤ a → mread (t.obj o).content a = mread (s.obj o).content a)
         | .read _ _ _ ref => ref ∉ t.led.longs ∧ (t.obj o).content = (s.obj o).content
         | _ => True)
  | .shardFetch w =>
    let u := passOn s w
    ∃ j, nextFetch u w = some j
      ∧ (t.wing w).window.ring
          = (u.wing w).window.ring ++ [{ base := (u.wing w).window.base, shard := j, arrived := false, verified := false }]
      ∧ (∀ k, k = (u.base (u.wing w).window.base).shardOf j → (s.shard k).st ≠ .valid → s.clock.st ≠ .adrift →
          (requestOf t k false).isSome = true)
  | .shardArrival w j digest =>
    let b := (s.wing w).window.base
    let k := (s.base b).shardOf j
    ((s.base b).digests[j]? = some digest →
        (∃ r, r ∈ (t.wing w).window.ring ∧ r.base = b ∧ r.shard = j ∧ r.arrived = true ∧ r.verified = true)
          ∧ (t.wing w).stall.fetched = wrapAdd (s.wing w).stall.fetched 1
          ∧ t = { s with led := { s.led with wings := t.led.wings } })
      ∧ ((s.base b).digests[j]? ≠ some digest → (s.shard k).st = .valid → (t.shard k).st = .quarantined)
  | .shardProgramDone k ok digest =>
    (t.shard k).programs = (s.shard k).programs + 1 ∧ (t.shard k).incoming = false ∧ (t.shard k).base = (s.shard k).base
      ∧ (ok = true → (t.shard k).st = .writing ∧ (t.shard k).digest = digest)
      ∧ (ok = false → (s.shard k).retried = false → (t.shard k).st = .invalid ∧ (t.shard k).retried = true)
      ∧ (ok = false → (s.shard k).retried = true → (t.shard k).st = .retired)
      ∧ (∀ j, j ≠ k → t.shard j = s.shard j)
  | .shardReadbackDone k digest ok =>
    (ok = true → wantDigest s k = some digest → (t.shard k).st = .valid ∧ (t.shard k).digest = digest ∧ (t.shard k).retried = false)
      ∧ (wantDigest s k ≠ some digest → (s.shard k).retried = true → (t.shard k).st = .retired)
      ∧ (wantDigest s k ≠ some digest → (s.shard k).retried = false → (t.shard k).st = .invalid)
      ∧ (s.keeper.up = true → s.led.version + 1 ≤ t.led.version)
  | .sweepReadDone k digest =>
    t.cellar.visiting = none
      ∧ ((s.shard k).st = .valid → wantDigest s k ≠ some digest → (t.shard k).st = .quarantined)
      ∧ ((s.shard k).st ≠ .valid ∨ wantDigest s k = some digest → t = { s with cellar := { s.cellar with visiting := none } })
  | .shardEraseDone k =>
    (t.shard k).erasing = false ∧ (t.shard k).st = (if 3000 ≤ (s.shard k).programs then .retired else (s.shard k).st)
      ∧ (t.shard k).programs = (s.shard k).programs ∧ (∀ j, j ≠ k → t.shard j = s.shard j)
  | .holderTimeout k =>
    ∃ r, s.cellar.requests.find? (fun r => decide (r.shard = k ∧ r.since + 20000 ≤ s.clock.count)) = some r
      ∧ (∀ i, nextHolder s (s.shard k).base r.asked = some i →
          ∃ r', requestOf t k r.paced = some r' ∧ r'.last = some i ∧ r'.asked = r.asked ++ [i] ∧ r'.since = s.clock.count)
      ∧ (nextHolder s (s.shard k).base r.asked = none → requestOf t k r.paced = none)
  | _ => True

end Sys2Proof.Safety
end

