-- ==== Sys2Proof/Safety/CmdModule.lean ====
section
/-! DEFINITION. The commands of adapters, the Cellar, the fabric, security, service, power and the tally (Tables 13.11 to 13.16): what
their own rules ask, and what each leaves. -/

namespace Sys2Proof.Safety

open Sys2Proof Sys2Proof.Machine

/-- The image that an adapter-load is to load: the one at the Loft home, or what the host's header says (R144, R355). -/
def imageToLoad (u : State) (h : CmdHdr) (p : Bytes) (host : HostRead) : Option Image :=
  let x := u.handle (field p 0 2)
  let owner := if x.st = .unused then field p 12 2 else x.owner
  if field p 2 1 = 1 then (if imageAgrees u (field p 3 1) owner x.image none then some x.image else none)
  else (hostBytes u h.fn host).bind (fun b =>
    (parseImage (baseLayers u (field p 3 1)) b).filter (fun m => imageAgrees u (field p 3 1) owner m (some (field p 24 8))))

/-- The bytes of the room that an adapter-load asks for. -/
def loadBytes (u : State) (p : Bytes) : Nat := if field p 2 1 = 1 then (u.handle (field p 0 2)).image.bytes else field p 24 8

/-- The room and range that an adapter-load takes (R143, R162). -/
def roomToLoad (u : State) (p : Bytes) : Option (Nat × Place) := findRoom u (field p 3 1) (roomMib (loadBytes u p))

/-- The manifest of a base-install, read and sound (R211). -/
def manifestRead (u : State) (h : CmdHdr) (p : Bytes) (host : HostRead) : Option Bytes :=
  (hostBytes u h.fn host).filter (fun b => decide (b.length = field p 24 4) && manifestOk b && manifestFits b)

/-- The legs that a ring-set reads (Table 13.13). -/
def legsRead (u : State) (h : CmdHdr) (p : Bytes) (host : HostRead) : Option (List Leg) :=
  ((hostBytes u h.fn host).filter (fun b => decide (b.length = 80 * field p 9 1))).map (readLegs (field p 9 1))

/-- The allow-list that a fabric-set reads (R358): none where it changes none. -/
def allowRead (u : State) (h : CmdHdr) (p : Bytes) (host : HostRead) : Option (Option (List Nat)) :=
  if field p 5 1 = 0 then some none
  else if field p 6 2 = 0 then some (some [])
  else ((hostBytes u h.fn host).filter (fun b => decide (b.length = 8 * field p 6 2))).map (fun b =>
    some ((List.range (field p 6 2)).map (fun i => field b (8 * i) 8)))

/-- The parameters a fabric-set asks for. -/
def fabricAsked (p : Bytes) (allow : Option (List Nat)) : FabricNext :=
  { interval := field p 0 4, absenceM := field p 4 1, allow := allow, at_ := field p 16 8 }

/-- What a command's own rules ask before it is carried out. -/
def moduleRules (i : Instr) (u : State) : Bool :=
  match i with
  | .adapterLoad _ p _ =>
    decide (loadRefused u p = none)
      && !(decide ((u.handle (field p 0 2)).st = .unused) && decide (262144 ≤ liveObjects u ∨ 262144 ≤ freeObjNumber u)) && (roomToLoad u p).isSome
  | .roomPin _ p => decide ((u.room (field p 0 2)).st ≠ .leaving)
  | .checkout _ p => decide (field p 2 1 = 1) || decide ((u.room (field p 0 2)).refs = 0 ∧ (u.room (field p 0 2)).pinned = false)
  | .adapterDelete _ _ => true
  | .adapterRead _ p =>
    let x := u.handle (field p 0 2)
    !(decide (x.st = .home) && x.homeHost) && decide (x.st ≠ .damaged ∧ x.st ≠ .absent) && decide (x.image.bytes ≤ field p 16 8)
  | .adapterStatus _ _ => true
  | .baseInstall h p host =>
    let x := u.base (field p 0 1)
    decide (field p 24 4 ≤ 2 ^ 20) &&
      (match hostBytes u h.fn host, manifestRead u h p host with
       | none, _ => true
       | some _, none => false
       | some _, some b =>
         if x.st = .empty then (findRegion u (field b 4 4)).isSome else decide (x.rootBytes = fieldBytes b 64 64) && x.install.isNone)
  | .installCancel _ p => (u.base (field p 0 1)).install.isSome
  | .baseRemove _ p => !baseInUse u (field p 0 1)
  | .baseSelect _ p => !holdsKv u (field p 0 1) && decide ((u.base (field p 1 1)).st = .ready)
  | .sweepSet _ _ => true
  | .cellarStatus _ _ => true
  | .fabricSet h p host =>
    (allowRead u h p host).isSome && (decide (field p 16 8 = 0) || decide (entryRefused u h.stamp (field p 16 8) = none))
  | .collectiveSet _ p =>
    let l := groupMembers p
    l.contains Config.identity && l.all (fun i => u.fabric.view.contains i) && chained u l && (u.group (field p 0 4)).post.isNone
  | .collectivePost h p =>
    let g := postedGroup h p (u.group (field p 0 4))
    let objs := [g.source, g.dest, g.staging]
    objs.all (fun o => decide ((u.obj o).wing = g.wing)) && (u.group (field p 0 4)).post.isNone
      && objs.all (fun o => decide ((u.obj o).st ≠ .damaged ∧ (u.obj o).st ≠ .absent)) && shapeAgrees u g
      && decide (entryRefused u h.stamp g.start = none)
  | .ringSet h p host =>
    (legsRead u h p host).any (fun l => (l.map (·.owner)).contains Config.identity && (l.map (·.owner)).all (fun i => u.fabric.view.contains i)
      && cycleLinked u (ownerCycle (l.map (·.owner)))) && !ringUsed u (field p 0 4)
  | .ringStatus _ _ => true
  | .fabricStatus _ _ => true
  | .portRetrain _ p => (maskList 36 (field p 0 8)).all (fun q => decide ((u.port q).st ≠ .off))
  | .mirrorAreaSet _ p =>
    let size := field p 8 8
    let chs := maskList 16 (field p 0 2)
    let floor := areaTop u - size
    u.liveWings.all (fun w => !((u.wing w).sealed && overlap (u.wing w).loft (field p 0 2)))
      && chs.all (fun c => decide (size ≤ areaTop u) && (plainSpans u c).all (fun r => decide (r.1 + r.2 ≤ floor ∨ size = 0)))
      && chs.all (fun c => (mirrorSpans u c).all (fun r => decide (floor ≤ r.1 ∧ size ≠ 0)))
  | .passportGet h p host =>
    match u.secure.ak with
    | some _ => decide (passportLength u ≤ field p 40 4) && (hostBytes u h.fn host).isSome
    | none => true
  | .keyRelease _ p =>
    let m := Machine.messageOf p
    keysAccepted u && decide ((u.base (field p 0 1)).st = .installed ∨ (u.base (field p 0 1)).st = .ready) && decide (field m 3 1 = field p 0 1)
      && passportUsable u m
  | .partyKeyLoad _ p =>
    let m := Machine.messageOf p
    keysAccepted u && (tget u.secure.partyKeys (field p 0 2)).isNone && decide (field m 4 2 = field p 0 2) && passportUsable u m
  | .partyKeyRemove _ p => (tget u.secure.partyKeys (field p 0 2)).isSome
  | .partyBind _ p =>
    vfExists u (field p 0 2) && (bindList p).all (fun q => decide (tget u.led.binds q = none ∨ tget u.led.binds q = some (field p 0 2)))
  | .lifeCycleSet _ p =>
    transitionAllowed u (lifeOf (field p 0 1)) (Machine.messageOf p) && decide (u.liveWings = [])
      && u.cellar.bases.all (fun b => b.2.install.isNone)
  | .faultLogRead _ _ => true
  | .tileMap _ p => !mapReady u (field p 0 2) || decide (field p 2 1 = 1) || (spareFor u (field p 0 2)).isSome
  | .pcRetire _ p => !(u.pc (field p 0 2)).retired && !(u.pc (field p 0 2)).retiring
  | .loftEvacuate _ p =>
    let st := (u.loft (field p 0 1)).st
    if field p 1 1 = 0 then decide (st = .inService) && evacuationFits u (field p 0 1) else decide (st = .evacuated ∨ st = .down)
  | .wingFence _ _ => true
  | .firmwareHandover _ _ _ => true
  | .domainSet _ p => decide (field p 1 1 = 1) || !domainBusy u (field p 0 1) (field p 8 8)
  | .vfSet _ p => vfExists u (field p 0 1)
  | .tallyRead _ p => if field p 2 1 = 0 then decide (u.led.tally.period ≠ 0) else u.led.tally.last.isSome
  | .tallyClose _ _ => decide (u.led.tally.period ≠ 0)
  | _ => false

/-- A key message refused after its passport has been used (R406): no record, and its refusal cached. -/
def refusedAfterUse (h : CmdHdr) (u t : State) (st : Status) : Prop :=
  t.led.version = u.led.version ∧ ∃ r, tget (t.sess (ownKey h)).marks h.seq = .cached h.crc r ∧ r.status = st

/-- The passport that a key message names can be used no more (R406). -/
def passportUsed (t : State) (m : Bytes) : Prop := ∀ q, q ∈ t.secure.passports → q.digest = fieldBytes m 16 64 → q.used = true

/-- What such a command leaves, from the state in which it is evaluated. -/
def moduleDone (c : KCmd) (i : Instr) (u t : State) : Prop :=
  match i with
  | .adapterLoad h p host =>
    let n := field p 0 2
    ∃ r place, roomToLoad u p = some (r, place)
      ∧ (∀ m, imageToLoad u h p host = some m →
          accepted1 c h u t (leBytes 2 r ++ leBytes 2 0 ++ leBytes 4 (Nat.max (u.room r).gen 1))
            ∧ (∃ l, (t.handle n).load = some l ∧ l.room = r ∧ l.image = m ∧ l.blocks = [] ∧ l.fromLoft = decide (field p 2 1 = 1)
                ∧ l.ref = some (refOf h c.code))
            ∧ (t.handle n).st = (if (u.handle n).st = .resident then .resident else .loading)
            ∧ ((u.handle n).st = .unused → (t.handle n).gen = (u.handle n).gen + 1 ∧ (t.handle n).owner = field p 12 2)
            ∧ (t.room r).st = .loading ∧ (t.room r).handle = n ∧ (t.room r).wing = field p 3 1 ∧ (t.room r).place = place)
      ∧ (imageToLoad u h p host = none →
          finished c h t (if (hostBytes u h.fn host).isNone ∧ field p 2 1 = 0 then .hostAccessFault else .adapterBad) []
            ∧ (t.handle n).load = none ∧ (t.handle n).st = (u.handle n).st ∧ (t.room r).st = .free)
  | .roomPin h p =>
    committed c h u t .ok [] ∧ t.room (field p 0 2) = { u.room (field p 0 2) with pinned := decide (field p 2 1 = 1) }
      ∧ t.led.handles = u.led.handles
  | .checkout h p =>
    let r := field p 0 2
    let x := u.room r
    accepted1 c h u t []
      ∧ (x.st = .updating ∨ x.st = .loading ∨ (u.handle x.handle).reading ≠ [] →
          (t.room r).waiting = x.waiting ++ [{ ref := refOf h c.code, forced := decide (field p 2 1 = 1) }] ∧ (t.room r).st = x.st
            ∧ t.led.handles = u.led.handles)
      ∧ (x.st ≠ .updating → x.st ≠ .loading → (u.handle x.handle).reading = [] →
          (t.room r).st = .leaving ∧ (t.handle x.handle).st = .leaving
            ∧ (t.room r).checkouts = x.checkouts ++ [{ ref := refOf h c.code, forced := decide (field p 2 1 = 1) }])
      ∧ (field p 2 1 = 1 → (t.room r).pinned = false)
  | .adapterDelete h p =>
    let n := field p 0 2
    u.led.version + 1 ≤ t.led.version ∧ concluded c h u t .ok [] ∧ (t.handle n).st = .unused ∧ (t.handle n).gen = (u.handle n).gen
      ∧ (t.obj (u.handle n).obj).live = false ∧ (∀ ref, ref ∈ (u.handle n).reading → ref ∉ t.led.longs)
  | .adapterRead h p =>
    accepted1 c h u t []
      ∧ t.handle (field p 0 2) = { u.handle (field p 0 2) with reading := (u.handle (field p 0 2)).reading ++ [refOf h c.code] }
  | .adapterStatus h p =>
    let x := u.handle (field p 0 2)
    let inRoom := decide (x.st = .resident ∨ x.st = .leaving ∨ x.st = .loading)
    let r := u.room (roomOf x)
    answered c h u t (leBytes 1 (HandleSt.code x.st) ++ leBytes 1 (if x.homeHost then 1 else 0) ++ leBytes 2 x.owner ++ leBytes 4 x.gen
      ++ leBytes 2 (if inRoom then roomOf x else 0) ++ leBytes 1 (if inRoom then RoomSt.code r.st else 0)
      ++ leBytes 1 (if inRoom ∧ r.pinned then 1 else 0) ++ leBytes 4 (if inRoom then r.gen else 0) ++ leBytes 4 (if inRoom then r.refs else 0)
      ++ leBytes 1 (if x.det.held then 1 else 0) ++ leBytes 3 0 ++ leBytes 2 (shownImage x).points.length ++ leBytes 2 (shownImage x).rank)
  | .baseInstall h p host =>
    let n := field p 0 1
    (hostBytes u h.fn host = none → finished c h t .installIncomplete (neededBytes u n) ∧ t.base n = u.base n)
      ∧ (∀ b, manifestRead u h p host = some b → (u.base n).st = .empty →
          accepted1 c h u t [] ∧ (t.base n).st = .installing ∧ (t.base n).shards = field b 4 4 ∧ (t.base n).layers = field b 2 2
            ∧ (t.base n).rootBytes = fieldBytes b 64 64
            ∧ (t.base n).install = some { role := roleOf (field p 1 1), ident := field p 8 8, ref := refOf h c.code, host := field p 32 8
                                          hostFn := h.fn, sent := 0, source := none })
      ∧ (∀ b, manifestRead u h p host = some b → (u.base n).st ≠ .empty → needed u n ≠ [] →
          accepted1 c h u t [] ∧ (t.base n).st = (u.base n).st ∧ (t.base n).install.isSome = true)
      ∧ (∀ b, manifestRead u h p host = some b → (u.base n).st ≠ .empty → needed u n = [] → (u.base n).outlierBad = false →
          finished c h t .ok (leBytes 4 0))
  | .installCancel h p =>
    let n := field p 0 1
    committed c h u t .ok [] ∧ (t.base n).install = none ∧ (t.base n).st = (u.base n).st
      ∧ (∀ x, (u.base n).install = some x → x.ref ∉ t.led.longs)
  | .baseRemove h p =>
    committed c h u t .ok [] ∧ t.base (field p 0 1) = default ∧ tget t.secure.baseKeys (field p 0 1) = none
  | .baseSelect h p =>
    committed c h u t .ok [] ∧ t.wing (field p 0 1) = { u.wing (field p 0 1) with base := field p 1 1 } ∧ otherWingsKept (field p 0 1) u t
  | .sweepSet h p => committed c h u t .ok [] ∧ t.led.sweep = field p 0 8 ∧ t.cellar = u.cellar
  | .cellarStatus h _ =>
    answered c h u t (cellarRoot u ++ (List.range 4).flatMap (baseStatus u) ++ leBytes 8 u.led.sweep ++ leBytes 4 u.cellar.nextShard ++ leBytes 4 0
      ++ leBytes 8 u.cellar.overdue ++ leBytes 8 u.cellar.skipped)
  | .fabricSet h p host =>
    ∃ l, allowRead u h p host = some l ∧ committed c h u t .ok []
      ∧ (field p 16 8 = 0 →
          t.led.fab = { interval := if field p 0 4 = 0 then u.led.fab.interval else field p 0 4
                        absenceM := if field p 4 1 = 0 then u.led.fab.absenceM else field p 4 1
                        allow := l.getD u.led.fab.allow, next := none })
      ∧ (field p 16 8 ≠ 0 → t.led.fab = { u.led.fab with next := some (fabricAsked p l) } ∧ t.ports = u.ports)
  | .collectiveSet h p =>
    let n := field p 0 4
    committed c h u t .ok (leBytes 4 n ++ leBytes 4 ((u.group n).gen + 1)) ∧ (t.group n).live = true ∧ (t.group n).gen = (u.group n).gen + 1
      ∧ (t.group n).members = groupMembers p ∧ (t.group n).post = none ∧ (∀ k, k ≠ n → t.group k = u.group k)
  | .collectivePost h p =>
    let n := field p 0 4
    accepted1 c h u t [] ∧ t.group n = postedGroup h p (u.group n) ∧ (t.group n).post = some (refOf h c.code)
      ∧ (∃ e, e ∈ t.tt.entries ∧ e.cls = TtClass.collective ∧ e.arg = n ∧ e.mp = field p 48 8) ∧ (∀ k, k ≠ n → t.group k = u.group k)
  | .ringSet h p host =>
    let n := field p 0 4
    ∃ l, legsRead u h p host = some l ∧ committed c h u t .ok (leBytes 4 n ++ leBytes 4 ((u.ring n).gen + 1)) ∧ (t.ring n).live = true
      ∧ (t.ring n).gen = (u.ring n).gen + 1 ∧ (t.ring n).wing = field p 8 1 ∧ (t.ring n).legs = l ∧ (∀ k, k ≠ n → t.ring k = u.ring k)
  | .ringStatus h p =>
    let r := u.ring (field p 0 4)
    answered c h u t (leBytes 4 r.gen ++ leBytes 1 r.legs.length ++ leBytes 3 0 ++ leBytes 8 (listMask r.own)
      ++ leBytes 8 (listMask (r.indices.filter r.isMirrored)))
  | .fabricStatus h p =>
    answered c h u t (leBytes 4 u.fabric.epoch ++ leBytes 2 u.fabric.view.length ++ leBytes 2 (field p 0 2) ++ leBytes 8 (viewDigest u.fabric.view)
      ++ leBytes 1 (if u.fabric.withdrawn then 1 else 0) ++ leBytes 3 0 ++ portStates u
      ++ ((u.fabric.view.drop (field p 0 2)).take 448).flatMap (leBytes 8))
  | .portRetrain h p =>
    (field p 0 8 = 0 → u.fabric.retrains = [] → finished c h t .ok (portStates u))
      ∧ (field p 0 8 ≠ 0 → accepted1 c h u t [] ∧ ∀ q, q < 36 → (field p 0 8).testBit q = true →
          (t.port q).st = .training ∧ (t.port q).phase = 1 ∧ (t.port q).narrow = false ∧ (t.port q).corrected = (u.port q).corrected)
  | .mirrorAreaSet h p =>
    committed c h u t .ok []
      ∧ (∀ k, t.loft k = if k < 16 ∧ (field p 0 2).testBit k then { u.loft k with mirror := field p 8 8 } else u.loft k)
  | .passportGet h p host =>
    match u.secure.ak with
    | some ak =>
      t.fns = (pushReply u h.fn (mkReply u (refOf h c.code) .ok true (leBytes 4 (passportLength u)))).fns
        ∧ t.secure.passports.getLast? = some { digest := shake256 (passport u ak (fieldBytes p 0 32)) 64, used := false }
        ∧ t.secure.passports.length ≤ Nat.max 16 u.secure.passports.length ∧ t.led.version = u.led.version
    | none =>
      t.secure.waitingPassports = u.secure.waitingPassports
          ++ [{ ref := some (refOf h c.code), nonce := fieldBytes p 0 32, capacity := field p 40 4, hostOk := (hostBytes u h.fn host).isSome }]
        ∧ t.fns = u.fns ∧ t.led.version = u.led.version
  | .keyRelease h p =>
    let b := field p 0 1
    let m := Machine.messageOf p
    passportUsed t m ∧
      (match unwrap u m with
       | none => refusedAfterUse h u t .keyRefused ∧ t.secure.baseKeys = u.secure.baseKeys
       | some z =>
         if fieldBytes m 80 64 ≠ (u.base b).rootBytes then refusedAfterUse h u t .keyRootMismatch ∧ t.secure.baseKeys = u.secure.baseKeys
         else if (u.base b).st = .ready ∧ (tget u.secure.baseKeys b).map (·.key) ≠ some (wrappedKey z m) then
           refusedAfterUse h u t .keyRefused ∧ t.secure.baseKeys = u.secure.baseKeys
         else committed c h u t .ok [] ∧ (t.base b).st = .ready
           ∧ tget t.secure.baseKeys b = some { key := wrappedKey z m, root := fieldBytes m 80 64 })
  | .partyKeyLoad h p =>
    let m := Machine.messageOf p
    passportUsed t m ∧
      (match unwrap u m with
       | none => refusedAfterUse h u t .keyRefused ∧ t.secure.partyKeys = u.secure.partyKeys
       | some z => committed c h u t .ok [] ∧ tget t.secure.partyKeys (field p 0 2) = some (wrappedKey z m))
  | .partyKeyRemove h p =>
    let party := field p 0 2
    (partyMoving u party = false → u.secure.removals = [] → finished c h t .ok [] ∧ tget t.secure.partyKeys party = none)
      ∧ (partyMoving u party = true → (∃ r, r ∈ t.secure.removals ∧ r.party = party ∧ r.ref = refOf h c.code)
          ∧ u.led.version + 1 ≤ t.led.version)
  | .partyBind h p =>
    committed c h u t .ok [] ∧ (∀ q, q ∈ bindList p → tget t.led.binds q = some (field p 0 2))
      ∧ (twf default u.led.binds = true → ∀ q, q ∉ bindList p →
          tget t.led.binds q = if tget u.led.binds q = some (field p 0 2) then none else tget u.led.binds q)
  | .lifeCycleSet _ p =>
    t.secure.life = lifeOf (field p 0 1) ∧ t.secure.transitions = u.secure.transitions + 1 ∧ t.secure.baseKeys = [] ∧ t.secure.partyKeys = []
      ∧ t.secure.passports = [] ∧ t.secure.loftEpoch = u.secure.loftEpoch + 1
  | .faultLogRead h p =>
    let l := journalFrom u (field p 0 4) (field p 4 2)
    answered c h u t (leBytes 4 (((l.head?).map (·.number)).getD (field p 0 4)) ++ leBytes 2 l.length ++ leBytes 2 0
      ++ leBytes 8 u.keeper.journalLog.length ++ l.flatMap LogRec.bytes)
  | .tileMap h p =>
    let n := field p 0 2
    (mapReady u n = false → accepted1 c h u t []
        ∧ t.led.maps = u.led.maps ++ [{ tile := n, out := decide (field p 2 1 = 1), ref := some (refOf h c.code) }])
      ∧ (mapReady u n = true → field p 2 1 = 1 → finished c h t .ok (leBytes 2 0xFFFF) ∧ physTile t n = none)
      ∧ (mapReady u n = true → field p 2 1 = 0 → ∀ sp, spareFor u n = some sp →
          (∀ w q, wingOfTile u n = some w → physTile u n = some q →
              accepted1 c h u t [] ∧ (t.tile q).spare = some sp ∧ (t.tile q).mapRef = some (refOf h c.code) ∧ physTile t n = some q)
            ∧ (wingOfTile u n = none ∨ physTile u n = none → finished c h t .ok (leBytes 2 sp) ∧ physTile t n = some sp
                ∧ (∀ q, physTile u n = some q → tget t.led.faultMap q = true)))
  | .pcRetire h p =>
    let k := field p 0 2
    (t.pc k).retiring = true ∧ (t.pc k).retired = false ∧ (t.pc k).ref = some (refOf h c.code) ∧ u.led.version + 1 ≤ t.led.version
      ∧ (noMovesWaiting u = true → acceptedLong c h u t .accepted [])
  | .loftEvacuate h p =>
    let k := field p 0 1
    (t.loft k).st = (if field p 1 1 = 0 then .evacuating else .returning) ∧ (t.loft k).ref = some (refOf h c.code)
      ∧ u.led.version + 1 ≤ t.led.version ∧ (noMovesWaiting u = true → acceptedLong c h u t .accepted [])
  | .wingFence h p =>
    let w := field p 0 1
    committed c h u t .ok []
      ∧ (field p 1 1 = 0 → (t.wing w).fenced = false ∧ t.tt = u.tt)
      ∧ (field p 1 1 = 1 → t.led.wings = u.led.wings
          ∧ ((u.wing w).fenced = false → ∃ e, e ∈ t.tt.entries ∧ e.cls = TtClass.fence ∧ e.wing = some w ∧ e.mp = u.clock.count + 1))
  | .firmwareHandover h p host =>
    (∀ b, hostBytes u h.fn host = some b → field p 8 4 ≤ 2 ^ 24 → b.length = field p 8 4 → Config.imageAccepted b = true →
        u.keeper.handover = .none → accepted1 c h u t [] ∧ t.keeper.handover = .checked b (refOf h c.code))
      ∧ (hostBytes u h.fn host = none → finished c h t .firmwareBad [] ∧ t.keeper.handover = u.keeper.handover)
  | .domainSet h p =>
    let d := field p 0 1
    let r : DomReq := { on := decide (field p 1 1 = 1), mask := field p 8 8, ref := refOf h c.code }
    ((u.domain d).run.isSome = true → (t.domain d).queue = some r ∧ (t.domain d).run = (u.domain d).run
        ∧ (∀ q, (u.domain d).queue = some q → q.ref ∉ t.led.longs ∨ q.ref = refOf h c.code)
        ∧ ((u.domain d).queue = none → acceptedLong c h u t .deferred []))
      ∧ ((u.domain d).run = none → domainAlready u d r = true → finished c h t .complete [] ∧ t.power = u.power)
      ∧ ((u.domain d).run = none → domainAlready u d r = false → accepted1 c h u t [] ∧ (t.domain d).run = some r
          ∧ (t.domain d).st = (if field p 8 8 ≠ 0 then (u.domain d).st else if field p 1 1 = 0 then .falling
                else if (u.domain d).st = .off then .rising else (u.domain d).st))
  | .vfSet h p =>
    let n := field p 0 1
    let q : VfReq := { act := vfActOf (field p 1 1), ref := refOf h c.code }
    ((u.fn n).vfRun.isSome = true → (t.fn n).vfQueue = some q ∧ (t.fn n).vfRun = (u.fn n).vfRun
        ∧ ((u.fn n).vfQueue = none → acceptedLong c h u t .deferred []))
      ∧ ((u.fn n).vfRun = none → (u.fn n).st = .disabled → field p 1 1 = 0 → finished c h t .complete [])
      ∧ ((u.fn n).vfRun = none → (u.fn n).st ≠ .resetting → field p 1 1 = 1 → finished c h t .complete [] ∧ (t.fn n).st = .enabled)
      ∧ ((u.fn n).vfRun = none → (u.fn n).st = .enabled → field p 1 1 ≠ 1 →
          (t.fn n).st = .resetting ∧ (t.fn n).vfRun = some q ∧ (t.fn n).gen = ((u.fn n).gen + 1) % 2 ^ 32)
  | .tallyRead h p =>
    let y := u.led.tally
    let row (number start stop : Nat) (x : Counts) : Bytes :=
      leBytes 8 number ++ leBytes 8 start ++ leBytes 8 stop ++ leBytes 8 x.tokens ++ leBytes 8 x.rows ++ leBytes 8 x.tileStages ++ leBytes 8 x.bytes
        ++ leBytes 8 x.held ++ leBytes 8 x.reload
    (field p 2 1 = 0 → answered c h u t (row y.period y.start 0 (tget y.cur (field p 0 2))))
      ∧ (field p 2 1 ≠ 0 → ∀ l, y.last = some l → answered c h u t (row l.1 l.2.1 l.2.2 (tget y.lastCounts (field p 0 2))))
  | .tallyClose h _ =>
    let y := u.led.tally
    committed c h u t .ok (leBytes 8 y.period)
      ∧ t.led.tally = { period := y.period + 1, start := u.led.version + 2, cur := [], last := some (y.period, y.start, u.led.version + 1)
                        lastCounts := y.cur }
  | _ => True

end Sys2Proof.Safety
end

