-- ==== Sys2Proof/Safety/CmdPasses.lean ====
section
/-! DEFINITION. The commands of passes, serving sessions, updates, the watch table, objects and windows (Tables 13.6 to 13.10): what
their own rules ask, and what each leaves. -/

namespace Sys2Proof.Safety

open Sys2Proof Sys2Proof.Machine

/-- A pass table that R348 accepts for a training pass, by its checks in their order. -/
def trainTableOk (u : State) (p : Bytes) (t : PassTable) : Bool :=
  !listLong t && decide (adaptersFail u t = none) && t.adapters.all (bindingsOk u)
    && !((u.wing (field p 0 1)).sealed && decide (field p 24 2 ≠ 0xFFFF)) && decide (resourcesFail u (field p 0 1) (field p 2 2) t = none)

/-- An adapter that an update-run may update (R352). -/
def updatable (u : State) (rebias : Bool) (a : PassAdapter) : Bool :=
  handleCurrent u a.handle a.gen && decide ((u.handle a.handle).st = .resident) && (rebias || bindingsOk u a)

/-- A table that R352 accepts for an update-run. -/
def runTableOk (u : State) (p : Bytes) (t : PassTable) : Bool :=
  let rebias := decide (field p 1 1 = 1)
  !listLong t && t.adapters.all (updatable u rebias)
    && !(rebias && t.adapters.any (fun a => (u.handle a.handle).image.points.any (rebiasBad t.scalars)))

/-- The destination that an object-move finds (R182, R184). -/
def moveDest (h : CmdHdr) (p : Bytes) (u : State) : Option Place :=
  let t := tierOf (field p 8 1)
  if t = .host then some (hostPlace h.fn (field p 80 8)) else findPlace u t (field p 16 64) (u.obj (field p 0 4)).size

/-- The place that an object-create finds (R182, R353). -/
def createPlace (h : CmdHdr) (p : Bytes) (u : State) : Option Place :=
  let t := tierOf (field p 1 1)
  if t = .host then some (hostPlace h.fn (field p 88 8)) else findPlace u t (field p 24 64) (field p 16 8)

/-- Where an object-resize to a greater size finds room: in place, or elsewhere (R185). -/
def growPlace (p : Bytes) (u : State) : Option (Bool × Place) :=
  let x := u.obj (field p 0 4)
  if x.place.tier = .host then some (false, x.place)
  else match extendPlace u x.place (field p 8 8) with
    | some d => some (false, d)
    | none => (findPlace u x.place.tier x.place.set (field p 8 8)).map (fun d => (true, d))

/-- The slots that a window-set asks for. -/
def slotsWanted (p : Bytes) (u : State) : Nat :=
  if field p 2 2 = 0 then defaultSlots (u.base (u.wing (field p 0 1)).base) else field p 2 2

/-- What a command's own rules ask before it is carried out. -/
def passRules (i : Instr) (u : State) : Bool :=
  match i with
  | .passTrain _ p =>
    !servingCtx (u.ctx (field p 0 1) (field p 1 1)) && trainPrograms u p && tableResident u (field p 12 4) (field p 16 4)
      && (readTable (u.obj (field p 12 4)).content (u.obj (field p 12 4)).size false).any (trainTableOk u p)
  | .passServe _ p =>
    decide ((u.ctx (field p 0 1) (field p 1 1)).kind ≠ .train) && (heldProgram u (field p 0 1) (field p 12 2)).isSome
      && decide (field p 2 2 = popCount 128 (u.wing (field p 0 1)).tiles)
  | .serveOpen _ p =>
    let o := u.obj (field p 20 4)
    decide ((u.ctx (field p 0 1) (field p 1 1)).kind ≠ .train) && !(decide (field p 14 1 = 0) && handleGone u (field p 12 2))
      && decide (o.kind = .kv ∧ o.owner = some (field p 2 2)) && decide (freeServe (u.ctx (field p 0 1) (field p 1 1)) < 4096)
  | .serveAppend _ p => (namedServe u p).live
  | .serveClose _ _ => true
  | .updateRun _ p =>
    !(u.wing (field p 0 1)).sealed && (decide (field p 1 1 = 1) || (heldProgram u (field p 0 1) (field p 2 2)).isSome)
      && tableResident u (field p 8 4) (field p 12 4)
      && (readTable (u.obj (field p 8 4)).content (u.obj (field p 8 4)).size true).any (runTableOk u p)
  | .watchRead _ _ => true
  | .watchSet _ _ => true
  | .watchReset _ _ => true
  | .detectorSet _ p => !handleGone u (field p 0 2)
  | .detectorRelease _ p => !handleGone u (field p 0 2)
  | .objectCreate h p =>
    let k := kindOf (field p 0 1)
    let t := tierOf (field p 1 1)
    decide (k ≠ .room ∧ k ≠ .mirror) && !placeDenied u (field p 2 1) k (ownerOf (field p 8 2)) t (field p 24 64)
      && !(decide (k = .baseCopy) && copyDenied u (field p 2 1) (field p 96 1) (field p 100 4) (field p 104 4))
      && !loftKeyAbsent u (ownerOf (field p 8 2)) t && (decide (k ≠ .baseCopy) || decide ((u.base (field p 96 1)).st = .ready))
      && (createPlace h p u).isSome && decide (liveObjects u < 262144 ∧ freeObjNumber u < 262144)
  | .objectMove h p =>
    let x := u.obj (field p 0 4)
    let t := tierOf (field p 8 1)
    !placeDenied u x.wing x.kind x.owner t (field p 16 64) && !loftKeyAbsent u x.owner t && !loftKeyAbsent u x.owner x.place.tier
      && decide (moveRefused x = none) && (moveDest h p u).isSome
  | .objectResize _ p =>
    decide (moveRefused (u.obj (field p 0 4)) = none) && (decide (field p 8 8 ≤ (u.obj (field p 0 4)).size) || (growPlace p u).isSome)
  | .objectFree _ p => decide ((u.obj (field p 0 4)).kind ≠ .room) && decide ((u.obj (field p 0 4)).refs = 0)
  | .objectStatus _ _ => true
  | .objectWrite _ p => decide (transferRefused (u.obj (field p 0 4)) (field p 8 8) (field p 16 8) = none)
  | .objectRead _ p => decide (transferRefused (u.obj (field p 0 4)) (field p 8 8) (field p 16 8) = none)
  | .windowSet _ p =>
    let x := u.wing (field p 0 1)
    let set := windowUnits u (field p 0 1) (field p 8 64)
    within set x.pcs && unitsTake u .hbm set && decide (leastSlots (u.base x.base) ≤ slotsWanted p u ∧ slotsWanted p u ≤ 768)
      && (resizedWindow u (field p 0 1) (slotsWanted p u) set).isSome
  | _ => false

/-- A long command whose work an object now does: nothing of the object but its state and work changes. -/
def workBegun (o : Nat) (u t : State) (st : ObjSt) (work : ObjWork) : Prop :=
  t.obj o = { u.obj o with st := st, work := work } ∧ otherObjsKept o u t

/-- What such a command leaves, from the state in which it is evaluated. -/
def passCmdDone (c : KCmd) (i : Instr) (u t : State) : Prop :=
  match i with
  | .passTrain h p =>
    let w := field p 0 1
    let n := field p 1 1
    ∃ tbl, readTable (u.obj (field p 12 4)).content (u.obj (field p 12 4)).size false = some tbl ∧ accepted1 c h u t []
      ∧ t.ctx w n = { u.ctx w n with kind := .train, queue := (u.ctx w n).queue ++ [trainPass h p tbl] }
      ∧ t.obj (field p 12 4) = { u.obj (field p 12 4) with refs := (u.obj (field p 12 4)).refs + 1 }
      ∧ otherObjsKept (field p 12 4) u t ∧ otherWingsKept w u t
  | .passServe h p =>
    let w := field p 0 1
    let n := field p 1 1
    accepted1 c h u t [] ∧ t.ctx w n = { u.ctx w n with kind := .serve, queue := (u.ctx w n).queue ++ [servePass h p] }
      ∧ t.led.objects = u.led.objects ∧ otherWingsKept w u t
  | .serveOpen h p =>
    let w := field p 0 1
    let x := u.ctx w (field p 1 1)
    let n := freeServe x
    let v := tget (t.ctx w (field p 1 1)).serves n
    committed c h u t .ok (leBytes 2 n ++ leBytes 2 0 ++ leBytes 4 ((tget x.serves n).gen + 1))
      ∧ v.live = true ∧ v.gen = (tget x.serves n).gen + 1 ∧ v.party = field p 2 2 ∧ v.handle = (if field p 14 1 = 1 then none else some (field p 12 2))
      ∧ v.kv = field p 20 4 ∧ v.promptLeft = field p 28 4 ∧ v.tokens = 0 ∧ (∀ k, k ≠ n → tget (t.ctx w (field p 1 1)).serves k = tget x.serves k)
      ∧ otherWingsKept w u t
  | .serveAppend h p =>
    let v := namedServe u p
    committed c h u t .ok [] ∧ namedServe t p = { v with promptLeft := v.promptLeft + field p 16 4 } ∧ otherWingsKept (field p 0 1) u t
  | .serveClose h p =>
    committed c h u t .ok [] ∧ (namedServe t p).live = false ∧ (namedServe t p).gen = (namedServe u p).gen ∧ t.led.objects = u.led.objects
      ∧ otherWingsKept (field p 0 1) u t
  | .updateRun h p =>
    let o := field p 8 4
    ∃ tbl, readTable (u.obj o).content (u.obj o).size true = some tbl
      ∧ (tbl.adapters ≠ [] → accepted1 c h u t []
          ∧ t.runs = u.runs ++ [{ ref := refOf h c.code, left := tbl.adapters.length, done := 0, faulted := 0, table := o }]
          ∧ t.obj o = { u.obj o with refs := (u.obj o).refs + 1 })
      ∧ (tbl.adapters = [] → finished c h t .ok (leBytes 4 0) ∧ (t.obj o).refs = (u.obj o).refs)
  | .watchRead h p =>
    answered c h u t (leBytes 2 (field p 2 2) ++ leBytes 2 (field p 8 2) ++ (List.range (field p 8 2)).flatMap (fun i =>
      let e := tget (u.wing (field p 0 1)).watch (field p 2 2 + i)
      leBytes 4 e.control ++ leBytes 4 0 ++ e.cur.bytes ++ e.last.bytes ++ e.run.bytes))
  | .watchSet h p =>
    let w := field p 0 1
    committed c h u t .ok [] ∧ otherWingsKept w u t
      ∧ (∀ k, k < field p 8 2 →
          tget (t.wing w).watch (field p 2 2 + k) = (tget (u.wing w).watch (field p 2 2 + k)).write (field p (16 + 4 * k) 4))
      ∧ (∀ n, n < field p 2 2 ∨ field p 2 2 + field p 8 2 ≤ n → tget (t.wing w).watch n = tget (u.wing w).watch n)
  | .watchReset h p =>
    let w := field p 0 1
    committed c h u t .ok [] ∧ otherWingsKept w u t
      ∧ (∀ k, k < field p 8 2 → tget (t.wing w).watch (field p 2 2 + k) = { tget (u.wing w).watch (field p 2 2 + k) with run := default })
      ∧ (∀ n, n < field p 2 2 ∨ field p 2 2 + field p 8 2 ≤ n → tget (t.wing w).watch n = tget (u.wing w).watch n)
  | .detectorSet h p =>
    let d := (u.handle (field p 0 2)).det
    let e := (t.handle (field p 0 2)).det
    let m := field p 2 1
    committed c h u t .ok [] ∧ t.handle (field p 0 2) = { u.handle (field p 0 2) with det := e } ∧ e.held = d.held
      ∧ e.a = (if m.testBit 0 then field p 8 1 else d.a) ∧ e.action = (if m.testBit 0 then field p 9 1 else d.action)
      ∧ e.spikes = (if m.testBit 0 then field p 10 1 else d.spikes) ∧ e.warmup = (if m.testBit 0 then field p 12 2 else d.warmup)
      ∧ e.n = (if m.testBit 1 then field p 32 8 else d.n) ∧ e.c = (if m.testBit 1 then field p 40 4 else d.c)
  | .detectorRelease h p =>
    ((u.handle (field p 0 2)).det.held = true → committed c h u t .ok [] ∧ (t.handle (field p 0 2)).det = { (u.handle (field p 0 2)).det with held := false })
      ∧ ((u.handle (field p 0 2)).det.held = false → answered c h u t [])
  | .objectCreate h p =>
    let o := freeObjNumber u
    let x := t.obj o
    accepted1 c h u t (leBytes 4 o ++ leBytes 4 ((u.obj o).gen + 1)) ∧ otherObjsKept o u t
      ∧ x.live = true ∧ x.gen = (u.obj o).gen + 1 ∧ x.kind = kindOf (field p 0 1) ∧ x.owner = ownerOf (field p 8 2) ∧ x.wing = field p 2 1
      ∧ x.size = field p 16 8 ∧ x.st = .moving ∧ x.content = [] ∧ x.refs = 0 ∧ some x.place = createPlace h p u
      ∧ x.work = .create (refOf h c.code)
  | .objectMove h p =>
    ∃ d, moveDest h p u = some d ∧ accepted1 c h u t []
      ∧ workBegun (field p 0 4) u t .moving (.move d (u.obj (field p 0 4)).size (some (refOf h c.code)))
  | .objectResize h p =>
    let o := field p 0 4
    let size := field p 8 8
    (size ≤ (u.obj o).size → noMovesWaiting u = true → finished c h t .ok [] ∧ (t.obj o).size = size ∧ (t.obj o).st = (u.obj o).st
        ∧ (∀ a, a < size → mread (t.obj o).content a = mread (u.obj o).content a) ∧ (∀ a, size ≤ a → mread (t.obj o).content a = 0))
      ∧ ((u.obj o).size < size → ∃ m d, growPlace p u = some (m, d) ∧ accepted1 c h u t []
          ∧ workBegun o u t (if m then .moving else (u.obj o).st) (.grow size d (refOf h c.code)))
  | .objectFree h p =>
    let o := field p 0 4
    u.led.version + 1 ≤ t.led.version ∧ concluded c h u t .ok [] ∧ (t.obj o).live = false ∧ (t.obj o).gen = (u.obj o).gen
      ∧ (∀ ref, workRef (u.obj o).work = some ref → ref ∉ t.led.longs)
      ∧ ((u.obj o).kind = .kv → ∀ w n k, (tget (t.ctx w n).serves k).live = true → (tget (t.ctx w n).serves k).kv ≠ o)
  | .objectStatus h p =>
    let x := shownObj u (field p 0 4)
    answered c h u t (leBytes 1 (Kind.code x.kind) ++ leBytes 1 (Tier.code x.place.tier) ++ leBytes 1 (ObjSt.code x.st) ++ leBytes 1 x.wing
      ++ leBytes 2 (x.owner.getD 0xFFFF) ++ leBytes 2 0 ++ leBytes 8 x.size ++ leBytes 4 x.gen ++ leBytes 4 0 ++ leBytes 64 x.place.set
      ++ leBytes 8 x.place.host)
  | .objectWrite h p =>
    accepted1 c h u t [] ∧ workBegun (field p 0 4) u t (u.obj (field p 0 4)).st (.write (field p 8 8) (field p 16 8) (field p 24 8) (refOf h c.code))
  | .objectRead h p =>
    accepted1 c h u t [] ∧ workBegun (field p 0 4) u t (u.obj (field p 0 4)).st (.read (field p 8 8) (field p 16 8) (field p 24 8) (refOf h c.code))
  | .windowSet h p =>
    let w := field p 0 1
    u.led.version + 1 ≤ t.led.version ∧ concluded c h u t .ok []
      ∧ (t.wing w).window.nextSlots = slotsWanted p u
      ∧ (t.wing w).window.set = windowUnits u w (field p 8 64) ∧ (t.wing w).window.base = (u.wing w).window.base ∧ otherWingsKept w u t
  | _ => True

end Sys2Proof.Safety
end

