-- ==== Sys2Proof/Safety/CmdWings.lean ====
section
/-! DEFINITION. The commands of host sessions, time, wings, contexts and programs (Tables 13.1 to 13.5): what their own rules ask, and
what each leaves. -/

namespace Sys2Proof.Safety

open Sys2Proof Sys2Proof.Machine

/-- A wing's counter as a function reads it (R411). -/
def counterSeen (h : CmdHdr) (x : Wing) (f : WingCounters → Nat) : Bytes := leBytes 8 (seenBy h.fn (f x.counters) (f x.baseCounters))

/-- What a command's own rules ask before it is carried out. -/
def wingRules (i : Instr) (u : State) : Bool :=
  match i with
  | .noOp _ _ => true
  | .sessionOpen h _ => (lowest 16 (fun n => decide ((u.sess (sessKey h.fn n)).st = .closed))).isSome && decide (allSessions u < 1024)
  | .sessionResume h p =>
    let x := u.sess (sessKey h.fn (field p 0 4))
    decide (x.gen ≠ 0 ∧ x.gen = field p 4 4 ∧ x.st ≠ .closed)
  | .sessionStatus _ _ => true
  | .sessionSet _ _ => true
  | .sessionClose h _ => decide ((u.sess (ownKey h)).longs = 0)
  | .functionStatus _ _ => true
  | .timeSeed _ _ => decide (u.clock.st = .unset) && u.clock.qualified && !u.clock.lockedHeard
  | .timeRead _ _ => true
  | .wingCreate _ p =>
    decide (u.secure.life ≠ .return_) && !(u.wing (field p 0 1)).live && decide ((u.base (field p 2 1)).st = .ready)
      && decide (askedRefused u (field p 0 1) (askedBy u p) = none)
  | .wingResize _ p =>
    let w := field p 0 1
    let a := resizeAsked u p
    decide (askedRefused u w a = none) && !resizeBad (u.wing w) p && decide (removedHeld u w a = none)
      && (!(field p 160 2).testBit 4 || (reserveSaves u w (popCount 128 a.tiles)).isSome)
  | .wingRemove _ p =>
    u.led.objects.all (fun o => !(o.2.live && decide (o.2.wing = field p 0 1 ∧ o.2.kind ≠ .room ∧ o.2.kind ≠ .save)))
  | .wingReassign h p =>
    let x := u.wing (field p 0 1)
    x.sealed && x.reassign.isNone && x.contexts.all (fun c => !c.2.live) && decide (wingRooms u (field p 0 1) = [])
      && decide (entryRefused u h.stamp (nextBoundary x (h.stamp + 2)) = none)
  | .wingStatus _ _ => true
  | .stallRead _ _ => true
  | .contextCreate _ p =>
    let w := field p 0 1
    let x := u.wing w
    let tier := tierOf (field p 11 1)
    let size := saveBytes (popCount 128 x.tiles) (field p 8 2) (field p 32 32)
    x.scrub.isNone && x.reassign.isNone && !(u.ctx w (field p 1 1)).live
      && decide (17728 + field p 12 4 + 64 * field p 10 1 ≤ field p 8 2 * 32768) && within (field p 32 32) x.slices
      && decide (field p 64 64 ≠ 0) && !placeDenied u w .save (wingOwner x) tier (field p 64 64) && !loftKeyAbsent u (wingOwner x) tier
      && (findPlace u tier (field p 64 64) size).isSome && decide (freeObjNumber u < 262144)
  | .contextSet _ _ => true
  | .contextDestroy _ _ => true
  | .programLoad h p host =>
    let w := field p 0 1
    let update := decide (field p 1 1 = 1)
    (match hostBytes u h.fn host with
      | some b => decide (programBad update (wordsOf b (field p 2 2)) = none)
      | none => false)
      && !(update && (u.wing w).sealed) && (lowest 64 (fun i => !(tget (u.wing w).programs i).live)).isSome
  | .programFree _ p => (tget (u.wing (field p 0 1)).programs (field p 2 2)).live && !programBusy u (field p 0 1) (field p 2 2)
  | _ => false

/-- What such a command leaves, from the state in which it is evaluated. -/
def wingDone (c : KCmd) (i : Instr) (u t : State) : Prop :=
  match i with
  | .noOp h _ => answered c h u t []
  | .sessionOpen h p =>
    ∃ n, lowest 16 (fun n => decide ((u.sess (sessKey h.fn n)).st = .closed)) = some n
      ∧ t.led.version = u.led.version + 1
      ∧ (t.sess (sessKey h.fn n)).st = .opened ∧ (t.sess (sessKey h.fn n)).gen = (u.sess (sessKey h.fn n)).gen + 1
      ∧ (t.sess (sessKey h.fn n)).next = 1 ∧ (t.sess (sessKey h.fn n)).lease = orElse (field p 0 4) 10000000
      ∧ (t.sess (sessKey h.fn n)).lapseHold = orElse (field p 4 4) 300000000 ∧ (t.sess (sessKey h.fn n)).gap = orElse (field p 8 4) 10000
      ∧ (t.sess (sessKey h.fn n)).leaseEnd = h.stamp + orElse (field p 0 4) 10000000 ∧ (t.sess (sessKey h.fn n)).marks = []
      ∧ (∀ k, k ≠ sessKey h.fn n → t.sess k = u.sess k)
      ∧ (∃ o, o ∈ (t.fn h.fn).opens ∧ o.hostTag = h.hostTag
          ∧ o.reply.payload = leBytes 4 n ++ leBytes 4 ((u.sess (sessKey h.fn n)).gen + 1))
  | .sessionResume h p =>
    let k := sessKey h.fn (field p 0 4)
    t.led.version = u.led.version + 1 ∧ (t.sess k).st = stateBefore (u.sess k) u.clock.count
      ∧ (t.sess k).leaseEnd = h.stamp + (u.sess k).lease ∧ (t.sess k).next = (u.sess k).next ∧ (t.sess k).marks = (u.sess k).marks
      ∧ (∀ j, j ≠ k → t.sess j = u.sess j)
  | .sessionStatus h _ =>
    let x := u.sess (ownKey h)
    answered c h u t (leBytes 2 (SessSt.code x.st) ++ leBytes 2 x.held.length ++ leBytes 4 x.longs ++ leBytes 8 x.next
      ++ leBytes 8 u.durable.version ++ leBytes 8 x.leaseEnd ++ (counterList (u.fn h.fn).counters).flatMap (leBytes 8))
  | .sessionSet h p =>
    committed c h u t .ok [] ∧ (t.sess (ownKey h)).lease = orElse (field p 0 4) (u.sess (ownKey h)).lease
      ∧ (t.sess (ownKey h)).lapseHold = orElse (field p 4 4) (u.sess (ownKey h)).lapseHold
      ∧ (t.sess (ownKey h)).gap = orElse (field p 8 4) (u.sess (ownKey h)).gap
  | .sessionClose h _ =>
    t.led.version = u.led.version + 1 ∧ (t.sess (ownKey h)).st = .closed ∧ (t.sess (ownKey h)).marks = [] ∧ (t.sess (ownKey h)).held = []
      ∧ (t.sess (ownKey h)).gen = (u.sess (ownKey h)).gen ∧ (∀ k, k ≠ ownKey h → t.sess k = u.sess k)
  | .functionStatus h _ =>
    let f := u.fn h.fn
    answered c h u t (leBytes 1 (if f.window then 1 else 0) ++ leBytes 1 (if f.stopped then 1 else 0) ++ leBytes 2 0
      ++ leBytes 2 u.power.minReason ++ leBytes 2 (openSessions u h.fn) ++ leBytes 8 (f.noticeSeq + 1) ++ leBytes 8 u.led.version
      ++ leBytes 8 u.durable.version ++ leBytes 2 (boundParties u h.fn).length)
  | .timeSeed h p => committed c h u t .ok [] ∧ t.clock = { u.clock with seed := some (field p 0 8) }
  | .timeRead h _ =>
    answered c h u t (leBytes 8 u.clock.count ++ leBytes 4 u.clock.st.value ++ leBytes 4 (uncertainty u) ++ leBytes 8 (unsigned 32 u.clock.offset)
      ++ leBytes 8 u.clock.glitches ++ leBytes 8 u.tt.late ++ leBytes 2 (entriesInUse u))
  | .wingCreate h p =>
    let w := field p 0 1
    let x := t.wing w
    committed c h u t .ok (leBytes 4 w ++ leBytes 4 ((u.wing w).gen + 1))
      ∧ x.live = true ∧ x.gen = (u.wing w).gen + 1 ∧ x.sealed = decide (field p 1 1 = 1) ∧ x.base = field p 2 1 ∧ x.party = field p 4 2
      ∧ x.stage = orElse (field p 8 4) 1024 ∧ x.park = orElse (field p 12 4) 50 ∧ x.ticketLife = orElse (field p 16 4) 2000000
      ∧ x.tiles = field p 24 16 ∧ x.pcs = field p 40 64 ∧ x.slices = field p 104 32 ∧ x.ports = field p 136 8 ∧ x.loft = field p 144 2
      ∧ x.contexts = [] ∧ x.programs = [] ∧ x.running = none ∧ x.fenced = false ∧ otherWingsKept w u t
  | .wingResize h p =>
    let w := field p 0 1
    let m := field p 160 2
    committed c h u t (if m.testBit 4 then .resizePending else .ok) []
      ∧ (t.wing w).gen = (u.wing w).gen ∧ (t.wing w).tiles = (u.wing w).tiles ∧ (t.wing w).stage = (u.wing w).stage
      ∧ (t.wing w).change = (if m.testBit 4 then some { tiles := field p 24 16, forced := false } else (u.wing w).change)
      ∧ (t.wing w).nextStage = (if m.testBit 0 then orElse (field p 8 4) 1024 else (u.wing w).nextStage)
      ∧ (t.wing w).park = (if m.testBit 1 then orElse (field p 12 4) 50 else (u.wing w).park)
      ∧ (t.wing w).ticketLife = (if m.testBit 2 then orElse (field p 16 4) 2000000 else (u.wing w).ticketLife)
      ∧ (t.wing w).pcs = (if m.testBit 5 then field p 40 64 else (u.wing w).pcs)
      ∧ (t.wing w).slices = (if m.testBit 6 then field p 104 32 else (u.wing w).slices)
      ∧ (t.wing w).ports = (if m.testBit 7 then field p 136 8 else (u.wing w).ports)
      ∧ (t.wing w).loft = (if m.testBit 8 then field p 144 2 else (u.wing w).loft) ∧ otherWingsKept w u t
  | .wingRemove h p =>
    let w := field p 0 1
    accepted1 c h u t [] ∧ (t.wing w).removing = some (refOf h c.code) ∧ (t.wing w).wantSwitch = true ∧ (t.wing w).live = (u.wing w).live
      ∧ otherWingsKept w u t
  | .wingReassign h p =>
    let w := field p 0 1
    accepted1 c h u t [] ∧ (t.wing w).reassign = some (field p 2 2, refOf h c.code) ∧ (t.wing w).party = (u.wing w).party
      ∧ (∃ e, e ∈ t.tt.entries ∧ e.cls = TtClass.scrub ∧ e.wing = some w ∧ e.mp = nextBoundary (u.wing w) (h.stamp + 2)) ∧ otherWingsKept w u t
  | .wingStatus h p =>
    let w := field p 0 1
    let x := u.wing w
    let live := x.contexts.filter (fun c => c.2.live)
    answered c h u t (leBytes 1 (wingStatus u w) ++ leBytes 1 (if x.sealed then 1 else 0) ++ leBytes 2 (if x.sealed then x.party else 0xFFFF)
      ++ leBytes 1 x.base ++ leBytes 1 (live.filter (fun c => c.2.resident)).length ++ leBytes 2 live.length ++ leBytes 2 (popCount 128 x.tiles)
      ++ leBytes 2 (popCount 512 x.pcs) ++ leBytes 4 x.window.slots ++ counterSeen h x (·.denied) ++ counterSeen h x (·.bounds)
      ++ counterSeen h x (·.late) ++ counterSeen h x (·.swapsOut) ++ counterSeen h x (·.swapsIn) ++ counterSeen h x (·.swapBytes))
  | .stallRead h p =>
    let x := u.wing (field p 0 1)
    answered c h u t ((((stallList x.stall).take 15).zip ((stallList x.baseStall).take 15)).flatMap (fun q => leBytes 8 (seenBy h.fn q.1 q.2))
      ++ leBytes 4 x.stall.ahead ++ leBytes 4 x.stall.aheadLow)
  | .contextCreate h p =>
    let w := field p 0 1
    let n := field p 1 1
    let o := freeObjNumber u
    let x := t.ctx w n
    accepted1 c h u t (leBytes 4 n ++ leBytes 4 ((u.ctx w n).gen + 1) ++ leBytes 4 o ++ leBytes 4 ((u.obj o).gen + 1))
      ∧ x.live = true ∧ x.gen = (u.ctx w n).gen + 1 ∧ x.st = .out ∧ x.blocked = .idle ∧ x.resident = false ∧ x.saveObj = o
      ∧ x.region = field p 8 2 ∧ x.trackers = field p 10 1 ∧ x.accBudget = field p 12 4 ∧ x.slices = field p 32 32
      ∧ x.latency = decide (field p 2 1 = 1) ∧ x.runLen = orElse (field p 3 1) 1 ∧ x.queue = [] ∧ x.pass = none
      ∧ (t.obj o).live = true ∧ (t.obj o).kind = .save ∧ (t.obj o).wing = w ∧ (t.obj o).st = .moving
      ∧ (t.obj o).gen = (u.obj o).gen + 1 ∧ otherObjsKept o u t ∧ otherWingsKept w u t
  | .contextSet h p =>
    let x := u.ctx (field p 0 1) (field p 1 1)
    let y := t.ctx (field p 0 1) (field p 1 1)
    let m := field p 16 1
    committed c h u t .ok []
      ∧ y = { x with nextLatency := if m.testBit 0 then decide (field p 2 1 = 1) else x.nextLatency
                     nextRunLen := if m.testBit 1 then field p 3 1 else x.nextRunLen
                     nextIdleHint := if m.testBit 2 then field p 12 4 else x.nextIdleHint }
      ∧ otherWingsKept (field p 0 1) u t
  | .contextDestroy h p =>
    let w := field p 0 1
    let n := field p 1 1
    u.led.version + 1 ≤ t.led.version ∧ concluded c h u t .ok []
      ∧ (t.ctx w n).live = false ∧ (t.ctx w n).gen = (u.ctx w n).gen ∧ (t.obj (u.ctx w n).saveObj).live = false
      ∧ t.tickets.any (fun q => q.2.live && decide (q.2.wing = w ∧ q.2.context = n)) = false
      ∧ (∀ q, q ∈ (u.ctx w n).queue → q.ref ∉ t.led.longs)
  | .programLoad h p host =>
    let w := field p 0 1
    let update := decide (field p 1 1 = 1)
    ∃ b n, hostBytes u h.fn host = some b ∧ lowest 64 (fun i => !(tget (u.wing w).programs i).live) = some n
      ∧ committed c h u t .ok (leBytes 2 n ++ leBytes 6 0 ++ programDigest update (wordsOf b (field p 2 2)))
      ∧ tget (t.wing w).programs n =
          { live := true, update := update, words := wordsOf b (field p 2 2), digest := programDigest update (wordsOf b (field p 2 2)) }
      ∧ (∀ k, k ≠ n → tget (t.wing w).programs k = tget (u.wing w).programs k) ∧ otherWingsKept w u t
  | .programFree h p =>
    let w := field p 0 1
    committed c h u t .ok [] ∧ (tget (t.wing w).programs (field p 2 2)).live = false
      ∧ (∀ k, k ≠ field p 2 2 → tget (t.wing w).programs k = tget (u.wing w).programs k) ∧ otherWingsKept w u t
  | _ => True

end Sys2Proof.Safety
end

