-- ==== Sys2Proof/Safety/Errors.lean ====
section
/-! DEFINITION. Errors of the arrays, the memory tiers, the stores and the keys (chapters 3, 8, 14 and 16): when each event acts,
and what it leaves. -/

namespace Sys2Proof.Safety

open Sys2Proof Sys2Proof.Machine

/-- An object that an error can still lose: it lives and is neither DAMAGED nor ABSENT. -/
def whole (s : State) (o : Nat) : Bool := (s.obj o).live && !decide ((s.obj o).st = .damaged ∨ (s.obj o).st = .absent)

/-- When such an event has its effect. -/
def errorCompletes (i : Instr) (s : State) : Bool :=
  match i with
  | .arrayParityError p => decide (p < 136) && (s.tile p).active.isSome
  | .accEccError p _ => decide (p < 136) && !decide ((s.tile p).accs = [])
  | .hbmCorrectedError u _ => decide (u < 512)
  | .hbmUncorrectableError u _ _ => decide (u < 512)
  | .loftCorrectedError c _ => decide (c < 16)
  | .loftUncorrectableError c _ _ => decide (c < 16)
  | .loftChannelLoss c => decide (c < 16) && decide ((s.loft c).st = .inService ∨ (s.loft c).st = .evacuating)
  | .storeCorrectedError quarter u => decide (u < if quarter then 4 else 136)
  | .storeEccError quarter u _ _ => decide (u < if quarter then 4 else 136)
  | .secureStoreKeyError k => decide (k < 4107) && s.power.alwaysOn
  | _ => false

/-- An object that an error has lost: DAMAGED, or freed with the context that it ended. -/
def lost (t : State) (o : Nat) : Prop := (t.obj o).st = .damaged ∨ (t.obj o).live = false

/-- What an uncorrectable error in the memory tiers does to what it falls in (Table 8.8). -/
def placeHit (s t : State) (p : ErrPlace) : Prop :=
  match p with
  | .object o =>
    whole s o = true → noMovesWaiting s = true →
      lost t o ∧ (t.obj o).content = [] ∧ (t.obj o).gen = (s.obj o).gen
        ∧ (∀ ref, workRef (s.obj o).work = some ref → ref ∉ t.led.longs)
  | .room r =>
    (s.room r).st = .ready → (s.handle (s.room r).handle).load = none → (s.handle (s.room r).handle).st = .resident →
      (s.handle (s.room r).handle).room = r →
      (t.handle (s.room r).handle).st = .damaged ∧ (t.room r).st = .free ∧ (t.room r).gen = (s.room r).gen + 1
  | .image h =>
    (s.handle h).home.len ≠ 0 → (s.handle h).load = none → (t.handle h).st = .damaged
  | .region a => a / 64 ∈ t.link.poisoned
  | .moveDest o =>
    (s.obj o).live = true → (workDest (s.obj o).work).isSome = true → noMovesWaiting s = true →
      (t.obj o).place = (s.obj o).place ∧ (t.obj o).content = (s.obj o).content
        ∧ (∀ ref, workRef (s.obj o).work = some ref → ref ∉ t.led.longs)
  | .swap w c => (s.ctx w c).live = true → (t.ctx w c).live = false
  | .windowSlot w k =>
    ((s.wing w).window.ring[k]?).isSome = true → (t.wing w).stall.refetched = wrapAdd (s.wing w).stall.refetched 1
  | .empty => ∀ o, t.obj o = s.obj o

/-- What such an event leaves. -/
def errorDone (i : Instr) (s t : State) : Prop :=
  match i with
  | .arrayParityError p =>
    (t.tile p).parity = wrapAdd (s.tile p).parity 1 ∧ (∀ c x, (s.tile p).active = some c → x ∈ (t.tile p).terms → x.block ≠ c.block)
      ∧ (∀ w c, (s.tile p).owner = some (w, c) → (t.ctx w c).pass = none)
  | .accEccError p corrected =>
    (corrected = true → (t.tile p).corrected = wrapAdd (s.tile p).corrected 1 ∧ (t.tile p).accs = (s.tile p).accs
        ∧ (t.tile p).stopped = (s.tile p).stopped)
      ∧ (corrected = false → (t.tile p).uncorrected = wrapAdd (s.tile p).uncorrected 1 ∧ (t.tile p).accs = []
          ∧ (∀ w c, (s.tile p).owner = some (w, c) → (t.ctx w c).pass = none))
  | .hbmCorrectedError u _ =>
    (t.pc u).corrected = wrapAdd (s.pc u).corrected 1 ∧ (∀ v, v ≠ u → t.pc v = s.pc v)
      ∧ t = { s with led := { s.led with pcs := t.led.pcs }, keeper := t.keeper, fns := t.fns }
  | .hbmUncorrectableError u _ place =>
    (t.pc u).uncorrected = wrapAdd (s.pc u).uncorrected 1 ∧ (t.pc u).corrected = (s.pc u).corrected ∧ placeHit s t place
      ∧ ((s.pc u).uncorrectedAt.any (fun m => decide (s.clock.count < m + 1000000000)) = true → (s.pc u).retired = false →
          (t.pc u).retiring = true)
  | .loftCorrectedError c _ =>
    (t.loft c).corrected = wrapAdd (s.loft c).corrected 1 ∧ (∀ v, v ≠ c → t.loft v = s.loft v)
      ∧ t = { s with led := { s.led with lofts := t.led.lofts }, keeper := t.keeper, fns := t.fns }
  | .loftUncorrectableError c _ place =>
    (t.loft c).uncorrected = wrapAdd (s.loft c).uncorrected 1 ∧ (t.loft c).corrected = (s.loft c).corrected ∧ placeHit s t place
  | .loftChannelLoss c =>
    (t.loft c).st = .down ∧ (∀ ref, (s.loft c).ref = some ref → ref ∉ t.led.longs)
      ∧ (∀ o, noMovesWaiting s = true → whole s o = true → onLoft c (s.obj o).place = true → lost t o)
      ∧ (∀ a, a ∈ t.link.written → lineChannel a ≠ c)
  | .storeCorrectedError quarter u =>
    (quarter = true → (t.quarter u).corrected = wrapAdd (s.quarter u).corrected 1
        ∧ t = { s with quarters := t.quarters, keeper := t.keeper })
      ∧ (quarter = false → (t.tile u).corrected = wrapAdd (s.tile u).corrected 1 ∧ (t.tile u).store = (s.tile u).store
          ∧ t = { s with tiles := t.tiles, keeper := t.keeper, fns := t.fns })
  | .storeEccError quarter u _ reader =>
    (quarter = true → (t.quarter u).uncorrected = wrapAdd (s.quarter u).uncorrected 1)
      ∧ (quarter = false → (t.tile u).uncorrected = wrapAdd (s.tile u).uncorrected 1)
      ∧ (∀ w c, reader = some (w, c) → (s.ctx w c).live = true → (t.ctx w c).live = false)
  | .secureStoreKeyError k =>
    (k < 4 → tget t.secure.baseKeys k = none ∧ (t.base k).st ≠ .ready)
      ∧ (4 ≤ k → k < 4100 → tget t.secure.partyKeys (k - 4) = none)
      ∧ (k = 4100 → t.secure.loftKey = [] ∧ t.link.poisonAll = true ∧ t.link.written = [])
      ∧ (k = 4101 → t.secure.ak = none) ∧ (k = 4102 → t.secure.rk = none)
      ∧ (4103 ≤ k → tget t.secure.ideKeys (k - 4103) = [])
  | _ => True

end Sys2Proof.Safety
end

