-- ==== Sys2Proof/Safety/Frame.lean ====
section
/-! DEFINITION. What each family of rows leaves alone: the parts of the state, the families, and the parts a row may change. -/

namespace Sys2Proof.Safety

open Sys2Proof Sys2Proof.Machine

/-- The families of the table's rows. -/
inductive Family where
  | tvx | array | clock | entry | boundary | pass | move | shard | error | link | message | exchange | queue | timer | sessionCmd | wingCmd | passCmd | objectCmd | adapterCmd | cellarCmd | fabricCmd | securityCmd | serviceCmd | function | memory | tamper | mailbox | keeper | input | power | pin
  deriving DecidableEq, Repr

/-- The family of a row. -/
def familyOf (i : Instr) : Family :=
  match i with
  | .add .. | .sub .. | .mul .. | .fma .. | .min .. | .max .. | .abs .. | .neg .. | .sel .. | .exp2 .. | .log2 .. | .rcp .. | .sqrt ..
  | .rsqrt .. | .tanh .. | .cvt .. | .quant .. | .iadd .. | .iand .. | .ior .. | .ixor .. | .ishl .. | .ishr .. | .rand .. | .drop .. | .rtred ..
  | .rtout .. | .nop .. | .endProgram .. | .loop .. | .wait .. | .post .. | .tag .. | .sld .. | .cmp .. | .mset .. | .mand .. | .mor ..
  | .mxor .. | .mnot .. | .gseed .. | .rtz .. | .rtacc .. | .stream .. => .tvx
  | .arrayRow .. | .shadowLoad .. | .blockSwap .. | .accOpen .. | .promotion .. | .drain .. => .array
  | .mpclkEdge .. | .localMilepostEdge .. | .countAdopt .. | .mpclkLoss .. | .mpclkRequalify .. | .slewDone .. | .holdoverLimit ..
  | .timeUnsetReminder .. | .mpCountRead .. => .clock
  | .rollCall .. | .failover .. | .fenceEntry .. | .stageEnd .. | .scrub .. | .stageStart .. | .cellarSlot .. | .collective .. | .ticketExpiry ..
  | .digestSweep .. => .entry
  | .switchEdge .. | .parkThreshold .. | .swapOutStart .. | .swapInStart .. | .swapCommit .. | .wingRemoveDone .. | .scrubDone .. => .boundary
  | .updateJobStart .. | .updateSlice .. | .updateCommit .. | .passAdmit .. | .forwardPassEnd .. | .backwardPassEnd .. | .stepCommit ..
  | .passEnd .. => .pass
  | .pointArrival .. | .replacementCommit .. | .checkoutMoveCommit .. | .adapterReadDone .. | .objectMoveCommit .. | .objectFillDone ..
  | .objectTransferDone .. => .move
  | .shardFetch .. | .shardArrival .. | .shardProgramDone .. | .shardReadbackDone .. | .sweepReadDone .. | .shardEraseDone .. | .holderTimeout .. => .shard
  | .arrayParityError .. | .accEccError .. | .hbmCorrectedError .. | .hbmUncorrectableError .. | .loftCorrectedError ..
  | .loftUncorrectableError .. | .loftChannelLoss .. | .storeCorrectedError .. | .storeEccError .. | .secureStoreKeyError .. => .error
  | .trainingPhaseDone .. | .trainingPhaseOverrun .. | .trainingRetry .. | .hello .. | .laneLockLoss .. | .uncorrectableCodeword ..
  | .dataFrame .. | .retryFrame .. | .idleFrame .. | .ackTimeout .. | .linkRetrainDone .. | .relayTimeout .. => .link
  | .entry .. | .rollCallClose .. | .fabricParamsApply .. | .ringBlock .. | .ringDone .. | .remoteData .. | .remoteRead .. | .mirrorWrite ..
  | .mirrorAck .. | .mirrorAckTimeout .. => .message
  | .bcastData .. | .bcastAck .. | .reduceData .. | .collectiveCommit .. | .shardRequest .. | .shardData .. | .notHeld .. => .exchange
  | .cmdDoorbell .. | .replyHeadWrite .. | .noticeHeadWrite .. | .cmdWindowWrite .. | .replyWindowRead .. | .noticeWindowRead ..
  | .packetArrivalTimeout .. => .queue
  | .gapNoticeTimeout .. | .gapSkipTimeout .. | .leaseExpiry .. | .lapseHoldExpiry .. | .probationEnd .. => .timer
  | .noOp .. | .sessionOpen .. | .sessionResume .. | .sessionStatus .. | .sessionSet .. | .sessionClose .. | .functionStatus .. | .timeSeed ..
  | .timeRead .. => .sessionCmd
  | .wingCreate .. | .wingResize .. | .wingRemove .. | .wingReassign .. | .wingStatus .. | .stallRead .. | .contextCreate .. | .contextSet ..
  | .contextDestroy .. | .programLoad .. | .programFree .. => .wingCmd
  | .passTrain .. | .passServe .. | .serveOpen .. | .serveAppend .. | .serveClose .. | .updateRun .. | .watchRead .. | .watchSet ..
  | .watchReset .. | .detectorSet .. | .detectorRelease .. => .passCmd
  | .objectCreate .. | .objectMove .. | .objectResize .. | .objectFree .. | .objectStatus .. | .objectWrite .. | .objectRead .. | .windowSet .. => .objectCmd
  | .adapterLoad .. | .roomPin .. | .checkout .. | .adapterDelete .. | .adapterRead .. | .adapterStatus .. => .adapterCmd
  | .baseInstall .. | .installCancel .. | .baseRemove .. | .baseSelect .. | .sweepSet .. | .cellarStatus .. => .cellarCmd
  | .fabricSet .. | .collectiveSet .. | .collectivePost .. | .ringSet .. | .ringStatus .. | .fabricStatus .. | .portRetrain ..
  | .mirrorAreaSet .. => .fabricCmd
  | .passportGet .. | .keyRelease .. | .partyKeyLoad .. | .partyKeyRemove .. | .partyBind .. | .lifeCycleSet .. => .securityCmd
  | .faultLogRead .. | .tileMap .. | .pcRetire .. | .loftEvacuate .. | .wingFence .. | .firmwareHandover .. | .domainSet .. | .vfSet ..
  | .tallyRead .. | .tallyClose .. => .serviceCmd
  | .flr .. | .functionResetDone .. | .vfEnableSet .. | .vfEnableClear .. | .busMasterEnableSet .. | .busMasterEnableClear .. | .linkLoss ..
  | .linkUp .. | .hostCompletion .. | .fnCtrlApply .. | .ideIntegrityFailure .. => .function
  | .configRequest .. | .atsInvalidate .. | .decoderCommit .. | .decoderUncommit .. | .cxlMemRead .. | .cxlMemWrite .. | .lowHalfRead ..
  | .registerWrite .. | .snoop .. => .memory
  | .meshBreak .. | .supplyExcursion .. | .clockExcursion .. | .thermalExcursion .. | .tamperIn .. | .porterKeeperReset .. | .porterSecureWipe ..
  | .porterWingFence .. | .porterPowerOff .. => .tamper
  | .passportRequest .. | .ideKeys .. | .debugUnlock .. | .doeDiscovery .. | .doeAbort .. | .akRedrawDone .. => .mailbox
  | .counterSnapshot .. | .journalWrite .. | .journalWriteDone .. | .watchdogExpiry .. | .keeperCacheError .. | .keeperRestartDone ..
  | .keeperMemoryError .. | .handoverTakeover .. | .handoverTimeout .. | .imageStoreWrite .. | .spareSwitch .. | .pcRetireDone ..
  | .loftEvacuateDone .. | .loftReturnDone .. => .keeper
  | .perstNAssert .. | .perstNDeassert .. | .pfailNAssert .. | .vinRiseAlwaysOn .. | .alwaysOnUp .. | .vinFallAlwaysOff .. | .vinGood ..
  | .vinHigh .. | .vinOver .. | .vinLow .. | .vinLowNoWarn .. | .vinBelowHoldup .. | .voltageRecordRepeat .. => .input
  | .domainPowerGood .. | .powerGoodTimeout .. | .domainSequenceDone .. | .dozeRequest .. | .dozeWake .. | .wakeAlarm .. | .bootStepDone ..
  | .bootStepOverrun .. | .retryWaitEnd .. => .power
  | .thermalWarningCross .. | .thermalWarningClear .. | .thermalTrip .. | .sensorFault .. | .i3cSetdasa .. | .i3cEntdaa .. | .i3cRstdaa ..
  | .i3cGetstatus .. | .jtagBypass .. | .jtagIdcode .. | .jtagExtest .. | .jtagSample .. | .jtagPreload .. | .jtagDebug .. => .pin

/-- The parts of the state: each field of State but the queue, with the ledger's own fields one by one. -/
inductive Component where
  | clock | tt | durable | writing | fns | wingPages | stamped | tickets | tiles | quarters | qmem | updEngines | jobs | runs | cellar | ports
  | fabric | secure | keeper | power | porter | snapshot | mgmt | link | free | version | sessions | longs | wings | objects | rooms | handles
  | tileMap | pcs | lofts | rings | groups | binds | faultMap | maps | tilesOff | domainsOff | fab | tally | sweep
  deriving DecidableEq, Repr

/-- A part is the same in two states. -/
def Component.same (c : Component) (s t : State) : Prop :=
  match c with
  | .clock => t.clock = s.clock
  | .tt => t.tt = s.tt
  | .durable => t.durable = s.durable
  | .writing => t.writing = s.writing
  | .fns => t.fns = s.fns
  | .wingPages => t.wingPages = s.wingPages
  | .stamped => t.stamped = s.stamped
  | .tickets => t.tickets = s.tickets
  | .tiles => t.tiles = s.tiles
  | .quarters => t.quarters = s.quarters
  | .qmem => t.qmem = s.qmem
  | .updEngines => t.updEngines = s.updEngines
  | .jobs => t.jobs = s.jobs
  | .runs => t.runs = s.runs
  | .cellar => t.cellar = s.cellar
  | .ports => t.ports = s.ports
  | .fabric => t.fabric = s.fabric
  | .secure => t.secure = s.secure
  | .keeper => t.keeper = s.keeper
  | .power => t.power = s.power
  | .porter => t.porter = s.porter
  | .snapshot => t.snapshot = s.snapshot
  | .mgmt => t.mgmt = s.mgmt
  | .link => t.link = s.link
  | .free => t.free = s.free
  | .version => t.led.version = s.led.version
  | .sessions => t.led.sessions = s.led.sessions
  | .longs => t.led.longs = s.led.longs
  | .wings => t.led.wings = s.led.wings
  | .objects => t.led.objects = s.led.objects
  | .rooms => t.led.rooms = s.led.rooms
  | .handles => t.led.handles = s.led.handles
  | .tileMap => t.led.tileMap = s.led.tileMap
  | .pcs => t.led.pcs = s.led.pcs
  | .lofts => t.led.lofts = s.led.lofts
  | .rings => t.led.rings = s.led.rings
  | .groups => t.led.groups = s.led.groups
  | .binds => t.led.binds = s.led.binds
  | .faultMap => t.led.faultMap = s.led.faultMap
  | .maps => t.led.maps = s.led.maps
  | .tilesOff => t.led.tilesOff = s.led.tilesOff
  | .domainsOff => t.led.domainsOff = s.led.domainsOff
  | .fab => t.led.fab = s.led.fab
  | .tally => t.led.tally = s.led.tally
  | .sweep => t.led.sweep = s.led.sweep

/-- The rows at which the main domains, the module or its ledger may start again (R438, R445, R462, R464, R469, Table 17.11): they may change
any part. -/
def restarts (i : Instr) : Bool :=
  match i with
  | .thermalTrip .. | .sensorFault .. | .vinOver .. | .vinLowNoWarn .. | .vinBelowHoldup .. | .perstNAssert .. | .pfailNAssert ..
  | .porterPowerOff .. | .vinFallAlwaysOff .. | .bootStepDone .. | .bootStepOverrun .. | .powerGoodTimeout .. | .handoverTimeout ..
  | .keeperRestartDone .. | .lifeCycleSet .. | .keeperMemoryError .. => true
  | _ => false

/-- The parts that a family's rows may change, but for the rows that `mayChange` names. -/
def familyParts (f : Family) : List Component :=
  match f with
  | .tvx => [.fns, .tickets, .tiles, .keeper, .version, .sessions, .longs, .wings, .objects, .rooms, .tally]
  | .array => [.fns, .tickets, .tiles, .keeper, .version, .sessions, .longs, .wings, .objects, .rooms, .tally]
  | .clock =>
    [.clock, .tt, .fns, .wingPages, .stamped, .tickets, .tiles, .fabric, .keeper, .free, .version, .sessions, .longs, .wings, .objects, .rooms,
    .rings, .groups, .tally]
  | .entry =>
    [.tt, .fns, .tickets, .tiles, .cellar, .ports, .fabric, .keeper, .version, .sessions, .longs, .wings, .objects, .rooms, .rings, .groups,
    .tally]
  | .boundary => [.tt, .fns, .tickets, .tiles, .qmem, .keeper, .version, .sessions, .longs, .wings, .objects, .rooms, .handles, .tally]
  | .pass =>
    [.tt, .fns, .tiles, .quarters, .jobs, .runs, .keeper, .free, .version, .sessions, .longs, .wings, .objects, .rooms, .handles, .rings, .tally
   ]
  | .move => [.tt, .fns, .keeper, .version, .sessions, .longs, .wings, .objects, .rooms, .handles, .tally]
  | .shard => [.fns, .tiles, .cellar, .ports, .keeper, .version, .sessions, .longs, .wings, .objects, .rooms, .tally]
  | .error =>
    [.tt, .fns, .tickets, .tiles, .quarters, .jobs, .runs, .secure, .keeper, .link, .version, .sessions, .longs, .wings, .objects, .rooms,
    .handles, .pcs, .lofts, .rings, .tally]
  | .link => [.fns, .ports, .fabric, .keeper, .version, .sessions, .longs]
  | .message =>
    [.clock, .tt, .fns, .tickets, .tiles, .qmem, .cellar, .ports, .fabric, .keeper, .version, .sessions, .longs, .wings, .objects, .rooms,
    .rings, .groups, .fab, .tally]
  | .exchange => [.fns, .tickets, .tiles, .cellar, .ports, .fabric, .keeper, .version, .sessions, .longs, .wings, .objects, .rooms, .groups, .tally]
  | .queue => [.fns, .stamped, .keeper, .mgmt, .sessions]
  | .timer => [.fns, .stamped, .keeper, .sessions]
  | .sessionCmd => [.clock, .fns, .stamped, .keeper, .version, .sessions, .longs]
  | .wingCmd => [.tt, .fns, .stamped, .tiles, .keeper, .version, .sessions, .longs, .wings, .objects]
  | .passCmd => [.fns, .stamped, .keeper, .version, .sessions, .longs, .wings, .objects, .handles]
  | .objectCmd => [.fns, .stamped, .secure, .keeper, .version, .sessions, .longs, .wings, .objects, .rooms, .handles]
  | .adapterCmd => [.fns, .stamped, .keeper, .version, .sessions, .longs, .wings, .objects, .rooms, .handles]
  | .cellarCmd => [.fns, .stamped, .cellar, .secure, .keeper, .version, .sessions, .longs, .wings, .sweep]
  | .fabricCmd => [.tt, .fns, .stamped, .ports, .fabric, .keeper, .version, .sessions, .longs, .lofts, .groups, .fab]
  | .securityCmd => [.fns, .stamped, .cellar, .secure, .keeper, .version, .sessions, .longs, .binds]
  | .serviceCmd => [.fns, .stamped, .keeper, .version, .sessions, .longs, .tally]
  | .function => [.fns, .cellar, .secure, .keeper, .link, .free, .version, .sessions, .longs, .wings, .objects, .rooms, .handles, .binds]
  | .memory => [.fns, .keeper, .porter, .snapshot, .mgmt, .link, .version, .lofts]
  | .tamper =>
    [.tt, .fns, .tickets, .tiles, .jobs, .runs, .cellar, .secure, .keeper, .porter, .link, .free, .version, .sessions, .longs, .wings, .objects,
    .rooms, .handles, .rings, .binds, .tally]
  | .mailbox => [.secure, .link]
  | .keeper => [.durable, .writing, .fns, .secure, .keeper, .power, .mgmt, .version, .sessions, .longs, .lofts]
  | .input => [.clock, .ports, .keeper, .power, .mgmt]
  | .power => [.ports, .keeper, .power]
  | .pin => [.mgmt, .free]

/-- The parts that a row may change. -/
def mayChange (i : Instr) : List Component :=
  match i with
  | .mpCountRead .. => [.snapshot, .mgmt]
  | .fenceEntry .. => [.tt, .fns, .tickets, .tiles, .secure, .keeper, .porter, .free, .version, .sessions, .longs, .wings, .objects, .rooms, .handles]
  | .scrub .. => [.tt, .tiles, .qmem, .ports, .wings, .objects, .handles]
  | .scrubDone .. =>
    [.tt, .fns, .tiles, .secure, .keeper, .version, .sessions, .longs, .wings, .objects, .rooms, .handles, .tileMap, .lofts, .faultMap, .maps]
  | .backwardPassEnd .. => [.fns, .tickets, .jobs, .ports, .keeper, .wings, .groups]
  | .objectMoveCommit .. => [.fns, .ports, .secure, .keeper, .version, .sessions, .longs, .objects, .rooms, .handles, .rings, .tally]
  | .arrayParityError .. => [.fns, .tiles, .keeper, .version, .sessions, .longs, .wings, .objects, .rooms, .tileMap, .faultMap, .maps, .tally]
  | .secureStoreKeyError .. =>
    [.fns, .cellar, .secure, .keeper, .link, .free, .version, .sessions, .longs, .wings, .objects, .rooms, .handles, .binds]
  | .contextDestroy .. => [.fns, .stamped, .tickets, .tiles, .keeper, .version, .sessions, .longs, .wings, .objects, .rooms, .tally]
  | .updateRun .. => [.fns, .stamped, .jobs, .runs, .keeper, .version, .sessions, .longs, .objects]
  | .baseInstall .. => [.fns, .stamped, .tiles, .cellar, .ports, .keeper, .version, .sessions, .longs, .wings, .objects, .rooms, .tally]
  | .ringSet .. => [.fns, .stamped, .ports, .keeper, .version, .sessions, .longs, .objects, .rings]
  | .partyKeyRemove .. => [.fns, .stamped, .secure, .keeper, .version, .sessions, .longs, .wings, .objects, .rooms, .handles]
  | .tileMap .. => [.fns, .stamped, .tiles, .keeper, .version, .sessions, .longs, .wings, .tileMap, .faultMap, .maps]
  | .loftEvacuate .. => [.fns, .stamped, .secure, .keeper, .version, .sessions, .longs, .objects, .rooms, .handles, .lofts, .rings]
  | .wingFence .. => [.tt, .fns, .stamped, .ports, .keeper, .version, .sessions, .longs, .wings]
  | .domainSet .. => [.fns, .stamped, .tiles, .keeper, .power, .version, .sessions, .longs]
  | .vfSet .. => [.fns, .stamped, .cellar, .secure, .keeper, .free, .version, .sessions, .longs, .wings, .objects, .rooms, .handles]
  | .pcRetire .. => [.fns, .stamped, .secure, .keeper, .version, .sessions, .longs, .wings, .objects, .rooms, .handles, .pcs]
  | .porterKeeperReset .. => [.writing, .secure, .keeper, .power, .porter, .mgmt, .sessions]
  | .akRedrawDone .. => [.fns, .secure, .link, .free]
  | .handoverTakeover .. =>
    [.tt, .durable, .writing, .fns, .tickets, .tiles, .fabric, .secure, .keeper, .power, .mgmt, .version, .sessions, .longs, .wings, .objects,
    .rooms, .handles, .tileMap, .rings, .groups, .faultMap, .maps, .tilesOff, .domainsOff, .tally]
  | .spareSwitch .. => [.fns, .tickets, .tiles, .keeper, .version, .sessions, .longs, .wings, .objects, .rooms, .tileMap, .faultMap, .maps, .tally]
  | .pcRetireDone .. => [.fns, .keeper, .version, .sessions, .longs, .wings, .pcs]
  | .domainSequenceDone .. =>
    [.fns, .tiles, .qmem, .updEngines, .cellar, .ports, .fabric, .keeper, .power, .version, .sessions, .longs, .tilesOff, .domainsOff]
  | .thermalWarningCross .. => [.fns, .keeper, .mgmt]
  | i => familyParts (familyOf i)

/-- A step of a row leaves every part that it may not change. -/
def keepsRest (i : Instr) (s t : State) : Prop := ∀ c, c ∉ mayChange i → c.same s t

end Sys2Proof.Safety
end

