-- ==== Sys2Proof/Safety/HostPort.lean ====
section
/-! DEFINITION. The host port (chapter 14): when each event of a function, of the link, of the decoders and of a register acts, and
what it leaves. -/

namespace Sys2Proof.Safety

open Sys2Proof Sys2Proof.Machine

/-- A function that a reset reaches: it is ENABLED or DISABLED (Table 14.3). -/
def resettable (s : State) (fn : Nat) : Bool := decide ((s.fn fn).st = .enabled ∨ (s.fn fn).st = .disabled)

/-- The function table is in its canonical form. -/
def fnsTidy (s : State) : Bool := twf Fn.blank s.fns

/-- The failed access of Table 14.4 has work that needs it: a ring of a function in ring mode, or an object's work. -/
def accessNeeded (s : State) (fn : Nat) (a : HostAccess) : Bool :=
  match a with
  | .ringRead => !(s.fn fn).window
  | .replyWrite => !(s.fn fn).window
  | .noticeWrite => !(s.fn fn).window
  | .objectWrite i => worksFor fn (s.obj i) && inTransfer (s.obj i).work
  | .objectRead i => worksFor fn (s.obj i) && inTransfer (s.obj i).work
  | .objectMove i => worksFor fn (s.obj i) && !inTransfer (s.obj i).work
  | .objectCreate i => worksFor fn (s.obj i) && !inTransfer (s.obj i).work
  | .adapterRead i => (s.handle i).reading.any (fun r => decide (r.fn = fn))
  | .adapterLoad r => (roomLoad s r).any (fun l => decide (l.room = r) && !l.fromLoft && !l.reload && decide (loadFn (s.handle (s.room r).handle) l = fn))
  | .reload r => (roomLoad s r).any (fun l => decide (l.room = r) && !l.fromLoft && l.reload && decide (loadFn (s.handle (s.room r).handle) l = fn))
  | .baseInstall b => installsFrom fn (s.base b)
  | .firmware => false
  | .translation _ => false

/-- A naturally aligned write that BAR0 takes (R382). -/
def barWrite (s : State) (off width : Nat) : Bool :=
  s.link.up && mainOn s && decide (width = 4 ∨ width = 8) && decide (off % width = 0)

/-- When such an event has its effect. -/
def hostCompletes (i : Instr) (s : State) : Bool :=
  match i with
  | .configRequest fn _ => decide (fn < 256)
  | .flr fn => decide (fn < 256) && mainOn s && resettable s fn
  | .functionResetDone fn => decide (fn < 256) && decide ((s.fn fn).st = .resetting) && (s.fn fn).vfQueue.isNone
  | .vfEnableSet n => !s.link.vfEnable && s.link.up && !s.power.minimal && decide (2 ≤ s.power.bootStep) && decide (n < 256)
  | .vfEnableClear => s.link.vfEnable && fnsTidy s
  | .busMasterEnableSet fn => decide (fn < 256) && !decide ((s.fn fn).st = .absent)
  | .busMasterEnableClear fn => decide (fn < 256) && !decide ((s.fn fn).st = .absent) && (s.fn fn).bme
  | .linkLoss => s.link.up && fnsTidy s
  | .linkUp width rate _ _ =>
    !s.link.up && mainOn s && decide (width = 4 ∨ width = 8 ∨ width = 16) && decide (rate = 8 ∨ rate = 16 ∨ rate = 32)
  | .hostCompletion fn gen ok a =>
    decide (fn < 256) && (decide (gen < (s.fn fn).gen) || (decide (gen = (s.fn fn).gen) && (ok || accessNeeded s fn a)))
  | .atsInvalidate fn _ => decide (fn < 256)
  | .fnCtrlApply fn value => decide (fn < 256) && takesWrites s fn && value.testBit 1
  | .decoderCommit d _ _ _ => decide (d < 2) && s.link.up && !(s.decoder d).committed
  | .decoderUncommit d => decide (d < 2) && (s.decoder d).committed && !(s.decoder d).locked
  | .cxlMemRead addr => s.link.up && s.link.mem && (regionOffset s addr).isSome
  | .cxlMemWrite addr data => s.link.up && s.link.mem && decide (addr % 64 = 0 ∧ data.length = 64) && (regionOffset s addr).isSome
  | .ideIntegrityFailure k => decide (k < 4) && (if k = 0 then s.secure.ideIo else s.secure.ideCm) && s.link.up && fnsTidy s
  | .lowHalfRead fn off => decide (fn < 256) && s.link.up && mainOn s && (wideRegister s fn off).isSome
  | .registerWrite space fn off width _ =>
    decide (fn < 256) &&
      (match space with
       | .i3c => s.power.alwaysOn && decide (off = 0x0C ∧ width = 4)
       | .bar0 => barWrite s off width)
  | .snoop _ => s.link.up && s.link.cache
  | _ => false

/-- A function reset or made absent (R373): no host access is allowed any more, words not stamped are gone, the function block is
at its reset values, its counters stand, and its host sessions have lapsed. -/
def functionReset (s t : State) (fn : Nat) (to_ : FnSt) : Prop :=
  (t.fn fn).st = to_ ∧ (t.fn fn).gen = leavingGen (s.fn fn) ∧ (t.fn fn).bme = false ∧ (t.fn fn).ats = false
    ∧ (t.fn fn).words = [] ∧ (t.fn fn).part = [] ∧ (t.fn fn).cmdProd = 0 ∧ (t.fn fn).cmdHead = 0
    ∧ (t.fn fn).counters = (s.fn fn).counters ∧ (t.fn fn).stale = (s.fn fn).stale
    ∧ ∀ n, n < 16 →
        let x := s.sess (sessKey fn n)
        let y := t.sess (sessKey fn n)
        if x.st = .opened ∨ x.st = .probation then y.st = .lapsed ∧ y.held = [] ∧ y.lapsedAt = s.clock.count
        else y.st = x.st

/-- The commands behind the objects' work for a function have ended (R372, Table 14.4). -/
def hostWorkEnded (s t : State) (fn : Nat) : Prop :=
  ∀ o, worksFor fn (s.obj o) = true → ∀ ref, workRef (s.obj o).work = some ref → ref ∉ t.led.longs

/-- A failed ring access: the queue stops until the next valid APPLY, and words not yet stamped are gone (R380). -/
def ringFailed (s t : State) (fn : Nat) : Prop :=
  (t.fn fn).stopped = true ∧ (t.fn fn).faulted = true ∧ (t.fn fn).words = [] ∧ (t.fn fn).replyWait = []
    ∧ t = { s with fns := t.fns, keeper := t.keeper }

/-- What a failed access does to the work that needed it (Table 14.4). -/
def accessFailed (s t : State) (fn : Nat) (a : HostAccess) : Prop :=
  match a with
  | .ringRead => ringFailed s t fn
  | .replyWrite => ringFailed s t fn
  | .noticeWrite => ringFailed s t fn
  | .objectWrite o => ∀ ref, workRef (s.obj o).work = some ref → ref ∉ t.led.longs
  | .objectRead o => ∀ ref, workRef (s.obj o).work = some ref → ref ∉ t.led.longs
  | .objectMove o => ∀ ref, workRef (s.obj o).work = some ref → ref ∉ t.led.longs
  | .objectCreate o => ∀ ref, workRef (s.obj o).work = some ref → ref ∉ t.led.longs
  | .adapterRead h => ∀ r ∈ (s.handle h).reading, r.fn = fn → r ∉ t.led.longs ∧ r ∉ (t.handle h).reading
  | .adapterLoad r => (t.room r).st = .free ∧ (t.room r).gen = (s.room r).gen + 1
  | .reload r => (t.handle (s.room r).handle).load = none
  | .baseInstall b => (t.base b).install = none ∧ (t.base b).st = (s.base b).st
  | .firmware => t = s
  | .translation _ => t = s

/-- What a completion without error leaves: a translation enters the cache of a function whose ATS is enabled (R375), and
displaces one of 4,096 where the cache is full; any other has its effect with the work that needed it. -/
def completed (s t : State) (fn : Nat) (a : HostAccess) : Prop :=
  match a with
  | .translation page =>
    if (s.fn fn).ats = true then
      page ∈ (t.fn fn).atc ∧ (∀ q ∈ (t.fn fn).atc, q = page ∨ q ∈ (s.fn fn).atc)
        ∧ ((s.fn fn).atc.length < 4096 → ∀ q ∈ (s.fn fn).atc, q ∈ (t.fn fn).atc)
        ∧ t = { s with fns := t.fns, free := t.free }
    else t = s
  | _ => t = s

/-- Every virtual function is ABSENT, VF Enable is clear, and no party is bound to one that was present (R374, R378). -/
def vfsGone (s t : State) : Prop :=
  t.link.vfEnable = false ∧ (∀ fn, fn ≠ 0 → (t.fn fn).st = .absent)
    ∧ ∀ p fn, fn ≠ 0 → (s.fn fn).st ≠ .absent → tget t.led.binds p ≠ some fn

/-- What the loss of the link leaves: as an FLR of VF0, with CXL's protocols gone and IDE out of the secure state (R367, R390). -/
def linkGone (s t : State) : Prop :=
  t.link.up = false ∧ t.link.cache = false ∧ t.link.mem = false ∧ t.link.numVfs = 0 ∧ t.secure.ideIo = false ∧ t.secure.ideCm = false
    ∧ vfsGone s t ∧ (resettable s 0 = true → functionReset s t 0 .resetting) ∧ t.clock = s.clock ∧ t.power = s.power

/-- The state a function returns to from a reset (R362, R373). -/
def returnsTo (f : Fn) : FnSt :=
  match f.vfRun with
  | some q => (match q.act with
    | .disable => .disabled
    | .enable => .enabled
    | .reset => f.before)
  | none => f.before

/-- What a 4-byte or 8-byte write to BAR0 leaves in the registers that plain writes reach (R382, Tables 14.6, 14.10 and 14.13). -/
def barWritten (s t : State) (fn off width v : Nat) : Prop :=
  let b := blockBase fn
  t = { s with fns := t.fns, mgmt := t.mgmt, porter := t.porter }
    ∧ (takesWrites s fn = true → width = 4 → off = b → v.testBit 1 = false → (t.fn fn).modeReg = v.testBit 0 ∧ (t.fn fn).window = (s.fn fn).window)
    ∧ (takesWrites s fn = true → width = 4 → off = b + 0x0C → (t.fn fn).ringSizes = v % 2 ^ 32 &&& 0x001F1F1F)
    ∧ (takesWrites s fn = true → width = 8 → off = b + 0x10 → (t.fn fn).cmdBase = v % 2 ^ 64 / 4096 * 4096)
    ∧ (takesWrites s fn = true → width = 8 → off = b + 0x18 → (t.fn fn).replyBase = v % 2 ^ 64 / 4096 * 4096)
    ∧ (takesWrites s fn = true → width = 8 → off = b + 0x20 → (t.fn fn).noticeBase = v % 2 ^ 64 / 4096 * 4096)
    ∧ (takesWrites s fn = true → width = 4 → b + 0x800 ≤ off → off < b + 0x820 →
        mload (t.fn fn).msix (off - b - 0x800) 4 = leBytes 4 (v % 2 ^ 32))
    ∧ (takesWrites s fn = false → t.fns = s.fns)
    ∧ (fn = 0 → width = 4 → off = 0x1040 → t = { s with mgmt := { s.mgmt with flogIndex := v % 2 ^ 32 } })
    ∧ (fn = 0 → width = 4 → off = 0x1020 → bits (v % 2 ^ 32) 16 16 = 0x51A7 → inRange (v % 2 ^ 32 % 256) 1 4 = false →
        t = { s with porter := { s.porter with lastOp := v % 2 ^ 32 % 256, result := 2 } })

/-- The poison answer to a CXL.mem read. -/
def readPoison (t : State) : Prop := t.link.poison = true ∧ t.mgmt.lastRead = []

/-- What such an event leaves. -/
def hostDone (i : Instr) (s t : State) : Prop :=
  match i with
  | .configRequest fn ats =>
    t = { s with link := { s.link with cfgAnswer := t.link.cfgAnswer }, fns := t.fns }
      ∧ (match ats with
        | some b =>
          if t.link.cfgAnswer = 2 then
            t.fns = (s.modFn fn (fun f => { f with ats := b, atc := if b = true ∧ f.ats = false then [] else f.atc })).fns
          else t.fns = s.fns
        | none => t.fns = s.fns)
      ∧ ((s.link.up = false ∨ mainOn s = false) → t.link.cfgAnswer = 0)
      ∧ (s.link.up = true → mainOn s = true → s.power.bootStep < 2 → s.power.minimal = false → t.link.cfgAnswer = 1)
      ∧ (s.link.up = true → mainOn s = true → (2 ≤ s.power.bootStep ∨ s.power.minimal = true) →
          t.link.cfgAnswer = if fn = 0 ∨ (s.fn fn).st ≠ .absent then 2 else 3)
  | .flr fn =>
    functionReset s t fn .resetting ∧ (fn ≠ 0 → hostWorkEnded s t fn) ∧ (fn = 0 → fnsTidy s = true → vfsGone s t)
      ∧ t.clock = s.clock ∧ t.power = s.power ∧ t.link.up = s.link.up
  | .functionResetDone fn =>
    (t.fn fn).st = returnsTo (s.fn fn) ∧ (t.fn fn).gen = (s.fn fn).gen ∧ (t.fn fn).vfRun = none
      ∧ (∀ q, (s.fn fn).vfRun = some q → q.ref ∉ t.led.longs)
      ∧ t = { s with led := { s.led with sessions := t.led.sessions, longs := t.led.longs, version := t.led.version }, fns := t.fns, keeper := t.keeper }
  | .vfEnableSet n =>
    t.link = { s.link with vfEnable := true, numVfs := n } ∧ (∀ fn, 1 ≤ fn → fn ≤ n → (t.fn fn).st = .disabled)
      ∧ t = { s with link := t.link, fns := t.fns, keeper := t.keeper }
  | .vfEnableClear => vfsGone s t ∧ (t.fn 0).st = (s.fn 0).st ∧ (t.fn 0).gen = (s.fn 0).gen ∧ t.clock = s.clock ∧ t.power = s.power
  | .busMasterEnableSet fn => t = s.setFn fn { (s.fn fn) with bme := true }
  | .busMasterEnableClear fn =>
    (t.fn fn).bme = false ∧ (t.fn fn).gen = ((s.fn fn).gen + 1) % 2 ^ 32 ∧ (t.fn fn).st = (s.fn fn).st ∧ hostWorkEnded s t fn
      ∧ ((s.fn fn).st = .enabled → (s.fn fn).window = false → (t.fn fn).stopped = true ∧ (t.fn fn).faulted = true ∧ (t.fn fn).words = [])
      ∧ t.clock = s.clock ∧ t.power = s.power ∧ t.link = s.link
  | .linkLoss => linkGone s t
  | .linkUp width rate cache mem =>
    t = { s with link := { s.link with up := true, width := width, rate := rate, cache := cache && !s.power.minimal, mem := mem && !s.power.minimal } }
  | .hostCompletion fn gen ok a =>
    (gen < (s.fn fn).gen →
        (t.fn fn).stale = wrapAdd (s.fn fn).stale 1 ∧ t.link.staleTotal = wrapAdd s.link.staleTotal 1
          ∧ t = { s with fns := t.fns, link := { s.link with staleTotal := t.link.staleTotal } })
      ∧ (gen = (s.fn fn).gen → ok = true → completed s t fn a)
      ∧ (gen = (s.fn fn).gen → ok = false → accessFailed s t fn a)
  | .atsInvalidate fn page =>
    page ∉ (t.fn fn).atc ∧ (∀ q, q ≠ page → (q ∈ (t.fn fn).atc ↔ q ∈ (s.fn fn).atc))
      ∧ t = s.setFn fn { (s.fn fn) with atc := (t.fn fn).atc }
  | .fnCtrlApply fn value =>
    let f := t.fn fn
    let window := value.testBit 0
    f.modeReg = window ∧ t = { s with fns := t.fns }
      ∧ (if window = true ∨ ringsValid s (s.fn fn) = true then
          f.window = window ∧ f.cfgBad = false ∧ f.stopped = false ∧ f.faulted = false ∧ f.words = [] ∧ f.cmdProd = 0 ∧ f.cmdHead = 0
            ∧ f.replyTail = 0 ∧ f.replyHead = 0 ∧ f.noticeTail = 0 ∧ f.noticeHead = 0
            ∧ (window = false → f.cmdLog = bits (s.fn fn).ringSizes 0 5 ∧ f.replyLog = bits (s.fn fn).ringSizes 8 5
                ∧ f.noticeLog = bits (s.fn fn).ringSizes 16 5)
        else f.cfgBad = true ∧ f.window = (s.fn fn).window ∧ f.cmdHead = (s.fn fn).cmdHead ∧ f.stopped = (s.fn fn).stopped)
  | .decoderCommit d base size lock =>
    (∀ e, e ≠ d → t.decoder e = s.decoder e)
      ∧ (if commitOk s d base size = true then
          t.decoder d = { (s.decoder d) with base := base, size := size, committed := true, error := false, locked := lock }
            ∧ (s.keeper.up = true → t.led.version = s.led.version + 1)
        else t.decoder d = { (s.decoder d) with base := base, size := size, error := true } ∧ t.led = s.led)
      ∧ t = { s with led := { s.led with version := t.led.version }, keeper := t.keeper, link := { s.link with decoders := t.link.decoders } }
  | .decoderUncommit d =>
    let a := regionStart s d
    let n := (s.decoder d).size
    (t.decoder d).committed = false ∧ (∀ e, e ≠ d → t.decoder e = s.decoder e)
      ∧ (∀ l, a ≤ l * 64 → l * 64 < a + n → l ∉ t.link.written ∧ l ∉ t.link.poisoned)
      ∧ (∀ b, a ≤ b → b < a + n → mread t.link.region b = 0) ∧ (∀ b, b < a ∨ a + n ≤ b → mread t.link.region b = mread s.link.region b)
  | .cxlMemRead addr =>
    ∀ o, regionOffset s addr = some o →
      if lineDown s (o / 64) = true then readPoison t ∧ (t.loft (lineChannel (o / 64))).downNoticed = true
      else
        t = { s with mgmt := t.mgmt, link := { s.link with poison := t.link.poison } }
          ∧ (if o / 64 ∈ s.link.poisoned ∨ (s.link.poisonAll = true ∧ o / 64 ∉ s.link.written) then readPoison t
            else t.link.poison = false ∧ (o / 64 ∈ s.link.written → t.mgmt.lastRead = mload s.link.region (o / 64 * 64) 64))
  | .cxlMemWrite addr data =>
    ∀ o, regionOffset s addr = some o →
      if lineDown s (o / 64) = true then
        t.link = s.link ∧ (t.loft (lineChannel (o / 64))).downNoticed = true
          ∧ t = { s with led := { s.led with lofts := t.led.lofts }, fns := t.fns, keeper := t.keeper }
      else
        mload t.link.region o 64 = data ∧ o / 64 ∈ t.link.written ∧ o / 64 ∉ t.link.poisoned
          ∧ (∀ b, b < o ∨ o + 64 ≤ b → mread t.link.region b = mread s.link.region b) ∧ t = { s with link := t.link }
  | .ideIntegrityFailure k => k ∈ t.link.ideError ∧ linkGone s t
  | .lowHalfRead fn off =>
    (∀ v, wideRegister s fn off = some v → t.mgmt.lastRead = leBytes 4 v ∧ (t.fn fn).latch = some (off, v / 2 ^ 32, s.clock.count))
      ∧ t = { s with fns := t.fns, mgmt := t.mgmt, snapshot := t.snapshot }
  | .registerWrite space fn off width v =>
    match space with
    | .i3c => t = { s with mgmt := { s.mgmt with ibiEnable := v % 8 } }
    | .bar0 => barWritten s t fn off width v
  | .snoop addr => t = { s with link := { s.link with snoop := some addr } }
  | _ => True

end Sys2Proof.Safety
end

