-- ==== Sys2Proof/Safety/Security.lean ====
section
/-! DEFINITION. Security (chapter 15): when each tamper event, each message of the DOE mailbox, each operation of the Porter and the
redrawing of the keys acts, and what it leaves. -/

namespace Sys2Proof.Safety

open Sys2Proof Sys2Proof.Machine

/-- The Porter takes an operation: the main domains are on, the key is right and no operation runs (R384). -/
def porterFree (s : State) (key : Nat) : Bool := mainOn s && decide (key = 0x51A7) && s.porter.running.isNone

/-- A wrapper that the first three checks of R406 pass. -/
def wrapperPasses (s : State) (w : Bytes) : Bool := wrapperShaped 3 w && keysAccepted s && passportUsable s w

/-- When such a command has its effect. -/
def secureCompletes (i : Instr) (s : State) : Bool :=
  match i with
  | .meshBreak => s.power.alwaysOn
  | .supplyExcursion ns => s.power.alwaysOn && decide (100 < ns)
  | .clockExcursion ns => s.power.alwaysOn && decide (1000 < ns)
  | .thermalExcursion eighths => s.power.alwaysOn && decide (eighths < -200 ∨ 1040 < eighths)
  | .tamperIn ns => s.power.alwaysOn && decide (1000 ≤ ns)
  | .porterKeeperReset key arg => porterFree s key && decide (arg = 0)
  | .porterSecureWipe key arg => porterFree s key && decide (arg = 0)
  | .porterWingFence key arg => porterFree s key && decide (arg < 16) && !(s.wing arg).fenced
  | .porterPowerOff key arg => porterFree s key && decide (arg = 0)
  | .passportRequest length nonce => doeOpen s && decide (length = 32 ∧ nonce.length = 32)
  | .ideKeys wrapper message =>
    doeOpen s && !s.power.minimal && wrapperPasses s wrapper && decide (wrapper.length + message.length ≤ 262136)
  | .debugUnlock token => doeOpen s && !s.power.minimal && decide (token.length = 3389)
  | .doeDiscovery _ => doeOpen s
  | .doeAbort => s.link.up
  | .akRedrawDone => s.power.alwaysOn && (s.secure.ak.isNone || s.secure.rk.isNone)
  | _ => false

/-- The tables of wings and of their contexts are in their canonical form. -/
def contextsTidy (s : State) : Prop := twf default s.led.wings = true ∧ ∀ w, twf default (s.wing w).contexts = true

/-- What a wipe leaves (R399 to R401): the store is empty but for a new Loft key, no base is READY, no pass goes on, nothing that
lay in the Loft is to be had, and nothing written to the region can be read. -/
def wiped (cause : WipeCause) (s t : State) : Prop :=
  t.secure.baseKeys = [] ∧ t.secure.partyKeys = [] ∧ t.secure.ak = none ∧ t.secure.rk = none ∧ t.secure.ideKeys = []
    ∧ t.secure.passports = [] ∧ t.secure.wipedSinceStart = true ∧ t.secure.loftEpoch = s.secure.loftEpoch + 1
    ∧ t.secure.tamper = (if cause.value ≤ 5 then Nat.min (s.secure.tamper + 1) 65535 else s.secure.tamper)
    ∧ t.secure.ideIo = (s.secure.ideIo && !s.link.up) ∧ t.secure.ideCm = (s.secure.ideCm && !s.link.up)
    ∧ (∀ b, (t.base b).st ≠ .ready) ∧ (contextsTidy s → ∀ w c, (t.ctx w c).pass = none)
    ∧ (∀ o, (s.obj o).live = true → (s.obj o).st ≠ .absent → ((s.obj o).place.tier = .loft ∨ (s.obj o).kind = .baseCopy) → noMovesWaiting s = true →
        ((t.obj o).st = .absent ∨ (t.obj o).live = false) ∧ (t.obj o).content = [])
    ∧ (∀ h, (s.handle h).st = .home → (s.handle h).homeHost = false → (s.handle h).load = none → (t.handle h).st = .absent)
    ∧ t.link.poisonAll = true ∧ t.link.written = [] ∧ t.link.region = [] ∧ t.clock = s.clock ∧ t.power = s.power

/-- An operation of the Porter accepted (Table 14.12). -/
def porterAccepted (s t : State) (op : Nat) : Prop :=
  t.porter.lastOp = op ∧ t.porter.result = 0 ∧ t.porter.accepted = (s.porter.accepted + 1) % 256

/-- The tests of a write to PORTER_OP, in order: its key, its ARG, and BUSY; one that fails changes nothing else (Table 14.12). -/
def porterRefused (s t : State) (op key : Nat) (argOk : Bool) : Prop :=
  mainOn s = true →
    (key ≠ 0x51A7 → t = { s with porter := { s.porter with lastOp := op, result := 1 } })
      ∧ (key = 0x51A7 → argOk = false → t = { s with porter := { s.porter with lastOp := op, result := 2 } })
      ∧ (key = 0x51A7 → argOk = true → s.porter.running.isSome = true → t = { s with porter := { s.porter with lastOp := op, result := 3 } })

/-- The operation and the validity of ARG of a command to PORTER_OP (Table 14.11), with its key. -/
def porterOf : Instr → Option (Nat × Nat × Bool)
  | .porterKeeperReset key arg => some (1, key, decide (arg = 0))
  | .porterSecureWipe key arg => some (2, key, decide (arg = 0))
  | .porterWingFence key arg => some (3, key, decide (arg < 16))
  | .porterPowerOff key arg => some (4, key, decide (arg = 0))
  | _ => none

/-- An attestation response is in the mailbox. -/
def responds (t : State) (type : Nat) (body : Bytes) : Prop := t.link.doeResponse = attestMessage type body

/-- A message too long for the mailbox sets DOE Error, and nothing else happens (R391). -/
def tooLong (i : Instr) (s : State) : Bool :=
  doeOpen s &&
    (match i with
     | .passportRequest length _ => decide (262136 < length)
     | .ideKeys wrapper message => decide (262136 < wrapper.length + message.length)
     | .debugUnlock token => decide (262136 < token.length)
     | _ => false)

/-- An attestation message refused with ERROR and a reason (R404): 1 where it is malformed, 3 where it is refused. -/
def attestRefusal (i : Instr) (s : State) : Option Nat :=
  if !doeOpen s then none
  else match i with
    | .passportRequest length nonce => if length ≤ 262136 ∧ (length ≠ 32 ∨ nonce.length ≠ 32) then some 1 else none
    | .ideKeys wrapper message =>
      if 262136 < wrapper.length + message.length then none
      else if s.power.minimal then some 3
      else if !wrapperShaped 3 wrapper then some 1
      else if !keysAccepted s || !passportUsable s wrapper then some 3
      else none
    | .debugUnlock token =>
      if 262136 < token.length then none
      else if s.power.minimal then some 3
      else if token.length ≠ 3389 then some 1
      else if s.secure.life ≠ .return_ then some 3
      else none
    | _ => none

/-- What such a command leaves. -/
def secureDone (i : Instr) (s t : State) : Prop :=
  match i with
  | .meshBreak => wiped .mesh s t
  | .supplyExcursion _ => wiped .supply s t
  | .clockExcursion _ => wiped .clock s t
  | .thermalExcursion _ => wiped .thermal s t
  | .tamperIn _ => wiped .tamperIn s t
  | .porterKeeperReset _ _ =>
    porterAccepted s t 1 ∧ t.porter.running = some 1 ∧ t.keeper.up = false ∧ t.keeper.resetting = true ∧ t.keeper.since = s.clock.count
      ∧ t.writing = none ∧ (s.power.ready = true → t.power.stat = .keeperReset) ∧ (∀ k, (t.sess k).held = [])
      ∧ t.tiles = s.tiles ∧ t.clock = s.clock ∧ t.led.wings = s.led.wings
  | .porterSecureWipe _ _ => porterAccepted s t 2 ∧ wiped .porter s t
  | .porterWingFence _ arg =>
    porterAccepted s t 3 ∧ t.porter.running = some 3
      ∧ t.tt.entries = s.tt.entries ++ [{ mp := s.clock.count + 1, cls := TtClass.fence, wing := some arg, arg := 0, late := false }]
      ∧ t = { s with tt := { s.tt with entries := t.tt.entries }, porter := t.porter }
  | .porterPowerOff _ _ =>
    porterAccepted s t 4 ∧ t.power.stat = .poweredOff ∧ t.power.ready = false ∧ t.power.domains = [] ∧ t.power.startsHeld = true
      ∧ t.keeper.up = false ∧ (s.keeper.up = true → s.power.ready = true → t.durable = s.led) ∧ t.clock.count = s.clock.count
      ∧ t.secure.baseKeys = s.secure.baseKeys
  | .passportRequest _ nonce =>
    (∀ ak, s.secure.ak = some ak →
        responds t 0x81 (passport s ak nonce)
          ∧ t.secure.passports = (s.secure.passports ++ [({ digest := shake256 (passport s ak nonce) 64, used := false } : PassportMark)]).drop
              (s.secure.passports.length + 1 - 16)
          ∧ t = { s with link := t.link, secure := { s.secure with passports := t.secure.passports } })
      ∧ (s.secure.ak = none →
          t.link.doeResponse = s.link.doeResponse ∧ t.secure.passports = s.secure.passports
            ∧ t.secure.waitingPassports
              = s.secure.waitingPassports ++ [({ ref := none, nonce := nonce, capacity := 0, hostOk := true } : WaitingPassport)])
  | .ideKeys wrapper message =>
    t.secure.passports = (usePassport wrapper s).secure.passports
      ∧ (unwrap s wrapper = none → responds t (Config.doeErrorType % 256) (leBytes 1 3) ∧ t.secure.ideKeys = s.secure.ideKeys)
      ∧ (∀ z, unwrap s wrapper = some z →
          responds t 0x82 (Config.ideKmResponse (unmasked z message))
            ∧ (field message 0 1 = 0x02 → field (unmasked z message) 3 1 < 4 →
                tget t.secure.ideKeys (field (unmasked z message) 3 1)
                  = setIdeKey (tget s.secure.ideKeys (field (unmasked z message) 3 1)) (field (unmasked z message) 5 1 % 2) (unmasked z message)))
      ∧ t = { s with link := { s.link with doeResponse := t.link.doeResponse }, secure := t.secure }
  | .debugUnlock token =>
    (if s.secure.life = .return_ ∧ tokenAccepted s .return_ .return_ token = true then t.secure.debug = true ∧ responds t 0x83 []
      else t.secure = s.secure ∧ responds t (Config.doeErrorType % 256) (leBytes 1 3))
      ∧ t = { s with link := { s.link with doeResponse := t.link.doeResponse }, secure := { s.secure with debug := t.secure.debug } }
  | .doeDiscovery index => t = { s with link := { s.link with doeResponse := discovery index } }
  | .doeAbort => t = { s with link := { s.link with doeError := false, doeResponse := [] } }
  | .akRedrawDone =>
    t.secure.ak = some (fit 4032 (Config.freeBytes s.free 4032)) ∧ t.secure.rk = some (fit 3168 (Config.freeBytes (s.free + 1) 3168))
      ∧ t.secure.akPub = fit 1952 (Config.publicKey (fit 4032 (Config.freeBytes s.free 4032)))
      ∧ t.secure.rkPub = fit 1568 (Config.publicKey (fit 3168 (Config.freeBytes (s.free + 1) 3168))) ∧ t.secure.waitingPassports = []
      ∧ (s.secure.waitingPassports = [] → t.secure.passports = s.secure.passports ∧ t = { s with secure := t.secure, free := s.free + 2 })
      ∧ (∀ n, s.secure.waitingPassports = [{ ref := none, nonce := n, capacity := 0, hostOk := true }] →
          responds t 0x81 (passport t (fit 4032 (Config.freeBytes s.free 4032)) n))
  | _ => True

end Sys2Proof.Safety
end

