-- ==== Sys2Proof/Safety/Keeper.lean ====
section
/-! DEFINITION. The keeper, its journal and repair in service (chapter 16): when each event acts, and what it leaves. -/

namespace Sys2Proof.Safety

open Sys2Proof Sys2Proof.Machine

/-- When such an event has its effect. -/
def keeperCompletes (i : Instr) (s : State) : Bool :=
  match i with
  | .counterSnapshot => decide (s.clock.count % 3600000000 = 0)
  | .journalWrite => decide (s.clock.count % 1000 = 0) && s.keeper.up && !s.keeper.doze && s.power.ready && s.writing.isNone
  | .journalWriteDone => s.writing.isSome
  | .watchdogExpiry _ => s.keeper.up && !s.keeper.doze
  | .keeperCacheError _ => s.keeper.up
  | .keeperRestartDone => s.keeper.resetting
  | .keeperMemoryError _ => true
  | .handoverTakeover =>
    (match s.keeper.handover with
     | .checked _ _ => decide (s.clock.count % 1000 = 0) && s.keeper.up && s.power.ready
     | .restarting _ _ _ => true
     | _ => false)
  | .handoverTimeout =>
    (match s.keeper.handover with
     | .restarting _ _ since => decide (since + 100000 ≤ s.clock.count)
     | _ => false)
  | .imageStoreWrite =>
    s.keeper.up &&
      (match s.keeper.handover with
       | .running _ journaled => journaled
       | _ => false)
  | .spareSwitch p _ =>
    decide (p < 136) && (s.tile p).spare.isSome &&
      (match (logicalOf s p).bind (wingOfTile s) with
       | some w => (s.wing w).scrub.isNone && (s.wing w).running.isNone
       | none => false)
  | .pcRetireDone u =>
    decide (u < 512) && (s.pc u).retiring && !unitHolds s .hbm u && s.keeper.up
      && !((wingOfPc s u).map (fun w => (s.wing w).scrub.isSome)).getD false
  | .loftEvacuateDone c => decide (c < 16) && decide ((s.loft c).st = .evacuating) && !unitHolds s .loft c && s.keeper.up
  | .loftReturnDone c _ => decide (c < 16) && decide ((s.loft c).st = .returning) && s.keeper.up
  | _ => false

/-- A keeper reset has begun: the cores stop, held commands are lost, a journal write under way is cut off, and the hardware runs on
(R438, R334). -/
def keeperStopped (s t : State) : Prop :=
  t.keeper.up = false ∧ t.keeper.resetting = true ∧ t.keeper.since = s.clock.count ∧ t.keeper.doze = false ∧ t.keeper.image = (if s.power.minimal then Config.romImage else s.keeper.stored)
    ∧ t.writing = none ∧ (∀ k, (t.sess k).held = [] ∧ (t.sess k).next = (s.sess k).next ∨ twf default s.led.sessions = false)
    ∧ (s.power.ready = true → t.power.stat = .keeperReset)
    ∧ t = { s with led := { s.led with sessions := t.led.sessions }, writing := none, secure := { s.secure with waitingPassports := [] }
                   keeper := t.keeper, power := t.power, mgmt := { s.mgmt with ibi := t.mgmt.ibi } }

/-- A start has failed with a reason (R464 to R467): it is counted; the third, or one of a kind marked at once, enters minimal mode; a
module that was READY resets its keeper; another start waits to be tried again from step 2. -/
def startFailed (s t : State) (reason : Nat) : Prop :=
  t.power.failed = Nat.min (s.power.failed + 1) 3
    ∧ (if atOnce reason = true ∨ 2 ≤ s.power.failed then
        t.power.minimal = true ∧ t.power.minReason = reason ∧ t.power.stat = .minimal ∧ t.power.faultN = true ∧ t.power.startsHeld = true
          ∧ t.keeper.up = true ∧ t.keeper.image = Config.romImage ∧ t.power.ready = false
          ∧ (∀ d, d ≠ 7 → (t.domain d).st = .off)
      else if s.power.ready = true then t.keeper.up = false ∧ t.keeper.resetting = true ∧ t.keeper.since = s.clock.count
      else t.power.retryWait = true ∧ t.power.step = 0 ∧ t.power.bootStep = 1 ∧ ∀ d, d ≠ 7 → (t.domain d).st = .off)
    ∧ t.clock.count = s.clock.count

/-- The image and the command of a handover, and since when it restarts. -/
def handedOver (s : State) : Option (Bytes × CmdRef) :=
  match s.keeper.handover with
  | .checked b r => some (b, r)
  | .restarting b r _ => some (b, r)
  | _ => none

/-- The new image is taken over but its firmware has not resumed yet. -/
def restarting (s : State) : Bool := match s.keeper.handover with
  | .restarting _ _ _ => true
  | _ => false

/-- What such an event leaves. -/
def keeperDone (i : Instr) (s t : State) : Prop :=
  match i with
  | .counterSnapshot =>
    t.keeper.changed = [] ∧ t = { s with keeper := { s.keeper with changed := [], log := t.keeper.log, logNext := t.keeper.logNext } }
      ∧ (s.keeper.log.length + s.keeper.changed.length ≤ 1024 → ∀ q ∈ s.keeper.changed,
          ∃ r ∈ t.keeper.log, r.code = LogCode.counterSnapshot.value ∧ r.placeKind = q.1 ∧ r.place = q.2)
  | .journalWrite => t = { s with writing := some (s.led, s.keeper.log) }
  | .journalWriteDone =>
    ∃ l log, s.writing = some (l, log) ∧ t.durable = l ∧ t.writing = none ∧ t.keeper.journalLog = mergeLog log s.keeper.journalLog
      ∧ t = { s with writing := none, durable := l, keeper := { s.keeper with journalLog := t.keeper.journalLog, handover := t.keeper.handover } }
  | .watchdogExpiry core =>
    keeperStopped s t ∧ ∃ r ∈ t.keeper.log, r.code = LogCode.keeperWatchdog.value ∧ r.placeKind = 10 ∧ r.place = core
  | .keeperCacheError _ => keeperStopped s t ∧ t.keeper.log = s.keeper.log
  | .keeperRestartDone =>
    if s.keeper.since + 1000000 < s.clock.count ∧ s.power.minimal = false then startFailed s t 0x0501
    else
      t.keeper.up = true ∧ t.keeper.resetting = false ∧ t.keeper.handover = .none ∧ s.led.version + s.keeper.unrecorded ≤ t.led.version
        ∧ (twf default s.led.handles = true → ∀ h, (t.handle h).load = none)
        ∧ (s.power.ready = true → t.power.stat = .ready ∧ t.power.failed = 0)
        ∧ (s.porter.running = some 1 → t.porter.running = none)
        ∧ (∀ ref, s.keeper.handover = .failed ref → ref ∉ t.led.longs) ∧ t.clock = s.clock
  | .keeperMemoryError banksBad =>
    (banksBad = 0 → t.keeper.memCorrected = wrapAdd s.keeper.memCorrected 1 ∧ t = { s with keeper := t.keeper, fns := t.fns })
      ∧ (banksBad = 1 → t = s)
      ∧ (2 ≤ banksBad → t.led.version = s.durable.version + 2 ^ 24 ∧ t.led.longs = s.durable.longs ∧ t.led.wings = s.durable.wings
          ∧ t.led.binds = s.durable.binds ∧ t.writing = none
          ∧ (twf default s.durable.sessions = true → ∀ k,
              if (tget s.durable.sessions k).st = .closed then t.sess k = tget s.durable.sessions k
              else (t.sess k).st = .lapsed ∧ (t.sess k).held = [] ∧ (t.sess k).next = (tget s.durable.sessions k).next)
          ∧ t = { s with led := t.led, writing := none })
  | .handoverTakeover =>
    ∃ image ref, handedOver s = some (image, ref) ∧
      (if restarting s = true then
        t.keeper.up = true ∧ t.keeper.image = image ∧ t.keeper.handover = .running image false ∧ ref ∉ t.led.longs
          ∧ t.secure.passports = [] ∧ (s.power.ready = true → t.power.stat = .ready) ∧ t.clock = s.clock
      else
        t.keeper.up = false ∧ t.keeper.handover = .restarting image ref s.clock.count ∧ t.durable = s.led ∧ t.writing = none
          ∧ t.power.stat = .keeperReset
          ∧ t = { s with durable := s.led, writing := none, keeper := t.keeper, power := t.power, mgmt := { s.mgmt with ibi := t.mgmt.ibi } })
  | .handoverTimeout => startFailed s t 0x0504
  | .imageStoreWrite =>
    ∃ image, s.keeper.handover = .running image true ∧ t = { s with keeper := { s.keeper with stored := image, handover := .none } }
  | .spareSwitch p bad =>
    ∃ sp n w, (s.tile p).spare = some sp ∧ logicalOf s p = some n ∧ wingOfTile s n = some w ∧
      (s.led.maps = [] → physTile t n = some sp ∧ tget t.led.faultMap p = true
        ∧ (∀ ref, (s.tile p).mapRef = some ref → ref ∉ t.led.longs)
        ∧ ((s.tile sp).gate = true → (s.tile sp).supplyOff = false → (t.tile sp).store = copiedStore (s.tile p) bad)
        ∧ (contextsTidy s → ∀ c ∈ contextsAt s w bad, (t.ctx w c).live = false))
  | .pcRetireDone u =>
    (t.pc u).retired = true ∧ (t.pc u).retiring = false ∧ (∀ v, v ≠ u → t.pc v = s.pc v)
      ∧ (∀ w, wingOfPc s u = some w → (t.wing w).pcs = without (s.wing w).pcs (2 ^ u))
      ∧ (∀ ref, (s.pc u).ref = some ref → ref ∉ t.led.longs)
      ∧ t = { s with led := { s.led with pcs := t.led.pcs, wings := t.led.wings, sessions := t.led.sessions, longs := t.led.longs, version := t.led.version }
                     fns := t.fns, keeper := t.keeper }
  | .loftEvacuateDone c =>
    (t.loft c).st = .evacuated ∧ (∀ v, v ≠ c → t.loft v = s.loft v) ∧ (∀ ref, (s.loft c).ref = some ref → ref ∉ t.led.longs)
      ∧ t = { s with led := { s.led with lofts := t.led.lofts, sessions := t.led.sessions, longs := t.led.longs, version := t.led.version }
                     fns := t.fns, keeper := t.keeper }
  | .loftReturnDone c dimmsMatch =>
    (t.loft c).st = (if dimmsMatch then LoftSt.inService else LoftSt.evacuated) ∧ (dimmsMatch = true → (t.loft c).redirect = false)
      ∧ (∀ v, v ≠ c → t.loft v = s.loft v) ∧ (∀ ref, (s.loft c).ref = some ref → ref ∉ t.led.longs)
      ∧ t = { s with led := { s.led with lofts := t.led.lofts, sessions := t.led.sessions, longs := t.led.longs, version := t.led.version }
                     fns := t.fns, keeper := t.keeper }
  | _ => True

end Sys2Proof.Safety
end

