-- ==== Sys2Proof/Safety/Links.lean ====
section
/-! DEFINITION. Waylink ports: training, frames, replay and relaying (chapter 11): when each event acts, and what it leaves. -/

namespace Sys2Proof.Safety

open Sys2Proof Sys2Proof.Machine

/-- Only ports and what a notice reaches change. -/
def onlyPorts (s t : State) : Prop := t = { s with ports := t.ports, keeper := t.keeper, fns := t.fns }

/-- Every other port stands as it was. -/
def otherPorts (p : Nat) (s t : State) : Prop := ∀ q, q ≠ p → t.port q = s.port q

/-- When such an event has its effect. -/
def linkCompletes (i : Instr) (s : State) : Bool :=
  match i with
  | .trainingPhaseDone p lanes =>
    let x := s.port p
    decide (p < 36) && decide (x.st = .training) && !x.retraining
      && decide (x.phase = 1 ∨ x.phase = 2 ∨ x.phase = 3 ∧ (lanes = 8 ∨ lanes = 4))
  | .trainingPhaseOverrun p => decide (p < 36) && decide ((s.port p).st = .training) && !(s.port p).retraining
  | .trainingRetry p => decide (p < 36) && decide ((s.port p).st = .down) && (s.port p).retryAt.any (fun m => decide (m ≤ s.clock.count))
  | .hello p _ => decide (p < 36) && decide ((s.port p).st = .training) && !(s.port p).retraining && decide ((s.port p).phase = 4)
  | .laneLockLoss p lane _ =>
    decide (p < 36) && inService (s.port p) && decide (lane < 8) && (!(s.port p).narrow || (decide (lane < 4) == (s.port p).lowHalf))
  | .uncorrectableCodeword p _ => decide (p < 36) && inService (s.port p)
  | .dataFrame p f => decide (p < 36) && inService (s.port p) && f.crcOk
  | .retryFrame p f => decide (p < 36) && inService (s.port p) && f.crcOk
  | .idleFrame p f => decide (p < 36) && inService (s.port p) && f.crcOk
  | .ackTimeout p => decide (p < 36) && inService (s.port p)
  | .linkRetrainDone p _ => decide (p < 36) && decide ((s.port p).st = .training) && (s.port p).retraining
  | .relayTimeout p => decide (p < 36)
  | _ => false

/-- What stays of the replay buffer of a port sent again: each frame once more, or none where the oldest has gone out 8 times and
the port retrains (R271). -/
def resent (x : Port) (t : State) (p : Nat) : Prop :=
  match x.replay with
  | [] => (t.port p).st = x.st
  | f :: _ =>
    if 8 ≤ f.sends then (t.port p).st = .training ∧ (t.port p).retraining = true ∧ (t.port p).replay = x.replay
    else (t.port p).st = x.st ∧ (t.port p).replay.take x.replay.length = x.replay.map (fun f => { f with sends := f.sends + 1 })

/-- The width a port comes to: 8 lanes, or 4. -/
def widthSt (lanes : Nat) : PortSt := if lanes = 4 then .degraded else .up

/-- What such an event leaves. -/
def linkDone (i : Instr) (s t : State) : Prop :=
  match i with
  | .trainingPhaseDone p lanes =>
    (t.port p).st = .training ∧ (t.port p).phase = (s.port p).phase + 1
      ∧ ((s.port p).phase = 3 → (t.port p).lanes = if (s.port p).narrow then 4 else lanes)
      ∧ onlyPorts s t ∧ otherPorts p s t
  | .trainingPhaseOverrun p =>
    (t.port p).st = .down ∧ (t.port p).retryAt = some (s.clock.count + 1000000) ∧ (t.port p).replay = [] ∧ (t.port p).corrected = (s.port p).corrected
  | .trainingRetry p =>
    (t.port p).st = .training ∧ (t.port p).phase = 1 ∧ (t.port p).retryAt = none ∧ t = { s with ports := t.ports } ∧ otherPorts p s t
  | .hello p b =>
    match holdWhy s b with
    | some (why, _) => (t.port p).st = .held ∧ (t.port p).held = some (why, b.identity) ∧ otherPorts p s t
    | none =>
      (t.port p).st = widthSt (s.port p).lanes ∧ (t.port p).peer = some b.identity ∧ (t.port p).farPort = b.port ∧ (t.port p).phase = 0
        ∧ (t.port p).rxNext = 0 ∧ otherPorts p s t
  | .laneLockLoss p lane locked =>
    match keptHalf (s.port p) (without locked (2 ^ lane)) with
    | none => (t.port p).st = .down ∧ (t.port p).replay = []
    | some low =>
      (t.port p).st = .training ∧ (t.port p).phase = 1 ∧ (t.port p).lanes = 4 ∧ (t.port p).lowHalf = low ∧ onlyPorts s t ∧ otherPorts p s t
  | .uncorrectableCodeword p _ =>
    (t.port p).uncorrected = ((s.port p).uncorrected + 1) % 2 ^ 64
      ∧ ((inWindow s.clock.count 1000000 (s.port p).uncorrectedAt).length ≤ 16 →
          (t.port p).st = (s.port p).st ∧ t = { s with ports := t.ports } ∧ otherPorts p s t)
      ∧ (16 < (inWindow s.clock.count 1000000 (s.port p).uncorrectedAt).length → (t.port p).st = .training ∨ (t.port p).st = .down)
  | .dataFrame p f =>
    (t.port p).st = (s.port p).st ∧ t = { s with ports := t.ports } ∧ otherPorts p s t
      ∧ (f.seq ≠ (s.port p).rxNext → (t.port p).rxNext = (s.port p).rxNext ∧ (t.port p).rx = (s.port p).rx)
      ∧ (f.seq = (s.port p).rxNext → (t.port p).rxNext = ((s.port p).rxNext + 1) % 65536)
      ∧ (f.seq = (s.port p).rxNext → mutedPort s p = true →
          (t.port p).discarded = ((s.port p).discarded + 1) % 2 ^ 64 ∧ (t.port p).rx = (s.port p).rx)
      ∧ (f.seq = (s.port p).rxNext → mutedPort s p = false →
          tget (t.port p).rx f.cls = if f.last then [] else (if f.first then [] else tget (s.port p).rx f.cls) ++ [f.payload])
  | .retryFrame p f =>
    resent (frameHeader f (s.port p)) t p ∧ t = { s with ports := t.ports } ∧ otherPorts p s t ∧ (t.port p).rxNext = (s.port p).rxNext
  | .idleFrame p f =>
    (t.port p).st = (s.port p).st ∧ (t.port p).rxNext = (s.port p).rxNext ∧ (t.port p).rx = (s.port p).rx
      ∧ (t.port p).replay.take (ackFrames f.ack (s.port p)).replay.length = (ackFrames f.ack (s.port p)).replay
      ∧ t = { s with ports := t.ports } ∧ otherPorts p s t
  | .ackTimeout p => resent (s.port p) t p ∧ t = { s with ports := t.ports } ∧ otherPorts p s t
  | .linkRetrainDone p ok =>
    (ok = true → (t.port p).st = widthSt (s.port p).lanes ∧ (t.port p).retraining = false
        ∧ (t.port p).replay.take (s.port p).replay.length = (s.port p).replay.map (fun f => { f with sends := 1 }) ∧ otherPorts p s t)
      ∧ (ok = false → (t.port p).st = .down ∧ (t.port p).replay = [])
  | .relayTimeout p =>
    t = { s with ports := t.ports, fabric := t.fabric } ∧ otherPorts p s t
      ∧ (∀ k, k ∈ t.fabric.stuck ↔ k ∈ s.fabric.stuck ∧ s.clock.count ≤ k.at_ + 1000)
      ∧ s.fabric.relayDiscards ≤ t.fabric.relayDiscards ∧ (t.port p).replay = (s.port p).replay
  | _ => True

end Sys2Proof.Safety
end

