-- ==== Sys2Proof/Safety/Stages.lean ====
section
/-! DEFINITION. The timetable's entries and a wing's own edges (chapters 2, 10, 11 and 15): when each acts, and what it
leaves. -/

namespace Sys2Proof.Safety

open Sys2Proof Sys2Proof.Machine

/-- It is the turn of a due entry (R31, R32). -/
def isTurn (s : State) (c : TtClass) (w : Option Nat) (arg : Nat) : Bool := (takeDue s c w arg).isSome

/-- A switch to a context cannot end it: it holds no pass, or one that is neither to end nor to be restored from records
(R83, R108, R257). -/
def plainResume (s : State) (w c : Nat) : Bool :=
  (s.ctx w c).pass.isNone || ((s.ctx w c).ending.isNone && decide ((s.ctx w c).saves = []))

/-- The context that a boundary names (R248). -/
def boundaryTarget (s : State) (w : Nat) : Option Nat :=
  if (s.wing w).nextFresh then canRun s w (s.wing w).nextCtx else (s.wing w).running

/-- The context that a switch between boundaries chooses (R249, R250). -/
def switchTarget (s : State) (w : Nat) : Option Nat := (choose (s.wing w) (·.latency) (·.runLen)).1

/-- A switch whose target keeps its pass. -/
def plainTarget (s : State) (w : Nat) (c : Option Nat) : Bool :=
  match c with
  | none => true
  | some c => decide ((s.wing w).running = some c) || plainResume s w c

/-- When an entry of the timetable, or an edge of a wing, has its effect. -/
def stageCompletes (i : Instr) (s : State) : Bool :=
  match i with
  | .rollCall => isTurn s .rollCall none 0 && s.keeper.up && !s.fabric.stopped
  | .failover => isTurn s .failover none 0
  | .fenceEntry w => decide (w < 16) && isTurn s .fence (some w) 0 && (s.wing w).live
  | .stageEnd w => decide (w < 16) && isTurn s .stageEnd (some w) 0
  | .scrub w => decide (w < 16) && isTurn s .scrub (some w) 0 && (s.wing w).live && (s.wing w).sealed && (s.wing w).scrub.isNone
  | .stageStart w =>
    decide (w < 16) && isTurn s .stageStart (some w) 0 && mayStage s (s.wing w) && plainTarget s w (boundaryTarget s w)
  | .cellarSlot => isTurn s .cellarSlot none 0
  | .collective n => isTurn s .collective (some (s.group n).wing) n && (s.group n).post.isSome
  | .ticketExpiry w => decide (w < 16) && isTurn s .ticketExpiry (some w) 0
  | .digestSweep => isTurn s .digestSweep none 0
  | .switchEdge w =>
    decide (w < 16) && (s.wing w).live && (s.wing w).wantSwitch && s.keeper.up && (s.wing w).removing.isNone
      && decide (mappingTiles s w = []) && mayStage s (s.wing w) && plainTarget s w (switchTarget s w)
  | .parkThreshold w =>
    decide (w < 16) && s.keeper.up &&
      (match (s.wing w).running with
       | some c => decide (ctxTickets s w c ≠ []) && decide ((s.ctx w c).st = .running)
       | none => false)
  | .swapOutStart w =>
    decide (w < 16) && maySwap s (s.wing w) && (residents (s.wing w)).all (fun c => decide (c.2.st = .blocked))
      && (swapVictim s w).isSome &&
      (match waitingIn s (s.wing w) with
       | (_, y) :: _ => (canReside (s.wing w) y).isNone
       | [] => false)
  | .swapInStart w =>
    decide (w < 16) && maySwap s (s.wing w) &&
      (match waitingIn s (s.wing w) with
       | (_, y) :: _ => decide ((s.obj y.saveObj).st = .home) && (canReside (s.wing w) y).isSome
       | [] => false)
  | .swapCommit w => decide (w < 16) && (s.wing w).swap.isSome && s.keeper.up
  | .wingRemoveDone w =>
    let x := s.wing w
    decide (w < 16) && x.live && x.removing.isSome && removalDone s w && (!x.sealed || x.clean) && x.scrub.isNone && s.keeper.up
  | .scrubDone w =>
    decide (w < 16) && s.keeper.up && !(s.wing w).leaving &&
      (match (s.wing w).scrub with
       | some sc => decide (sc.start + sc.length ≤ s.clock.count)
       | none => false)
  | _ => false

/-- A ticket that may still complete (R255). -/
def waits (t : Ticket) : Prop := t.live = true ∧ (t.st = .open_ ∨ t.st = .parked)

/-- What such an entry or edge leaves. -/
def stageDone (i : Instr) (s t : State) : Prop :=
  match i with
  | .rollCall =>
    (∃ e, s.tt.due.find? (fun e => decide (e.cls = TtClass.rollCall)) = some e ∧ t.fabric.round = some e.mp
        ∧ (e.mp = s.clock.count → ∃ b, t.fabric.sent = some b ∧ b.count = e.mp ∧ b.timeState = s.clock.st.value
            ∧ b.heartbeat = (s.fabric.heartbeat + 1) % 2 ^ 32))
      ∧ t.fabric.heartbeat = (s.fabric.heartbeat + 1) % 2 ^ 32 ∧ t.fabric.view = s.fabric.view ∧ t.clock = s.clock
  | .failover => t.fabric.departed = [] ∧ ∀ n, (tget t.tickets n).live = true → (tget t.tickets n).peer ∉ s.fabric.departed
  | .fenceEntry w => (t.wing w).fenced = true ∧ (t.wing w).running = none ∧ (t.wing w).gen = (s.wing w).gen
  | .stageEnd w =>
    (t.wing w).stage = (s.wing w).nextStage
      ∧ ((s.wing w).change = none → twf default (s.wing w).contexts = true → ∀ c,
          (t.ctx w c).latency = (s.ctx w c).nextLatency ∧ (t.ctx w c).runLen = (s.ctx w c).nextRunLen
            ∧ (t.ctx w c).idleHint = (s.ctx w c).nextIdleHint ∧ (t.ctx w c).st = (s.ctx w c).st)
      ∧ ((s.wing w).change = none → ∀ v, v ≠ w → t.wing v = s.wing v)
  | .scrub w =>
    (∃ sc, (t.wing w).scrub = some sc ∧ sc.start = s.clock.count ∧ sc.length = scrubLength s w)
      ∧ (∀ p, p ∈ wingTiles s w → (t.tile p).store = [] ∧ (t.tile p).accs = [] ∧ (t.tile p).engine = default)
      ∧ (∀ k b, (s.wing w).slices.testBit k = true → k < 256 → b < 2 ^ 20 → mread t.qmem (k * 2 ^ 20 + b) = 0)
      ∧ (t.wing w).programs = [] ∧ (t.wing w).watch = []
      ∧ (∀ p, (s.wing w).ports.testBit p = true → p < 36 → (t.port p).replay = [] ∧ (t.port p).rx = [])
  | .stageStart w =>
    (t.wing w).running = boundaryTarget s w ∧ (t.wing w).stageStart = s.clock.count ∧ (t.wing w).nextFresh = false
      ∧ (∀ c, boundaryTarget s w = some c → (s.wing w).running ≠ some c → (t.ctx w c).st = .running)
      ∧ (boundaryTarget s w = (s.wing w).running → t.led.version = s.led.version)
      ∧ (boundaryTarget s w ≠ (s.wing w).running → s.keeper.up = true → t.led.version = s.led.version + 1)
  | .cellarSlot =>
    t.cellar.frame = s.clock.count / 1024 * 1024
      ∧ (∀ w, w < 16 → (s.wing w).live = true → t.wing w = { s.wing w with weight := (s.wing w).nextWeight, slotMap := (s.wing w).nextSlotMap })
      ∧ (∀ w, (s.wing w).live = false → t.wing w = s.wing w)
  | .collective n => (t.group n).started = true ∧ (t.group n).post = (s.group n).post
  | .ticketExpiry w =>
    ∀ n, waits (tget s.tickets n) → (tget s.tickets n).wing = w → (tget s.tickets n).deadline ≤ s.clock.count → ¬waits (tget t.tickets n)
  | .digestSweep =>
    t = { s with tt := t.tt, cellar := t.cellar }
      ∧ (∀ k, s.cellar.visiting = some k → t.cellar.visiting = some k ∧ t.cellar.overdue = s.cellar.overdue + 1)
      ∧ (s.cellar.visiting = none →
          t.cellar.nextShard = (s.cellar.nextShard + 1) % 8192
            ∧ ((s.shard s.cellar.nextShard).st = .valid → cellarOn s = true → t.cellar.visiting = some s.cellar.nextShard)
            ∧ ((s.shard s.cellar.nextShard).st ≠ .valid → t.cellar.visiting = none ∧ t.cellar.skipped = s.cellar.skipped + 1))
  | .switchEdge w =>
    (t.wing w).running = switchTarget s w
      ∧ (∀ c, switchTarget s w = some c → (s.wing w).running ≠ some c → (t.ctx w c).st = .running)
      ∧ (switchTarget s w ≠ (s.wing w).running → t.led.version = s.led.version + 1)
  | .parkThreshold w =>
    ∃ c, (s.wing w).running = some c ∧ (t.ctx w c).st = .blocked ∧ (t.ctx w c).blocked = .parked ∧ (t.wing w).wantSwitch = true
      ∧ t.led.version = s.led.version + 1
  | .swapOutStart w =>
    ∃ c p, (swapVictim s w).map (·.1) = some c ∧ (t.wing w).swap = some p ∧ p.context = c ∧ p.out = true
      ∧ (t.ctx w c).st = .swappingOut ∧ t.led.version = s.led.version + 1
      ∧ t = { s with led := { s.led with wings := t.led.wings, version := t.led.version } }
  | .swapInStart w =>
    ∃ c y g p, (waitingIn s (s.wing w)).head? = some (c, y) ∧ canReside (s.wing w) y = some g ∧ (t.wing w).swap = some p
      ∧ p.context = c ∧ p.out = false
      ∧ (t.ctx w c).st = .swappingIn ∧ (t.ctx w c).resident = true ∧ (t.ctx w c).granule = g
      ∧ t.led.version = s.led.version + 1
      ∧ t = { s with led := { s.led with wings := t.led.wings, version := t.led.version } }
  | .swapCommit w =>
    ∃ p, (s.wing w).swap = some p ∧ (t.wing w).swap = none ∧ t.led.version = s.led.version + 1
      ∧ (t.wing w).counters.swapBytes = wrapAdd (s.wing w).counters.swapBytes p.bytes
      ∧ (p.out = true → (t.ctx w p.context).st = .out ∧ (t.ctx w p.context).resident = false
          ∧ (t.wing w).counters.swapsOut = wrapAdd (s.wing w).counters.swapsOut 1
          ∧ ∀ k n q b, (maskList 128 (s.wing w).tiles)[k]? = some n → physTile s n = some q → b < (s.ctx w p.context).region * 32768 →
              mread (t.obj (s.ctx w p.context).saveObj).content (k * ((s.ctx w p.context).region * 32768) + b)
                = mread (s.tile q).store (regionBase (s.ctx w p.context) + b))
      ∧ (p.out = false → (t.ctx w p.context).st = .runnable
          ∧ (t.wing w).counters.swapsIn = wrapAdd (s.wing w).counters.swapsIn 1)
  | .wingRemoveDone w =>
    (t.wing w).live = false ∧ (t.wing w).gen = (s.wing w).gen ∧ t.led.version = s.led.version + 1
      ∧ (∀ ref, (s.wing w).removing = some ref → ref ∉ t.led.longs)
      ∧ (∀ e, e ∈ t.tt.entries → e.wing ≠ some w)
  | .scrubDone w =>
    (t.wing w).scrub = none ∧ (t.wing w).reassign = none
      ∧ (∀ sc p, (s.wing w).scrub = some sc → sc.newParty = some p → (t.wing w).party = p)
      ∧ (∀ sc ref, (s.wing w).scrub = some sc → sc.ref = some ref → ref ∉ t.led.longs)
  | _ => True

end Sys2Proof.Safety
end

