-- ==== Sys2Proof/Safety/Messages.lean ====
section
/-! DEFINITION. Messages between modules (chapter 11): which are heard (R273), when each acts, and what it leaves. -/

namespace Sys2Proof.Safety

open Sys2Proof Sys2Proof.Machine

/-- The type and header of a message row (Table 11.5), but for ENTRY, which has rules of its own. -/
def messageRow (i : Instr) : Option (Nat × MsgHdr) :=
  match i with
  | .ringBlock h _ _ _ _ _ => some (0x0010, h)
  | .ringDone h _ _ _ => some (0x0011, h)
  | .mirrorWrite h _ _ _ => some (0x0020, h)
  | .mirrorAck h _ => some (0x0021, h)
  | .bcastData h _ _ _ => some (0x0030, h)
  | .bcastAck h _ => some (0x0031, h)
  | .reduceData h _ _ => some (0x0040, h)
  | .shardRequest h _ _ => some (0x0050, h)
  | .shardData h _ _ _ => some (0x0051, h)
  | .notHeld h _ => some (0x0052, h)
  | .remoteRead h _ _ _ => some (0x0060, h)
  | .remoteData h _ _ => some (0x0061, h)
  | _ => none

/-- The wing a row names exists (Table 0.5). -/
def namesWing (i : Instr) : Bool :=
  match i with
  | .ringBlock _ w _ _ _ _ => decide (w < 16)
  | .ringDone _ w _ _ => decide (w < 16)
  | _ => true

/-- A message that is taken and has not come before. -/
def heard (s : State) (type : Nat) (h : MsgHdr) : Bool := decide (arrival s type h = .taken) && !seenBefore s type h

/-- A message heard, and meant for this module. -/
def heardHere (s : State) (type : Nat) (h : MsgHdr) : Bool := heard s type h && decide (h.dst = Config.identity)

/-- Whether a ring is the one that a message means. -/
def sameRing (r : Ring) (h : MsgHdr) : Bool := r.live && decide (r.gen = h.refGen)

/-- The member from which a collective's block comes. -/
def blockFrom (g : Group) (back : Bool) : Nat := if back then g.member (g.index + 1) else g.member (g.index - 1)

/-- The round's entries, and what the keeper knows of the members once the round is closed. -/
def closed (s : State) (c : Nat) : State := closeRelock (closeHistories s (roundEntries s c)) c

/-- When a message, or an event of the fabric, has its effect. -/
def messageCompletes (i : Instr) (s : State) : Bool :=
  match i with
  | .entry h b _ =>
    decide (arrival s 1 h = .taken) && !decide (h.src = Config.identity) && allowed s h.src
      && (s.fabric.entries.find? (fun e => decide (e.src = h.src ∧ e.body.count = b.count))).isNone
  | .rollCallClose =>
    s.keeper.up && s.fabric.round.any (fun c => decide (c + 50 ≤ s.clock.count))
      && (decide (s.fabric.unsent < s.led.fab.absenceM) || s.fabric.withdrawn)
  | .fabricParamsApply => s.led.fab.next.any (fun n => decide (n.at_ ≤ s.clock.count))
  | .ringBlock h w _ _ _ _ => decide (w < 16) && heardHere s 0x0010 h
  | .ringDone h w _ leg => decide (w < 16) && heardHere s 0x0011 h && decide ((s.ring h.ref).owner leg = some Config.identity)
  | .remoteData h _ _ => heardHere s 0x0061 h
  | .remoteRead h o addr len =>
    heardHere s 0x0060 h && (s.obj o).live && decide ((s.obj o).st = .home ∧ addr + len ≤ (s.obj o).size ∧ 0 < len ∧ len ≤ 2 ^ 20)
  | .mirrorWrite h i party data =>
    let r := s.ring h.ref
    heardHere s 0x0020 h && sameRing r h && decide (r.taking = []) && decide (r.owner i = some h.src ∧ r.holder i = some Config.identity)
      && !keyAbsent s party && (storeMirror (remember s 0x0020 h) h.ref i party h.offset data).isSome
  | .mirrorAck h i =>
    let r := s.ring h.ref
    heardHere s 0x0021 h && sameRing r h && decide (r.owner i = some Config.identity ∧ r.holder i = some h.src) && (tget r.awaiting i).isSome
  | .mirrorAckTimeout n i => (s.ring n).live && (tget (s.ring n).awaiting i).any (fun m => decide (m + 20000 ≤ s.clock.count))
  | .bcastData h _ _ _ =>
    heardHere s 0x0030 h && decide (parentOf (remember s 0x0030 h) h.src Config.identity = (s.port h.port).peer)
  | .bcastAck h _ => heardHere s 0x0031 h
  | .reduceData h back data =>
    let g := s.group h.ref
    heardHere s 0x0040 h && g.live && decide (g.gen = h.refGen) && g.post.isSome && decide (h.src = blockFrom g back)
      && decide (g.start ≤ s.clock.count + 8) && g.ticket.isSome && blockFits s g back h.offset data.length
      && (if back then decide (g.index + 1 ≠ g.members.length) else decide (g.index ≠ 0))
  | .collectiveCommit n =>
    let g := s.group n
    g.post.isSome && g.complete && s.keeper.up && decide ((s.obj g.dest).st = .home)
  | .shardRequest h _ _ => heard s 0x0050 h
  | .shardData h k paced digest =>
    heardHere s 0x0051 h && (requestOf s k paced).any (fun r => decide (r.last = some h.src)) && decide (wantDigest s k = some digest)
  | .notHeld h k => heardHere s 0x0052 h && s.cellar.requests.any (fun r => decide (r.shard = k ∧ r.last = some h.src))
  | _ => false

/-- A completion that a peer may make (R256): its ticket is open, of this peer and of a context that still lives; it is done with,
and its data stand in its object. Another is discarded and counted as late (R257). -/
def delivered (s t : State) (n peer off : Nat) (data : Bytes) : Prop :=
  let x := tget s.tickets n
  (ticketOpen s n peer = true → ¬waits (tget t.tickets n)
      ∧ (∀ o, x.object = some o → (t.obj o).content = mstore (s.obj o).content (x.offset + off) data))
    ∧ (ticketOpen s n peer = false → t.led.objects = s.led.objects ∧ tget t.tickets n = x
        ∧ ((s.wing x.wing).live = true → (t.wing x.wing).counters.late = wrapAdd (s.wing x.wing).counters.late 1))

/-- A message given to a port: it is kept there until its frames are acknowledged (R276). -/
def sentOn (s t : State) (p : Nat) (m : OutMsg) : Prop :=
  ∃ k, k ∈ (t.port p).kept ∧ k.msg = m ∧ k.at_ = s.clock.count

/-- Only the fabric and the ports change. -/
def onlyFabric (s t : State) : Prop := t = { s with ports := t.ports, fabric := t.fabric }

/-- What a holder answers to a request for a shard (R227). -/
def shardAnswer (s : State) (h : MsgHdr) (root j : Nat) : OutMsg :=
  match ownShard s root j with
  | some k =>
    if (s.shard k).st = .valid then newMsg 0x0051 h.src h.ref h.refGen h.offset [j, (s.shard k).digest] []
    else newMsg 0x0052 h.src h.ref h.refGen h.offset [j] []
  | none => newMsg 0x0052 h.src h.ref h.refGen h.offset [j] []

/-- What a message, or an event of the fabric, leaves. -/
def messageDone (i : Instr) (s t : State) : Prop :=
  match i with
  | .entry h b near =>
    t.fabric.entries = s.fabric.entries ++ [{ src := h.src, onTime := decide (stampDist s b.count ≤ 8), body := b }]
      ∧ t.clock.count = s.clock.count ∧ t.clock.st = s.clock.st ∧ t.fabric.view = s.fabric.view
      ∧ (h.hop = 16 → b.timeState = TimeSt.value .locked → s.clock.st = .unset → near = false →
          t.clock.heard = s.clock.heard.filter (fun x => decide (x.peer ≠ h.src)) ++ [{ peer := h.src, stamp := b.count }])
  | .rollCallClose =>
    ∀ c, s.fabric.round = some c →
      t.fabric.round = none
        ∧ t.fabric.view = (candidatesOf (closed s c) (roundEntries s c) (excludedIds (closed s c) (roundEntries s c) c)).take 1024
        ∧ t.fabric.epoch = (if t.fabric.view = s.fabric.view then s.fabric.epoch else (s.fabric.epoch + 1) % 2 ^ 32)
        ∧ (∀ e, e ∈ t.fabric.entries → c < e.body.count) ∧ t.fabric.malformed = []
  | .fabricParamsApply =>
    ∀ n, s.led.fab.next = some n →
      t.led.fab = { interval := if n.interval = 0 then s.led.fab.interval else n.interval
                    absenceM := if n.absenceM = 0 then s.led.fab.absenceM else n.absenceM
                    allow := n.allow.getD s.led.fab.allow, next := none }
        ∧ (n.allow = none → t = { s with led := { s.led with fab := t.led.fab } })
  | .ringBlock h w ticket leg step data =>
    (sameRing (s.ring h.ref) h = true → (s.ring h.ref).wing = w →
        delivered s t ticket h.src h.offset data ∧ tget (t.ring h.ref).blocks leg = step)
      ∧ ((sameRing (s.ring h.ref) h = false ∨ (s.ring h.ref).wing ≠ w) → t.led.objects = s.led.objects ∧ t.tickets = s.tickets
          ∧ ((s.wing w).live = true → (t.wing w).counters.late = wrapAdd (s.wing w).counters.late 1))
  | .ringDone h w ticket _ =>
    (sameRing (s.ring h.ref) h = true → (s.ring h.ref).wing = w → delivered s t ticket h.src h.offset [])
      ∧ ((sameRing (s.ring h.ref) h = false ∨ (s.ring h.ref).wing ≠ w) → t.led.objects = s.led.objects ∧ t.tickets = s.tickets
          ∧ ((s.wing w).live = true → (t.wing w).counters.late = wrapAdd (s.wing w).counters.late 1))
  | .remoteData h ticket data => delivered s t ticket h.src h.offset data
  | .remoteRead h o addr len =>
    onlyFabric s t ∧ (∀ p, (trunk s (wingPorts s (s.obj o).wing) h.src)[h.ref % (Nat.max 1 (trunk s (wingPorts s (s.obj o).wing) h.src).length)]? = some p →
      sentOn s t p (newMsg 0x0061 h.src h.ref h.refGen h.offset [] (mload (s.obj o).content addr len)))
  | .mirrorWrite h i _ data =>
    (t.ring h.ref).mirrored.testBit i = true
      ∧ (∃ o, tget (t.ring h.ref).mirror i = some o ∧ ∀ k, k < data.length → mread (t.obj o).content (h.offset + k) = data.getD k 0)
  | .mirrorAck h i => tget (t.ring h.ref).awaiting i = none ∧ (t.ring h.ref).mirrored = (s.ring h.ref).mirrored
  | .mirrorAckTimeout n i =>
    tget (t.ring n).awaiting i = none
      ∧ (∀ o, legObj s n i = some o → (s.obj o).size ≠ 0 → (t.ring n).mirrored.testBit i = false)
  | .bcastData h j last _ =>
    (∃ b, b ∈ t.fabric.bcasts ∧ b.ident = identOf h ∧ b.source = h.src)
      ∧ (∀ b, installOf s (identOf h) .sink = some b → last = true → j < (s.base b).shards →
          (s.shard ((s.base b).shardOf j)).st ≠ .valid → (s.shard ((s.base b).shardOf j)).st ≠ .writing →
          (s.shard ((s.base b).shardOf j)).st ≠ .retired → (t.shard ((s.base b).shardOf j)).incoming = true)
      ∧ (installOf s (identOf h) .sink = none → t.cellar = s.cellar)
  | .bcastAck h j => onlyFabric s t ∧ ∃ a, a ∈ t.fabric.bcastAcks ∧ a.ident = identOf h ∧ a.shard = j ∧ a.child = h.src
  | .reduceData h back data =>
    let g := s.group h.ref
    (back = false → (t.group h.ref).summed = g.summed + data.length / 4)
      ∧ (back = true → (t.group h.ref).staged = g.staged + data.length / g.destBytes)
      ∧ (∀ n, n ≠ h.ref → t.group n = s.group n) ∧ t.clock = s.clock
  | .collectiveCommit n =>
    let g := s.group n
    (t.group n).post = none ∧ (t.group n).complete = false ∧ (∀ ref, g.post = some ref → ref ∉ t.led.longs) ∧ t.led.version = s.led.version + 1
      ∧ (g.staged ≠ 0 → (t.obj g.dest).content = mslice (s.obj g.staging).content 0 (groupElems s g * g.destBytes))
      ∧ (∀ o, o ≠ g.dest → t.obj o = s.obj o)
  | .shardRequest h root j =>
    onlyFabric s t ∧ (h.dst = Config.identity → ∀ p, nextHop s (routedPorts s (shardAnswer s h root j).type) h.src = some p →
      sentOn s t p (shardAnswer s h root j))
  | .shardData _ k paced _ => requestOf t k paced = none ∧ (paced = true → (t.shard k).incoming = true)
  | .notHeld h k =>
    ∃ r, s.cellar.requests.find? (fun r => decide (r.shard = k ∧ r.last = some h.src)) = some r
      ∧ (∀ i, nextHolder s (s.shard k).base r.asked = some i →
          ∃ r', requestOf t k r.paced = some r' ∧ r'.last = some i ∧ r'.asked = r.asked ++ [i] ∧ r'.since = s.clock.count)
      ∧ (nextHolder s (s.shard k).base r.asked = none → requestOf t k r.paced = none)
  | _ => True

end Sys2Proof.Safety
end

