-- ==== Sys2Proof/Safety/Power.lean ====
section
/-! DEFINITION. Power, reset and start-up (chapter 17): when each event of the input, of a pin, of a domain, of a start and of doze
acts, and what it leaves. -/

namespace Sys2Proof.Safety

open Sys2Proof Sys2Proof.Machine

/-- A boot step waits: a domain of it is unpowered, or a port trains in step 4 (R462). -/
def stepWaits (s : State) : Bool :=
  (stepDomains s.power.step).any (fun d => decide ((s.domain d).st = .off))
    || (decide (s.power.step = 4) && s.ports.any (fun p => decide (p.2.st = .training)))

/-- Only part of a domain is switched, or all of one that is on already, so its sequence leaves its state (Table 13.16). -/
def tilesOnly (x : Domain) : Bool := (x.run.map (fun r => decide (r.mask ≠ 0) || (r.on && decide (x.st = .on)))).getD false

/-- A domain's sequence can end: one of a Waylink group not while a port of it trains (Table 17.3). -/
def sequenceEnds (s : State) (d : Nat) : Bool :=
  match (s.domain d).st with
  | .settling => !(decide (8 ≤ d) && (groupPorts d).any (fun p => decide ((s.port p).st = .training)))
  | .falling => true
  | _ => tilesOnly (s.domain d)

/-- When such an event has its effect. -/
def powerCompletes (i : Instr) (s : State) : Bool :=
  match i with
  | .perstNAssert => true
  | .perstNDeassert => true
  | .pfailNAssert => mainOn s
  | .vinRiseAlwaysOn => decide (s.power.vin = .off)
  | .alwaysOnUp _ => !decide (s.power.vin = .off) && !s.power.alwaysOn
  | .vinFallAlwaysOff => true
  | .vinGood => !decide (s.power.vin = .off)
  | .vinHigh => !decide (s.power.vin = .off)
  | .vinOver => !decide (s.power.vin = .off)
  | .vinLow => vinFalls s
  | .vinLowNoWarn => vinFalls s
  | .vinBelowHoldup => vinFalls s
  | .voltageRecordRepeat => decide (s.power.vinSince + 1000000 ≤ s.clock.count) && decide (s.power.vin = .high ∨ s.power.vin = .low)
  | .domainPowerGood d => decide (d < 14) && decide ((s.domain d).st = .rising)
  | .powerGoodTimeout d => decide (d < 14) && decide ((s.domain d).st = .rising)
  | .domainSequenceDone d => decide (d < 14) && sequenceEnds s d
  | .dozeRequest =>
    normalMode s && (nextPacket s).isNone && !keeperEntryAt s (s.clock.count + 2) && !s.mgmt.warning && !s.power.perst
      && !s.tt.due.any (fun e => keeperClass e.cls)
  | .dozeWake source => !decide (source = .alarm) || alarmDue s
  | .wakeAlarm => alarmDue s
  | .bootStepDone _ => decide (1 ≤ s.power.step ∧ s.power.step ≤ 5) && !s.power.retryWait && !stepWaits s
  | .bootStepOverrun reason =>
    overrunReason reason && ((decide (s.power.step ≠ 0) && !s.power.retryWait) || (s.power.ready && s.keeper.resetting))
  | .retryWaitEnd => s.power.retryWait
  | _ => false

/-- The main domains have gone off (R444, R453): STAT ends at a value, no start begins until PERST_N toggles, what they held is
lost, and what the always-on domain keeps stands. -/
def mainGone (s t : State) (final : StatV) : Prop :=
  t.power.stat = final ∧ t.power.ready = false ∧ t.power.minimal = false ∧ t.power.step = 0 ∧ t.power.bootStep = 0
    ∧ (∀ d, (t.domain d).st = .off) ∧ t.keeper.up = false ∧ t.link.up = false ∧ t.stamped = []
    ∧ (∀ p, (t.tile p).store = [] ∧ (t.tile p).accs = [] ∧ (t.tile p).gate = false) ∧ (∀ fn, (t.fn fn).st = .absent)
    ∧ t.clock.count = s.clock.count ∧ t.power.failed = s.power.failed ∧ t.secure.baseKeys = s.secure.baseKeys

/-- The last journal write of a power-off has made every record durable, if the keeper ran in a READY module (R437, R444). -/
def lastWrite (s t : State) : Prop :=
  (s.keeper.up = true → s.power.ready = true → t.durable = s.led) ∧ (s.keeper.up = false → t.durable = s.durable)

/-- The main domains have gone off, after a last journal write or without one, where they were on. -/
def goneIfOn (s t : State) (final : StatV) (journal : Bool) : Prop :=
  mainOn s = true → mainGone s t final ∧ (journal = true → lastWrite s t) ∧ (journal = false → t.durable = s.durable)

/-- The conditions of R462 and R448 for a start, once PERST_N and the input are as given. -/
def startable (s : State) (perst : Bool) (vin : Vin) : Prop :=
  s.power.alwaysOn = true ∧ perst = false ∧ (vin = .good ∨ vin = .high) ∧ s.power.startsHeld = false ∧ s.power.step = 0 ∧ mainOn s = false

/-- A start has begun with step 1, which powers CXL (R462). -/
def started (s t : State) : Prop :=
  t.power.step = 1 ∧ t.power.stat = .boot ∧ t.power.bootStep = 0 ∧ ((s.domain 7).st = .off → (t.domain 7).st = .rising)

/-- The fault log holds a record of a code. -/
def recorded (t : State) (c : LogCode) : Prop := ∃ r ∈ t.keeper.log, r.code = c.value

/-- What is left once the input is at a value at which the Porter powers domains (R462). -/
def inputGood (s t : State) (v : Vin) : Prop :=
  t.power.vin = v ∧ t.power.vinSince = s.clock.count ∧ (startable s s.power.perst v → started s t)
    ∧ (s.power.step = 3 → ∀ d, d < 7 → (s.domain d).st = .off → (t.domain d).st = .rising)
    ∧ t.led = s.led ∧ t.clock = s.clock ∧ t.secure = s.secure

/-- What a boot step that has ended leaves: BOOT_STEP names it and the next one begins (R462). -/
def stepEnded (t : State) (n : Nat) : Prop := t.power.bootStep = n ∧ t.power.step = n + 1

/-- What such an event leaves. -/
def powerDone (i : Instr) (s t : State) : Prop :=
  match i with
  | .perstNAssert =>
    t.power.perst = true ∧ t.power.startsHeld = false ∧ goneIfOn s t .poweredOff true
      ∧ (mainOn s = false → t = { s with power := { s.power with perst := true, startsHeld := false } })
  | .perstNDeassert =>
    t.power.perst = false ∧ t.mgmt.boundaryDriven = false ∧ t.mgmt.jtagIr ≠ 0x00 ∧ t.mgmt.jtagIr ≠ 0x02 ∧ t.mgmt.jtagIr ≠ 0x03
      ∧ (startable s false s.power.vin → started s t) ∧ (¬startable s false s.power.vin → t.power = { s.power with perst := false })
      ∧ t = { s with power := t.power, mgmt := t.mgmt }
  | .pfailNAssert => mainGone s t .poweredOff ∧ lastWrite s t
  | .vinRiseAlwaysOn => t = { s with power := { s.power with vin := .alwaysOn, stat := .starting, faultN := true } }
  | .alwaysOnUp maddr =>
    t.power.alwaysOn = true ∧ t.power.faultN = false ∧ t.mgmt.maddr = maddr % 8 ∧ t.clock = default
      ∧ (startable { s with power := { s.power with alwaysOn := true, stat := .waiting } } s.power.perst s.power.vin → started s t)
      ∧ (¬startable { s with power := { s.power with alwaysOn := true, stat := .waiting } } s.power.perst s.power.vin → t.power.stat = .waiting)
      ∧ t = { s with clock := default, power := t.power, mgmt := t.mgmt }
  | .vinFallAlwaysOff =>
    t.power.alwaysOn = false ∧ t.power.vin = .off ∧ t.clock = default ∧ t.secure.baseKeys = [] ∧ t.secure.partyKeys = []
      ∧ t.secure.life = s.secure.life ∧ t.secure.transitions = s.secure.transitions ∧ t.secure.tamper = s.secure.tamper
      ∧ t.power.failed = s.power.failed ∧ t.power.perst = s.power.perst ∧ t.durable = s.durable ∧ t.keeper.stored = s.keeper.stored
      ∧ t.keeper.log = [] ∧ t.cellar.shards = s.cellar.shards
  | .vinGood => inputGood s t .good
  | .vinHigh => inputGood s t .high ∧ recorded t .inputHigh
  | .vinOver => recorded t .inputOver ∧ t.power.vin = .over ∧ goneIfOn s t .tripped true ∧ (mainOn s = true → t.power.faultN = true)
  | .vinLow =>
    recorded t .inputLow ∧ t = { s with power := { s.power with vin := .low, vinSince := s.clock.count }, keeper := t.keeper }
  | .vinLowNoWarn => recorded t .inputLowNoWarn ∧ t.power.vin = .noWarn ∧ goneIfOn s t .poweredOff true
  | .vinBelowHoldup => t.power.vin = .belowHoldup ∧ goneIfOn s t .poweredOff false
  | .voltageRecordRepeat =>
    recorded t (if s.power.vin = .high then LogCode.inputHigh else LogCode.inputLow)
      ∧ t = { s with power := { s.power with vinSince := s.clock.count }, keeper := t.keeper }
  | .domainPowerGood d =>
    (t.domain d).st = .settling ∧ (t.domain d).run = (s.domain d).run
      ∧ (8 ≤ d → ∀ p ∈ groupPorts d, (s.port p).st = .off → (t.port p).st = .training ∧ (t.port p).phase = 1)
      ∧ t = { s with power := { s.power with domains := t.power.domains }, ports := t.ports }
  | .powerGoodTimeout d =>
    (∀ r, (s.domain d).run = some r → r.ref ∉ t.led.longs ∧ ((s.domain d).queue = none → (t.domain d).st = .off ∧ (t.domain d).run = none))
      ∧ ((s.domain d).run = none → s.power.step = 0 → (t.domain d).st = .off)
      ∧ ((s.domain d).run = none → s.power.step ≠ 0 → (t.domain d).st = .off ∧ startFailed s t 0x0301)
  | .domainSequenceDone d =>
    (s.domain d).queue = none → s.fabric.retrains = [] →
      ((s.domain d).st = .settling → (t.domain d).st = .on) ∧ ((s.domain d).st = .falling → (∀ r, (s.domain d).run = some r → r.on = false) → (t.domain d).st = .off)
        ∧ (∀ r, (s.domain d).run = some r → s.keeper.up = true →
            r.ref ∉ t.led.longs ∧ (t.domain d).run = none ∧ (r.mask = 0 → tget t.led.domainsOff d = !r.on))
        ∧ (s.keeper.up = false → (t.domain d).run = (s.domain d).run)
  | .dozeRequest => t = { s with keeper := { s.keeper with doze := true, alarm := some (alarmFor s) } }
  | .dozeWake _ => t = { s with keeper := { s.keeper with doze := false } }
  | .wakeAlarm => t = { s with keeper := { s.keeper with doze := false } }
  | .bootStepDone f =>
    (s.power.step = 1 → s.secure.life = .scrapped → t.power.failed = Nat.min (s.power.failed + 1) 3 ∧ t.power.minimal = true
          ∧ t.power.minReason = 0x0201 ∧ t.power.stat = .minimal)
      ∧ (s.power.step = 1 → s.secure.life ≠ .scrapped → stepEnded t 1 ∧ (t.domain 7).st = .on ∧ (t.fn 0).st = .disabled ∧ t.led = s.led)
      ∧ (s.power.step = 2 → stepEnded t 2 ∧ t.keeper.up = true ∧ t.keeper.image = s.keeper.stored ∧ t.secure.ak.isSome = true
          ∧ t.secure.rk.isSome = true ∧ t.led = s.led
          ∧ (vinOk s = true → ∀ d, d < 7 → (s.domain d).st = .off → (t.domain d).st = .rising))
      ∧ (s.power.step = 3 → stackLost s f = true → t.power.failed = Nat.min (s.power.failed + 1) 3)
      ∧ (s.power.step = 3 → stackLost s f = false → stepEnded t 3 ∧ t.power.memActive = true ∧ (∀ d, d < 7 → (t.domain d).st = .on)
          ∧ (∀ u ∈ f.failedPcs, u < 512 → (t.pc u).retired = true) ∧ (∀ c ∈ f.badLoft, c < 16 → (t.loft c).st = .down)
          ∧ (twf default s.cellar.shards = true → ∀ k, (s.shard k).st = .writing → (t.shard k).st = .invalid))
      ∧ (s.power.step = 4 → stepEnded t 4 ∧ t.led = s.led ∧ ∀ d, 8 ≤ d → d < 14 → (t.domain d).st = .on)
      ∧ (s.power.step = 5 → t.power.ready = true ∧ t.power.stat = .ready ∧ t.power.bootStep = 5 ∧ t.power.step = 0 ∧ t.power.failed = 0
          ∧ s.durable.version + 2 ^ 24 ≤ t.led.version ∧ (t.fn 0).st = .enabled
          ∧ (∀ k, (t.sess k).st = .lapsed ∨ (t.sess k).st = .closed) ∧ t.secure.loftEpoch = s.secure.loftEpoch + 1)
  | .bootStepOverrun reason => startFailed s t reason
  | .retryWaitEnd => t = { s with power := { s.power with retryWait := false, step := 2 } }
  | _ => True

end Sys2Proof.Safety
end

