-- ==== Sys2Proof/Safety/Pins.lean ====
section
/-! DEFINITION. Temperatures, the management bus and the test access port (chapters 15 and 18): when each event acts, and what it
leaves. -/

namespace Sys2Proof.Safety

open Sys2Proof Sys2Proof.Machine

/-- The target can take a dynamic address: it has none (R482). -/
def addressFree (s : State) (a : Nat) : Bool := s.power.alwaysOn && s.mgmt.dynAddr.isNone && decide (a < 128)

/-- When such an event has its effect. -/
def pinCompletes (i : Instr) (s : State) : Bool :=
  match i with
  | .thermalWarningCross part t => decide (part < 24) && decide (warnLimit part ≤ t) && mainOn s
  | .thermalWarningClear => true
  | .thermalTrip part t => decide (part < 24) && decide (tripLimit part ≤ t) && mainOn s
  | .sensorFault part sensor => decide (part < 24) && s.power.alwaysOn && !decide (part < 8 ∧ sensorsOf part ≤ sensor)
  | .i3cSetdasa a d => decide (a = 0x68 + s.mgmt.maddr) && addressFree s d
  | .i3cEntdaa d => addressFree s d
  | .i3cRstdaa => s.power.alwaysOn
  | .i3cGetstatus => s.power.alwaysOn && s.mgmt.dynAddr.isSome
  | .jtagBypass => s.power.alwaysOn
  | .jtagIdcode => s.power.alwaysOn
  | .jtagExtest => s.power.alwaysOn && scanAccepted s
  | .jtagSample => s.power.alwaysOn && scanAccepted s
  | .jtagPreload _ => s.power.alwaysOn && scanAccepted s
  | .jtagDebug _ => s.power.alwaysOn && !debugAccepted s
  | _ => false

/-- A thermal trip: a power-off, TRIPPED, with its record; one during a start also counts as a failed start (R487, Table 17.11). -/
def tripped (s t : State) : Prop :=
  mainGone { s with power := { s.power with failed := t.power.failed } } t .tripped ∧ lastWrite s t ∧ t.power.faultN = true
    ∧ (s.keeper.log.length + 3 ≤ 1024 → recorded t .thermalTrip) ∧ t.mgmt.tripped = true
    ∧ t.power.failed = (if s.power.step ≠ 0 ∨ s.power.retryWait = true then Nat.min (s.power.failed + 1) 3 else s.power.failed)

/-- What such an event leaves. -/
def pinDone (i : Instr) (s t : State) : Prop :=
  match i with
  | .thermalWarningCross part x =>
    part ∈ t.mgmt.warned ∧ tget t.mgmt.temps part = x ∧ (part ∉ s.mgmt.warned → t.mgmt.warning = true)
      ∧ (part ∈ s.mgmt.warned → t.mgmt.warning = s.mgmt.warning ∧ t.fns = s.fns) ∧ t = { s with mgmt := t.mgmt, fns := t.fns, keeper := t.keeper }
  | .thermalWarningClear => t = { s with mgmt := { s.mgmt with warned := [], warning := false } }
  | .thermalTrip part x => tripped s t ∧ tget t.mgmt.temps part = x
  | .sensorFault part sensor =>
    (part, sensor) ∈ t.mgmt.sensorBad ∧ (s.keeper.log.length + 3 ≤ 1024 → recorded t .sensorFault)
      ∧ (if part < 8 ∧ (∀ i, i < sensorsOf part → (part, i) ∈ t.mgmt.sensorBad) then mainOn s = true → tripped s t
        else t = { s with mgmt := { s.mgmt with sensorBad := t.mgmt.sensorBad }, keeper := t.keeper })
  | .i3cSetdasa _ d => t = { s with mgmt := { s.mgmt with dynAddr := some d } }
  | .i3cEntdaa d => t = { s with mgmt := { s.mgmt with dynAddr := some d } }
  | .i3cRstdaa => t = { s with mgmt := { s.mgmt with dynAddr := none, ibi := none } }
  | .i3cGetstatus => t = { s with mgmt := { s.mgmt with lastRead := [0, if s.mgmt.ibi.isSome then 1 else 0] } }
  | .jtagBypass => t = { s with mgmt := { s.mgmt with jtagIr := 0xFF, boundaryDriven := false } }
  | .jtagIdcode => t = { s with mgmt := { s.mgmt with jtagIr := 0x01, boundaryDriven := false, lastRead := leBytes 4 idcodeValue } }
  | .jtagExtest => t = { s with mgmt := { s.mgmt with jtagIr := 0x00, boundaryDriven := true } }
  | .jtagSample =>
    t = { s with free := s.free + 1, mgmt := { s.mgmt with jtagIr := 0x02, boundaryDriven := false, boundary := t.mgmt.boundary } }
  | .jtagPreload value => t = { s with mgmt := { s.mgmt with jtagIr := 0x03, boundaryDriven := false, boundary := value } }
  | .jtagDebug _ => t = { s with mgmt := { s.mgmt with jtagIr := 0xFF, boundaryDriven := false } }
  | _ => True

/-- A boundary-scan instruction of the test access port. -/
def scans : Instr → Bool
  | .jtagExtest => true
  | .jtagSample => true
  | .jtagPreload _ => true
  | _ => false

end Sys2Proof.Safety
end

