-- ==== Sys2Proof/Safety/Protocol.lean ====
section
/-! DEFINITION. What the keeper does with a command that it does not carry out (chapters 12 and 13): the order of refusals, the
sequence table, PROBATION and minimal mode. -/

namespace Sys2Proof.Safety

open Sys2Proof Sys2Proof.Machine

/-- The next packet the keeper takes has this header, payload and code (R318); it may be marked unsound in its packet. -/
def arrives (code : Nat) (h : CmdHdr) (p : Bytes) (s : State) : Bool :=
  (nextPacket s).any (fun k => decide (k.hdr = h ∧ k.payload = p ∧ k.code = code))

/-- A command of a host session that is not LAPSED, under the next number, past whose window nothing is marked (R322, R329). -/
def bearsNext (h : CmdHdr) (s : State) : Bool :=
  let x := s.sess (ownKey h)
  decide (h.session ≤ 15 ∧ h.seq ≠ 0 ∧ (x.st = .opened ∨ x.st = .probation) ∧ x.gen = h.sgen ∧ x.next = h.seq
    ∧ tget x.marks (h.seq + 64) ≠ .skipped)

/-- A command that carries session 0xFFFF_FFFF, session generation 0 and sequence 0 (R323). -/
def outside (h : CmdHdr) : Bool := decide (h.session = 0xFFFFFFFF ∧ h.sgen = 0 ∧ h.seq = 0)

/-- The deadline of a command lies before the milepost in which it would commit (R330). -/
def late (h : CmdHdr) (s : State) : Bool := decide (h.deadline ≠ 0 ∧ h.deadline < s.clock.count)

/-- A refusal's reply (R313): final, at the present version and milepost. -/
def refusal (code : Nat) (h : CmdHdr) (u : State) (st : Status) (b : Bytes) : Reply := mkReply u (refOf h code) st true b

/-- Nothing is committed: the ledger keeps all but its host sessions, and nothing but the queues and the fault log changes. -/
def nothingCommitted (u t : State) : Prop :=
  t = { u with led := { u.led with sessions := t.led.sessions }, fns := t.fns, stamped := t.stamped, keeper := t.keeper }

/-- A command refused under its number: the refusal is sent, the number consumed, and the reply cached, but for a query that parses,
whose number is marked as one that changed nothing (Table 12.9, R340). MALFORMED is counted besides (Table 12.2, R328). -/
def refused (code : Nat) (cached : Bool) (h : CmdHdr) (u t : State) (st : Status) (b : Bytes) : Prop :=
  nothingCommitted u t ∧ h.seq < (t.sess (ownKey h)).next
    ∧ tget (t.sess (ownKey h)).marks h.seq = (if cached then .cached h.crc (refusal code h u st b) else .nothing code h.hostTag)
    ∧ (st ≠ .malformed → t.keeper = u.keeper ∧ t.fns = (pushReply u h.fn (refusal code h u st b)).fns)
    ∧ (st = .malformed → twf Fn.blank u.fns = true → (t.fn h.fn).counters.malformed = (u.fn h.fn).counters.malformed + 1)

/-- The first status of the keeper's general order that refuses a command: the deadline (R330), then parse, permission and generations
(R342), then the states that any wing it names is in (R443, R415). -/
def generalRefusal (c : KCmd) (h : CmdHdr) (p : Bytes) (s u : State) : Option Status :=
  if late h s then some .expired
  else if !(isNext c h p s && c.parse p) then some .malformed
  else if !c.perm u h p then some .notPermitted
  else if !c.gens u p then some .staleGeneration
  else if fenceRefuses c u p then some .wingFenced
  else if scrubRefuses c u p then some .wingScrubbing
  else none

/-- Whether the replay cache keeps a refusal: that of a query is kept only where it is MALFORMED or EXPIRED (R327, R330, R340). -/
def cacheKeeps (c : KCmd) (st : Status) : Bool := decide (c.cls ≠ .query) || decide (st = .malformed ∨ st = .expired)

/-- Answered outside the sequence: a reply is sent and nothing else changes. -/
def onlyAnswered (code : Nat) (h : CmdHdr) (w t : State) (st : Status) : Prop := t = pushReply w h.fn (refusal code h w st [])

/-- The same with MALFORMED, counted in the function's malformed-commands counter (R323). -/
def onlyMalformed (code : Nat) (h : CmdHdr) (w t : State) : Prop :=
  t = (pushReply w h.fn (refusal code h w .malformed [])).modFn h.fn (fun f =>
    { f with counters := { f.counters with malformed := f.counters.malformed + 1 } })

/-- R329: what a command of a host session that is not open, of a stale generation or LAPSED, is answered with. -/
def sessionRefusal (h : CmdHdr) (s : State) : Option Status :=
  let x := s.sess (ownKey h)
  if x.st = .closed then some .sessionUnknown
  else if x.gen ≠ h.sgen then some .staleGeneration
  else if x.st = .lapsed then some .sessionLapsed
  else none

/-- Table 12.9 for a number other than the next: what becomes of a command of a host session that is OPEN or in PROBATION. -/
def outOfTurn (c : KCmd) (h : CmdHdr) (p : Bytes) (s t : State) : Prop :=
  let u := taken c h s
  let x := u.sess (ownKey h)
  let same (n : Nat) : Prop := n = h.crc
  (x.next + 63 < h.seq → onlyAnswered c.code h u t .seqOutOfWindow)
    ∧ (x.next < h.seq → h.seq ≤ x.next + 63 → ∀ k, tget x.held h.seq = some k →
        (same k.hdr.crc → t = u) ∧ (¬same k.hdr.crc → onlyAnswered c.code h u t .seqReused))
    ∧ (x.next < h.seq → h.seq ≤ x.next + 63 → tget x.held h.seq = none →
        (64 ≤ x.held.length → onlyAnswered c.code h u t .gapOverflow)
          ∧ (x.held.length < 64 → ∃ k, k.hdr = h ∧ k.payload = p ∧ k.code = c.code
              ∧ t = u.modSess (ownKey h) (fun x => { x with held := tput x.held h.seq (some k) })))
    ∧ (h.seq + 64 < x.next → onlyAnswered c.code h u t .seqTooOld)
    ∧ (h.seq < x.next → x.next ≤ h.seq + 64 →
        (∀ n r, tget x.marks h.seq = .cached n r →
          (same n → t = pushReply u h.fn { r with replayed := true }) ∧ (¬same n → onlyAnswered c.code h u t .seqReused))
          ∧ (∀ n r, tget x.marks h.seq = .executing n r → (same n → t = u) ∧ (¬same n → onlyAnswered c.code h u t .seqReused))
          ∧ (tget x.marks h.seq = .skipped → onlyAnswered c.code h u t .seqSkipped)
          ∧ (∀ n g b, tget x.marks h.seq = .nothing n g → x.st = .opened → late h s = false → isNext c h p s = true → c.cls = .query →
              c.parse p = true → c.perm u h p = true → c.gens u p = true → c.body u h p = .query b →
              t = pushReply u h.fn (mkReply u (refOf h c.code) .ok true b)))

/-- The commands that PROBATION lets run (R328). -/
def inProbation (code : Nat) : Bool := decide (code = 0x0001 ∨ code = 0x0004 ∨ code = 0x0005 ∨ code = 0x0006)

/-- The commands that minimal mode accepts (R344). -/
def minimalCode (code : Nat) : Bool := decide (code = 0x0007 ∨ code = 0x0102 ∨ code = 0x0901 ∨ code = 0x0A01)

/-- A final reply of minimal mode: it carries the durable version (R323). -/
def minimalReply (code : Nat) (h : CmdHdr) (w : State) (st : Status) (b : Bytes) : State :=
  pushReply w h.fn { mkReply w (refOf h code) st true b with version := w.durable.version }

/-- What a command comes to in minimal mode (R344): one of the four, outside any session, in time and well formed, is answered as its
own rules say, or waits for the key it needs; every other command is answered MINIMAL_MODE; nothing is committed. -/
def minimalDone (c : KCmd) (h : CmdHdr) (p : Bytes) (s t : State) : Prop :=
  let w := takenFrom s
  t.led = s.led
    ∧ (minimalCode c.code = false → t = minimalReply c.code h w .minimalMode [])
    ∧ (minimalCode c.code = true → outside h = true → late h s = false → isNext c h p s = true → c.parse p = true → c.perm w h p = true →
        (∀ b, c.body w h p = .query b → t = minimalReply c.code h w .ok b)
          ∧ (∀ st b, c.body w h p = .refuse st b → st ≠ .malformed → t = minimalReply c.code h w st b)
          ∧ (∀ f, c.body w h p = .later f → t = f w))
    ∧ (minimalCode c.code = true → outside h = true → late h s = true → t = minimalReply c.code h w .expired [])

end Sys2Proof.Safety
end

