-- ==== Sys2Proof/Safety/Queues.lean ====
section
/-! DEFINITION. The queues of a function and the timers of host sessions (chapter 12): when each event acts, and what it leaves. -/

namespace Sys2Proof.Safety

open Sys2Proof Sys2Proof.Machine

/-- A host session that takes commands. -/
def sessionTakes (x : Session) : Bool := decide (x.st = .opened ∨ x.st = .probation)

/-- A timer of a host session can act: its session exists, and the keeper runs to make its record (R334, R438). -/
def timerRuns (s : State) (fn n : Nat) : Bool := decide (fn < 256) && decide (n < 16) && s.keeper.up

/-- When such an event has its effect. -/
def queueCompletes (i : Instr) (s : State) : Bool :=
  match i with
  | .cmdDoorbell fn _ _ => decide (fn < 256) && queuesOpen s fn && !(s.fn fn).window
  | .replyHeadWrite fn _ => decide (fn < 256) && queuesOpen s fn && !(s.fn fn).window
  | .noticeHeadWrite fn _ => decide (fn < 256) && queuesOpen s fn && !(s.fn fn).window
  | .cmdWindowWrite fn _ _ => decide (fn < 256) && queuesOpen s fn && (s.fn fn).window
  | .replyWindowRead fn _ => decide (fn < 256)
  | .noticeWindowRead fn _ => decide (fn < 256)
  | .packetArrivalTimeout fn => decide (fn < 256) && (s.fn fn).words.head?.any (fun w => decide (w.at_ + 1000 < s.clock.count))
  | .gapNoticeTimeout fn n =>
    let x := s.sess (sessKey fn n)
    timerRuns s fn n && sessionTakes x && (oldestHeld x).any (fun o => decide (x.gapNoticed ≠ o.2 ∧ o.1 + x.gap ≤ s.clock.count))
  | .gapSkipTimeout fn n =>
    let x := s.sess (sessKey fn n)
    timerRuns s fn n && sessionTakes x && (oldestHeld x).any (fun o => decide (o.1 + 2 * x.gap ≤ s.clock.count))
  | .leaseExpiry fn n =>
    let x := s.sess (sessKey fn n)
    timerRuns s fn n && sessionTakes x && decide (x.leaseEnd < s.clock.count)
      && !(s.stamped.any (fun p => decide (p.hdr.fn = fn ∧ p.hdr.session = n ∧ p.hdr.sgen = x.gen ∧ p.hdr.stamp ≤ x.leaseEnd)))
  | .lapseHoldExpiry fn n =>
    let x := s.sess (sessKey fn n)
    timerRuns s fn n && decide (x.st = .lapsed ∧ x.lapsedAt + x.lapseHold ≤ s.clock.count)
  | .probationEnd fn n =>
    let x := s.sess (sessKey fn n)
    timerRuns s fn n && decide (x.st = .probation ∧ x.lastMalformed + 1000000 ≤ s.clock.count)
  | _ => false

/-- How many words a doorbell or head write moves its index by. -/
def moved (value index : Nat) : Nat := (value % 2 ^ 32 + 2 ^ 32 - index) % 2 ^ 32

/-- Words from one index up to another. -/
def apart (high low : Nat) : Nat := (high + 2 ^ 32 - low) % 2 ^ 32

/-- Only a function, and what a notice reaches, change. -/
def onlyQueues (s t : State) : Prop := t = { s with fns := t.fns, keeper := t.keeper }

/-- A write that moves an index past what the ring holds is ignored and counted (R303). -/
def doorbellIgnored (s t : State) (fn : Nat) : Prop :=
  (t.fn fn).counters.doorbellFaults = (s.fn fn).counters.doorbellFaults + 1 ∧ (t.fn fn).cmdProd = (s.fn fn).cmdProd
    ∧ (t.fn fn).cmdHead = (s.fn fn).cmdHead ∧ (t.fn fn).replyHead = (s.fn fn).replyHead ∧ (t.fn fn).noticeHead = (s.fn fn).noticeHead
    ∧ (t.fn fn).words = (s.fn fn).words ∧ onlyQueues s t

/-- One good word that is a whole packet of a function with no other words: it is stamped with the present milepost and put in
its place, and CMD_HEAD moves past it (R307, R311, R317, R318). -/
def oneWordTaken (s t : State) (fn v : Nat) : Prop :=
  let f := s.fn fn
  ∀ b k, decodeWord v = .clean b → f.words = [] → wordsField b = 0 → indexField b = 0 → phaseField b = currentPhase f f.cmdHead →
    parsePacket fn s.clock.count 1 (wordBytes b) = some k →
      t.stamped = insertBy packetBefore { k with hdr := { k.hdr with stamp := s.clock.count } } s.stamped
        ∧ (t.fn fn).cmdHead = (f.cmdHead + 1) % 2 ^ 32 ∧ (t.fn fn).words = []

/-- The word that a window read finds none in its place returns (R310). -/
def notValid (s t : State) (next reason : Nat) : Prop :=
  t.mgmt.lastRead = leBytes 64 (notValidWord s.led.version s.clock.count next reason s.clock.st.value) ∧ t = { s with mgmt := t.mgmt }

/-- What such an event leaves. -/
def queueDone (i : Instr) (s t : State) : Prop :=
  match i with
  | .cmdDoorbell fn value words =>
    let f := s.fn fn
    if apart (f.cmdHead + 2 ^ f.cmdLog) f.cmdProd < moved value f.cmdProd then doorbellIgnored s t fn
    else
      (t.fn fn).cmdProd = value % 2 ^ 32
        ∧ (f.stopped = true ∨ moved value f.cmdProd = 0 → (t.fn fn).words = f.words ∧ t = { s with fns := t.fns })
        ∧ (f.stopped = false → moved value f.cmdProd ≠ 0 → ringsReach s fn = false →
            (t.fn fn).stopped = true ∧ (t.fn fn).faulted = true ∧ (t.fn fn).words = [] ∧ onlyQueues s t)
        ∧ (f.stopped = false → moved value f.cmdProd = 1 → ringsReach s fn = true → ∀ v, words = [v] → oneWordTaken s t fn v)
  | .replyHeadWrite fn value =>
    let f := s.fn fn
    if apart f.replyTail f.replyHead < moved value f.replyHead then doorbellIgnored s t fn
    else
      (t.fn fn).replyHead = value % 2 ^ 32 ∧ t = { s with fns := t.fns }
        ∧ (f.replyWait = [] → (t.fn fn).replyWords = f.replyWords.drop (moved value f.replyHead))
  | .noticeHeadWrite fn value =>
    let f := s.fn fn
    if apart f.noticeTail f.noticeHead < moved value f.noticeHead then doorbellIgnored s t fn
    else
      (t.fn fn).noticeHead = value % 2 ^ 32 ∧ (t.fn fn).noticeWords = f.noticeWords.drop (moved value f.noticeHead) ∧ t = { s with fns := t.fns }
  | .cmdWindowWrite fn offset data =>
    let f := s.fn fn
    (data.length = 8 → offset = 0 → f.part = [] → (t.fn fn).part = [leNat data] ∧ (t.fn fn).words = f.words ∧ t = { s with fns := t.fns })
      ∧ (data.length = 8 → offset = 8 * f.part.length → 0 < f.part.length → f.part.length < 7 →
          (t.fn fn).part = f.part ++ [leNat data] ∧ (t.fn fn).words = f.words ∧ t = { s with fns := t.fns })
      ∧ (data.length = 64 → offset = 0 → f.part = [] → f.stopped = true → t = s)
      ∧ (data.length = 64 → offset = 0 → f.part = [] → f.stopped = false → 64 ≤ f.words.length →
          (t.fn fn).counters.headerFailures = f.counters.headerFailures + 1 ∧ t.stamped = s.stamped)
      ∧ (data.length = 64 → offset = 0 → f.part = [] → f.stopped = false → oneWordTaken s t fn (leNat data))
  | .replyWindowRead fn width =>
    match windowReason s fn width, (s.fn fn).replyWords with
    | some r, _ => notValid s t 0 r
    | none, [] => notValid s t 0 (emptyReason (s.fn fn))
    | none, (r, k) :: rest =>
      t.mgmt.lastRead = leBytes 64 (packWord (replyBytes r) (replyWordCount r) k 1) ∧ t = { s with mgmt := t.mgmt, fns := t.fns }
        ∧ (t.fn fn).replyHead = ((s.fn fn).replyHead + 1) % 2 ^ 32 ∧ ((s.fn fn).replyWait = [] → (t.fn fn).replyWords = rest)
  | .noticeWindowRead fn width =>
    match windowReason s fn width, (s.fn fn).noticeWords with
    | some r, _ => notValid s t ((s.fn fn).noticeSeq + 1) r
    | none, [] => notValid s t ((s.fn fn).noticeSeq + 1) (emptyReason (s.fn fn))
    | none, (n, k) :: rest =>
      t.mgmt.lastRead = leBytes 64 (packWord (noticeBytes n) (noticeWordCount n) k 1) ∧ t = { s with mgmt := t.mgmt, fns := t.fns }
        ∧ (t.fn fn).noticeHead = ((s.fn fn).noticeHead + 1) % 2 ^ 32 ∧ (t.fn fn).noticeWords = rest
  | .packetArrivalTimeout fn =>
    (s.fn fn).counters.headerFailures < (t.fn fn).counters.headerFailures
      ∧ (∀ w, (s.fn fn).words = [w] → (t.fn fn).words = [] ∧ (t.fn fn).cmdHead = ((s.fn fn).cmdHead + 1) % 2 ^ 32 ∧ t.stamped = s.stamped)
  | .gapNoticeTimeout fn n =>
    ∀ o, oldestHeld (s.sess (sessKey fn n)) = some o →
      (t.sess (sessKey fn n)).gapNoticed = o.2 ∧ (t.sess (sessKey fn n)).next = (s.sess (sessKey fn n)).next
        ∧ t = { s with led := { s.led with sessions := t.led.sessions }, fns := t.fns, keeper := t.keeper }
  | .gapSkipTimeout fn n =>
    let x := s.sess (sessKey fn n)
    ∀ o, oldestHeld x = some o → 0 < x.next → x.next < o.2 → tlook x.held x.next = none →
      tget (t.sess (sessKey fn n)).marks x.next = .skipped ∧ x.next < (t.sess (sessKey fn n)).next
        ∧ t = { s with led := { s.led with sessions := t.led.sessions }, stamped := t.stamped }
  | .leaseExpiry fn n =>
    let y := t.sess (sessKey fn n)
    y.st = .lapsed ∧ y.before = (s.sess (sessKey fn n)).st ∧ y.held = [] ∧ y.lapsedAt = s.clock.count
      ∧ y.marks = (s.sess (sessKey fn n)).marks ∧ y.next = (s.sess (sessKey fn n)).next ∧ t.led.longs = s.led.longs
  | .lapseHoldExpiry fn n =>
    let y := t.sess (sessKey fn n)
    y.st = .closed ∧ y.marks = [] ∧ y.held = [] ∧ y.gen = (s.sess (sessKey fn n)).gen ∧ t.led.longs = s.led.longs
  | .probationEnd fn n =>
    (t.sess (sessKey fn n)).st = .opened ∧ (t.sess (sessKey fn n)).malformed = []
      ∧ t = { s with led := { s.led with sessions := t.led.sessions } }
  | _ => True

end Sys2Proof.Safety
end

