-- ==== Sys2Proof/Safety/Time.lean ====
section
/-! DEFINITION. Milepost time (chapter 2): the invariant of the clock, when each clock event acts, and what it leaves. -/

namespace Sys2Proof.Safety

open Sys2Proof Sys2Proof.Machine

/-! ### The clock's invariant -/

/-- What holds of the clock after every step: LOCKED and RELOCK have a qualified MPCLK, HOLDOVER and ADRIFT have none (R23,
R24, R28); TIME_HOLDOVER is set from the loss until LOCKED again (R24, R28); a module that has left UNSET has been LOCKED
(R29); the run of good periods stops at the 64 that qualify MPCLK (R28). -/
def ClockInv (c : Clock) : Prop :=
  (c.st = .locked ∨ c.st = .relock → c.qualified = true)
    ∧ (c.st = .holdover ∨ c.st = .adrift → c.qualified = false)
    ∧ (c.holdoverFlag = true ↔ c.st = .holdover ∨ c.st = .adrift ∨ c.st = .relock)
    ∧ (c.everLocked = true ↔ c.st ≠ .unset)
    ∧ c.goodRun ≤ 64

/-! ### When a clock event acts -/

/-- Nothing but the clock has changed. -/
def onlyClock (s t : State) : Prop := t = { s with clock := t.clock }

/-- When an event of the clock has its effect: the always-on domain is up (R15), and the event's own rule holds. -/
def clockCompletes (i : Instr) (s : State) : Bool :=
  let c := s.clock
  match i with
  | .mpclkEdge _ _ => s.power.alwaysOn
  | .localMilepostEdge => s.power.alwaysOn
  | .countAdopt => s.power.alwaysOn && decide (c.st = .unset) && c.qualified && c.seed.isNone && decide (c.heard ≠ [])
  | .mpclkLoss missing => s.power.alwaysOn && c.qualified && (decide (2 ≤ missing) || decide (4 ≤ c.badRun))
  | .mpclkRequalify => s.power.alwaysOn && !c.qualified && decide (64 ≤ c.goodRun)
  | .slewDone => decide (c.st = .relock ∧ c.offset = 0 ∧ c.slewed = false)
  | .holdoverLimit => decide (c.st = .holdover ∧ c.lastGood + 1000000 ≤ c.count)
  | .timeUnsetReminder => decide (c.st = .unset ∧ s.power.ready = true ∧ c.count % 1000000 = 0)
  | .mpCountRead => s.power.alwaysOn
  | _ => false

/-- How many of the heard peers report a stamp (R20). -/
def reports (l : List Heard) (m : Nat) : Nat := (l.filter (fun h => decide (h.stamp = m))).length

/-- Stamp `m` is the one R20 takes: reported by most LOCKED peers, the larger of two reported equally. -/
def stampTaken (l : List Heard) (m : Nat) : Prop :=
  (∃ h ∈ l, h.stamp = m) ∧ ∀ h ∈ l, reports l h.stamp < reports l m ∨ (reports l h.stamp = reports l m ∧ h.stamp ≤ m)

/-- What a local edge leaves of the count and the state (R15, R20, R21, R25, R28). -/
def edgeCount (c d : Clock) : Prop :=
  (c.st = .locked ∨ c.st = .holdover ∨ c.st = .adrift → d.count = c.count + 1 ∧ d.st = c.st)
    ∧ (c.st = .relock → 1 < c.holdFor → d.count = c.count ∧ d.st = .relock ∧ d.holdFor = c.holdFor - 1)
    ∧ (c.st = .relock → c.holdFor = 1 → d.count = c.count ∧ d.st = .locked)
    ∧ (c.st = .relock → c.holdFor = 0 → c.lockNext = false → c.slewed = true → ∀ m, stampTaken c.heard m →
        (c.count ≤ m → d.count = m + 1 ∧ d.st = .locked)
          ∧ (m + 1 < c.count → d.count = c.count ∧ d.st = .relock ∧ d.holdFor = c.count - m - 1)
          ∧ (m + 1 = c.count → d.count = c.count ∧ d.st = .locked))
    ∧ (c.st = .unset → c.qualified = false → d.count = c.count + 1 ∧ d.st = .unset)
    ∧ (c.st = .unset → c.qualified = true → ∀ n, c.seed = some n → d.count = n ∧ d.st = .locked)
    ∧ (c.st = .unset → c.qualified = true → c.seed = none → ∀ m, stampTaken c.heard m → d.count = m + 1 ∧ d.st = .locked)

/-- The phase offset after a local edge (R15, R17): moved by at most 4 ns toward 0 in LOCKED and RELOCK; 0 where no MPCLK
edge came within the milepost. -/
def edgeOffset (c : Clock) (d : Clock) : Prop :=
  (c.edgeSeen = false → d.offset = 0)
    ∧ (c.edgeSeen = true → c.qualified = true → c.st = .locked →
        d.offset = if c.offset > 4 then c.offset - 4 else if c.offset < -4 then c.offset + 4 else 0)
    ∧ (c.edgeSeen = true → c.st = .holdover ∨ c.st = .adrift → c.qualified = false → d.offset = c.offset)

/-- The entries that fall due at an edge at which the count rises by one (R29, R30): every set entry whose milepost has
come, whose class acts and whose wing is not fenced leaves the list of entries and joins those that act. -/
def edgeEntries (s t : State) : Prop :=
  ∀ e, e ∈ s.tt.entries →
    if e.mp ≤ s.clock.count + 1 ∧ classActs s e.cls = true ∧ fenceHolds s e = false then e ∈ t.tt.due ∧ e ∉ t.tt.entries
    else e ∈ t.tt.entries

/-- What a clock event leaves. -/
def clockDone (i : Instr) (s t : State) : Prop :=
  let c := s.clock
  let d := t.clock
  match i with
  | .mpclkEdge dt offset =>
    onlyClock s t ∧ d.offset = offset ∧ d.count = c.count ∧ d.st = c.st
      ∧ (dt < 900 → d.glitches = c.glitches + 1 ∧ d.goodRun = c.goodRun ∧ d.badRun = c.badRun)
      ∧ (980 ≤ dt → dt ≤ 1020 → d.glitches = c.glitches ∧ d.goodRun = Nat.min (c.goodRun + 1) 64 ∧ d.badRun = 0)
      ∧ (900 ≤ dt → dt < 980 ∨ 1020 < dt → d.glitches = c.glitches ∧ d.goodRun = 0 ∧ d.badRun = c.badRun + 1)
  | .localMilepostEdge =>
    edgeCount c d ∧ edgeOffset c d ∧ d.echo = true ∧ d.heard = []
      ∧ (c.st = .locked ∨ c.st = .holdover ∨ c.st = .adrift → edgeEntries s t)
  | .countAdopt => ∃ m, stampTaken c.heard m ∧ d.count = m + 1 ∧ d.st = .locked ∧ d.holdoverFlag = false
  | .mpclkLoss _ =>
    d.qualified = false ∧ d.count = c.count
      ∧ (c.st = .locked → d.st = .holdover ∧ d.holdoverFlag = true)
      ∧ (c.st = .relock → d.holdoverFlag = true ∧
          d.st = (if c.lastGood + 1000000 ≤ c.count then .adrift else .holdover))
      ∧ (c.st = .unset ∨ c.st = .holdover ∨ c.st = .adrift → onlyClock s t ∧ d.st = c.st ∧ d.holdoverFlag = c.holdoverFlag)
  | .mpclkRequalify =>
    onlyClock s t ∧ d.qualified = true ∧ d.count = c.count
      ∧ d.st = (if c.st = .holdover ∨ c.st = .adrift then .relock else c.st)
      ∧ (c.st = .holdover ∨ c.st = .adrift → d.slewed = false ∧ d.fromAdrift = decide (c.st = .adrift))
  | .slewDone => t = s.modClock (fun c => { c with slewed := true, slewAt := c.count })
  | .holdoverLimit => d.st = .adrift ∧ d.holdoverFlag = true ∧ d.count = c.count ∧ t.fabric.withdrawn = true
  | .timeUnsetReminder => t = notify s .timeUnset {} []
  | .mpCountRead =>
    t = { s with snapshot := { count := c.count, st := c.st, uncertainty := uncertainty s, phase := c.offset }
                 mgmt := { s.mgmt with lastRead := leBytes 8 c.count } }
  | _ => True

end Sys2Proof.Safety
end

