-- ==== Sys2Proof/Certificates/Slice0/Obligations.lean ====
section
/-! DEFINITION. The statements about the module, for the provers. -/

open Sys2Proof Sys2Proof.Machine Sys2Proof.Safety

/-- A TVX row that writes OUT gives every active lane the value of Table 5.3 (R87, R89, R90, R94, R97, R103, R105). For ADD, SUB,
MUL, FMA, MIN, MAX, ABS, NEG, SEL, EXP2, LOG2, RCP, SQRT, RSQRT, TANH, CVT, QUANT, IADD, IAND, IOR, IXOR, ISHL, ISHR, RAND,
DROP, RTRED and RTOUT: where the tile's engine stands at the row's word and its streams are good, exec answers a next state in
which only that tile and the watch counters have changed, the engine stands past the word with its streams advanced, every
byte outside the range OUT touches is unchanged, a lane that is never active keeps its generator, and, for one vector written
to consecutive elements, every active lane's element is the value of Table 5.3 in OUT's format. Elements that several vectors
write to one place are left to the model's order. Where the spec leaves a point open it rests on the model's choices (log
entries 22 to 26). -/
def Obligations.TvxElements : Prop :=
  ∀ i op tile a s, elementRow i = some (op, tile, a) → opCompletes op tile a s = true →
    ∃ t, exec i s = .next t ∧ onlyTile tile s t ∧ elementDone i op tile a s t

/-- The TVX rows that write no stream do what Table 5.3 says, and STREAM sets its slot (R87, R88, R94, R97, R106, R107). For NOP,
END, LOOP, WAIT, POST, TAG, SLD, CMP, MSET, MAND, MOR, MXOR, MNOT, GSEED, RTZ and RTACC: where the tile's engine stands at the
row's word and its streams are good, exec answers a next state in which only that tile has changed, its store is as before,
and its engine is what controlAfter gives (program counter, masks, scalars, flags, generators, reduction tile). For STREAM the
slot holds the row's fields, at position 0. Where the spec leaves a point open it rests on the model's choices (log entries 22
to 26). -/
def Obligations.TvxControl : Prop :=
  (∀ i op tile a s, controlRow i = some (op, tile, a) → opCompletes op tile a s = true →
    ∃ t, exec i s = .next t ∧ onlyTile tile s t ∧ (t.tile tile).store = (s.tile tile).store
      ∧ controlAfter i (s.tile tile).engine (spaceAt s tile) (t.tile tile).engine)
    ∧ ∀ tile a s, streamFits a = true → engineAt s tile (encodeStream a) = true →
        ∃ t, exec (.stream tile a) s = .next t ∧ onlyTile tile s t ∧ (t.tile tile).store = (s.tile tile).store
          ∧ (t.tile tile).engine =
              advancePc { (s.tile tile).engine with
                streams := tput (s.tile tile).engine.streams a.slot { (default : Stream) with args := a, pos := 0 } }

/-- SHADOW_LOAD, BLOCK_SWAP and ARRAY_ROW: what the array holds and which terms a row gives (R36, R40, R41, R44, R50, R59).
SHADOW_LOAD puts the prepared integers and scales of a block into the shadow. BLOCK_SWAP makes the shadow active and empties
it. ARRAY_ROW adds the row's terms behind those that wait; in W4A8 a column's term is scale times the exact sum over the group
of (q - zc + 8) times x, or the canonical NaN where the group's scale is not finite. Nothing else changes. Where the spec
leaves a point open it rests on the model's choices (log entries 28). -/
def Obligations.WeightPath : Prop :=
  (∀ tile b s, loadCompletes tile b s = true → ∃ t, exec (.shadowLoad tile b) s = .next t ∧ loadDone tile b s t)
    ∧ (∀ tile s c, swapCompletes tile s = true → (s.tile tile).shadow = some c →
        exec (.blockSwap tile) s = .next (s.modTile tile (fun x => { x with active := some c, shadow := none })))
    ∧ (∀ tile r s, rowCompletes tile r s = true → ∃ t, exec (.arrayRow tile r) s = .next t ∧ rowDone tile r s t)

/-- ACC_OPEN and PROMOTION: an accumulation is opened or chained, and an element takes its next unit (R65, R68, R69, R74, R75).
ACC_OPEN of a first link opens the tracker's accumulation with every element +0; of a later link it goes on in place with
every element's bits. PROMOTION without a corrected error gives the element its old value plus the exact sum of its next
unit's terms, rounded once, removes those terms and changes no other element; one with a corrected error does the same, and
the tile's counter of corrected errors counts it. Where the spec leaves a point open it rests on the model's choices (log
entries 27). -/
def Obligations.AccumulatorFile : Prop :=
  (∀ tile a s, openCompletes tile a s = true → ∃ t, exec (.accOpen tile a) s = .next t ∧ openDone tile a s t)
    ∧ (∀ tile a s, chainCompletes tile a s = true → ∃ t, exec (.accOpen tile a) s = .next t ∧ chainDone tile a s t)
    ∧ (∀ tile tracker row col corrected s, promotionCompletes tile tracker row col s = true →
        ∃ t, promotionDone tile tracker row col s t
          ∧ exec (.promotion tile tracker row col corrected) s = .next (if corrected then tileCorrected t tile else t))

/-- DRAIN writes every element of a closed accumulation, rounded once, and frees its tracker (R76, R78, R79, R80, R106, R120,
R171). Where its accumulation is closed and its rows lie in the program space, DRAIN answers a next state: every element of
the columns below N stands at its place, rounded once from the exact product with its row's scale, no other byte of the store
(or, for a gradient drain, no other object) changes, the tracker is free, the flag is set and the bank of its tag gains the
counts. A waiting open is then tried again. A gradient drain into a quarter-store slice that is not the wing's ends its
context with STORE_BOUNDS, writes nothing into the object and adds 1 to the wing's bounds-fault counter. Where the spec leaves
a point open it rests on the model's choices (log entries 27, 28 and 63). -/
def Obligations.Drain : Prop :=
  (∀ tile d s, drainCompletes tile d s = true →
    ∃ t, exec (.drain tile d) s = .next (retryOpen tile t) ∧ drainDone tile d s t
      ∧ ((s.tile tile).waiting = none → retryOpen tile t = t))
  ∧ ∀ tile d s w c, tile < 136 → drainOutside tile d s = some (w, c) → (s.ctx w c).live = true →
      ∃ t, exec (.drain tile d) s = .next t ∧ (t.ctx w c).live = false
        ∧ (t.wing w).counters.bounds = wrapAdd (s.wing w).counters.bounds 1

/-- The clock's events: MPCLK edges, local milepost edges, adoption, loss, requalification, slew and holdover (R15, R17, R18, R20,
R21, R24, R25, R28, R29, R384). For each of these rows (MPCLK_EDGE, LOCAL_MILEPOST_EDGE, COUNT_ADOPT, MPCLK_LOSS,
MPCLK_REQUALIFY, SLEW_DONE, HOLDOVER_LIMIT, TIME_UNSET_REMINDER, MP_COUNT_READ), at every state and operands for which
clockCompletes holds, exec answers a next state, and clockDone says what it holds. Where the spec leaves a point open it rests
on the model's choices (log entries 18 to 20 and 53). -/
def Obligations.ClockRows : Prop :=
  ∀ i s, familyOf i = .clock → clockCompletes i s = true → ∃ t, exec i s = .next t ∧ clockDone i s t

/-- A due timetable entry acts: roll call, failover, fence, stage end, scrub, stage start, Cellar slot, collective, ticket expiry,
digest sweep (R32, R34, R224, R225, R247, R248, R257, R277, R289, R296, R412, R443). For each of these rows (ROLL_CALL,
FAILOVER, FENCE, STAGE_END, SCRUB, STAGE_START, CELLAR_SLOT, COLLECTIVE, TICKET_EXPIRY, DIGEST_SWEEP), at every state and
operands for which stageCompletes holds, exec answers a next state, and stageDone says what it holds. Where the spec leaves a
point open it rests on the model's choices (log entries 61, 83, 93 and 94). -/
def Obligations.TimetableRows : Prop :=
  ∀ i s, familyOf i = .entry → stageCompletes i s = true → ∃ t, exec i s = .next t ∧ stageDone i s t

/-- What happens at and after a wing's boundary: a switch, a park, swaps out and in, the end of a removal and of a scrub (R240,
R245, R246, R248, R250, R254, R255, R258, R259, R260, R416). For each of these rows (SWITCH_EDGE, PARK_THRESHOLD,
SWAP_OUT_START, SWAP_IN_START, SWAP_COMMIT, WING_REMOVE_DONE, SCRUB_DONE), at every state and operands for which
stageCompletes holds, exec answers a next state, and stageDone says what it holds. Where the spec leaves a point open it rests
on the model's choices (log entries 81, 83, 93 and 96). -/
def Obligations.BoundaryRows : Prop :=
  ∀ i s, familyOf i = .boundary → stageCompletes i s = true → ∃ t, exec i s = .next t ∧ stageDone i s t

/-- Passes and updates: admission, the ends of forward and backward passes, update jobs, the step's commit and the pass's end
(R110, R111, R115, R116, R121, R124, R157, R161, R252, R253, R349, R350). For each of these rows (UPDATE_JOB_START,
UPDATE_SLICE, UPDATE_COMMIT, PASS_ADMIT, FORWARD_PASS_END, BACKWARD_PASS_END, STEP_COMMIT, PASS_END), at every state and
operands for which passCompletes holds, exec answers a next state, and passDone says what it holds. Where the spec leaves a
point open it rests on the model's choices (log entries 84 to 88 and 91). -/
def Obligations.PassRows : Prop :=
  ∀ i s, familyOf i = .pass → passCompletes i s = true → ∃ t, exec i s = .next t ∧ passDone i s t

/-- Rooms and objects moved: points arrive, replacements, checkouts, adapter reads, object moves, fills and transfers end (R144,
R145, R159, R160, R163, R184, R185, R187, R298, R356). For each of these rows (POINT_ARRIVAL, REPLACEMENT_COMMIT,
CHECKOUT_MOVE_COMMIT, ADAPTER_READ_DONE, OBJECT_MOVE_COMMIT, OBJECT_FILL_DONE, OBJECT_TRANSFER_DONE), at every state and
operands for which roomCompletes holds, exec answers a next state, and roomDone says what it holds. Where the spec leaves a
point open it rests on the model's choices (log entries 30, 97 and 98). -/
def Obligations.MoveRows : Prop :=
  ∀ i s, familyOf i = .move → roomCompletes i s = true → ∃ t, exec i s = .next t ∧ roomDone i s t

/-- Base shards: fetches and their arrival, programs, readbacks, sweep visits, erases and holders that do not answer (R192, R206,
R210, R214, R215, R218, R219, R225, R226, R227, R228, R229). For each of these rows (SHARD_FETCH, SHARD_ARRIVAL,
SHARD_PROGRAM_DONE, SHARD_READBACK_DONE, SWEEP_READ_DONE, SHARD_ERASE_DONE, HOLDER_TIMEOUT), at every state and operands for
which roomCompletes holds, exec answers a next state, and roomDone says what it holds. Where the spec leaves a point open it
rests on the model's choices (log entries 92, 104 and 105). -/
def Obligations.ShardRows : Prop :=
  ∀ i s, familyOf i = .shard → roomCompletes i s = true → ∃ t, exec i s = .next t ∧ roomDone i s t

/-- Errors of the parts: array parity, accumulator, store, HBM and Loft errors, a lost Loft channel and a bad key of the secure
store (R62, R84, R166, R172, R174, R177, R203, R419, R420, R426, R429, R435). For each of these rows (ARRAY_PARITY_ERROR,
ACC_ECC_ERROR, HBM_CORRECTED_ERROR, HBM_UNCORRECTABLE_ERROR, LOFT_CORRECTED_ERROR, LOFT_UNCORRECTABLE_ERROR,
LOFT_CHANNEL_LOSS, STORE_CORRECTED_ERROR, STORE_ECC_ERROR, SECURE_STORE_KEY_ERROR), at every state and operands for which
errorCompletes holds, exec answers a next state, and errorDone says what it holds. Where the spec leaves a point open it rests
on the model's choices (log entries 41, 100, 101 and 116). -/
def Obligations.ErrorRows : Prop :=
  ∀ i s, familyOf i = .error → errorCompletes i s = true → ∃ t, exec i s = .next t ∧ errorDone i s t

/-- A Waylink port: its training, HELLO, lane loss, codewords, frames, replay, retraining and relayed messages that are given up
(R266, R267, R268, R269, R270, R271, R276). For each of these rows (TRAINING_PHASE_DONE, TRAINING_PHASE_OVERRUN,
TRAINING_RETRY, HELLO, LANE_LOCK_LOSS, UNCORRECTABLE_CODEWORD, DATA_FRAME, RETRY_FRAME, IDLE_FRAME, ACK_TIMEOUT,
LINK_RETRAIN_DONE, RELAY_TIMEOUT), at every state and operands for which linkCompletes holds, exec answers a next state, and
linkDone says what it holds. Where the spec leaves a point open it rests on the model's choices (log entries 37 and 108). -/
def Obligations.LinkRows : Prop :=
  ∀ i s, familyOf i = .link → linkCompletes i s = true → ∃ t, exec i s = .next t ∧ linkDone i s t

/-- Roll-call entries and their close, fabric parameters, ring blocks, remote reads and mirrors (R256, R273, R277, R279, R281,
R292, R293, R294, R295, R296, R358). For each of these rows (ENTRY, ROLL_CALL_CLOSE, FABRIC_PARAMS_APPLY, RING_BLOCK,
RING_DONE, REMOTE_DATA, REMOTE_READ, MIRROR_WRITE, MIRROR_ACK, MIRROR_ACK_TIMEOUT), at every state and operands for which
messageCompletes holds, exec answers a next state, and messageDone says what it holds. Where the spec leaves a point open it
rests on the model's choices (log entries 35, 38, 40 and 111 to 114). -/
def Obligations.MessageRows : Prop :=
  ∀ i s, familyOf i = .message → messageCompletes i s = true → ∃ t, exec i s = .next t ∧ messageDone i s t

/-- Broadcast, reduce and shard exchange between modules (R227, R228, R273, R285, R286, R287, R288, R289, R290). For each of these
rows (BCAST_DATA, BCAST_ACK, REDUCE_DATA, COLLECTIVE_COMMIT, SHARD_REQUEST, SHARD_DATA, NOT_HELD), at every state and operands
for which messageCompletes holds, exec answers a next state, and messageDone says what it holds. Where the spec leaves a point
open it rests on the model's choices (log entries 105, 107 and 110). -/
def Obligations.ExchangeRows : Prop :=
  ∀ i s, familyOf i = .exchange → messageCompletes i s = true → ∃ t, exec i s = .next t ∧ messageDone i s t

/-- A function's queues: doorbells, head writes, the three windows, and a packet that never completes (R302, R303, R304, R305,
R308, R309, R310, R311, R316, R317). For each of these rows (CMD_DOORBELL, REPLY_HEAD_WRITE, NOTICE_HEAD_WRITE,
CMD_WINDOW_WRITE, REPLY_WINDOW_READ, NOTICE_WINDOW_READ, PACKET_ARRIVAL_TIMEOUT), at every state and operands for which
queueCompletes holds, exec answers a next state, and queueDone says what it holds. Where the spec leaves a point open it rests
on the model's choices (log entries 42, 66 and 67). -/
def Obligations.QueueRows : Prop :=
  ∀ i s, familyOf i = .queue → queueCompletes i s = true → ∃ t, exec i s = .next t ∧ queueDone i s t

/-- A host session's timers: gap notice and skip, lease, lapse hold and the end of PROBATION (R324, R326, R328, R331). For each of
these rows (GAP_NOTICE_TIMEOUT, GAP_SKIP_TIMEOUT, LEASE_EXPIRY, LAPSE_HOLD_EXPIRY, PROBATION_END), at every state and operands
for which queueCompletes holds, exec answers a next state, and queueDone says what it holds. Where the spec leaves a point
open it rests on the model's choices (log entries 70 and 74). -/
def Obligations.SessionTimers : Prop :=
  ∀ i s, familyOf i = .timer → queueCompletes i s = true → ∃ t, exec i s = .next t ∧ queueDone i s t

/-- Host-session, function and time commands are carried out (R17, R21, R319, R322, R323, R324, R333, R340, R342). For each of
these commands (no-op, session-open, session-resume, session-status, session-set, session-close, function-status, time-seed,
time-read), where it is the keeper's next, its turn has come, it is in time, well formed, permitted and current and no fence
or scrub refuses it (starts), and its own rules find nothing against it (wingRules), exec answers a next state, and wingDone
says what it leaves. Where the spec leaves a point open it rests on the model's choices (log entries 15 and 71). -/
def Obligations.SessionCommands : Prop :=
  ∀ i c h p s, familyOf i = .sessionCmd → commandOf i = some (c, h, p) → starts c h p s = true → wingRules i (taken c h s) = true →
    ∃ t, exec i s = .next t ∧ wingDone c i (taken c h s) t

/-- Wing, context and program commands are carried out (R230, R233, R236, R237, R239, R240, R241, R243, R319, R340, R346, R347).
For each of these commands (wing-create, wing-resize, wing-remove, wing-reassign, wing-status, stall-read, context-create,
context-set, context-destroy, program-load, program-free), where it is the keeper's next, its turn has come, it is in time,
well formed, permitted and current and no fence or scrub refuses it (starts), and its own rules find nothing against it
(wingRules), exec answers a next state, and wingDone says what it leaves. Where the spec leaves a point open it rests on the
model's choices (log entries 43 and 79 to 82). -/
def Obligations.WingCommands : Prop :=
  ∀ i c h p s, familyOf i = .wingCmd → commandOf i = some (c, h, p) → starts c h p s = true → wingRules i (taken c h s) = true →
    ∃ t, exec i s = .next t ∧ wingDone c i (taken c h s) t

/-- Pass, serving-session, update, watch and detector commands are carried out (R111, R118, R123, R126, R161, R319, R340, R348,
R349, R350, R351, R352). For each of these commands (pass-train, pass-serve, serve-open, serve-append, serve-close, update-
run, watch-read, watch-set, watch-reset, detector-set, detector-release), where it is the keeper's next, its turn has come, it
is in time, well formed, permitted and current and no fence or scrub refuses it (starts), and its own rules find nothing
against it (passRules), exec answers a next state, and passCmdDone says what it leaves. Where the spec leaves a point open it
rests on the model's choices (log entries 32, 33, 52, 84, 87, 90 and 91). -/
def Obligations.PassCommands : Prop :=
  ∀ i c h p s, familyOf i = .passCmd → commandOf i = some (c, h, p) → starts c h p s = true → passRules i (taken c h s) = true →
    ∃ t, exec i s = .next t ∧ passCmdDone c i (taken c h s) t

/-- Object and window commands are carried out (R183, R184, R185, R186, R189, R191, R197, R319, R340, R353, R354). For each of
these commands (object-create, object-move, object-resize, object-free, object-status, object-write, object-read, window-set),
where it is the keeper's next, its turn has come, it is in time, well formed, permitted and current and no fence or scrub
refuses it (starts), and its own rules find nothing against it (passRules), exec answers a next state, and passCmdDone says
what it leaves. Where the spec leaves a point open it rests on the model's choices (log entries 16, 97 and 98). -/
def Obligations.ObjectCommands : Prop :=
  ∀ i c h p s, familyOf i = .objectCmd → commandOf i = some (c, h, p) → starts c h p s = true → passRules i (taken c h s) = true →
    ∃ t, exec i s = .next t ∧ passCmdDone c i (taken c h s) t

/-- Adapter and room commands are carried out (R138, R142, R144, R145, R158, R159, R160, R163, R319, R340, R355, R356). For each
of these commands (adapter-load, room-pin, checkout, adapter-delete, adapter-read, adapter-status), where it is the keeper's
next, its turn has come, it is in time, well formed, permitted and current and no fence or scrub refuses it (starts), and its
own rules find nothing against it (moduleRules), exec answers a next state, and moduleDone says what it leaves. Where the spec
leaves a point open it rests on the model's choices (log entries 51, 97 and 99). -/
def Obligations.AdapterCommands : Prop :=
  ∀ i c h p s, familyOf i = .adapterCmd → commandOf i = some (c, h, p) → starts c h p s = true → moduleRules i (taken c h s) = true →
    ∃ t, exec i s = .next t ∧ moduleDone c i (taken c h s) t

/-- Base and sweep commands are carried out (R208, R211, R212, R213, R216, R218, R225, R230, R319, R340, R357). For each of these
commands (base-install, install-cancel, base-remove, base-select, sweep-set, cellar-status), where it is the keeper's next,
its turn has come, it is in time, well formed, permitted and current and no fence or scrub refuses it (starts), and its own
rules find nothing against it (moduleRules), exec answers a next state, and moduleDone says what it leaves. Where the spec
leaves a point open it rests on the model's choices (log entries 103 and 106). -/
def Obligations.CellarCommands : Prop :=
  ∀ i c h p s, familyOf i = .cellarCmd → commandOf i = some (c, h, p) → starts c h p s = true → moduleRules i (taken c h s) = true →
    ∃ t, exec i s = .next t ∧ moduleDone c i (taken c h s) t

/-- Fabric, collective and ring commands are carried out (R267, R278, R284, R287, R289, R291, R319, R340, R358, R359, R360). For
each of these commands (fabric-set, collective-set, collective-post, ring-set, ring-status, fabric-status, port-retrain,
mirror-area-set), where it is the keeper's next, its turn has come, it is in time, well formed, permitted and current and no
fence or scrub refuses it (starts), and its own rules find nothing against it (moduleRules), exec answers a next state, and
moduleDone says what it leaves. Where the spec leaves a point open it rests on the model's choices (log entries 36, 39, 110,
113 and 115). -/
def Obligations.FabricCommands : Prop :=
  ∀ i c h p s, familyOf i = .fabricCmd → commandOf i = some (c, h, p) → starts c h p s = true → moduleRules i (taken c h s) = true →
    ∃ t, exec i s = .next t ∧ moduleDone c i (taken c h s) t

/-- Passport, key, party and life-cycle commands are carried out (R217, R319, R340, R361, R378, R394, R396, R403, R405, R406,
R407). For each of these commands (passport-get, key-release, party-key-load, party-key-remove, party-bind, life-cycle-set),
where it is the keeper's next, its turn has come, it is in time, well formed, permitted and current and no fence or scrub
refuses it (starts), and its own rules find nothing against it (moduleRules), exec answers a next state, and moduleDone says
what it leaves. Where the spec leaves a point open it rests on the model's choices (log entries 117 to 120). -/
def Obligations.SecurityCommands : Prop :=
  ∀ i c h p s, familyOf i = .securityCmd → commandOf i = some (c, h, p) → starts c h p s = true → moduleRules i (taken c h s) = true →
    ∃ t, exec i s = .next t ∧ moduleDone c i (taken c h s) t

/-- Service, power, function and tally commands are carried out (R30, R319, R340, R362, R363, R364, R424, R427, R428, R432, R434,
R439). For each of these commands (fault-log-read, tile-map, pc-retire, loft-evacuate, wing-fence, firmware-handover, domain-
set, vf-set, tally-read, tally-close), where it is the keeper's next, its turn has come, it is in time, well formed, permitted
and current and no fence or scrub refuses it (starts), and its own rules find nothing against it (moduleRules), exec answers a
next state, and moduleDone says what it leaves. Where the spec leaves a point open it rests on the model's choices (log
entries 44, 45, 48, 93, 102 and 127). -/
def Obligations.ServiceCommands : Prop :=
  ∀ i c h p s, familyOf i = .serviceCmd → commandOf i = some (c, h, p) → starts c h p s = true → moduleRules i (taken c h s) = true →
    ∃ t, exec i s = .next t ∧ moduleDone c i (taken c h s) t

/-- Functions and the link: resets, VF Enable, Bus Master Enable, link loss and return, host completions, FN_CTRL and IDE failures
(R366, R368, R371, R372, R373, R374, R375, R376, R377, R379, R380, R390). For each of these rows (FLR, FUNCTION_RESET_DONE,
VF_ENABLE_SET, VF_ENABLE_CLEAR, BUS_MASTER_ENABLE_SET, BUS_MASTER_ENABLE_CLEAR, LINK_LOSS, LINK_UP, HOST_COMPLETION,
FN_CTRL_APPLY, IDE_INTEGRITY_FAILURE), at every state and operands for which hostCompletes holds, exec answers a next state,
and hostDone says what it holds. Where the spec leaves a point open it rests on the model's choices (log entries 64, 76 and
78). -/
def Obligations.FunctionRows : Prop :=
  ∀ i s, familyOf i = .function → hostCompletes i s = true → ∃ t, exec i s = .next t ∧ hostDone i s t

/-- Configuration, the HDM decoders, CXL.mem accesses, register writes and reads, and snoops (R182, R369, R375, R379, R382, R384,
R385, R388, R389). For each of these rows (CONFIG_REQUEST, ATS_INVALIDATE, DECODER_COMMIT, DECODER_UNCOMMIT, CXL_MEM_READ,
CXL_MEM_WRITE, LOW_HALF_READ, REGISTER_WRITE, SNOOP), at every state and operands for which hostCompletes holds, exec answers
a next state, and hostDone says what it holds. Where the spec leaves a point open it rests on the model's choices (log entries
64, 77 and 128). -/
def Obligations.MemoryRows : Prop :=
  ∀ i s, familyOf i = .memory → hostCompletes i s = true → ∃ t, exec i s = .next t ∧ hostDone i s t

/-- Tamper events wipe the secure store, and the Porter's operations act (R384, R399, R400, R401, R442, R443, R444, R461, R496).
For each of these rows (MESH_BREAK, SUPPLY_EXCURSION, CLOCK_EXCURSION, THERMAL_EXCURSION, TAMPER_IN, PORTER_KEEPER_RESET,
PORTER_SECURE_WIPE, PORTER_WING_FENCE, PORTER_POWER_OFF), at every state and operands for which secureCompletes holds, exec
answers a next state, and secureDone says what it holds. Where the spec leaves a point open it rests on the model's choices
(log entries 58, 94 and 116). -/
def Obligations.TamperRows : Prop :=
  ∀ i s, familyOf i = .tamper → secureCompletes i s = true → ∃ t, exec i s = .next t ∧ secureDone i s t

/-- The DOE mailbox: passports, IDE keys, debug unlock, discovery, abort; and the redrawing of the keys (R390, R391, R393, R398,
R401, R403, R404, R406). For each of these rows (PASSPORT_REQUEST, IDE_KEYS, DEBUG_UNLOCK, DOE_DISCOVERY, DOE_ABORT,
AK_REDRAW_DONE), at every state and operands for which secureCompletes holds, exec answers a next state, and secureDone says
what it holds. The layouts of IDE_KM and of the discovery response are the model's, taken from PCIe (log entries 54, 55).
Where the spec leaves a point open it rests on the model's choices (log entries 54, 55, 117, 118 and 121). -/
def Obligations.MailboxRows : Prop :=
  ∀ i s, familyOf i = .mailbox → secureCompletes i s = true → ∃ t, exec i s = .next t ∧ secureDone i s t

/-- The keeper: counter snapshots, the journal, watchdog, restarts, memory errors, handover, spare mapping, retirement and
evacuation (R321, R334, R425, R428, R432, R433, R434, R436, R437, R438, R440, R441). For each of these rows (COUNTER_SNAPSHOT,
JOURNAL_WRITE, JOURNAL_WRITE_DONE, WATCHDOG_EXPIRY, KEEPER_CACHE_ERROR, KEEPER_RESTART_DONE, KEEPER_MEMORY_ERROR,
HANDOVER_TAKEOVER, HANDOVER_TIMEOUT, IMAGE_STORE_WRITE, SPARE_SWITCH, PC_RETIRE_DONE, LOFT_EVACUATE_DONE, LOFT_RETURN_DONE),
at every state and operands for which keeperCompletes holds, exec answers a next state, and keeperDone says what it holds.
Where the spec leaves a point open it rests on the model's choices (log entries 46, 47, 102, 123 and 130). -/
def Obligations.KeeperRows : Prop :=
  ∀ i s, familyOf i = .keeper → keeperCompletes i s = true → ∃ t, exec i s = .next t ∧ keeperDone i s t

/-- The input voltage, PERST_N and PFAIL_N (R444, R445, R448, R455, R460, R461, R462, R463). For each of these rows
(PERST_N_ASSERT, PERST_N_DEASSERT, PFAIL_N_ASSERT, VIN_RISE_ALWAYS_ON, ALWAYS_ON_UP, VIN_FALL_ALWAYS_OFF, VIN_GOOD, VIN_HIGH,
VIN_OVER, VIN_LOW, VIN_LOW_NO_WARN, VIN_BELOW_HOLDUP, VOLTAGE_RECORD_REPEAT), at every state and operands for which
powerCompletes holds, exec answers a next state, and powerDone says what it holds. Where the spec leaves a point open it rests
on the model's choices (log entries 124 and 126). -/
def Obligations.InputRows : Prop :=
  ∀ i s, familyOf i = .input → powerCompletes i s = true → ∃ t, exec i s = .next t ∧ powerDone i s t

/-- Domains, doze and the steps of a start (R449, R452, R453, R457, R458, R459, R462, R464, R465, R466, R467, R469). For each of
these rows (DOMAIN_POWER_GOOD, POWER_GOOD_TIMEOUT, DOMAIN_SEQUENCE_DONE, DOZE_REQUEST, DOZE_WAKE, WAKE_ALARM, BOOT_STEP_DONE,
BOOT_STEP_OVERRUN, RETRY_WAIT_END), at every state and operands for which powerCompletes holds, exec answers a next state, and
powerDone says what it holds. Where the spec leaves a point open it rests on the model's choices (log entries 122, 123 and
127). -/
def Obligations.PowerRows : Prop :=
  ∀ i s, familyOf i = .power → powerCompletes i s = true → ∃ t, exec i s = .next t ∧ powerDone i s t

/-- Temperatures, the management bus and the test access port (R417, R482, R483, R484, R485, R487). For each of these rows
(THERMAL_WARNING_CROSS, THERMAL_WARNING_CLEAR, THERMAL_TRIP, SENSOR_FAULT, I3C_SETDASA, I3C_ENTDAA, I3C_RSTDAA, I3C_GETSTATUS,
JTAG_BYPASS, JTAG_IDCODE, JTAG_EXTEST, JTAG_SAMPLE, JTAG_PRELOAD, JTAG_DEBUG), at every state and operands for which
pinCompletes holds, exec answers a next state, and pinDone says what it holds. JTAG_DEBUG is covered where the port does not
accept it and selects BYPASS; DebugUnitStops says where it stops. The I3C details that the spec leaves to the standard are the
model's (log entries 56, 57). Where the spec leaves a point open it rests on the model's choices (log entries 56, 57, 65 and
125). -/
def Obligations.PinRows : Prop :=
  ∀ i s, familyOf i = .pin → pinCompletes i s = true → ∃ t, exec i s = .next t ∧ pinDone i s t

/-- A step runs the command at the front of the queue; on an empty queue the block idles (R318). For every command i, every queue
rest and every state s, the step of s with i in front of rest is exec of i on s with the queue rest; with an empty queue the
step answers the state itself (the idle step is the model's choice, log entry 7). -/
def Obligations.StepTakesTheFront : Prop :=
  (∀ (i : Instr) (rest : List Instr) (s : State), step { s with pending := i :: rest } = exec i { s with pending := rest })
    ∧ ∀ s, s.pending = [] → step s = .next s

/-- Every step keeps the clock's invariant (R20, R21, R23, R24, R25, R26, R28, R29). For every state in which LOCKED and RELOCK
have a qualified MPCLK, HOLDOVER and ADRIFT have none, TIME_HOLDOVER is set exactly in HOLDOVER, ADRIFT and RELOCK, the module
has been LOCKED exactly if it is not in UNSET, and the run of good periods is at most 64: if a step answers a next state, the
same holds there. -/
def Obligations.ClockInvariantKept : Prop :=
  ∀ s t, ClockInv s.clock → step s = .next t → ClockInv t.clock

/-- The clock's invariant holds at reset (R16, R460). The clock of State.reset meets the invariant of ClockInvariantKept. -/
def Obligations.ClockInvariantAtReset : Prop :=
  ClockInv State.reset.clock

/-- Once LOCKED, the milepost count never decreases until the always-on domain loses its power (R29). For every state that meets
the clock's invariant and has been LOCKED, and every step to a next state that still has been LOCKED (the always-on domain
kept its power), the count is not below what it was. -/
def Obligations.CountNeverDecreases : Prop :=
  ∀ s t, ClockInv s.clock → s.clock.everLocked = true → step s = .next t → t.clock.everLocked = true → s.clock.count ≤ t.clock.count

/-- Every TVX word is read back as it was encoded (R88, R92). For every op code of 8 bits and fields that fit, the word of Table
5.2 gives back the op code and every field; for every STREAM word whose fields fit, the word of Table 5.1 gives back op code
0x08 and every field. -/
def Obligations.TvxWordsRoundTrip : Prop :=
  (∀ op a, op < 256 → tvxFits a = true → wordOp (encodeTvx op a) = op ∧ wordArgs (encodeTvx op a) = a)
    ∧ ∀ a, streamFits a = true → wordOp (encodeStream a) = 0x08 ∧ wordStream (encodeStream a) = a

/-- What the module holds right after reset (R16, R34, R225, R460, R464). At reset the always-on domain is up and no other: STAT
reads WAITING, MP_ECHO is released, the count is in UNSET, the module is not READY and no start has failed; the roll-call
interval is 10,000 mp and the sweep period 24 hours; no host session is open, no wing, object, base or handle exists and no
command waits. The count's first value 0 is the model's choice (log entry 1). -/
def Obligations.ResetState : Prop :=
  let s := State.reset
  s.power.alwaysOn = true ∧ s.power.domains = [] ∧ s.power.stat = .waiting ∧ s.power.ready = false ∧ s.power.minimal = false
    ∧ s.power.failed = 0 ∧ s.clock.st = .unset ∧ s.clock.echo = false ∧ s.clock.count = 0 ∧ s.keeper.up = false
    ∧ s.led.fab.interval = 10000 ∧ s.led.sweep = 86400000000 ∧ (∀ k, (s.sess k).st = .closed) ∧ (∀ w, (s.wing w).live = false)
    ∧ (∀ o, (s.obj o).live = false) ∧ (∀ b, (s.base b).st = .empty) ∧ (∀ h, (s.handle h).st = .unused) ∧ s.stamped = [] ∧ s.pending = []

/-- A queue of commands that name existing parts runs to its end (R6, R338, R417). For every state whose queue holds only commands
and events whose parts exist and whose fields fit, and no debug instruction of the test access port, any number of steps all
answer a next state: no fault and no refusal comes. Where the spec leaves a point open it rests on the model's choices (log
entries 7, 9 and 65). -/
def Obligations.RunsGoOn : Prop :=
  ∀ n s, ordinaryQueue s = true → runs n s

/-- Every row whose parts exist answers a next state, but a debug instruction that the port accepts, which is refused by name (R6,
R393, R417). For every row whose parts exist and whose fields fit, exec answers a next state, or the row is JTAG_DEBUG, the
always-on domain is up and the life cycle accepts debug instructions (MANUFACTURE, or RETURN once unlocked); exec then answers
the refusal debugUnit, since the spec does not describe the debug unit. Where the spec leaves a point open it rests on the
model's choices (log entries 9 and 65). -/
def Obligations.OnlyDebugStops : Prop :=
  ∀ i s, i.wf = true → (∃ t, exec i s = .next t)
    ∨ ∃ x, i = .jtagDebug x ∧ s.power.alwaysOn = true ∧ debugAccepted s = true ∧ exec i s = .refused .debugUnit

/-- A command row that is not the keeper's next command changes nothing (R318). For every command row, in every state in which the
keeper's next packet (the first in the order of R318) is not that command, exec answers the state unchanged: commands are
carried out in their order only. That such a row leaves the state is how the model keeps the order (log entry 8). -/
def Obligations.NotNextWaits : Prop :=
  ∀ i c h p s, commandOf i = some (c, h, p) →
    (∀ k, nextPacket s = some k → ¬(k.hdr = h ∧ k.payload = p ∧ (k.code = c.code ∨ c.code = 0x0001 ∧ knownCode k.code = false))) →
    exec i s = .next s

/-- A command is refused with the first status that applies: EXPIRED, MALFORMED, NOT_PERMITTED, STALE_GENERATION, WING_FENCED,
WING_SCRUBBING (R330, R339, R341, R342, R415, R443). For every command of a host session that is OPEN, under its next number:
if one of the general statuses applies, exec answers a next state in which the first of them in this order is sent, the number
is consumed, the reply is cached (but for a query that parses), and nothing is committed. Where the spec leaves a point open
it rests on the model's choices (log entries 68 and 69). -/
def Obligations.RefusalOrder : Prop :=
  ∀ i c h p s st, commandOf i = some (c, h, p) → c.sessionless = false → arrives c.code h p s = true → s.power.minimal = false →
    bearsNext h s = true → (s.sess (ownKey h)).st = .opened → generalRefusal c h p s (taken c h s) = some st →
    ∃ t, exec i s = .next t ∧ refused c.code (cacheKeeps c st) h (taken c h s) t st []

/-- A command that its own rules refuse consumes its number and commits nothing; a 65th long command is SESSION_BUSY (R319, R332,
R340, R342). For every command of an OPEN host session under its next number that no general status refuses: where its own
rules refuse it with a status, exec answers a next state in which that status is sent with its payload, the number consumed
and nothing committed; where they accept a long command and 64 are outstanding, it is SESSION_BUSY in the same way. Where the
spec leaves a point open it rests on the model's choices (log entries 69). -/
def Obligations.OwnRefusals : Prop :=
  ∀ i c h p s, commandOf i = some (c, h, p) → c.sessionless = false → arrives c.code h p s = true → s.power.minimal = false →
    bearsNext h s = true → (s.sess (ownKey h)).st = .opened → generalRefusal c h p s (taken c h s) = none →
    (∀ st b, c.body (taken c h s) h p = .refuse st b → st ≠ .malformed →
        ∃ t, exec i s = .next t ∧ refused c.code (decide (c.cls ≠ .query)) h (taken c h s) t st b)
      ∧ (∀ f st b d, c.body (taken c h s) h p = .long f st b d → 64 ≤ (s.sess (ownKey h)).longs →
        ∃ t, exec i s = .next t ∧ refused c.code true h (taken c h s) t .sessionBusy [])

/-- Commands of a session that is not open, and commands out of turn, are answered by R329 and Table 12.9 (R322, R324, R325, R326,
R329). For every command of a host session: of a session that is CLOSED, of a stale generation or LAPSED it is answered
SESSION_UNKNOWN, STALE_GENERATION or SESSION_LAPSED and nothing else changes, the lease not renewed; otherwise the lease is
renewed, and a number that is not the next is held, absorbed, answered from the cache with replayed set, executed again, or
refused with SEQ_OUT_OF_WINDOW, SEQ_REUSED, GAP_OVERFLOW, SEQ_TOO_OLD or SEQ_SKIPPED, as Table 12.9 says. -/
def Obligations.SequenceTable : Prop :=
  ∀ i c h p s, commandOf i = some (c, h, p) → c.sessionless = false → arrives c.code h p s = true → s.power.minimal = false →
    h.session ≤ 15 → h.seq ≠ 0 →
    ∃ t, exec i s = .next t
      ∧ (∀ st, sessionRefusal h s = some st → onlyAnswered c.code h (takenFrom s) t st)
      ∧ (sessionRefusal h s = none → outOfTurn c h p s t)

/-- Session-less commands stand outside every session, and others must not (R323, R330, R342). A session-less command that carries
a session, generation or sequence, and any other command with a session number above 15 or sequence 0, is answered MALFORMED,
counted in the function's malformed-commands counter, and changes nothing else. A session-open that repeats a host tag is
answered by replaying its reply. A session-less command that no repeat answers is refused with the first general status that
applies. -/
def Obligations.OutsideSessions : Prop :=
  ∀ i c h p s, commandOf i = some (c, h, p) → arrives c.code h p s = true → s.power.minimal = false →
    (c.sessionless = true → outside h = false → ∃ t, exec i s = .next t ∧ onlyMalformed c.code h (takenFrom s) t)
      ∧ (c.sessionless = false → (15 < h.session ∨ h.seq = 0) → ∃ t, exec i s = .next t ∧ onlyMalformed c.code h (takenFrom s) t)
      ∧ (c.code = 0x0002 → outside h = true → ∀ o, (s.fn h.fn).opens.find? (fun o => decide (o.hostTag = h.hostTag)) = some o →
          exec i s = .next (pushReply (takenFrom s) h.fn { o.reply with replayed := true }))
      ∧ (c.sessionless = true → outsideSessions c h s = true → ∀ st, generalRefusal c h p s (takenFrom s) = some st →
          ∃ t, exec i s = .next t ∧ (st ≠ .malformed → onlyAnswered c.code h (takenFrom s) t st)
            ∧ (st = .malformed → onlyMalformed c.code h (takenFrom s) t))

/-- Sixteen MALFORMED replies bring PROBATION, in which only four commands run (R327, R328). An unknown code is answered
MALFORMED, its number consumed. The 16th MALFORMED reply within 1,000,000 mp puts an OPEN host session into PROBATION; in
PROBATION the 16th closes it. In PROBATION, every command in time but session-status, session-set, session-close and no-op is
refused with PROBATION, its number consumed and the reply cached; a query among the four is answered. Where the spec leaves a
point open it rests on the model's choices (log entries 68 and 69). -/
def Obligations.Probation : Prop :=
  (∀ h p s code, knownCode code = false → arrives code h p s = true → s.power.minimal = false → bearsNext h s = true →
      late h s = false → (s.sess (ownKey h)).st = .opened →
      ∃ t, exec (.noOp h p) s = .next t ∧ refused code true h (taken noOpCmd h s) t .malformed [])
    ∧ (∀ i c h p s, commandOf i = some (c, h, p) → c.sessionless = false → arrives c.code h p s = true → s.power.minimal = false →
        bearsNext h s = true → (s.sess (ownKey h)).st = .opened → generalRefusal c h p s (taken c h s) = some .malformed →
        15 ≤ ((s.sess (ownKey h)).malformed.filter (fun m => decide (s.clock.count < m + 1000000))).length →
        ∃ t, exec i s = .next t ∧ (t.sess (ownKey h)).st = .probation)
    ∧ (∀ i c h p s, commandOf i = some (c, h, p) → c.sessionless = false → arrives c.code h p s = true → s.power.minimal = false →
        bearsNext h s = true → (s.sess (ownKey h)).st = .probation → late h s = false →
        (inProbation c.code = false → ∃ t, exec i s = .next t ∧ refused c.code true h (taken c h s) t .probation [])
          ∧ (inProbation c.code = true → generalRefusal c h p s (taken c h s) = some .malformed → 15 ≤ (s.sess (ownKey h)).malformed.length →
              ∃ t, exec i s = .next t ∧ (t.sess (ownKey h)).st = .closed)
          ∧ (inProbation c.code = true → generalRefusal c h p s (taken c h s) = none → ∀ b, c.body (taken c h s) h p = .query b →
              ∃ t, exec i s = .next t ∧ answered c h (taken c h s) t b))

/-- In minimal mode four commands are accepted, every other is answered MINIMAL_MODE, and none commits anything (R344). For every
command the keeper takes in minimal mode: exec answers a next state with the ledger as it was; a command other than function-
status, time-read, fault-log-read and passport-get is answered MINIMAL_MODE, with the durable version; one of those four that
stands outside any session and is in time and well formed is answered as its own rules say, or waits for the key that it
needs. -/
def Obligations.MinimalMode : Prop :=
  ∀ i c h p s, commandOf i = some (c, h, p) → s.power.minimal = true → arrives c.code h p s = true →
    ∃ t, exec i s = .next t ∧ minimalDone c h p s t

/-- room-pin pins a room and unpins it; a pin on a LEAVING room is ROOM_LEAVING (R158). A room-pin whose turn has come and that
nothing general refuses: on a room that is not LEAVING it answers OK, in one record, and the room is pinned or unpinned as it
asks, all else of the room as it was; on a LEAVING room it is refused with ROOM_LEAVING and the room stays as it was. -/
def Obligations.RoomPin : Prop :=
  ∀ h p s, starts roomPinCmd h p s = true →
    let r := field p 0 2
    ((s.room r).st ≠ .leaving → ∃ t, exec (.roomPin h p) s = .next t ∧ committed roomPinCmd h (taken roomPinCmd h s) t .ok []
        ∧ t.room r = { s.room r with pinned := decide (field p 2 1 = 1) } ∧ ∀ q, q ≠ r → t.room q = s.room q)
      ∧ ((s.room r).st = .leaving → ∃ t, exec (.roomPin h p) s = .next t
        ∧ refused 0x0602 true h (taken roomPinCmd h s) t .roomLeaving [] ∧ t.room r = s.room r)

/-- A repeated event within 1,000 mp adds 1 to its newest record's count and makes no new record (R422). For every log whose
newest record with an event's code and place has its address and a milepost within 1,000 mp of the count: logging the event
leaves the log as it was but for that record's count, which is one more, or stays at 2^32 - 1; the next record number is as
before, and nothing else of the state changes. -/
def Obligations.LogMerges : Prop :=
  ∀ s code severity at_ detail l r m, s.keeper.log = l ++ r :: m →
    (∀ x, x ∈ l → ¬(x.code = code ∧ x.placeKind = at_.kind ∧ x.place = at_.place)) →
    r.code = code → r.placeKind = at_.kind → r.place = at_.place → r.address = at_.address →
    s.clock.count ≤ r.milepost + 1000 → r.milepost ≤ s.clock.count + 1000 →
    logEvent s code severity at_ detail
      = { s with keeper := { s.keeper with log := l ++ { r with count := Nat.min (r.count + 1) (2 ^ 32 - 1) } :: m } }

/-- A command past its deadline is refused with EXPIRED, consuming its number (R330). For every command whose deadline lies before
the milepost in which it would commit: under the next number of a host session it is refused with EXPIRED, the number consumed
and nothing committed; a session-less one that is no repeat is answered EXPIRED. A command with a deadline at or before its
stamp is always past it when the keeper takes it. -/
def Obligations.Expired : Prop :=
  (∀ i c h p s, commandOf i = some (c, h, p) → arrives c.code h p s = true → s.power.minimal = false → late h s = true →
      (c.sessionless = false → bearsNext h s = true → ∃ t, exec i s = .next t ∧ refused c.code true h (taken c h s) t .expired [])
        ∧ (c.sessionless = true → outsideSessions c h s = true →
            ∃ t, exec i s = .next t ∧ onlyAnswered c.code h (takenFrom s) t .expired))
    ∧ ∀ code h p s, arrives code h p s = true → h.deadline ≠ 0 → h.deadline ≤ h.stamp → late h s = true

/-- A malformed message is discarded and counted against its neighbour; a repeat is discarded and not counted (R273, R283). For
every message row: one on a port in service whose checks fail, or whose hop limit is 0 or above 16, changes nothing but the
neighbour's count of malformed messages, and the 16th of a round also accuses that neighbour; a message but ENTRY that has
come in the last 1,000,000 mp changes nothing. Where the spec leaves a point open it rests on the model's choices (log entries
8 and 109). -/
def Obligations.MessagesDiscarded : Prop :=
  ∀ i type h s, (messageRow i = some (type, h) ∨ ∃ b near, i = .entry h b near ∧ type = 1) → namesWing i = true →
    h.port < 36 → inService (s.port h.port) = true → mutedPort s h.port = false →
    (h.ok = false ∨ h.hop = 0 ∨ 16 < h.hop → ∀ peer, (s.port h.port).peer = some peer →
        let n := tget s.fabric.malformed peer + 1
        let u := s.modFabric (fun f => { f with malformed := tput f.malformed peer n })
        (n ≠ 16 → exec i s = .next u) ∧ (n = 16 → exec i s = .next (accuse u peer 1)))
      ∧ (type ≠ 1 → h.ok = true → 1 ≤ h.hop → h.hop ≤ 16 → seenBefore s type h = true → exec i s = .next s)

/-- PORTER_OP tests its key, its ARG and BUSY in this order, and the mailbox refuses what is too long or malformed (R384, R391,
R404). For the four operations of PORTER_OP: a wrong key, a bad ARG or a running operation changes only the last operation and
its result, 1, 2 or 3. For the mailbox: a message over 256 KiB sets DOE Error and changes nothing else; an attestation message
that is malformed or refused leaves an ERROR response with 1 or 3 and changes nothing else. The order of PORTER_OP's tests is
the model's (log entry 58). -/
def Obligations.PorterAndMailboxRefuse : Prop :=
  (∀ i op key argOk s, porterOf i = some (op, key, argOk) → mainOn s = true → (key ≠ 0x51A7 ∨ argOk = false ∨ s.porter.running.isSome = true) →
      ∃ t, exec i s = .next t ∧ porterRefused s t op key argOk)
    ∧ (∀ i s, tooLong i s = true → exec i s = .next { s with link := { s.link with doeError := true } })
    ∧ ∀ i s n, attestRefusal i s = some n →
        ∃ t, exec i s = .next t ∧ responds t (Config.doeErrorType % 256) (leBytes 1 n)
          ∧ t = { s with link := { s.link with doeResponse := t.link.doeResponse } }

/-- A boundary-scan instruction that is not accepted selects BYPASS, and an accepted debug instruction is refused (R417, R485).
EXTEST, SAMPLE and PRELOAD while PERST_N is deasserted, or in SCRAPPED, select BYPASS and change nothing else. A debug
instruction that the port accepts is refused with debugUnit: the spec does not describe the debug unit. -/
def Obligations.DebugUnitStops : Prop :=
  (∀ i s, scans i = true → s.power.alwaysOn = true → scanAccepted s = false →
      exec i s = .next { s with mgmt := { s.mgmt with jtagIr := 0xFF, boundaryDriven := false } })
    ∧ ∀ code s, s.power.alwaysOn = true → debugAccepted s = true → exec (.jtagDebug code) s = .refused .debugUnit

/-- What the vector engine, the array, the clock and the timetable leave alone (R29, R32, R69, R87). For every row of these
families (tvx, array, clock, entry, boundary) but the rows at which the main domains or the module may start again (restarts),
whenever exec answers a next state, every part of the state that mayChange does not list for the row is as it was; a part is a
field of State or of its ledger. Where the spec leaves a point open it rests on the model's choices (log entries 8). -/
def Obligations.FrameCompute : Prop :=
  ∀ i s t, familyOf i ∈ ([.tvx, .array, .clock, .entry, .boundary] : List Family) → restarts i = false → exec i s = .next t → keepsRest i s t

/-- What passes, moves, shards and errors leave alone (R110, R161, R184, R203, R206). For every row of these families (pass, move,
shard, error) but the rows at which the main domains or the module may start again (restarts), whenever exec answers a next
state, every part of the state that mayChange does not list for the row is as it was; a part is a field of State or of its
ledger. Where the spec leaves a point open it rests on the model's choices (log entries 8). -/
def Obligations.FrameWork : Prop :=
  ∀ i s t, familyOf i ∈ ([.pass, .move, .shard, .error] : List Family) → restarts i = false → exec i s = .next t → keepsRest i s t

/-- What links, messages, queues and session timers leave alone (R266, R273, R301, R322). For every row of these families (link,
message, exchange, queue, timer) but the rows at which the main domains or the module may start again (restarts), whenever
exec answers a next state, every part of the state that mayChange does not list for the row is as it was; a part is a field of
State or of its ledger. Where the spec leaves a point open it rests on the model's choices (log entries 8). -/
def Obligations.FrameFabric : Prop :=
  ∀ i s t, familyOf i ∈ ([.link, .message, .exchange, .queue, .timer] : List Family) → restarts i = false → exec i s = .next t → keepsRest i s t

/-- What the commands leave alone (R319, R340, R342). For every row of these families (sessionCmd, wingCmd, passCmd, objectCmd,
adapterCmd, cellarCmd, fabricCmd, securityCmd, serviceCmd) but the rows at which the main domains or the module may start
again (restarts), whenever exec answers a next state, every part of the state that mayChange does not list for the row is as
it was; a part is a field of State or of its ledger. Where the spec leaves a point open it rests on the model's choices (log
entries 8). -/
def Obligations.FrameCommands : Prop :=
  ∀ i s t, familyOf i ∈ ([.sessionCmd, .wingCmd, .passCmd, .objectCmd, .adapterCmd, .cellarCmd, .fabricCmd, .securityCmd, .serviceCmd] : List Family) → restarts i = false → exec i s = .next t → keepsRest i s t

/-- What the host port, security, keeper, power and pin events leave alone (R369, R399, R436, R449, R483). For every row of these
families (function, memory, tamper, mailbox, keeper, input, power, pin) but the rows at which the main domains or the module
may start again (restarts), whenever exec answers a next state, every part of the state that mayChange does not list for the
row is as it was; a part is a field of State or of its ledger. Where the spec leaves a point open it rests on the model's
choices (log entries 8). -/
def Obligations.FramePlatform : Prop :=
  ∀ i s t, familyOf i ∈ ([.function, .memory, .tamper, .mailbox, .keeper, .input, .power, .pin] : List Family) → restarts i = false → exec i s = .next t → keepsRest i s t
end

