-- ==== Sys2Proof/Laws/Kept.lean ====
section
/-! SUPPORT. What every operation of the model but the count's own leaves alone: the queue of waiting commands, the time state,
the qualification of MPCLK, its run of good periods, the HOLDOVER flag and the count (chapter 2). One lemma per operation
that answers a state, true by its callees' lemmas; `exec_kept` and `exec_pending` at the end say it of the commands. -/

namespace Sys2Proof.Machine
open Sys2Proof
set_option maxRecDepth 2000
/-- What only the count's own operations may change: the queue and the timekeeping of R15 to R29. -/
def kept (s : State) : List Instr × TimeSt × Bool × Bool × Bool × Nat × Nat :=
  (s.pending, s.clock.st, s.clock.qualified, s.clock.holdoverFlag, s.clock.everLocked, s.clock.goodRun, s.clock.count)
@[simp] theorem kept_mk (clock_ : Clock) (tt_ : Timetable) (led_ : Led) (durable_ : Led) (writing_ : Option (Led × List LogRec)) (fns_ : Tbl Fn) (wingPages_ : Tbl Page) (stamped_ : List Packet) (tickets_ : Tbl Ticket) (tiles_ : Tbl Tile) (quarters_ : Tbl Quarter) (qmem_ : Mem) (updEngines_ : Tbl Engine) (jobs_ : Tbl Job) (runs_ : List UpdateRun) (cellar_ : Cellar) (ports_ : Tbl Port) (fabric_ : Fabric) (secure_ : Secure) (keeper_ : Keeper) (power_ : Power) (porter_ : PorterOp) (snapshot_ : Snapshot) (mgmt_ : Mgmt) (link_ : Link) (free_ : Nat) (pending_ : List Instr) : kept (State.mk clock_ tt_ led_ durable_ writing_ fns_ wingPages_ stamped_ tickets_ tiles_ quarters_ qmem_ updEngines_ jobs_ runs_ cellar_ ports_ fabric_ secure_ keeper_ power_ porter_ snapshot_ mgmt_ link_ free_ pending_) =
  (pending_, clock_.st, clock_.qualified, clock_.holdoverFlag, clock_.everLocked, clock_.goodRun, clock_.count) := rfl
@[simp] theorem kept_eta (s : State) :
  (s.pending, s.clock.st, s.clock.qualified, s.clock.holdoverFlag, s.clock.everLocked, s.clock.goodRun, s.clock.count) = kept s := rfl
theorem kept_foldl {α : Type} (g : State → α → State) (l : List α) (s : State) (h : ∀ s x, kept (g s x) = kept s) :
    kept (l.foldl g s) = kept s := by
  induction l generalizing s with
  | nil => rfl
  | cons a l ih => rw [List.foldl_cons, ih, h]
@[simp] theorem kept_ite (c : Prop) [Decidable c] (a b : State) : kept (if c then a else b) = if c then kept a else kept b := by split <;> rfl
theorem onPart_next {number count : Nat} {s t : State} {f : State → State} (h : onPart number count s f = .next t) : number < count ∧ t = f s := by
  unfold onPart at h; split at h
  · cases h; exact ⟨by assumption, rfl⟩
  · cases h
/-- A command's answer whose effects keep it. -/
def KRes.Keeps : KRes → Prop
  | .commit f _ _ => ∀ s, kept (f s) = kept s
  | .keep f _ _ => ∀ s, kept (f s) = kept s
  | .later f => ∀ s, kept (f s) = kept s
  | .long f _ _ done => (∀ s, kept (f s) = kept s) ∧ ∀ g, done = some g → ∀ s, kept (g s) = kept s
  | _ => True
/-- A command that keeps it whatever it answers. -/
def KCmd.Keeps (c : KCmd) : Prop := (∀ s h p, (c.body s h p).Keeps) ∧ ∀ h p s, kept (c.follow h p s) = kept s

@[simp] theorem State.setFn_kept (s : State) (i : Nat) (f : Fn) : kept (State.setFn s i f) = kept s := by
  simp [State.setFn]
@[simp] theorem State.modFn_kept (s : State) (i : Nat) (g : Fn → Fn) : kept (State.modFn s i g) = kept s := by
  simp [State.modFn]
@[simp] theorem State.modSess_kept (s : State) (k : Nat) (g : Session → Session) : kept (State.modSess s k g) = kept s := by
  simp [State.modSess]
@[simp] theorem State.modWing_kept (s : State) (w : Nat) (g : Wing → Wing) : kept (State.modWing s w g) = kept s := by
  simp [State.modWing]
@[simp] theorem State.modCtx_kept (s : State) (w c : Nat) (g : Ctx → Ctx) : kept (State.modCtx s w c g) = kept s := by
  simp [State.modCtx]
@[simp] theorem State.modObj_kept (s : State) (i : Nat) (g : Obj → Obj) : kept (State.modObj s i g) = kept s := by
  simp [State.modObj]
@[simp] theorem State.modRoom_kept (s : State) (i : Nat) (g : Room → Room) : kept (State.modRoom s i g) = kept s := by
  simp [State.modRoom]
@[simp] theorem State.modHandle_kept (s : State) (i : Nat) (g : Handle → Handle) : kept (State.modHandle s i g) = kept s := by
  simp [State.modHandle]
@[simp] theorem State.modRing_kept (s : State) (i : Nat) (g : Ring → Ring) : kept (State.modRing s i g) = kept s := by
  simp [State.modRing]
@[simp] theorem State.modGroup_kept (s : State) (i : Nat) (g : Group → Group) : kept (State.modGroup s i g) = kept s := by
  simp [State.modGroup]
@[simp] theorem State.modPc_kept (s : State) (i : Nat) (g : Pc → Pc) : kept (State.modPc s i g) = kept s := by
  simp [State.modPc]
@[simp] theorem State.modLoft_kept (s : State) (i : Nat) (g : Loft → Loft) : kept (State.modLoft s i g) = kept s := by
  simp [State.modLoft]
@[simp] theorem State.modTile_kept (s : State) (i : Nat) (g : Tile → Tile) : kept (State.modTile s i g) = kept s := by
  simp [State.modTile]
@[simp] theorem State.modQuarter_kept (s : State) (i : Nat) (g : Quarter → Quarter) : kept (State.modQuarter s i g) = kept s := by
  simp [State.modQuarter]
@[simp] theorem State.modShard_kept (s : State) (i : Nat) (g : Shard → Shard) : kept (State.modShard s i g) = kept s := by
  simp [State.modShard]
@[simp] theorem State.modBase_kept (s : State) (i : Nat) (g : Base → Base) : kept (State.modBase s i g) = kept s := by
  simp [State.modBase]
@[simp] theorem State.modPort_kept (s : State) (i : Nat) (g : Port → Port) : kept (State.modPort s i g) = kept s := by
  simp [State.modPort]
@[simp] theorem State.modDomain_kept (s : State) (i : Nat) (g : Domain → Domain) : kept (State.modDomain s i g) = kept s := by
  simp [State.modDomain]
@[simp] theorem State.modJob_kept (s : State) (i : Nat) (g : Job → Job) : kept (State.modJob s i g) = kept s := by
  simp [State.modJob]
@[simp] theorem State.modClock_kept (s : State) (g : Clock → Clock) : kept (s.modClock g) =
    (s.pending, (g s.clock).st, (g s.clock).qualified, (g s.clock).holdoverFlag, (g s.clock).everLocked, (g s.clock).goodRun, (g s.clock).count) := rfl
@[simp] theorem State.modFabric_kept (s : State) (g : Fabric → Fabric) : kept (State.modFabric s g) = kept s := by
  simp [State.modFabric]
@[simp] theorem State.modSecure_kept (s : State) (g : Secure → Secure) : kept (State.modSecure s g) = kept s := by
  simp [State.modSecure]
@[simp] theorem State.modKeeper_kept (s : State) (g : Keeper → Keeper) : kept (State.modKeeper s g) = kept s := by
  simp [State.modKeeper]
@[simp] theorem State.modPower_kept (s : State) (g : Power → Power) : kept (State.modPower s g) = kept s := by
  simp [State.modPower]
@[simp] theorem State.modMgmt_kept (s : State) (g : Mgmt → Mgmt) : kept (State.modMgmt s g) = kept s := by
  simp [State.modMgmt]
@[simp] theorem State.modLink_kept (s : State) (g : Link → Link) : kept (State.modLink s g) = kept s := by
  simp [State.modLink]
@[simp] theorem State.modCellar_kept (s : State) (g : Cellar → Cellar) : kept (State.modCellar s g) = kept s := by
  simp [State.modCellar]
@[simp] theorem State.modLed_kept (s : State) (g : Led → Led) : kept (State.modLed s g) = kept s := by
  simp [State.modLed]
@[simp] theorem State.bump_kept (s : State) : kept (State.bump s) = kept s := by
  unfold State.bump; (try dsimp only); repeat' (first | with_reducible rfl | (simp; done) | split | simp)
@[simp] theorem State.draw_kept (s : State) : kept (State.draw s) = kept s := by
  simp [State.draw]
@[simp] theorem logEvent_kept (s : State) (code severity : Nat) (at_ : At) (detail : List Nat) : kept (logEvent s code severity at_ detail) = kept s := by
  unfold logEvent; (try dsimp only); repeat' (first | with_reducible rfl | (simp; done) | split | simp)
@[simp] theorem logStatus_kept (s : State) (st : Status) (at_ : At) : kept (logStatus s st at_) = kept s := by
  simp [logStatus]
@[simp] theorem logOnly_kept (s : State) (c : LogCode) (at_ : At) (detail : List Nat) : kept (logOnly s c at_ detail) = kept s := by
  simp [logOnly]
@[simp] theorem pushReply_kept (s : State) (fn : Nat) (r : Reply) : kept (pushReply s fn r) = kept s := by
  unfold pushReply; (try dsimp only); repeat' (first | with_reducible rfl | (simp; done) | split | simp)
@[simp] theorem sendNotice_kept (s : State) (every : Bool) (type : Notice) (at_ : At) (body : List Nat) : kept (sendNotice s every type at_ body) = kept s := by
  unfold sendNotice; (try dsimp only); repeat' (first | with_reducible rfl | (intro s x; (try dsimp only)) | rw [kept_foldl] | (simp; done) | split | simp)
@[simp] theorem notify_kept (s : State) (type : Notice) (at_ : At) (body : List Nat) : kept (notify s type at_ body) = kept s := by
  simp [notify]
@[simp] theorem notifyEvery_kept (s : State) (type : Notice) (body : List Nat) : kept (notifyEvery s type body) = kept s := by
  simp [notifyEvery]
@[simp] theorem finishIn_kept (s : State) (ref : CmdRef) (st : Status) (payload : Bytes) : kept (finishIn s ref st payload) = kept s := by
  unfold finishIn; (try dsimp only); repeat' (first | with_reducible rfl | (simp; done) | split | simp)
@[simp] theorem finish_kept (s : State) (ref : CmdRef) (st : Status) (payload : Bytes) : kept (finish s ref st payload) = kept s := by
  simp [finish]
@[simp] theorem finishOpt_kept (s : State) (ref : Option CmdRef) (st : Status) (payload : Bytes) : kept (finishOpt s ref st payload) = kept s := by
  unfold finishOpt; (try dsimp only); repeat' (first | with_reducible rfl | (simp; done) | split | simp)
@[simp] theorem stampPacket_kept (s : State) (k : Packet) : kept (stampPacket s k) = kept s := by
  simp [stampPacket]
@[simp] theorem closeSession_kept (s : State) (k : Nat) : kept (closeSession s k) = kept s := by
  simp [closeSession]
@[simp] theorem lapseSession_kept (s : State) (k : Nat) : kept (lapseSession s k) = kept s := by
  unfold lapseSession; (try dsimp only); repeat' (first | with_reducible rfl | (simp; done) | split | simp)
@[simp] theorem lapseFunction_kept (s : State) (fn : Nat) : kept (lapseFunction s fn) = kept s := by
  unfold lapseFunction; (try dsimp only); repeat' (first | with_reducible rfl | (intro s x; (try dsimp only)) | rw [kept_foldl] | (simp; done) | simp)
@[simp] theorem countMalformed_kept (s : State) (k : Nat) : kept (countMalformed s k) = kept s := by
  unfold countMalformed; (try dsimp only); repeat' (first | with_reducible rfl | (simp; done) | split | simp)
@[simp] theorem addMalformed_kept (s : State) (fn : Nat) : kept (addMalformed s fn) = kept s := by
  simp [addMalformed]
@[simp] theorem releaseHeld_kept (n k seq : Nat) (s : State) : kept (releaseHeld n k seq s) = kept s := by
  induction n generalizing seq s with
  | zero => rfl
  | succ n ih => unfold releaseHeld; split <;> simp [ih]
@[simp] theorem passNumber_kept (s : State) (k seq : Nat) (m : Mark) : kept (passNumber s k seq m) = kept s := by
  simp [passNumber]
@[simp] theorem passSkipped_kept (n k : Nat) (s : State) : kept (passSkipped n k s) = kept s := by
  induction n generalizing s with
  | zero => rfl
  | succ n ih => unfold passSkipped; dsimp only; split <;> simp [ih]
@[simp] theorem afterNumber_kept (s : State) (k : Nat) : kept (afterNumber s k) = kept s := by
  simp [afterNumber]
@[simp] theorem answer_kept (s : State) (k : Packet) (st : Status) (payload : Bytes) : kept (answer s k st payload) = kept s := by
  simp [answer]
@[simp] theorem concludeNumber_kept (s : State) (k : Packet) (first cached : Bool) (st : Status) (payload : Bytes) : kept (concludeNumber s k first cached st payload) = kept s := by
  unfold concludeNumber; (try dsimp only); repeat' (first | with_reducible rfl | (simp; done) | split | simp)
theorem kEval_keeps (c : KCmd) (hc : c.Keeps) (k : Packet) (s : State) : (kEval c k s).Keeps := by
  unfold kEval; repeat' (first | exact hc.1 _ _ _ | trivial | split)
theorem kExecute_kept (c : KCmd) (hc : c.Keeps) (k : Packet) (first : Bool) (s : State) : kept (kExecute c k first s) = kept s := by
  have he := kEval_keeps c hc k s
  unfold kExecute; dsimp only
  split
  · simp
  split
  · simp
  split <;> rename_i hk <;> rw [hk] at he
  · simp
  · simp
  · simp
  · rw [hc.2, afterNumber_kept]
    have hf : ∀ s, kept (_ : State) = kept s := he
    generalize hx : (if first = true then _ else _ : State) = x
    have hx' : kept x = kept s := by rw [← hx]; split <;> simp
    split
    · rw [State.modSess_kept, hf, pushReply_kept, hx']
    · rw [hf, pushReply_kept, hx']
  · rw [concludeNumber_kept]; exact he s
  · rw [afterNumber_kept, (he : ∀ s, kept _ = kept s)]; split <;> simp
  · obtain ⟨hf, hg⟩ := he
    split
    · simp
    · rw [afterNumber_kept]
      split
      · rw [hg _ rfl, hf]; split <;> simp
      · rw [hf]; split <;> simp
theorem kSequence_kept (c : KCmd) (hc : c.Keeps) (k : Packet) (s : State) : kept (kSequence c k s) = kept s := by
  unfold kSequence; dsimp only; repeat' (first | with_reducible rfl | exact kExecute_kept c hc _ _ _ | (simp; done) | split)
theorem kSession_kept (c : KCmd) (hc : c.Keeps) (k : Packet) (s : State) : kept (kSession c k s) = kept s := by
  unfold kSession; dsimp only; repeat' (first | with_reducible rfl | (simp; done) | (rw [kSequence_kept c hc]; simp; done) | split)
theorem kSessionless_kept (c : KCmd) (hc : c.Keeps) (k : Packet) (s : State) : kept (kSessionless c k s) = kept s := by
  have he := kEval_keeps c hc k s
  unfold kSessionless; dsimp only
  split
  · simp
  split
  · simp
  split <;> rename_i hk <;> rw [hk] at he
  · split <;> simp
  · simp
  · simp
  · rw [hc.2, pushReply_kept]; split <;> (try rw [State.modFn_kept]) <;> exact (he _).trans (State.bump_kept s)
  · exact (answer_kept _ _ _ _).trans (he s)
  · exact he s
  · simp [he.1]
theorem kMinimal_kept (c : KCmd) (hc : c.Keeps) (k : Packet) (s : State) : kept (kMinimal c k s) = kept s := by
  have he := kEval_keeps c hc k s
  unfold kMinimal; dsimp only
  split
  · simp
  split
  · simp
  split
  · simp
  split <;> rename_i hk <;> rw [hk] at he
  · split <;> simp
  · simp
  · simp
  · exact (pushReply_kept _ _ _).trans (he s)
  · exact he s
  · simp
  · simp
theorem kTake_kept (c : KCmd) (hc : c.Keeps) (k : Packet) (s : State) : kept (kTake c k s) = kept s := by
  unfold kTake
  repeat' (first | exact kMinimal_kept c hc _ _ | exact kSessionless_kept c hc _ _ | exact kSession_kept c hc _ _ | (simp; done) | split)
theorem kcp_kept (c : KCmd) (hc : c.Keeps) (h : CmdHdr) (p : Bytes) (s : State) : kept (kcp c h p s) = kept s := by
  unfold kcp; split
  · rfl
  · split
    · rw [kTake_kept c hc]; simp
    · rfl
theorem kcpNoOp_kept (c : KCmd) (hc : c.Keeps) (h : CmdHdr) (p : Bytes) (s : State) : kept (kcpNoOp c h p s) = kept s := by
  unfold kcpNoOp; split
  · rfl
  · split
    · rw [kTake_kept c hc]; simp
    · rfl
@[simp] theorem writeRegister_kept (s : State) (w : Nat) : kept (writeRegister s w) = kept s := by
  unfold writeRegister; (try dsimp only); repeat' (first | with_reducible rfl | (simp; done) | split | simp)
@[simp] theorem charge_kept (s : State) (party : Nat) (c : Counts) : kept (charge s party c) = kept s := by
  unfold charge; (try dsimp only); repeat' (first | with_reducible rfl | (simp; done) | split | simp)
@[simp] theorem chargeWing_kept (n : Nat) (s : State) (w : Nat) : kept (chargeWing n s w) = kept s := by
  unfold chargeWing; (try dsimp only); repeat' (first | with_reducible rfl | (intro s x; (try dsimp only)) | rw [kept_foldl] | (simp; done) | split | simp)
@[simp] theorem chargeMileposts_kept (s : State) (n : Nat) : kept (chargeMileposts s n) = kept s := by
  unfold chargeMileposts; (try dsimp only); repeat' (first | with_reducible rfl | (intro s x; (try dsimp only)) | rw [kept_foldl] | (simp; done) | split | simp)
@[simp] theorem chargeRows_kept (s : State) (rows : List PassRow) : kept (chargeRows s rows) = kept s := by
  unfold chargeRows; (try dsimp only); repeat' (first | with_reducible rfl | (intro s x; (try dsimp only)) | rw [kept_foldl] | (simp; done) | simp)
@[simp] theorem chargeBytes_kept (s : State) (party : Option Nat) (n : Nat) : kept (chargeBytes s party n) = kept s := by
  unfold chargeBytes; (try dsimp only); repeat' (first | with_reducible rfl | (simp; done) | split | simp)
@[simp] theorem fireMilepost_kept (s : State) (m : Nat) : kept (fireMilepost s m) = kept s := by
  simp [fireMilepost]
@[simp] theorem markLate_kept (s : State) : kept (markLate s) = kept s := by
  unfold markLate; (try dsimp only); repeat' (first | with_reducible rfl | (simp; done) | split | simp)
@[simp] theorem setEntry_kept (s : State) (e : TtEntry) : kept (setEntry s e) = kept s := by
  simp [setEntry]
theorem takeDue_kept {s t : State} {c : TtClass} {w : Option Nat} {arg : Nat} (h : takeDue s c w arg = some t) : kept t = kept s := by
  unfold takeDue at h; split at h
  · cases h
  · dsimp only at h; split at h
    · cases h; simp
    · cases h
@[simp] theorem rewritePages_kept (s : State) : kept (rewritePages s) = kept s := by
  unfold rewritePages; (try dsimp only); repeat' (first | with_reducible rfl | (intro s x; (try dsimp only)) | rw [kept_foldl] | (simp; done) | simp)
@[simp] theorem reraise_kept (s : State) : kept (reraise s) = kept s := by
  unfold reraise; (try dsimp only); repeat' (first | with_reducible rfl | (intro s x; (try dsimp only)) | rw [kept_foldl] | (simp; done) | simp)
@[simp] theorem stallWing_kept (s : State) (w : Nat) : kept (stallWing s w) = kept s := by
  unfold stallWing; dsimp only; split <;> rfl
@[simp] theorem countStalls_kept (s : State) : kept (countStalls s) = kept s := by
  unfold countStalls; rw [kept_foldl]; intro s x; simp
@[simp] theorem shiftTimes_kept (s : State) (d : Int) : kept (shiftTimes s d) = kept s := by
  unfold shiftTimes; (try dsimp only); repeat' (first | with_reducible rfl | (intro s x; (try dsimp only)) | rw [kept_foldl] | (simp; done) | simp)
@[simp] theorem fireRange_kept (n m : Nat) (s : State) : kept (fireRange n m s) = kept s := by
  induction n generalizing m s with
  | zero => rfl
  | succ n ih => unfold fireRange; simp [ih]
@[simp] theorem writeRegisters_kept (s : State) : kept (writeRegisters s) = kept s := by
  unfold writeRegisters; (try dsimp only); repeat' (first | with_reducible rfl | (intro s x; (try dsimp only)) | rw [kept_foldl] | (simp; done) | simp)
@[simp] theorem slewDone_kept (s : State) : kept (slewDone s) = kept s := by
  unfold slewDone; (try dsimp only); repeat' (first | with_reducible rfl | (simp; done) | split | simp)
@[simp] theorem timeUnsetReminder_kept (s : State) : kept (timeUnsetReminder s) = kept s := by
  unfold timeUnsetReminder; (try dsimp only); repeat' (first | with_reducible rfl | (simp; done) | split | simp)
@[simp] theorem mpCountRead_kept (s : State) : kept (mpCountRead s) = kept s := by
  unfold mpCountRead; (try dsimp only); repeat' (first | with_reducible rfl | (simp; done) | split | simp)
@[simp] theorem releaseTiles_kept (s : State) (w c : Nat) : kept (releaseTiles s w c) = kept s := by
  unfold releaseTiles; (try dsimp only); repeat' (first | with_reducible rfl | (intro s x; (try dsimp only)) | rw [kept_foldl] | (simp; done) | split | simp)
@[simp] theorem freeRoom_kept (s : State) (r : Nat) : kept (freeRoom s r) = kept s := by
  unfold freeRoom; (try dsimp only); repeat' (first | with_reducible rfl | (intro s x; (try dsimp only)) | rw [kept_foldl] | (simp; done) | simp)
@[simp] theorem settleDiscard_kept (s : State) (r : Nat) : kept (settleDiscard s r) = kept s := by
  unfold settleDiscard; (try dsimp only); repeat' (first | with_reducible rfl | (simp; done) | split | simp)
@[simp] theorem refObj_kept (s : State) (o : Nat) : kept (refObj s o) = kept s := by
  simp [refObj]
@[simp] theorem unrefObj_kept (s : State) (o : Nat) : kept (unrefObj s o) = kept s := by
  simp [unrefObj]
@[simp] theorem unrefRoom_kept (s : State) (r : Nat) : kept (unrefRoom s r) = kept s := by
  simp [unrefRoom]
@[simp] theorem releaseRefs_kept (s : State) (p : Pass) : kept (releaseRefs s p) = kept s := by
  unfold releaseRefs; (try dsimp only); repeat' (first | with_reducible rfl | (intro s x; (try dsimp only)) | rw [kept_foldl] | (simp; done) | simp)
@[simp] theorem releaseTable_kept (s : State) (q : PassCmd) : kept (releaseTable s q) = kept s := by
  unfold releaseTable; (try dsimp only); repeat' (first | with_reducible rfl | (simp; done) | split | simp)
@[simp] theorem discardBanks_kept (s : State) (w : Nat) : kept (discardBanks s w) = kept s := by
  unfold discardBanks; (try dsimp only); repeat' (first | with_reducible rfl | (intro s x; (try dsimp only)) | rw [kept_foldl] | (simp; done) | simp)
@[simp] theorem askSwitch_kept (s : State) (w : Nat) : kept (askSwitch s w) = kept s := by
  simp [askSwitch]
@[simp] theorem settleContext_kept (s : State) (w c : Nat) : kept (settleContext s w c) = kept s := by
  unfold settleContext; (try dsimp only); repeat' (first | with_reducible rfl | (simp; done) | split | simp)
@[simp] theorem dropQueued_kept (s : State) (q : PassCmd) (st : Status) : kept (dropQueued s q st) = kept s := by
  simp [dropQueued]
@[simp] theorem endPassIn_kept (s : State) (w c : Nat) (st : Status) : kept (endPassIn s w c st) = kept s := by
  unfold endPassIn; (try dsimp only); repeat' (first | with_reducible rfl | (simp; done) | split | simp)
@[simp] theorem failPass_kept (s : State) (w c : Nat) (st : Status) : kept (failPass s w c st) = kept s := by
  unfold failPass; (try dsimp only); repeat' (first | with_reducible rfl | (simp; done) | split | simp)
@[simp] theorem failTile_kept (s : State) (t : Nat) (st : Status) : kept (failTile s t st) = kept s := by
  unfold failTile; (try dsimp only); repeat' (first | with_reducible rfl | (simp; done) | split | simp)
@[simp] theorem markChanged_kept (s : State) (kind place : Nat) : kept (markChanged s kind place) = kept s := by
  unfold markChanged; (try dsimp only); repeat' (first | with_reducible rfl | (simp; done) | split | simp)
@[simp] theorem shadowLoad_kept (tile : Nat) (block : WBlock) (s : State) : kept (shadowLoad tile block s) = kept s := by
  unfold shadowLoad; (try dsimp only); repeat' (first | with_reducible rfl | (simp; done) | split | simp)
@[simp] theorem blockSwap_kept (tile : Nat) (s : State) : kept (blockSwap tile s) = kept s := by
  unfold blockSwap; (try dsimp only); repeat' (first | with_reducible rfl | (simp; done) | split | simp)
@[simp] theorem arrayRow_kept (tile : Nat) (r : RowData) (s : State) : kept (arrayRow tile r s) = kept s := by
  unfold arrayRow; (try dsimp only); repeat' (first | with_reducible rfl | (simp; done) | split | simp)
@[simp] theorem snapshotPart_kept (s : State) (kind place : Nat) : kept (snapshotPart s kind place) = kept s := by
  simp [snapshotPart]
@[simp] theorem crossing_kept (s : State) (n : Notice) (at_ : At) (body : List Nat) : kept (crossing s n at_ body) = kept s := by
  simp [crossing]
@[simp] theorem tileSuspect_kept (s : State) (t : Nat) (at_ : At) : kept (tileSuspect s t at_) = kept s := by
  simp [tileSuspect]
@[simp] theorem tileCorrected_kept (s : State) (t : Nat) : kept (tileCorrected s t) = kept s := by
  unfold tileCorrected; (try dsimp only); repeat' (first | with_reducible rfl | (simp; done) | split | simp)
@[simp] theorem settleGates_kept (s : State) : kept (settleGates s) = kept s := by
  unfold settleGates; (try dsimp only); repeat' (first | with_reducible rfl | (intro s x; (try dsimp only)) | rw [kept_foldl] | (simp; done) | split | simp)
@[simp] theorem switchMap_kept (s : State) (n : Nat) (old : Option Nat) (spare : Nat) : kept (switchMap s n old spare) = kept s := by
  unfold switchMap; (try dsimp only); repeat' (first | with_reducible rfl | (simp; done) | split | simp)
@[simp] theorem tileMapped_kept (s : State) (n spare : Nat) (old : Option Nat) : kept (tileMapped s n spare old) = kept s := by
  simp [tileMapped]
@[simp] theorem startMapping_kept (s : State) (n spare : Nat) (ref : Option CmdRef) : kept (startMapping s n spare ref) = kept s := by
  unfold startMapping; (try dsimp only); repeat' (first | with_reducible rfl | (simp; done) | split | simp)
@[simp] theorem loseTile_kept (s : State) (n : Nat) : kept (loseTile s n) = kept s := by
  unfold loseTile; (try dsimp only); repeat' (first | with_reducible rfl | (simp; done) | split | simp)
@[simp] theorem beginMap_kept (s : State) (m : MapReq) : kept (beginMap s m) = kept s := by
  unfold beginMap; (try dsimp only); repeat' (first | with_reducible rfl | (simp; done) | split | simp)
@[simp] theorem settleMaps_kept (s : State) : kept (settleMaps s) = kept s := by
  unfold settleMaps; (try dsimp only); repeat' (first | with_reducible rfl | (intro s x; (try dsimp only)) | rw [kept_foldl] | (simp; done) | split | simp)
@[simp] theorem autoMap_kept (s : State) (p : Nat) : kept (autoMap s p) = kept s := by
  unfold autoMap; (try dsimp only); repeat' (first | with_reducible rfl | (simp; done) | split | simp)
@[simp] theorem arrayParity_kept (p : Nat) (s : State) : kept (arrayParity p s) = kept s := by
  unfold arrayParity; (try dsimp only); repeat' (first | with_reducible rfl | (simp; done) | split | simp)
@[simp] theorem openLink_kept (tile : Nat) (a : OpenArgs) (s : State) : kept (openLink tile a s) = kept s := by
  unfold openLink; (try dsimp only); repeat' (first | with_reducible rfl | (intro s x; (try dsimp only)) | rw [kept_foldl] | (simp; done) | split | simp)
@[simp] theorem openFirst_kept (tile : Nat) (a : OpenArgs) (s : State) : kept (openFirst tile a s) = kept s := by
  unfold openFirst; (try dsimp only); repeat' (first | with_reducible rfl | (simp; done) | split | simp)
@[simp] theorem accOpen_kept (tile : Nat) (a : OpenArgs) (s : State) : kept (accOpen tile a s) = kept s := by
  unfold accOpen; (try dsimp only); repeat' (first | with_reducible rfl | (simp; done) | split | simp)
@[simp] theorem promotion_kept (tile tracker row col : Nat) (corrected : Bool) (s : State) : kept (promotion tile tracker row col corrected s) = kept s := by
  unfold promotion; (try dsimp only); repeat' (first | with_reducible rfl | (simp; done) | split | simp)
@[simp] theorem countTag_kept (s : State) (w tag : Nat) (b : Bank) : kept (countTag s w tag b) = kept s := by
  unfold countTag; (try dsimp only); repeat' (first | with_reducible rfl | (simp; done) | split | simp)
@[simp] theorem retryOpen_kept (tile : Nat) (s : State) : kept (retryOpen tile s) = kept s := by
  unfold retryOpen; (try dsimp only); repeat' (first | with_reducible rfl | (simp; done) | split | simp)
@[simp] theorem drainEnd_kept (tile tracker : Nat) (flag : Option Nat) (s : State) : kept (drainEnd tile tracker flag s) = kept s := by
  unfold drainEnd; (try dsimp only); repeat' (first | with_reducible rfl | (simp; done) | split | simp)
@[simp] theorem drain_kept (tile : Nat) (d : DrainArgs) (s : State) : kept (drain tile d s) = kept s := by
  unfold drain; (try dsimp only); repeat' (first | with_reducible rfl | (simp; done) | split | simp)
@[simp] theorem accEccError_kept (tile : Nat) (corrected : Bool) (s : State) : kept (accEccError tile corrected s) = kept s := by
  unfold accEccError; (try dsimp only); repeat' (first | with_reducible rfl | (simp; done) | split | simp)
@[simp] theorem freeObj_kept (s : State) (i : Nat) : kept (freeObj s i) = kept s := by
  simp [freeObj]
@[simp] theorem endServe_kept (s : State) (w c n : Nat) (st : Status) : kept (endServe s w c n st) = kept s := by
  simp [endServe]
@[simp] theorem endServes_kept (s : State) (w c : Nat) (st : Status) : kept (endServes s w c st) = kept s := by
  unfold endServes; (try dsimp only); repeat' (first | with_reducible rfl | (intro s x; (try dsimp only)) | rw [kept_foldl] | (simp; done) | simp)
@[simp] theorem dropQueue_kept (s : State) (w c : Nat) (st : Status) : kept (dropQueue s w c st) = kept s := by
  unfold dropQueue; (try dsimp only); repeat' (first | with_reducible rfl | (intro s x; (try dsimp only)) | rw [kept_foldl] | (simp; done) | simp)
@[simp] theorem spendTickets_kept (s : State) (f : Nat → Ticket → Bool) : kept (spendTickets s f) = kept s := by
  unfold spendTickets; (try dsimp only); repeat' (first | with_reducible rfl | (intro s x; (try dsimp only)) | rw [kept_foldl] | (simp; done) | split | simp)
@[simp] theorem dropTickets_kept (s : State) (w c : Nat) : kept (dropTickets s w c) = kept s := by
  simp [dropTickets]
@[simp] theorem State.mapCtx_kept (s : State) (f : Nat → Nat → Ctx → Ctx) : kept (State.mapCtx s f) = kept s := by
  unfold State.mapCtx; (try dsimp only); repeat' (first | with_reducible rfl | (intro s x; (try dsimp only)) | rw [kept_foldl] | (simp; done) | simp)
@[simp] theorem endContextIn_kept (s : State) (w c : Nat) (st : Status) : kept (endContextIn s w c st) = kept s := by
  unfold endContextIn; (try dsimp only); repeat' (first | with_reducible rfl | (simp; done) | split | simp)
@[simp] theorem endContext_kept (s : State) (w c : Nat) (st : Status) (at_ : At) (detail : List Nat) : kept (endContext s w c st at_ detail) = kept s := by
  unfold endContext; (try dsimp only); repeat' (first | with_reducible rfl | (simp; done) | split | simp)
@[simp] theorem settleRemoval_kept (s : State) (w : Nat) : kept (settleRemoval s w) = kept s := by
  unfold settleRemoval; (try dsimp only); repeat' (first | with_reducible rfl | (simp; done) | split | simp)
@[simp] theorem endKvSessions_kept (s : State) (i : Nat) : kept (endKvSessions s i) = kept s := by
  unfold endKvSessions; (try dsimp only); repeat' (first | with_reducible rfl | (intro s x; (try dsimp only)) | rw [kept_foldl] | (simp; done) | simp)
@[simp] theorem damageObj_kept (s : State) (i : Nat) (st : Status) : kept (damageObj s i st) = kept s := by
  simp [damageObj]
@[simp] theorem retireStep_kept (s : State) (pc i : Nat) : kept (retireStep s pc i) = kept s := by
  unfold retireStep; (try dsimp only); repeat' (first | with_reducible rfl | (simp; done) | split | simp)
@[simp] theorem retireNext_kept (pc : Nat) (s : State) : kept (retireNext pc s) = kept s := by
  unfold retireNext; (try dsimp only); repeat' (first | with_reducible rfl | (intro s x; (try dsimp only)) | rw [kept_foldl] | (simp; done) | split | simp)
@[simp] theorem evacuateNext_kept (ch : Nat) (s : State) : kept (evacuateNext ch s) = kept s := by
  unfold evacuateNext; (try dsimp only); repeat' (first | with_reducible rfl | (intro s x; (try dsimp only)) | rw [kept_foldl] | (simp; done) | split | simp)
@[simp] theorem retireRooms_kept (pc : Nat) (s : State) : kept (retireRooms pc s) = kept s := by
  unfold retireRooms; (try dsimp only); repeat' (first | with_reducible rfl | (intro s x; (try dsimp only)) | rw [kept_foldl] | (simp; done) | split | simp)
@[simp] theorem evacuateImages_kept (ch : Nat) (s : State) : kept (evacuateImages ch s) = kept s := by
  unfold evacuateImages; (try dsimp only); repeat' (first | with_reducible rfl | (intro s x; (try dsimp only)) | rw [kept_foldl] | (simp; done) | split | simp)
@[simp] theorem endHostWork_kept (s : State) (i : Nat) : kept (endHostWork s i) = kept s := by
  unfold endHostWork; (try dsimp only); repeat' (first | with_reducible rfl | (simp; done) | split | simp)
@[simp] theorem endRemoval_kept (s : State) (r : KeyRemoval) : kept (endRemoval s r) = kept s := by
  simp [endRemoval]
@[simp] theorem settleRemovals_kept (s : State) : kept (settleRemovals s) = kept s := by
  unfold settleRemovals; (try dsimp only); repeat' (first | with_reducible rfl | (intro s x; (try dsimp only)) | rw [kept_foldl] | (simp; done) | split | simp)
@[simp] theorem carryMoves_kept (s : State) : kept (carryMoves s) = kept s := by
  unfold carryMoves; (try dsimp only); repeat' (first | with_reducible rfl | (intro s x; (try dsimp only)) | rw [kept_foldl] | (simp; done) | simp)
@[simp] theorem retryBlocked_kept (s : State) (w : Nat) : kept (retryBlocked s w) = kept s := by
  unfold retryBlocked; (try dsimp only); repeat' (first | with_reducible rfl | (intro s x; (try dsimp only)) | rw [kept_foldl] | (simp; done) | split | simp)
@[simp] theorem arriveObj_kept (s : State) (i : Nat) (d : Place) : kept (arriveObj s i d) = kept s := by
  simp [arriveObj]
@[simp] theorem objectMoveCommit_kept (i : Nat) (s : State) : kept (objectMoveCommit i s) = kept s := by
  unfold objectMoveCommit; (try dsimp only); repeat' (first | with_reducible rfl | (simp; done) | split | simp)
@[simp] theorem objectFillDone_kept (i : Nat) (s : State) : kept (objectFillDone i s) = kept s := by
  unfold objectFillDone; (try dsimp only); repeat' (first | with_reducible rfl | (simp; done) | split | simp)
@[simp] theorem objectTransferDone_kept (i : Nat) (bytes : Bytes) (s : State) : kept (objectTransferDone i bytes s) = kept s := by
  unfold objectTransferDone; (try dsimp only); repeat' (first | with_reducible rfl | (simp; done) | split | simp)
@[simp] theorem newObj_kept (s : State) (i : Nat) (x : Obj) : kept (newObj s i x) = kept s := by
  simp [newObj]
@[simp] theorem freeByCommand_kept (i : Nat) (s : State) : kept (freeByCommand i s) = kept s := by
  unfold freeByCommand; (try dsimp only); repeat' (first | with_reducible rfl | (simp; done) | split | simp)
@[simp] theorem startLoad_kept (s : State) (i w r : Nat) (place : Place) (l : Load) : kept (startLoad s i w r place l) = kept s := by
  unfold startLoad; (try dsimp only); repeat' (first | with_reducible rfl | (simp; done) | split | simp)
@[simp] theorem failLoad_kept (s : State) (i : Nat) (st : Status) : kept (failLoad s i st) = kept s := by
  unfold failLoad; (try dsimp only); repeat' (first | with_reducible rfl | (simp; done) | split | simp)
@[simp] theorem dropSessions_kept (s : State) (i : Nat) : kept (dropSessions s i) = kept s := by
  unfold dropSessions; (try dsimp only); repeat' (first | with_reducible rfl | (intro s x; (try dsimp only)) | rw [kept_foldl] | (simp; done) | simp)
@[simp] theorem endReload_kept (s : State) (i : Nat) (st : Status) : kept (endReload s i st) = kept s := by
  unfold endReload; (try dsimp only); repeat' (first | with_reducible rfl | (intro s x; (try dsimp only)) | rw [kept_foldl] | (simp; done) | split | simp)
@[simp] theorem endReads_kept (s : State) (i : Nat) : kept (endReads s i) = kept s := by
  unfold endReads; (try dsimp only); repeat' (first | with_reducible rfl | (intro s x; (try dsimp only)) | rw [kept_foldl] | (simp; done) | simp)
@[simp] theorem damageHandle_kept (s : State) (i : Nat) : kept (damageHandle s i) = kept s := by
  unfold damageHandle; (try dsimp only); repeat' (first | with_reducible rfl | (simp; done) | split | simp)
@[simp] theorem newRoomObj_kept (s : State) (p : Bytes) (bytes : Nat) : kept (newRoomObj s p bytes) = kept s := by
  simp [newRoomObj]
@[simp] theorem rebindSessions_kept (s : State) (i : Nat) : kept (rebindSessions s i) = kept s := by
  unfold rebindSessions; (try dsimp only); repeat' (first | with_reducible rfl | (intro s x; (try dsimp only)) | rw [kept_foldl] | (simp; done) | split | simp)
@[simp] theorem countReload_kept (s : State) (w i : Nat) (l : Load) : kept (countReload s w i l) = kept s := by
  unfold countReload; (try dsimp only); repeat' (first | with_reducible rfl | (simp; done) | split | simp)
@[simp] theorem leaveRoom_kept (s : State) (r : Nat) (l : List Checkout) : kept (leaveRoom s r l) = kept s := by
  simp [leaveRoom]
@[simp] theorem wakeCheckouts_kept (s : State) (r : Nat) : kept (wakeCheckouts s r) = kept s := by
  unfold wakeCheckouts; (try dsimp only); repeat' (first | with_reducible rfl | (simp; done) | split | simp)
@[simp] theorem commitLoad_kept (s : State) (i : Nat) (l : Load) : kept (commitLoad s i l) = kept s := by
  simp [commitLoad]
@[simp] theorem pointArrival_kept (r : Nat) (block : Bytes) (s : State) : kept (pointArrival r block s) = kept s := by
  unfold pointArrival; (try dsimp only); repeat' (first | with_reducible rfl | (simp; done) | split | simp)
@[simp] theorem replacementCommit_kept (i : Nat) (s : State) : kept (replacementCommit i s) = kept s := by
  unfold replacementCommit; (try dsimp only); repeat' (first | with_reducible rfl | (simp; done) | split | simp)
@[simp] theorem endCheckouts_kept (s : State) (i : Nat) (l : List Checkout) : kept (endCheckouts s i l) = kept s := by
  unfold endCheckouts; (try dsimp only); repeat' (first | with_reducible rfl | (intro s x; (try dsimp only)) | rw [kept_foldl] | (simp; done) | split | simp)
@[simp] theorem checkoutMoveCommit_kept (r : Nat) (s : State) : kept (checkoutMoveCommit r s) = kept s := by
  unfold checkoutMoveCommit; (try dsimp only); repeat' (first | with_reducible rfl | (simp; done) | split | simp)
@[simp] theorem deleteHandle_kept (i : Nat) (s : State) : kept (deleteHandle i s) = kept s := by
  unfold deleteHandle; (try dsimp only); repeat' (first | with_reducible rfl | (simp; done) | split | simp)
@[simp] theorem adapterReadDone_kept (i : Nat) (s : State) : kept (adapterReadDone i s) = kept s := by
  unfold adapterReadDone; (try dsimp only); repeat' (first | with_reducible rfl | (simp; done) | split | simp)
@[simp] theorem settleRan_kept (s : State) (tile w c : Nat) (r : Ran) : kept (settleRan s tile w c r) = kept s := by
  unfold settleRan; (try dsimp only); repeat' (first | with_reducible rfl | (simp; done) | split | simp)
@[simp] theorem vecWord_kept (tile : Nat) (word : W64) (run : Engine → List Space → Ran) (s : State) : kept (vecWord tile word run s) = kept s := by
  unfold vecWord; (try dsimp only); repeat' (first | with_reducible rfl | (simp; done) | split | simp)
theorem vecOp_kept {op tile : Nat} {a : TvxArgs} {s t : State} (h : vecOp op tile a s = .next t) : kept t = kept s := by
  obtain ⟨-, rfl⟩ := onPart_next h; split
  · exact vecWord_kept _ _ _ _
  · rfl
@[simp] theorem keepSlice_kept (s : State) (j : Job) (seg : Nat) (sp : List Space) : kept (keepSlice s j seg sp) = kept s := by
  unfold keepSlice; (try dsimp only); repeat' (first | with_reducible rfl | (simp; done) | split | simp)
@[simp] theorem runProgress_kept (s : State) (ref : CmdRef) (faulted : Bool) : kept (runProgress s ref faulted) = kept s := by
  unfold runProgress; (try dsimp only); repeat' (first | with_reducible rfl | (simp; done) | split | simp)
@[simp] theorem State.modPass_kept (s : State) (w c : Nat) (g : Pass → Pass) : kept (State.modPass s w c g) = kept s := by
  simp [State.modPass]
@[simp] theorem endJob_kept (s : State) (n : Nat) (faulted : Bool) : kept (endJob s n faulted) = kept s := by
  unfold endJob; (try dsimp only); repeat' (first | with_reducible rfl | (simp; done) | split | simp)
@[simp] theorem faultJob_kept (s : State) (n : Nat) : kept (faultJob s n) = kept s := by
  simp [faultJob]
@[simp] theorem updateJobStart_kept (n i : Nat) (s : State) : kept (updateJobStart n i s) = kept s := by
  unfold updateJobStart; (try dsimp only); repeat' (first | with_reducible rfl | (simp; done) | split | simp)
@[simp] theorem runJobSlice_kept (s : State) (n : Nat) (j : Job) : kept (runJobSlice s n j) = kept s := by
  unfold runJobSlice; (try dsimp only); repeat' (first | with_reducible rfl | (intro s x; (try dsimp only)) | rw [kept_foldl] | (simp; done) | split | simp)
@[simp] theorem updateSlice_kept (q : Nat) (s : State) : kept (updateSlice q s) = kept s := by
  unfold updateSlice; (try dsimp only); repeat' (first | with_reducible rfl | (simp; done) | split | simp)
@[simp] theorem updateCommit_kept (n i : Nat) (s : State) : kept (updateCommit n i s) = kept s := by
  unfold updateCommit; (try dsimp only); repeat' (first | with_reducible rfl | (simp; done) | split | simp)
@[simp] theorem addJob_kept (s : State) (j : Job) : kept (addJob s j) = kept s := by
  simp [addJob]
@[simp] theorem mapWatch_kept (s : State) (w : Nat) (f : Watch → Watch) : kept (mapWatch s w f) = kept s := by
  unfold mapWatch; (try dsimp only); repeat' (first | with_reducible rfl | (intro s x; (try dsimp only)) | rw [kept_foldl] | (simp; done) | simp)
@[simp] theorem rangeWatch_kept (s : State) (w first count : Nat) (f : Nat → Watch → Watch) : kept (rangeWatch s w first count f) = kept s := by
  unfold rangeWatch; (try dsimp only); repeat' (first | with_reducible rfl | (intro s x; (try dsimp only)) | rw [kept_foldl] | (simp; done) | simp)
@[simp] theorem limitNotices_kept (w step : Nat) (s : State) (p : Nat × Watch) : kept (limitNotices w step s p) = kept s := by
  unfold limitNotices; (try dsimp only); repeat' (first | with_reducible rfl | (simp; done) | split | simp)
@[simp] theorem checkLimits_kept (s : State) (w step : Nat) : kept (checkLimits s w step).1 = kept s := by
  unfold checkLimits; dsimp only; rw [kept_foldl]; intro s x; simp
@[simp] theorem stopQueue_kept (s : State) (fn : Nat) : kept (stopQueue s fn) = kept s := by
  simp [stopQueue]
@[simp] theorem countFailure_kept (s : State) (fn : Nat) : kept (countFailure s fn) = kept s := by
  unfold countFailure; (try dsimp only); repeat' (first | with_reducible rfl | (simp; done) | split | simp)
@[simp] theorem headerFailure_kept (s : State) (fn : Nat) : kept (headerFailure s fn) = kept s := by
  simp [headerFailure]
@[simp] theorem scanWords_kept (n fn : Nat) (s : State) : kept (scanWords n fn s) = kept s := by
  induction n generalizing s with
  | zero => rfl
  | succ n ih => unfold scanWords; dsimp only; repeat' (first | with_reducible rfl | (simp [ih]; done) | split)
@[simp] theorem takeWord_kept (s : State) (fn : Nat) (v : Nat) : kept (takeWord s fn v) = kept s := by
  unfold takeWord; (try dsimp only); repeat' (first | with_reducible rfl | (simp; done) | split | simp)
@[simp] theorem scan_kept (s : State) (fn : Nat) : kept (scan s fn) = kept s := by
  simp [scan]
@[simp] theorem doorbellFault_kept (s : State) (fn : Nat) : kept (doorbellFault s fn) = kept s := by
  simp [doorbellFault]
@[simp] theorem ringFault_kept (s : State) (fn : Nat) : kept (ringFault s fn) = kept s := by
  simp [ringFault]
@[simp] theorem doorbell_kept (fn value : Nat) (words : List Nat) (s : State) : kept (doorbell fn value words s) = kept s := by
  unfold doorbell; (try dsimp only); repeat' (first | with_reducible rfl | (intro s x; (try dsimp only)) | rw [kept_foldl] | (simp; done) | split | simp)
@[simp] theorem replyHead_kept (fn value : Nat) (s : State) : kept (replyHead fn value s) = kept s := by
  unfold replyHead; (try dsimp only); repeat' (first | with_reducible rfl | (simp; done) | split | simp)
@[simp] theorem noticeHead_kept (fn value : Nat) (s : State) : kept (noticeHead fn value s) = kept s := by
  unfold noticeHead; (try dsimp only); repeat' (first | with_reducible rfl | (simp; done) | split | simp)
@[simp] theorem abandonWord_kept (s : State) (fn : Nat) : kept (abandonWord s fn) = kept s := by
  unfold abandonWord; (try dsimp only); repeat' (first | with_reducible rfl | (simp; done) | split | simp)
@[simp] theorem windowWord_kept (s : State) (fn v : Nat) : kept (windowWord s fn v) = kept s := by
  unfold windowWord; (try dsimp only); repeat' (first | with_reducible rfl | (simp; done) | split | simp)
@[simp] theorem windowWrite_kept (fn offset : Nat) (data : Bytes) (s : State) : kept (windowWrite fn offset data s) = kept s := by
  unfold windowWrite; (try dsimp only); repeat' (first | with_reducible rfl | (simp; done) | split | simp)
@[simp] theorem returned_kept (s : State) (b : Bytes) : kept (returned s b) = kept s := by
  simp [returned]
@[simp] theorem returnNotValid_kept (s : State) (next reason : Nat) : kept (returnNotValid s next reason) = kept s := by
  simp [returnNotValid]
@[simp] theorem replyWindow_kept (fn width : Nat) (s : State) : kept (replyWindow fn width s) = kept s := by
  unfold replyWindow; (try dsimp only); repeat' (first | with_reducible rfl | (simp; done) | split | simp)
@[simp] theorem noticeWindow_kept (fn width : Nat) (s : State) : kept (noticeWindow fn width s) = kept s := by
  unfold noticeWindow; (try dsimp only); repeat' (first | with_reducible rfl | (simp; done) | split | simp)
@[simp] theorem arrivalTimeout_kept (fn : Nat) (s : State) : kept (arrivalTimeout fn s) = kept s := by
  unfold arrivalTimeout; (try dsimp only); repeat' (first | with_reducible rfl | (simp; done) | split | simp)
theorem onSession_kept {fn n : Nat} {s t : State} {f : Nat → Session → State} (h : onSession fn n s f = .next t)
    (hf : ∀ k x, kept (f k x) = kept s) : kept t = kept s := by
  unfold onSession at h; split at h
  · obtain ⟨-, rfl⟩ := onPart_next h
    split
    · exact hf _ _
    · rfl
  · cases h
@[simp] theorem gapNotice_kept (s : State) (k : Nat) (x : Session) : kept (gapNotice s k x) = kept s := by
  unfold gapNotice; (try dsimp only); repeat' (first | with_reducible rfl | (simp; done) | split | simp)
@[simp] theorem gapSkip_kept (s : State) (k : Nat) (x : Session) : kept (gapSkip s k x) = kept s := by
  unfold gapSkip; (try dsimp only); repeat' (first | with_reducible rfl | (intro s x; (try dsimp only)) | rw [kept_foldl] | (simp; done) | split | simp)
@[simp] theorem leaseExpiry_kept (s : State) (k : Nat) (x : Session) : kept (leaseExpiry s k x) = kept s := by
  unfold leaseExpiry; (try dsimp only); repeat' (first | with_reducible rfl | (simp; done) | split | simp)
@[simp] theorem lapseHoldExpiry_kept (s : State) (k : Nat) (x : Session) : kept (lapseHoldExpiry s k x) = kept s := by
  unfold lapseHoldExpiry; (try dsimp only); repeat' (first | with_reducible rfl | (simp; done) | split | simp)
@[simp] theorem probationEnd_kept (s : State) (k : Nat) (x : Session) : kept (probationEnd s k x) = kept s := by
  unfold probationEnd; (try dsimp only); repeat' (first | with_reducible rfl | (simp; done) | split | simp)
@[simp] theorem resumeReplays_kept (h : CmdHdr) (p : Bytes) (s : State) : kept (resumeReplays h p s) = kept s := by
  unfold resumeReplays; (try dsimp only); repeat' (first | with_reducible rfl | (intro s x; (try dsimp only)) | rw [kept_foldl] | (simp; done) | split | simp)
@[simp] theorem noteAhead_kept (s : State) (w : Nat) : kept (noteAhead s w) = kept s := by
  simp [noteAhead]
@[simp] theorem startSweep_kept (s : State) (w b : Nat) (backward : Bool) : kept (startSweep s w b backward) = kept s := by
  simp [startSweep]
@[simp] theorem finishShard_kept (s : State) (w : Nat) : kept (finishShard s w) = kept s := by
  unfold finishShard; (try dsimp only); repeat' (first | with_reducible rfl | (simp; done) | split | simp)
theorem reserveSave_kept {tiles w c : Nat} {s t u : State} (h : reserveSave tiles w (some t) c = some u) (ht : kept t = kept s) : kept u = kept s := by
  unfold reserveSave at h; rw [Option.bind_some] at h; dsimp only at h
  split at h
  · cases h; exact ht
  · split at h
    · cases h; simp only [State.modObj_kept, ht]
    · obtain ⟨p, -, rfl⟩ := Option.map_eq_some_iff.mp h; simp only [State.modObj_kept, ht]
@[simp] theorem reserveSaves_getD_kept (s : State) (w tiles : Nat) : kept ((reserveSaves s w tiles).getD s) = kept s := by
  have hn (l : List Nat) : l.foldl (reserveSave tiles w) none = none := by
    induction l with
    | nil => rfl
    | cons a l ih => rw [List.foldl_cons]; exact ih
  have hl (l : List Nat) (t : State) (ht : kept t = kept s) : kept ((l.foldl (reserveSave tiles w) (some t)).getD s) = kept s := by
    induction l generalizing t with
    | nil => exact ht
    | cons a l ih =>
      rw [List.foldl_cons]
      cases hr : reserveSave tiles w (some t) a with
      | none => rw [hn]; rfl
      | some u => exact ih u (reserveSave_kept hr ht)
  exact hl _ s rfl
@[simp] theorem askTiles_kept (w tiles : Nat) (s : State) : kept (askTiles w tiles s) = kept s := by
  unfold askTiles; (try dsimp only); repeat' (first | with_reducible rfl | (simp; done) | split | simp)
@[simp] theorem retileCtx_kept (w old new : Nat) (s : State) (c : Nat) : kept (retileCtx w old new s c) = kept s := by
  simp [retileCtx]
@[simp] theorem clearRegions_kept (w : Nat) (s : State) (t : Nat) : kept (clearRegions w s t) = kept s := by
  unfold clearRegions; (try dsimp only); repeat' (first | with_reducible rfl | (intro s x; (try dsimp only)) | rw [kept_foldl] | (simp; done) | simp)
@[simp] theorem applyChange_kept (s : State) (w : Nat) : kept (applyChange s w) = kept s := by
  unfold applyChange; (try dsimp only); repeat' (first | with_reducible rfl | (intro s x; (try dsimp only)) | rw [kept_foldl] | (simp; done) | split | simp)
@[simp] theorem dropWingTickets_kept (s : State) (w : Nat) : kept (dropWingTickets s w) = kept s := by
  simp [dropWingTickets]
@[simp] theorem startRemoval_kept (s : State) (w : Nat) : kept (startRemoval s w) = kept s := by
  unfold startRemoval; (try dsimp only); repeat' (first | with_reducible rfl | (intro s x; (try dsimp only)) | rw [kept_foldl] | (simp; done) | split | simp)
@[simp] theorem releaseWing_kept (s : State) (w : Nat) : kept (releaseWing s w) = kept s := by
  unfold releaseWing; (try dsimp only); repeat' (first | with_reducible rfl | (simp; done) | split | simp)
@[simp] theorem wingRemoveDone_kept (w : Nat) (s : State) : kept (wingRemoveDone w s) = kept s := by
  unfold wingRemoveDone; (try dsimp only); repeat' (first | with_reducible rfl | (simp; done) | split | simp)
@[simp] theorem queuePass_kept (w c : Nat) (kind : CtxKind) (q : PassCmd) (s : State) : kept (queuePass w c kind q s) = kept s := by
  simp [queuePass]
@[simp] theorem startProgram_kept (s : State) (w c id step : Nat) : kept (startProgram s w c id step) = kept s := by
  unfold startProgram; (try dsimp only); repeat' (first | with_reducible rfl | (intro s x; (try dsimp only)) | rw [kept_foldl] | (simp; done) | simp)
@[simp] theorem assumeSweep_kept (s : State) (w base : Nat) (backward : Bool) : kept (assumeSweep s w base backward) = kept s := by
  unfold assumeSweep; (try dsimp only); repeat' (first | with_reducible rfl | (simp; done) | split | simp)
@[simp] theorem reloadInto_kept (s : State) (w i r : Nat) (place : Place) : kept (reloadInto s w i r place) = kept s := by
  simp [reloadInto]
@[simp] theorem takeRefs_kept (s : State) (rooms objects : List Nat) : kept (takeRefs s rooms objects) = kept s := by
  unfold takeRefs; (try dsimp only); repeat' (first | with_reducible rfl | (intro s x; (try dsimp only)) | rw [kept_foldl] | (simp; done) | simp)
@[simp] theorem noteRunnable_kept (s : State) (w c : Nat) : kept (noteRunnable s w c) = kept s := by
  unfold noteRunnable; (try dsimp only); repeat' (first | with_reducible rfl | (simp; done) | split | simp)
@[simp] theorem admitPass_kept (s : State) (w c : Nat) (p : Pass) : kept (admitPass s w c p) = kept s := by
  unfold admitPass; (try dsimp only); repeat' (first | with_reducible rfl | (simp; done) | split | simp)
@[simp] theorem loadListed_kept (w : Nat) (s : State) (a : PassAdapter) : kept (loadListed w s a) = kept s := by
  unfold loadListed; (try dsimp only); repeat' (first | with_reducible rfl | (simp; done) | split | simp)
@[simp] theorem countDenied_kept (s : State) (w n : Nat) : kept (countDenied s w n) = kept s := by
  simp [countDenied]
@[simp] theorem failHead_kept (s : State) (w c : Nat) (q : PassCmd) (st : Status) (b : Bytes) : kept (failHead s w c q st b) = kept s := by
  simp [failHead]
@[simp] theorem admitTrain_kept (s : State) (w c : Nat) (q : PassCmd) : kept (admitTrain s w c q) = kept s := by
  unfold admitTrain; (try dsimp only); repeat' (first | with_reducible rfl | (intro s x; (try dsimp only)) | rw [kept_foldl] | (simp; done) | split | simp)
@[simp] theorem bindServe_kept (s : State) (w c n : Nat) (handles : List Nat) : kept (bindServe s w c n handles).1 = kept s := by
  unfold bindServe; dsimp only; repeat' (first | with_reducible rfl | (simp; done) | split)
@[simp] theorem takeServe_kept (w c limit : Nat) (decode : Bool) (t : Taking) (n : Nat) : kept (takeServe w c limit decode t n).st = kept t.st := by
  have hb := bindServe_kept t.st w c n t.handles
  unfold takeServe; dsimp only; split
  · rfl
  · split <;> rename_i h <;> rw [h] at hb <;> exact hb
@[simp] theorem takeRows_kept (s : State) (w c : Nat) : kept (takeRows s w c).st = kept s := by
  have h (d : Bool) (k : Nat) (l : List Nat) (t : Taking) : kept (l.foldl (takeServe w c k d) t).st = kept t.st := by
    induction l generalizing t with
    | nil => rfl
    | cons a l ih => rw [List.foldl_cons, ih, takeServe_kept]
  unfold takeRows; dsimp only; rw [h, h]
@[simp] theorem denyTake_kept (w c : Nat) (s : State) (k : ServeTake) : kept (denyTake w c s k) = kept s := by
  unfold denyTake; (try dsimp only); repeat' (first | with_reducible rfl | (simp; done) | split | simp)
@[simp] theorem endRun_kept (s : State) (w c : Nat) (q : PassCmd) : kept (endRun s w c q) = kept s := by
  unfold endRun; (try dsimp only); repeat' (first | with_reducible rfl | (simp; done) | split | simp)
@[simp] theorem waitForRoom_kept (s : State) (w c : Nat) : kept (waitForRoom s w c) = kept s := by
  unfold waitForRoom; (try dsimp only); repeat' (first | with_reducible rfl | (simp; done) | split | simp)
@[simp] theorem admitServe_kept (s : State) (w c : Nat) (q : PassCmd) : kept (admitServe s w c q) = kept s := by
  unfold admitServe; (try dsimp only); repeat' (first | with_reducible rfl | (intro s x; (try dsimp only)) | rw [kept_foldl] | (simp; done) | split | simp)
@[simp] theorem passAdmit_kept (w c : Nat) (s : State) : kept (passAdmit w c s) = kept s := by
  unfold passAdmit; (try dsimp only); repeat' (first | with_reducible rfl | (simp; done) | split | simp)
@[simp] theorem pumpPort_kept (s : State) (p : Nat) : kept (pumpPort s p) = kept s := by
  unfold pumpPort; (try dsimp only); repeat' (first | with_reducible rfl | (simp; done) | split | simp)
@[simp] theorem sendOn_kept (s : State) (p : Nat) (m : OutMsg) : kept (sendOn s p m) = kept s := by
  simp [sendOn]
@[simp] theorem sendTrunk_kept (s : State) (allowed peer : Nat) (m : OutMsg) : kept (sendTrunk s allowed peer m) = kept s := by
  unfold sendTrunk; (try dsimp only); repeat' (first | with_reducible rfl | (simp; done) | split | simp)
@[simp] theorem resendKept_kept (s : State) (p : Nat) (peer : Option Nat) (l : List KeptMsg) : kept (resendKept s p peer l) = kept s := by
  unfold resendKept; (try dsimp only); repeat' (first | with_reducible rfl | (intro s x; (try dsimp only)) | rw [kept_foldl] | (simp; done) | split | simp)
@[simp] theorem dropPort_kept (s : State) (p : Nat) (st : PortSt) : kept (dropPort s p st) = kept s := by
  simp [dropPort]
@[simp] theorem settleRetrains_kept (s : State) : kept (settleRetrains s) = kept s := by
  unfold settleRetrains; (try dsimp only); repeat' (first | with_reducible rfl | (intro s x; (try dsimp only)) | rw [kept_foldl] | (simp; done) | split | simp)
@[simp] theorem losePort_kept (s : State) (p : Nat) : kept (losePort s p) = kept s := by
  simp [losePort]
@[simp] theorem trainingPhaseDone_kept (p lanes : Nat) (s : State) : kept (trainingPhaseDone p lanes s) = kept s := by
  unfold trainingPhaseDone; (try dsimp only); repeat' (first | with_reducible rfl | (simp; done) | split | simp)
@[simp] theorem trainingPhaseOverrun_kept (p : Nat) (s : State) : kept (trainingPhaseOverrun p s) = kept s := by
  unfold trainingPhaseOverrun; (try dsimp only); repeat' (first | with_reducible rfl | (simp; done) | split | simp)
@[simp] theorem trainingRetry_kept (p : Nat) (s : State) : kept (trainingRetry p s) = kept s := by
  unfold trainingRetry; (try dsimp only); repeat' (first | with_reducible rfl | (simp; done) | split | simp)
@[simp] theorem helloFrame_kept (p : Nat) (b : HelloBody) (s : State) : kept (helloFrame p b s) = kept s := by
  unfold helloFrame; (try dsimp only); repeat' (first | with_reducible rfl | (intro s x; (try dsimp only)) | rw [kept_foldl] | (simp; done) | split | simp)
@[simp] theorem degradePort_kept (s : State) (p locked : Nat) : kept (degradePort s p locked) = kept s := by
  unfold degradePort; (try dsimp only); repeat' (first | with_reducible rfl | (simp; done) | split | simp)
@[simp] theorem laneLockLoss_kept (p lane locked : Nat) (s : State) : kept (laneLockLoss p lane locked s) = kept s := by
  unfold laneLockLoss; (try dsimp only); repeat' (first | with_reducible rfl | (simp; done) | split | simp)
@[simp] theorem uncorrectableCodeword_kept (p locked : Nat) (s : State) : kept (uncorrectableCodeword p locked s) = kept s := by
  unfold uncorrectableCodeword; (try dsimp only); repeat' (first | with_reducible rfl | (simp; done) | split | simp)
@[simp] theorem dataFrame_kept (p : Nat) (f : Frame) (s : State) : kept (dataFrame p f s) = kept s := by
  unfold dataFrame; (try dsimp only); repeat' (first | with_reducible rfl | (simp; done) | split | simp)
@[simp] theorem idleFrame_kept (p : Nat) (f : Frame) (s : State) : kept (idleFrame p f s) = kept s := by
  unfold idleFrame; (try dsimp only); repeat' (first | with_reducible rfl | (simp; done) | split | simp)
@[simp] theorem retryFrame_kept (p : Nat) (f : Frame) (s : State) : kept (retryFrame p f s) = kept s := by
  unfold retryFrame; (try dsimp only); repeat' (first | with_reducible rfl | (simp; done) | split | simp)
@[simp] theorem ackTimeout_kept (p : Nat) (s : State) : kept (ackTimeout p s) = kept s := by
  unfold ackTimeout; (try dsimp only); repeat' (first | with_reducible rfl | (simp; done) | split | simp)
@[simp] theorem linkRetrainDone_kept (p : Nat) (ok : Bool) (s : State) : kept (linkRetrainDone p ok s) = kept s := by
  unfold linkRetrainDone; (try dsimp only); repeat' (first | with_reducible rfl | (simp; done) | split | simp)
@[simp] theorem retrainPorts_kept (s : State) (mask : Nat) : kept (retrainPorts s mask) = kept s := by
  unfold retrainPorts; (try dsimp only); repeat' (first | with_reducible rfl | (intro s x; (try dsimp only)) | rw [kept_foldl] | (simp; done) | simp)
@[simp] theorem issueTicket_kept (s : State) (w c peer : Nat) (object : Option Nat) (offset : Nat) : kept (issueTicket s w c peer object offset) = kept s := by
  simp [issueTicket]
@[simp] theorem dropTicket_kept (s : State) (t : Option Nat) : kept (dropTicket s t) = kept s := by
  unfold dropTicket; (try dsimp only); repeat' (first | with_reducible rfl | (simp; done) | split | simp)
@[simp] theorem withholdGradient_kept (s : State) (w c object : Nat) : kept (withholdGradient s w c object) = kept s := by
  simp [withholdGradient]
@[simp] theorem failGroup_kept (s : State) (n : Nat) : kept (failGroup s n) = kept s := by
  unfold failGroup; (try dsimp only); repeat' (first | with_reducible rfl | (simp; done) | split | simp)
@[simp] theorem accuse_kept (s : State) (peer reason : Nat) : kept (accuse s peer reason) = kept s := by
  simp [accuse]
@[simp] theorem countMalformedMsg_kept (s : State) (port : Nat) : kept (countMalformedMsg s port) = kept s := by
  unfold countMalformedMsg; (try dsimp only); repeat' (first | with_reducible rfl | (simp; done) | split | simp)
@[simp] theorem remember_kept (s : State) (type : Nat) (h : MsgHdr) : kept (remember s type h) = kept s := by
  simp [remember]
theorem receive_kept (s : State) (type : Nat) (h : MsgHdr) (f : State → State) (hf : ∀ s, kept (f s) = kept s) : kept (receive s type h f) = kept s := by
  unfold receive; repeat' (first | with_reducible rfl | (simp [hf]; done) | split)
theorem receiveHere_kept (s : State) (type : Nat) (h : MsgHdr) (f : State → State) (hf : ∀ s, kept (f s) = kept s) : kept (receiveHere s type h f) = kept s := by
  unfold receiveHere; refine receive_kept _ _ _ _ fun s => ?_; split <;> simp [hf]
@[simp] theorem sendRouted_kept (s : State) (m : OutMsg) : kept (sendRouted s m) = kept s := by
  unfold sendRouted; (try dsimp only); repeat' (first | with_reducible rfl | (simp; done) | split | simp)
@[simp] theorem relay_kept (s : State) (m : OutMsg) : kept (relay s m) = kept s := by
  unfold relay; (try dsimp only); repeat' (first | with_reducible rfl | (simp; done) | split | simp)
@[simp] theorem retryStuck_kept (s : State) : kept (retryStuck s) = kept s := by
  unfold retryStuck; (try dsimp only); repeat' (first | with_reducible rfl | (intro s x; (try dsimp only)) | rw [kept_foldl] | (simp; done) | split | simp)
theorem receiveRouted_kept (s : State) (type : Nat) (h : MsgHdr) (body : List Nat) (f : State → State) (hf : ∀ s, kept (f s) = kept s) :
    kept (receiveRouted s type h body f) = kept s := by
  unfold receiveRouted; refine receive_kept _ _ _ _ fun s => ?_; split <;> simp [hf]
@[simp] theorem relayTimeout_kept (p : Nat) (s : State) : kept (relayTimeout p s) = kept s := by
  simp [relayTimeout]
@[simp] theorem sendBlock_kept (s : State) (n : Nat) (peer offset : Nat) (back : Bool) (data : Bytes) : kept (sendBlock s n peer offset back data) = kept s := by
  unfold sendBlock; (try dsimp only); repeat' (first | with_reducible rfl | (simp; done) | split | simp)
@[simp] theorem awaitBlock_kept (s : State) (n peer : Nat) : kept (awaitBlock s n peer) = kept s := by
  unfold awaitBlock; (try dsimp only); repeat' (first | with_reducible rfl | (simp; done) | split | simp)
@[simp] theorem sendOwn_kept (n : Nat) (s : State) (b : Nat) : kept (sendOwn n s b) = kept s := by
  simp [sendOwn]
@[simp] theorem pokeGroup_kept (s : State) (n : Nat) : kept (pokeGroup s n) = kept s := by
  unfold pokeGroup; (try dsimp only); repeat' (first | with_reducible rfl | (intro s x; (try dsimp only)) | rw [kept_foldl] | (simp; done) | split | simp)
@[simp] theorem pokeGroups_kept (s : State) (w c : Nat) : kept (pokeGroups s w c) = kept s := by
  unfold pokeGroups; (try dsimp only); repeat' (first | with_reducible rfl | (intro s x; (try dsimp only)) | rw [kept_foldl] | (simp; done) | split | simp)
@[simp] theorem awaitLegs_kept (s : State) (l : List (Nat × Nat)) : kept (awaitLegs s l) = kept s := by
  unfold awaitLegs; (try dsimp only); repeat' (first | with_reducible rfl | (intro s x; (try dsimp only)) | rw [kept_foldl] | (simp; done) | simp)
@[simp] theorem checkLoss_kept (w c : Nat) (q : PassCmd) (s : State) (k : Nat × Nat × Detector) : kept (checkLoss w c q s k) = kept s := by
  unfold checkLoss; (try dsimp only); repeat' (first | with_reducible rfl | (simp; done) | split | simp)
@[simp] theorem forwardPassEnd_kept (w c : Nat) (s : State) : kept (forwardPassEnd w c s) = kept s := by
  unfold forwardPassEnd; (try dsimp only); repeat' (first | with_reducible rfl | (intro s x; (try dsimp only)) | rw [kept_foldl] | (simp; done) | split | simp)
@[simp] theorem backwardPassEnd_kept (w c : Nat) (s : State) : kept (backwardPassEnd w c s) = kept s := by
  unfold backwardPassEnd; (try dsimp only); repeat' (first | with_reducible rfl | (intro s x; (try dsimp only)) | rw [kept_foldl] | (simp; done) | split | simp)
@[simp] theorem stepCommit_kept (w c : Nat) (s : State) : kept (stepCommit w c s) = kept s := by
  unfold stepCommit; (try dsimp only); repeat' (first | with_reducible rfl | (intro s x; (try dsimp only)) | rw [kept_foldl] | (simp; done) | split | simp)
@[simp] theorem settleTake_kept (w c : Nat) (s : State) (k : ServeTake) : kept (settleTake w c s k) = kept s := by
  unfold settleTake; (try dsimp only); repeat' (first | with_reducible rfl | (simp; done) | split | simp)
@[simp] theorem commitServe_kept (w c : Nat) (s : State) (p : Pass) : kept (commitServe w c s p) = kept s := by
  unfold commitServe; (try dsimp only); repeat' (first | with_reducible rfl | (intro s x; (try dsimp only)) | rw [kept_foldl] | (simp; done) | split | simp)
@[simp] theorem settleMirrors_kept (s : State) (w : Nat) : kept (settleMirrors s w) = kept s := by
  unfold settleMirrors; (try dsimp only); repeat' (first | with_reducible rfl | (intro s x; (try dsimp only)) | rw [kept_foldl] | (simp; done) | split | simp)
@[simp] theorem passEnd_kept (w c : Nat) (s : State) : kept (passEnd w c s) = kept s := by
  unfold passEnd; (try dsimp only); repeat' (first | with_reducible rfl | (simp; done) | split | simp)
@[simp] theorem saveTile_kept (w c : Nat) (s : State) (n : Nat) : kept (saveTile w c s n) = kept s := by
  unfold saveTile; (try dsimp only); repeat' (first | with_reducible rfl | (intro s x; (try dsimp only)) | rw [kept_foldl] | (simp; done) | split | simp)
@[simp] theorem mapTickets_kept (s : State) (w c : Nat) (f : Ticket → Ticket) : kept (mapTickets s w c f) = kept s := by
  unfold mapTickets; (try dsimp only); repeat' (first | with_reducible rfl | (simp; done) | split | simp)
@[simp] theorem parkTickets_kept (s : State) (w c : Nat) : kept (parkTickets s w c) = kept s := by
  unfold parkTickets; (try dsimp only); repeat' (first | with_reducible rfl | (simp; done) | split | simp)
@[simp] theorem preempt_kept (s : State) (w : Nat) : kept (preempt s w) = kept s := by
  unfold preempt; (try dsimp only); repeat' (first | with_reducible rfl | (intro s x; (try dsimp only)) | rw [kept_foldl] | (simp; done) | split | simp)
@[simp] theorem restoreRecord_kept (w c : Nat) (p : Pass) (s : State) (r : SaveRec) : kept (restoreRecord w c p s r) = kept s := by
  unfold restoreRecord; (try dsimp only); repeat' (first | with_reducible rfl | (simp; done) | split | simp)
@[simp] theorem deliverHeld_kept (s : State) (w c : Nat) : kept (deliverHeld s w c) = kept s := by
  unfold deliverHeld; (try dsimp only); repeat' (first | with_reducible rfl | (intro s x; (try dsimp only)) | rw [kept_foldl] | (simp; done) | simp)
@[simp] theorem resume_kept (s : State) (w c : Nat) : kept (resume s w c) = kept s := by
  unfold resume; (try dsimp only); repeat' (first | with_reducible rfl | (intro s x; (try dsimp only)) | rw [kept_foldl] | (simp; done) | split | simp)
@[simp] theorem dropShaped_kept (s : State) (w : Nat) (forced : Bool) : kept (dropShaped s w forced) = kept s := by
  unfold dropShaped; (try dsimp only); repeat' (first | with_reducible rfl | (intro s x; (try dsimp only)) | rw [kept_foldl] | (simp; done) | split | simp)
@[simp] theorem boundaryTiles_kept (s : State) (w : Nat) : kept (boundaryTiles s w) = kept s := by
  unfold boundaryTiles; (try dsimp only); repeat' (first | with_reducible rfl | (simp; done) | split | simp)
@[simp] theorem stageEnd_kept (w : Nat) (s : State) : kept (stageEnd w s) = kept s := by
  unfold stageEnd; (try dsimp only); repeat' (first | with_reducible rfl | (intro s x; (try dsimp only)) | rw [kept_foldl] | exact takeDue_kept (by assumption) | (simp; done) | split | simp)
@[simp] theorem switchTo_kept (s : State) (w : Nat) (c : Option Nat) : kept (switchTo s w c) = kept s := by
  unfold switchTo; (try dsimp only); repeat' (first | with_reducible rfl | (simp; done) | split | simp)
@[simp] theorem stageStart_kept (w : Nat) (s : State) : kept (stageStart w s) = kept s := by
  unfold stageStart; (try dsimp only); repeat' (first | with_reducible rfl | exact takeDue_kept (by assumption) | (simp; done) | split | simp)
@[simp] theorem switchEdge_kept (w : Nat) (s : State) : kept (switchEdge w s) = kept s := by
  unfold switchEdge; (try dsimp only); repeat' (first | with_reducible rfl | (simp; done) | split | simp)
@[simp] theorem parkThreshold_kept (w : Nat) (s : State) : kept (parkThreshold w s) = kept s := by
  unfold parkThreshold; (try dsimp only); repeat' (first | with_reducible rfl | (simp; done) | split | simp)
@[simp] theorem unpark_kept (s : State) (w c : Nat) : kept (unpark s w c) = kept s := by
  unfold unpark; (try dsimp only); repeat' (first | with_reducible rfl | (simp; done) | split | simp)
@[simp] theorem countLateTicket_kept (s : State) (w : Nat) : kept (countLateTicket s w) = kept s := by
  unfold countLateTicket; (try dsimp only); repeat' (first | with_reducible rfl | (simp; done) | split | simp)
@[simp] theorem setFlag_kept (s : State) (w c : Nat) (flag : Option Nat) : kept (setFlag s w c flag) = kept s := by
  unfold setFlag; (try dsimp only); repeat' (first | with_reducible rfl | (intro s x; (try dsimp only)) | rw [kept_foldl] | (simp; done) | split | simp)
@[simp] theorem completeTicket_kept (s : State) (n : Nat) : kept (completeTicket s n) = kept s := by
  unfold completeTicket; (try dsimp only); repeat' (first | with_reducible rfl | (simp; done) | split | simp)
@[simp] theorem expireTicket_kept (s : State) (n : Nat) : kept (expireTicket s n) = kept s := by
  unfold expireTicket; (try dsimp only); repeat' (first | with_reducible rfl | (intro s x; (try dsimp only)) | rw [kept_foldl] | (simp; done) | split | simp)
@[simp] theorem ticketExpiry_kept (w : Nat) (s : State) : kept (ticketExpiry w s) = kept s := by
  unfold ticketExpiry; (try dsimp only); repeat' (first | with_reducible rfl | (intro s x; (try dsimp only)) | rw [kept_foldl] | exact takeDue_kept (by assumption) | (simp; done) | split | simp)
@[simp] theorem endTransfers_kept (s : State) (w : Nat) : kept (endTransfers s w) = kept s := by
  unfold endTransfers; (try dsimp only); repeat' (first | with_reducible rfl | (intro s x; (try dsimp only)) | rw [kept_foldl] | (simp; done) | simp)
@[simp] theorem endHostLoads_kept (s : State) (w : Nat) : kept (endHostLoads s w) = kept s := by
  unfold endHostLoads; (try dsimp only); repeat' (first | with_reducible rfl | (intro s x; (try dsimp only)) | rw [kept_foldl] | (simp; done) | split | simp)
@[simp] theorem fenceWing_kept (s : State) (w : Nat) : kept (fenceWing s w) = kept s := by
  unfold fenceWing; (try dsimp only); repeat' (first | with_reducible rfl | (simp; done) | split | simp)
@[simp] theorem fenceEntry_kept (w : Nat) (s : State) : kept (fenceEntry w s) = kept s := by
  unfold fenceEntry; (try dsimp only); repeat' (first | with_reducible rfl | exact takeDue_kept (by assumption) | (simp; done) | split | simp)
@[simp] theorem startSwap_kept (s : State) (w c : Nat) (out : Bool) : kept (startSwap s w c out) = kept s := by
  simp [startSwap]
@[simp] theorem swapOutStart_kept (w : Nat) (s : State) : kept (swapOutStart w s) = kept s := by
  unfold swapOutStart; (try dsimp only); repeat' (first | with_reducible rfl | (simp; done) | split | simp)
@[simp] theorem swapInStart_kept (w : Nat) (s : State) : kept (swapInStart w s) = kept s := by
  unfold swapInStart; (try dsimp only); repeat' (first | with_reducible rfl | (simp; done) | split | simp)
@[simp] theorem swappedIn_kept (s : State) (w : Nat) (x : Ctx) (m : Mem) : kept (swappedIn s w x m) = kept s := by
  unfold swappedIn; (try dsimp only); repeat' (first | with_reducible rfl | (intro s x; (try dsimp only)) | rw [kept_foldl] | (simp; done) | split | simp)
@[simp] theorem swapCommit_kept (w : Nat) (s : State) : kept (swapCommit w s) = kept s := by
  unfold swapCommit; (try dsimp only); repeat' (first | with_reducible rfl | (simp; done) | split | simp)
@[simp] theorem collective_kept (n : Nat) (s : State) : kept (collective n s) = kept s := by
  unfold collective; (try dsimp only); repeat' (first | with_reducible rfl | exact takeDue_kept (by assumption) | (simp; done) | split | simp)
@[simp] theorem blockDone_kept (s : State) (n : Nat) : kept (blockDone s n) = kept s := by
  unfold blockDone; (try dsimp only); repeat' (first | with_reducible rfl | (simp; done) | split | simp)
@[simp] theorem stageBlock_kept (s : State) (n at_ count : Nat) (bytes : Bytes) : kept (stageBlock s n at_ count bytes) = kept s := by
  simp [stageBlock]
@[simp] theorem takeSums_kept (s : State) (n : Nat) (data : Bytes) : kept (takeSums s n data) = kept s := by
  unfold takeSums; (try dsimp only); repeat' (first | with_reducible rfl | (simp; done) | split | simp)
@[simp] theorem takeResult_kept (s : State) (n : Nat) (data : Bytes) : kept (takeResult s n data) = kept s := by
  unfold takeResult; (try dsimp only); repeat' (first | with_reducible rfl | (simp; done) | split | simp)
@[simp] theorem reduceData_kept (h : MsgHdr) (back : Bool) (data : Bytes) (s : State) : kept (reduceData h back data s) = kept s := by
  unfold reduceData; (try dsimp only); repeat' (first | with_reducible rfl | (refine (receiveHere_kept _ _ _ _ fun s => ?_).trans ?_) | (simp; done) | split | simp)
@[simp] theorem collectiveCommit_kept (n : Nat) (s : State) : kept (collectiveCommit n s) = kept s := by
  unfold collectiveCommit; (try dsimp only); repeat' (first | with_reducible rfl | (simp; done) | split | simp)
@[simp] theorem setRing_kept (n w : Nat) (legs : List Leg) (s : State) : kept (setRing n w legs s) = kept s := by
  unfold setRing; (try dsimp only); repeat' (first | with_reducible rfl | (intro s x; (try dsimp only)) | rw [kept_foldl] | (simp; done) | split | simp)
@[simp] theorem sendMirror_kept (s : State) (n i o off : Nat) : kept (sendMirror s n i o off) = kept s := by
  unfold sendMirror; (try dsimp only); repeat' (first | with_reducible rfl | (simp; done) | split | simp)
@[simp] theorem remirrorDone_kept (s : State) (n i : Nat) : kept (remirrorDone s n i) = kept s := by
  simp [remirrorDone]
@[simp] theorem startRemirror_kept (n : Nat) (s : State) (i : Nat) : kept (startRemirror n s i) = kept s := by
  unfold startRemirror; (try dsimp only); repeat' (first | with_reducible rfl | (simp; done) | split | simp)
@[simp] theorem startRemirrors_kept (s : State) (n : Nat) : kept (startRemirrors s n) = kept s := by
  unfold startRemirrors; (try dsimp only); repeat' (first | with_reducible rfl | (intro s x; (try dsimp only)) | rw [kept_foldl] | (simp; done) | simp)
@[simp] theorem writeRegion_kept (s : State) (w : Nat) (x : Ctx) (off : Nat) (data : Bytes) : kept (writeRegion s w x off data) = kept s := by
  unfold writeRegion; (try dsimp only); repeat' (first | with_reducible rfl | (intro s x; (try dsimp only)) | rw [kept_foldl] | (simp; done) | split | simp)
@[simp] theorem ticketWrite_kept (s : State) (t : Ticket) (off : Nat) (data : Bytes) : kept (ticketWrite s t off data) = kept s := by
  unfold ticketWrite; (try dsimp only); repeat' (first | with_reducible rfl | (simp; done) | split | simp)
@[simp] theorem complete_kept (s : State) (n peer off : Nat) (data : Bytes) : kept (complete s n peer off data) = kept s := by
  unfold complete; (try dsimp only); repeat' (first | with_reducible rfl | (simp; done) | split | simp)
@[simp] theorem remoteData_kept (h : MsgHdr) (ticket : Nat) (data : Bytes) (s : State) : kept (remoteData h ticket data s) = kept s := by
  unfold remoteData; (try dsimp only); repeat' (first | with_reducible rfl | (refine (receiveHere_kept _ _ _ _ fun s => ?_).trans ?_) | (simp; done) | split | simp)
@[simp] theorem remoteRead_kept (h : MsgHdr) (o addr len : Nat) (s : State) : kept (remoteRead h o addr len s) = kept s := by
  unfold remoteRead; (try dsimp only); repeat' (first | with_reducible rfl | (refine (receiveHere_kept _ _ _ _ fun s => ?_).trans ?_) | (simp; done) | split | simp)
@[simp] theorem ringBlock_kept (h : MsgHdr) (w ticket leg step : Nat) (data : Bytes) (s : State) : kept (ringBlock h w ticket leg step data s) = kept s := by
  unfold ringBlock; (try dsimp only); repeat' (first | with_reducible rfl | (refine (receiveHere_kept _ _ _ _ fun s => ?_).trans ?_) | (simp; done) | split | simp)
@[simp] theorem ringDone_kept (h : MsgHdr) (w ticket leg : Nat) (s : State) : kept (ringDone h w ticket leg s) = kept s := by
  unfold ringDone; (try dsimp only); repeat' (first | with_reducible rfl | (refine (receiveHere_kept _ _ _ _ fun s => ?_).trans ?_) | (simp; done) | split | simp)
@[simp] theorem refuseMirror_kept (s : State) (n i : Nat) (why : List Nat) : kept (refuseMirror s n i why) = kept s := by
  simp [refuseMirror]
theorem storeMirror_kept {s t : State} {n i party off : Nat} {data : Bytes} (h : storeMirror s n i party off data = some t) : kept t = kept s := by
  unfold storeMirror at h; dsimp only at h
  split at h
  · split at h
    · cases h; exact State.modObj_kept _ _ _
    · obtain ⟨p, -, rfl⟩ := Option.map_eq_some_iff.mp h; simp only [State.modObj_kept, State.bump_kept]
  · obtain ⟨p, -, rfl⟩ := Option.map_eq_some_iff.mp h
    simp only [State.modObj_kept, State.modRing_kept, newObj_kept, State.bump_kept]
@[simp] theorem mirrorWrite_kept (h : MsgHdr) (i party : Nat) (data : Bytes) (s : State) : kept (mirrorWrite h i party data s) = kept s := by
  unfold mirrorWrite; (try dsimp only); repeat' (first | with_reducible rfl | (refine (receiveHere_kept _ _ _ _ fun s => ?_).trans ?_) | exact storeMirror_kept (by assumption) | (simp; done) | split | simp)
@[simp] theorem unmirror_kept (s : State) (n i : Nat) : kept (unmirror s n i) = kept s := by
  simp [unmirror]
@[simp] theorem continueRemirror_kept (s : State) (n i off : Nat) : kept (continueRemirror s n i off) = kept s := by
  unfold continueRemirror; (try dsimp only); repeat' (first | with_reducible rfl | (simp; done) | split | simp)
@[simp] theorem mirrorAck_kept (h : MsgHdr) (i : Nat) (s : State) : kept (mirrorAck h i s) = kept s := by
  unfold mirrorAck; (try dsimp only); repeat' (first | with_reducible rfl | (refine (receiveHere_kept _ _ _ _ fun s => ?_).trans ?_) | (simp; done) | split | simp)
@[simp] theorem mirrorAckTimeout_kept (n i : Nat) (s : State) : kept (mirrorAckTimeout n i s) = kept s := by
  unfold mirrorAckTimeout; (try dsimp only); repeat' (first | with_reducible rfl | (simp; done) | split | simp)
@[simp] theorem endWingServes_kept (s : State) (w : Nat) (st : Status) : kept (endWingServes s w st) = kept s := by
  unfold endWingServes; (try dsimp only); repeat' (first | with_reducible rfl | (intro s x; (try dsimp only)) | rw [kept_foldl] | (simp; done) | simp)
@[simp] theorem freeLegObj_kept (s : State) (o : Nat) : kept (freeLegObj s o) = kept s := by
  unfold freeLegObj; (try dsimp only); repeat' (first | with_reducible rfl | (simp; done) | split | simp)
@[simp] theorem discardRing_kept (s : State) (n : Nat) (st : Status) : kept (discardRing s n st) = kept s := by
  unfold discardRing; (try dsimp only); repeat' (first | with_reducible rfl | (intro s x; (try dsimp only)) | rw [kept_foldl] | (simp; done) | simp)
@[simp] theorem takeLeg_kept (n : Nat) (s : State) (i : Nat) : kept (takeLeg n s i) = kept s := by
  unfold takeLeg; (try dsimp only); repeat' (first | with_reducible rfl | (simp; done) | split | simp)
@[simp] theorem failoverRing_kept (gone : List Nat) (s : State) (n : Nat) : kept (failoverRing gone s n) = kept s := by
  unfold failoverRing; (try dsimp only); repeat' (first | with_reducible rfl | (intro s x; (try dsimp only)) | rw [kept_foldl] | (simp; done) | split | simp)
@[simp] theorem takeoverMoved_kept (s : State) (o : Nat) : kept (takeoverMoved s o) = kept s := by
  unfold takeoverMoved; (try dsimp only); repeat' (first | with_reducible rfl | (intro s x; (try dsimp only)) | rw [kept_foldl] | (simp; done) | simp)
@[simp] theorem objectMoved_kept (i : Nat) (s : State) : kept (objectMoved i s) = kept s := by
  unfold objectMoved; (try dsimp only); repeat' (first | with_reducible rfl | (simp; done) | split | simp)
@[simp] theorem clearTiles_kept (s : State) (l : List Nat) : kept (clearTiles s l) = kept s := by
  unfold clearTiles; (try dsimp only); repeat' (first | with_reducible rfl | (intro s x; (try dsimp only)) | rw [kept_foldl] | (simp; done) | simp)
@[simp] theorem clearPorts_kept (s : State) (l : List Nat) : kept (clearPorts s l) = kept s := by
  unfold clearPorts; (try dsimp only); repeat' (first | with_reducible rfl | (intro s x; (try dsimp only)) | rw [kept_foldl] | (simp; done) | simp)
@[simp] theorem clearRanges_kept (s : State) (x : Wing) : kept (clearRanges s x) = kept s := by
  unfold clearRanges; (try dsimp only); repeat' (first | with_reducible rfl | (intro s x; (try dsimp only)) | rw [kept_foldl] | (simp; done) | split | simp)
@[simp] theorem scrubClear_kept (s : State) (w : Nat) : kept (scrubClear s w) = kept s := by
  unfold scrubClear; (try dsimp only); repeat' (first | with_reducible rfl | (intro s x; (try dsimp only)) | rw [kept_foldl] | (simp; done) | simp)
@[simp] theorem scrub_kept (w : Nat) (s : State) : kept (scrub w s) = kept s := by
  unfold scrub; (try dsimp only); repeat' (first | with_reducible rfl | exact takeDue_kept (by assumption) | (simp; done) | split | simp)
@[simp] theorem dropDeadLofts_kept (s : State) (w : Nat) : kept (dropDeadLofts s w) = kept s := by
  unfold dropDeadLofts; (try dsimp only); repeat' (first | with_reducible rfl | (intro s x; (try dsimp only)) | rw [kept_foldl] | (simp; done) | split | simp)
@[simp] theorem scrubDone_kept (w : Nat) (s : State) : kept (scrubDone w s) = kept s := by
  unfold scrubDone; (try dsimp only); repeat' (first | with_reducible rfl | (intro s x; (try dsimp only)) | rw [kept_foldl] | (simp; done) | split | simp)
@[simp] theorem dropSlot_kept (s : State) (w b j : Nat) : kept (dropSlot s w b j) = kept s := by
  simp [dropSlot]
@[simp] theorem loseShard_kept (s : State) (k : Nat) : kept (loseShard s k) = kept s := by
  unfold loseShard; (try dsimp only); repeat' (first | with_reducible rfl | (intro s x; (try dsimp only)) | rw [kept_foldl] | (simp; done) | simp)
@[simp] theorem askNext_kept (s : State) (k : Nat) (paced : Bool) (asked : List Nat) : kept (askNext s k paced asked) = kept s := by
  unfold askNext; (try dsimp only); repeat' (first | with_reducible rfl | (simp; done) | split | simp)
@[simp] theorem askShard_kept (s : State) (k : Nat) : kept (askShard s k) = kept s := by
  unfold askShard; (try dsimp only); repeat' (first | with_reducible rfl | (simp; done) | split | simp)
@[simp] theorem askRewrite_kept (s : State) (k : Nat) : kept (askRewrite s k) = kept s := by
  unfold askRewrite; (try dsimp only); repeat' (first | with_reducible rfl | (simp; done) | split | simp)
@[simp] theorem quarantine_kept (s : State) (k : Nat) : kept (quarantine s k) = kept s := by
  unfold quarantine; (try dsimp only); repeat' (first | with_reducible rfl | (simp; done) | split | simp)
@[simp] theorem retryRewrites_kept (s : State) : kept (retryRewrites s) = kept s := by
  unfold retryRewrites; (try dsimp only); repeat' (first | with_reducible rfl | (intro s x; (try dsimp only)) | rw [kept_foldl] | (simp; done) | simp)
@[simp] theorem cutInstall_kept (s : State) (b : Nat) (st : Status) : kept (cutInstall s b st) = kept s := by
  unfold cutInstall; (try dsimp only); repeat' (first | with_reducible rfl | (intro s x; (try dsimp only)) | rw [kept_foldl] | (simp; done) | split | simp)
@[simp] theorem settleInstall_kept (s : State) (b : Nat) : kept (settleInstall s b) = kept s := by
  unfold settleInstall; (try dsimp only); repeat' (first | with_reducible rfl | (simp; done) | split | simp)
@[simp] theorem fillNext_kept (s : State) (b : Nat) : kept (fillNext s b) = kept s := by
  unfold fillNext; (try dsimp only); repeat' (first | with_reducible rfl | (intro s x; (try dsimp only)) | rw [kept_foldl] | (simp; done) | split | simp)
@[simp] theorem claimRegion_kept (s : State) (b row0 n : Nat) : kept (claimRegion s b row0 n) = kept s := by
  unfold claimRegion; (try dsimp only); repeat' (first | with_reducible rfl | (intro s x; (try dsimp only)) | rw [kept_foldl] | (simp; done) | simp)
@[simp] theorem removeBase_kept (n : Nat) (s : State) : kept (removeBase n s) = kept s := by
  unfold removeBase; (try dsimp only); repeat' (first | with_reducible rfl | (intro s x; (try dsimp only)) | rw [kept_foldl] | (simp; done) | split | simp)
@[simp] theorem sendDown_kept (s : State) (ident source j digest : Nat) : kept (sendDown s ident source j digest) = kept s := by
  unfold sendDown; (try dsimp only); repeat' (first | with_reducible rfl | (intro s x; (try dsimp only)) | rw [kept_foldl] | (simp; done) | simp)
@[simp] theorem tryAck_kept (s : State) (ident source j : Nat) : kept (tryAck s ident source j) = kept s := by
  unfold tryAck; (try dsimp only); repeat' (first | with_reducible rfl | (simp; done) | split | simp)
@[simp] theorem sinkData_kept (s : State) (ident source j : Nat) (last : Bool) : kept (sinkData s ident source j last) = kept s := by
  unfold sinkData; (try dsimp only); repeat' (first | with_reducible rfl | (simp; done) | split | simp)
@[simp] theorem bcastData_kept (h : MsgHdr) (j : Nat) (last : Bool) (digest : Nat) (s : State) : kept (bcastData h j last digest s) = kept s := by
  unfold bcastData; (try dsimp only); repeat' (first | with_reducible rfl | (refine (receiveHere_kept _ _ _ _ fun s => ?_).trans ?_) | (simp; done) | split | simp)
@[simp] theorem bcastAck_kept (h : MsgHdr) (j : Nat) (s : State) : kept (bcastAck h j s) = kept s := by
  unfold bcastAck; (try dsimp only); repeat' (first | with_reducible rfl | (refine (receiveHere_kept _ _ _ _ fun s => ?_).trans ?_) | (simp; done) | split | simp)
@[simp] theorem sourceShard_kept (s : State) (k : Nat) : kept (sourceShard s k) = kept s := by
  unfold sourceShard; (try dsimp only); repeat' (first | with_reducible rfl | (simp; done) | split | simp)
@[simp] theorem viewInstall_kept (s : State) (b : Nat) : kept (viewInstall s b) = kept s := by
  unfold viewInstall; (try dsimp only); repeat' (first | with_reducible rfl | (intro s x; (try dsimp only)) | rw [kept_foldl] | (simp; done) | split | simp)
@[simp] theorem settleSink_kept (s : State) (b j : Nat) : kept (settleSink s b j) = kept s := by
  unfold settleSink; (try dsimp only); repeat' (first | with_reducible rfl | (simp; done) | split | simp)
@[simp] theorem failShard_kept (s : State) (k : Nat) : kept (failShard s k) = kept s := by
  unfold failShard; (try dsimp only); repeat' (first | with_reducible rfl | (simp; done) | split | simp)
@[simp] theorem shardProgramDone_kept (k : Nat) (ok : Bool) (digest : Nat) (s : State) : kept (shardProgramDone k ok digest s) = kept s := by
  unfold shardProgramDone; (try dsimp only); repeat' (first | with_reducible rfl | (simp; done) | split | simp)
@[simp] theorem shardReadbackDone_kept (k digest : Nat) (listsOk : Bool) (s : State) : kept (shardReadbackDone k digest listsOk s) = kept s := by
  unfold shardReadbackDone; (try dsimp only); repeat' (first | with_reducible rfl | (simp; done) | split | simp)
@[simp] theorem shardEraseDone_kept (k : Nat) (s : State) : kept (shardEraseDone k s) = kept s := by
  unfold shardEraseDone; (try dsimp only); repeat' (first | with_reducible rfl | (simp; done) | split | simp)
@[simp] theorem passOn_kept (s : State) (w : Nat) : kept (passOn s w) = kept s := by
  unfold passOn; (try dsimp only); repeat' (first | with_reducible rfl | (simp; done) | split | simp)
@[simp] theorem shardFetch_kept (w : Nat) (s : State) : kept (shardFetch w s) = kept s := by
  unfold shardFetch; (try dsimp only); repeat' (first | with_reducible rfl | (simp; done) | split | simp)
@[simp] theorem fillSlot_kept (s : State) (w b j : Nat) (again : Bool) : kept (fillSlot s w b j again) = kept s := by
  unfold fillSlot; (try dsimp only); repeat' (first | with_reducible rfl | (simp; done) | split | simp)
@[simp] theorem shardArrival_kept (w j digest : Nat) (s : State) : kept (shardArrival w j digest s) = kept s := by
  unfold shardArrival; (try dsimp only); repeat' (first | with_reducible rfl | (simp; done) | split | simp)
@[simp] theorem shardRequest_kept (h : MsgHdr) (root j : Nat) (s : State) : kept (shardRequest h root j s) = kept s := by
  unfold shardRequest; (try dsimp only); repeat' (first | with_reducible rfl | (refine (receiveRouted_kept _ _ _ _ _ fun s => ?_).trans ?_) | (simp; done) | split | simp)
@[simp] theorem shardData_kept (h : MsgHdr) (k : Nat) (paced : Bool) (digest : Nat) (s : State) : kept (shardData h k paced digest s) = kept s := by
  unfold shardData; (try dsimp only); repeat' (first | with_reducible rfl | (intro s x; (try dsimp only)) | rw [kept_foldl] | (refine (receiveRouted_kept _ _ _ _ _ fun s => ?_).trans ?_) | (simp; done) | split | simp)
@[simp] theorem skipHolder_kept (s : State) (k : Nat) (r : Request) : kept (skipHolder s k r) = kept s := by
  simp [skipHolder]
@[simp] theorem notHeld_kept (h : MsgHdr) (k : Nat) (s : State) : kept (notHeld h k s) = kept s := by
  unfold notHeld; (try dsimp only); repeat' (first | with_reducible rfl | (refine (receiveRouted_kept _ _ _ _ _ fun s => ?_).trans ?_) | (simp; done) | split | simp)
@[simp] theorem holderTimeout_kept (k : Nat) (s : State) : kept (holderTimeout k s) = kept s := by
  unfold holderTimeout; (try dsimp only); repeat' (first | with_reducible rfl | (simp; done) | split | simp)
@[simp] theorem cellarSlot_kept (s : State) : kept (cellarSlot s) = kept s := by
  unfold cellarSlot; (try dsimp only); repeat' (first | with_reducible rfl | (intro s x; (try dsimp only)) | rw [kept_foldl] | exact takeDue_kept (by assumption) | (simp; done) | split | simp)
@[simp] theorem digestSweep_kept (s : State) : kept (digestSweep s) = kept s := by
  unfold digestSweep; (try dsimp only); repeat' (first | with_reducible rfl | exact takeDue_kept (by assumption) | (simp; done) | split | simp)
@[simp] theorem sweepReadDone_kept (k digest : Nat) (s : State) : kept (sweepReadDone k digest s) = kept s := by
  unfold sweepReadDone; (try dsimp only); repeat' (first | with_reducible rfl | (simp; done) | split | simp)
@[simp] theorem withdraw_kept (s : State) : kept (withdraw s) = kept s := by
  unfold withdraw; (try dsimp only); repeat' (first | with_reducible rfl | (intro s x; (try dsimp only)) | rw [kept_foldl] | (simp; done) | simp)
@[simp] theorem refreshBody_kept (s : State) : kept (refreshBody s) = kept s := by
  unfold refreshBody; (try dsimp only); repeat' (first | with_reducible rfl | (simp; done) | split | simp)
@[simp] theorem sendEntry_kept (s : State) (c : Nat) : kept (sendEntry s c) = kept s := by
  unfold sendEntry; (try dsimp only); repeat' (first | with_reducible rfl | (intro s x; (try dsimp only)) | rw [kept_foldl] | (simp; done) | split | simp)
@[simp] theorem rollCall_kept (s : State) : kept (rollCall s) = kept s := by
  unfold rollCall; (try dsimp only); repeat' (first | with_reducible rfl | exact takeDue_kept (by assumption) | (simp; done) | split | simp)
@[simp] theorem timeSplit_kept (s : State) (peer stamp : Nat) : kept (timeSplit s peer stamp) = kept s := by
  simp [timeSplit]
@[simp] theorem hear_kept (s : State) (peer stamp : Nat) : kept (hear s peer stamp) = kept s := by
  simp [hear]
@[simp] theorem entryTime_kept (s : State) (peer : Nat) (b : EntryBody) (near : Bool) : kept (entryTime s peer b near) = kept s := by
  unfold entryTime; (try dsimp only); repeat' (first | with_reducible rfl | (simp; done) | split | simp)
@[simp] theorem foreignSelf_kept (s : State) : kept (foreignSelf s) = kept s := by
  unfold foreignSelf; (try dsimp only); repeat' (first | with_reducible rfl | (simp; done) | split | simp)
@[simp] theorem forwardEntry_kept (s : State) (h : MsgHdr) (b : EntryBody) : kept (forwardEntry s h b) = kept s := by
  unfold forwardEntry; (try dsimp only); repeat' (first | with_reducible rfl | (intro s x; (try dsimp only)) | rw [kept_foldl] | (simp; done) | split | simp)
@[simp] theorem freshEntry_kept (s : State) (h : MsgHdr) (b : EntryBody) (near : Bool) : kept (freshEntry s h b near) = kept s := by
  unfold freshEntry; (try dsimp only); repeat' (first | with_reducible rfl | (simp; done) | split | simp)
@[simp] theorem entry_kept (h : MsgHdr) (b : EntryBody) (near : Bool) (s : State) : kept (entry h b near s) = kept s := by
  unfold entry; (try dsimp only); repeat' (first | with_reducible rfl | (simp; done) | split | simp)
@[simp] theorem closeHistories_kept (s : State) (es : List HeardEntry) : kept (closeHistories s es) = kept s := by
  unfold closeHistories; (try dsimp only); repeat' (first | with_reducible rfl | (intro s x; (try dsimp only)) | rw [kept_foldl] | (simp; done) | split | simp)
@[simp] theorem accuseSilent_kept (s : State) : kept (accuseSilent s) = kept s := by
  unfold accuseSilent; (try dsimp only); repeat' (first | with_reducible rfl | (intro s x; (try dsimp only)) | rw [kept_foldl] | (simp; done) | simp)
@[simp] theorem viewChanged_kept (s : State) (c : Nat) (old : List Nat) : kept (viewChanged s c old) = kept s := by
  unfold viewChanged; (try dsimp only); repeat' (first | with_reducible rfl | (intro s x; (try dsimp only)) | rw [kept_foldl] | (simp; done) | simp)
@[simp] theorem tellSplits_kept (s : State) (es : List HeardEntry) (old : List Nat) : kept (tellSplits s es old) = kept s := by
  unfold tellSplits; (try dsimp only); repeat' (first | with_reducible rfl | (intro s x; (try dsimp only)) | rw [kept_foldl] | (simp; done) | simp)
@[simp] theorem formView_kept (s : State) (es : List HeardEntry) (c : Nat) : kept (formView s es c) = kept s := by
  unfold formView; (try dsimp only); repeat' (first | with_reducible rfl | (simp; done) | split | simp)
@[simp] theorem ageRound_kept (s : State) (c : Nat) : kept (ageRound s c) = kept s := by
  simp [ageRound]
@[simp] theorem closeRelock_kept (s : State) (c : Nat) : kept (closeRelock s c) = kept s := by
  unfold closeRelock; (try dsimp only); repeat' (first | with_reducible rfl | (simp; done) | split | simp)
@[simp] theorem rollCallClose_kept (s : State) : kept (rollCallClose s) = kept s := by
  unfold rollCallClose; (try dsimp only); repeat' (first | with_reducible rfl | (simp; done) | split | simp)
@[simp] theorem failTickets_kept (gone : List Nat) (s : State) : kept (failTickets gone s) = kept s := by
  unfold failTickets; (try dsimp only); repeat' (first | with_reducible rfl | (intro s x; (try dsimp only)) | rw [kept_foldl] | (simp; done) | simp)
@[simp] theorem failover_kept (s : State) : kept (failover s) = kept s := by
  unfold failover; (try dsimp only); repeat' (first | with_reducible rfl | (intro s x; (try dsimp only)) | rw [kept_foldl] | exact takeDue_kept (by assumption) | (simp; done) | split | simp)
@[simp] theorem applyAllow_kept (s : State) : kept (applyAllow s) = kept s := by
  unfold applyAllow; (try dsimp only); repeat' (first | with_reducible rfl | (intro s x; (try dsimp only)) | rw [kept_foldl] | (simp; done) | split | simp)
@[simp] theorem applyParams_kept (s : State) (n : FabricNext) : kept (applyParams s n) = kept s := by
  unfold applyParams; (try dsimp only); repeat' (first | with_reducible rfl | (simp; done) | split | simp)
@[simp] theorem fabricParamsApply_kept (s : State) : kept (fabricParamsApply s) = kept s := by
  unfold fabricParamsApply; (try dsimp only); repeat' (first | with_reducible rfl | (simp; done) | split | simp)
@[simp] theorem withholdObj_kept (s : State) (i : Nat) : kept (withholdObj s i) = kept s := by
  unfold withholdObj; (try dsimp only); repeat' (first | with_reducible rfl | (intro s x; (try dsimp only)) | rw [kept_foldl] | (simp; done) | split | simp)
@[simp] theorem dropMirrors_kept (s : State) (i : Nat) : kept (dropMirrors s i) = kept s := by
  unfold dropMirrors; (try dsimp only); repeat' (first | with_reducible rfl | (intro s x; (try dsimp only)) | rw [kept_foldl] | (simp; done) | simp)
@[simp] theorem objectHit_kept (s : State) (i : Nat) (st : Status) (at_ : At) (body : List Nat) : kept (objectHit s i st at_ body) = kept s := by
  unfold objectHit; (try dsimp only); repeat' (first | with_reducible rfl | (intro s x; (try dsimp only)) | rw [kept_foldl] | (simp; done) | split | simp)
@[simp] theorem roomHit_kept (s : State) (r pc : Nat) (st : Status) (at_ : At) : kept (roomHit s r pc st at_) = kept s := by
  unfold roomHit; (try dsimp only); repeat' (first | with_reducible rfl | (simp; done) | split | simp)
@[simp] theorem imageHit_kept (s : State) (i ch : Nat) (st : Status) (at_ : At) : kept (imageHit s i ch st at_) = kept s := by
  unfold imageHit; (try dsimp only); repeat' (first | with_reducible rfl | (simp; done) | split | simp)
@[simp] theorem slotHit_kept (s : State) (w k : Nat) : kept (slotHit s w k) = kept s := by
  unfold slotHit; (try dsimp only); repeat' (first | with_reducible rfl | (simp; done) | split | simp)
@[simp] theorem destHit_kept (s : State) (i : Nat) (st : Status) : kept (destHit s i st) = kept s := by
  unfold destHit; (try dsimp only); repeat' (first | with_reducible rfl | (simp; done) | split | simp)
@[simp] theorem errorAt_kept (s : State) (unit : Nat) (st : Status) (at_ : At) (body : List Nat) (p : ErrPlace) : kept (errorAt s unit st at_ body p) = kept s := by
  unfold errorAt; (try dsimp only); repeat' (first | with_reducible rfl | (simp; done) | split | simp)
@[simp] theorem windowDrops_kept (pc : Nat) (s : State) (w : Nat) : kept (windowDrops pc s w) = kept s := by
  unfold windowDrops; (try dsimp only); repeat' (first | with_reducible rfl | (simp; done) | split | simp)
@[simp] theorem startRetirement_kept (pc : Nat) (ref : Option CmdRef) (s : State) : kept (startRetirement pc ref s) = kept s := by
  unfold startRetirement; (try dsimp only); repeat' (first | with_reducible rfl | (intro s x; (try dsimp only)) | rw [kept_foldl] | (simp; done) | simp)
@[simp] theorem hbmCorrected_kept (u addr : Nat) (s : State) : kept (hbmCorrected u addr s) = kept s := by
  unfold hbmCorrected; (try dsimp only); repeat' (first | with_reducible rfl | (simp; done) | split | simp)
@[simp] theorem hbmUncorrectable_kept (u addr : Nat) (p : ErrPlace) (s : State) : kept (hbmUncorrectable u addr p s) = kept s := by
  unfold hbmUncorrectable; (try dsimp only); repeat' (first | with_reducible rfl | (simp; done) | split | simp)
@[simp] theorem loftCorrected_kept (c addr : Nat) (s : State) : kept (loftCorrected c addr s) = kept s := by
  unfold loftCorrected; (try dsimp only); repeat' (first | with_reducible rfl | (simp; done) | split | simp)
@[simp] theorem loftUncorrectable_kept (c addr : Nat) (p : ErrPlace) (s : State) : kept (loftUncorrectable c addr p s) = kept s := by
  simp [loftUncorrectable]
@[simp] theorem stopMovesTo_kept (c : Nat) (s : State) : kept (stopMovesTo c s) = kept s := by
  unfold stopMovesTo; (try dsimp only); repeat' (first | with_reducible rfl | (intro s x; (try dsimp only)) | rw [kept_foldl] | (simp; done) | simp)
@[simp] theorem loseLoftData_kept (c : Nat) (s : State) : kept (loseLoftData c s) = kept s := by
  unfold loseLoftData; (try dsimp only); repeat' (first | with_reducible rfl | (intro s x; (try dsimp only)) | rw [kept_foldl] | (simp; done) | simp)
@[simp] theorem loseLoft_kept (c : Nat) (s : State) : kept (loseLoft c s) = kept s := by
  unfold loseLoft; (try dsimp only); repeat' (first | with_reducible rfl | (simp; done) | split | simp)
@[simp] theorem quarterCorrected_kept (q : Nat) (s : State) : kept (quarterCorrected q s) = kept s := by
  simp [quarterCorrected]
theorem execStoreCorrectedError_kept (q : Bool) (n : Nat) (s t : State) (h' : execStoreCorrectedError q n s = .next t) : kept t = kept s := by
  unfold execStoreCorrectedError at h'; split at h' <;> obtain ⟨-, rfl⟩ := onPart_next h' <;> simp
@[simp] theorem endReader_kept (s : State) (reader : Option (Nat × Nat)) (kind unit word : Nat) : kept (endReader s reader kind unit word) = kept s := by
  unfold endReader; (try dsimp only); repeat' (first | with_reducible rfl | (simp; done) | split | simp)
@[simp] theorem tileStoreEcc_kept (t word : Nat) (reader : Option (Nat × Nat)) (s : State) : kept (tileStoreEcc t word reader s) = kept s := by
  simp [tileStoreEcc]
@[simp] theorem quarterStoreEcc_kept (q word : Nat) (reader : Option (Nat × Nat)) (s : State) : kept (quarterStoreEcc q word reader s) = kept s := by
  unfold quarterStoreEcc; (try dsimp only); repeat' (first | with_reducible rfl | (simp; done) | split | simp)
theorem execStoreEccError_kept (q : Bool) (n word : Nat) (r : Option (Nat × Nat)) (s t : State) (h' : execStoreEccError q n word r s = .next t) : kept t = kept s := by
  unfold execStoreEccError at h'; split at h' <;> obtain ⟨-, rfl⟩ := onPart_next h' <;> simp
@[simp] theorem spareSwitch_kept (p : Nat) (badWords : List Nat) (s : State) : kept (spareSwitch p badWords s) = kept s := by
  unfold spareSwitch; (try dsimp only); repeat' (first | with_reducible rfl | (intro s x; (try dsimp only)) | rw [kept_foldl] | (simp; done) | split | simp)
@[simp] theorem retirePc_kept (u : Nat) (s : State) : kept (retirePc u s) = kept s := by
  unfold retirePc; (try dsimp only); repeat' (first | with_reducible rfl | (simp; done) | split | simp)
@[simp] theorem pcRetireDone_kept (u : Nat) (s : State) : kept (pcRetireDone u s) = kept s := by
  unfold pcRetireDone; (try dsimp only); repeat' (first | with_reducible rfl | (simp; done) | split | simp)
@[simp] theorem trialRange_kept (t : State) (i : Nat) (d : Place) : kept (trialRange t i d) = kept t := by
  simp [trialRange]
@[simp] theorem redirect_kept (c : Nat) (s : State) : kept (redirect c s) = kept s := by
  simp [redirect]
@[simp] theorem discardMirror_kept (s : State) (i : Nat) : kept (discardMirror s i) = kept s := by
  unfold discardMirror; (try dsimp only); repeat' (first | with_reducible rfl | (intro s x; (try dsimp only)) | rw [kept_foldl] | (simp; done) | split | simp)
@[simp] theorem startEvacuation_kept (c : Nat) (ref : CmdRef) (s : State) : kept (startEvacuation c ref s) = kept s := by
  unfold startEvacuation; (try dsimp only); repeat' (first | with_reducible rfl | (intro s x; (try dsimp only)) | rw [kept_foldl] | (simp; done) | split | simp)
@[simp] theorem loftEvacuateDone_kept (c : Nat) (s : State) : kept (loftEvacuateDone c s) = kept s := by
  unfold loftEvacuateDone; (try dsimp only); repeat' (first | with_reducible rfl | (simp; done) | split | simp)
@[simp] theorem loftReturnDone_kept (c : Nat) (dimmsMatch : Bool) (s : State) : kept (loftReturnDone c dimmsMatch s) = kept s := by
  unfold loftReturnDone; (try dsimp only); repeat' (first | with_reducible rfl | (simp; done) | split | simp)
@[simp] theorem releaseFence_kept (w : Nat) (s : State) : kept (releaseFence w s) = kept s := by
  unfold releaseFence; (try dsimp only); repeat' (first | with_reducible rfl | (intro s x; (try dsimp only)) | rw [kept_foldl] | (simp; done) | simp)
@[simp] theorem counterSnapshot_kept (s : State) : kept (counterSnapshot s) = kept s := by
  unfold counterSnapshot; (try dsimp only); repeat' (first | with_reducible rfl | (intro s x; (try dsimp only)) | rw [kept_foldl] | (simp; done) | split | simp)
@[simp] theorem raiseIbi_kept (bit : Nat) (s : State) : kept (raiseIbi bit s) = kept s := by
  unfold raiseIbi; (try dsimp only); repeat' (first | with_reducible rfl | (simp; done) | split | simp)
@[simp] theorem setStat_kept (v : StatV) (s : State) : kept (setStat v s) = kept s := by
  unfold setStat; (try dsimp only); repeat' (first | with_reducible rfl | (simp; done) | split | simp)
@[simp] theorem journaled_kept (l : Led) (log : List LogRec) (s : State) : kept (journaled l log s) = kept s := by
  simp [journaled]
@[simp] theorem rollback_kept (s : State) : kept (rollback s) = kept s := by
  unfold rollback; (try dsimp only); repeat' (first | with_reducible rfl | (intro s x; (try dsimp only)) | rw [kept_foldl] | (simp; done) | split | simp)
@[simp] theorem loseMain_kept (keepCxl : Bool) (s : State) : kept (loseMain keepCxl s) = kept s := by
  unfold loseMain; (try dsimp only); repeat' (first | with_reducible rfl | (intro s x; (try dsimp only)) | rw [kept_foldl] | (simp; done) | split | simp)
@[simp] theorem powerOff_kept (final : StatV) (journal : Bool) (s : State) : kept (powerOff final journal s) = kept s := by
  unfold powerOff; (try dsimp only); repeat' (first | with_reducible rfl | (simp; done) | split | simp)
@[simp] theorem powerOffIfOn_kept (final : StatV) (journal : Bool) (s : State) : kept (powerOffIfOn final journal s) = kept s := by
  unfold powerOffIfOn; (try dsimp only); repeat' (first | with_reducible rfl | (simp; done) | split | simp)
@[simp] theorem enterMinimal_kept (reason : Nat) (s : State) : kept (enterMinimal reason s) = kept s := by
  unfold enterMinimal; (try dsimp only); repeat' (first | with_reducible rfl | (simp; done) | split | simp)
@[simp] theorem dropHeld_kept (s : State) : kept (dropHeld s) = kept s := by
  simp [dropHeld]
@[simp] theorem stopKeeper_kept (s : State) : kept (stopKeeper s) = kept s := by
  unfold stopKeeper; (try dsimp only); repeat' (first | with_reducible rfl | (simp; done) | split | simp)
@[simp] theorem failedStart_kept (reason : Nat) (s : State) : kept (failedStart reason s) = kept s := by
  unfold failedStart; (try dsimp only); repeat' (first | with_reducible rfl | (simp; done) | split | simp)
@[simp] theorem setSupplies_kept (off : Bool) (tiles : List Nat) (s : State) : kept (setSupplies off tiles s) = kept s := by
  unfold setSupplies; (try dsimp only); repeat' (first | with_reducible rfl | (intro s x; (try dsimp only)) | rw [kept_foldl] | (simp; done) | simp)
@[simp] theorem startDomain_kept (d : Nat) (r : DomReq) (s : State) : kept (startDomain d r s) = kept s := by
  unfold startDomain; (try dsimp only); repeat' (first | with_reducible rfl | (simp; done) | split | simp)
@[simp] theorem domainOn_kept (d : Nat) (s : State) : kept (domainOn d s) = kept s := by
  unfold domainOn; (try dsimp only); repeat' (first | with_reducible rfl | (intro s x; (try dsimp only)) | rw [kept_foldl] | (simp; done) | split | simp)
@[simp] theorem portOff_kept (s : State) (p : Nat) : kept (portOff s p) = kept s := by
  unfold portOff; (try dsimp only); repeat' (first | with_reducible rfl | (simp; done) | split | simp)
@[simp] theorem domainOff_kept (d : Nat) (s : State) : kept (domainOff d s) = kept s := by
  unfold domainOff; (try dsimp only); repeat' (first | with_reducible rfl | (intro s x; (try dsimp only)) | rw [kept_foldl] | (simp; done) | split | simp)
@[simp] theorem recordDomain_kept (d : Nat) (r : DomReq) (s : State) : kept (recordDomain d r s) = kept s := by
  unfold recordDomain; (try dsimp only); repeat' (first | with_reducible rfl | (intro s x; (try dsimp only)) | rw [kept_foldl] | (simp; done) | split | simp)
@[simp] theorem nextDomain_kept (d : Nat) (s : State) : kept (nextDomain d s) = kept s := by
  unfold nextDomain; (try dsimp only); repeat' (first | with_reducible rfl | (simp; done) | split | simp)
@[simp] theorem settleDomain_kept (d : Nat) (s : State) : kept (settleDomain d s) = kept s := by
  unfold settleDomain; (try dsimp only); repeat' (first | with_reducible rfl | (simp; done) | split | simp)
@[simp] theorem settleDomains_kept (s : State) : kept (settleDomains s) = kept s := by
  unfold settleDomains; (try dsimp only); repeat' (first | with_reducible rfl | (intro s x; (try dsimp only)) | rw [kept_foldl] | (simp; done) | simp)
@[simp] theorem trainGroup_kept (d : Nat) (s : State) : kept (trainGroup d s) = kept s := by
  unfold trainGroup; (try dsimp only); repeat' (first | with_reducible rfl | (intro s x; (try dsimp only)) | rw [kept_foldl] | (simp; done) | split | simp)
@[simp] theorem powerGood_kept (d : Nat) (s : State) : kept (powerGood d s) = kept s := by
  unfold powerGood; (try dsimp only); repeat' (first | with_reducible rfl | (simp; done) | split | simp)
@[simp] theorem powerGoodTimeout_kept (d : Nat) (s : State) : kept (powerGoodTimeout d s) = kept s := by
  unfold powerGoodTimeout; (try dsimp only); repeat' (first | with_reducible rfl | (simp; done) | split | simp)
@[simp] theorem domainSequenceDone_kept (d : Nat) (s : State) : kept (domainSequenceDone d s) = kept s := by
  unfold domainSequenceDone; (try dsimp only); repeat' (first | with_reducible rfl | (simp; done) | split | simp)
@[simp] theorem journalWrite_kept (s : State) : kept (journalWrite s) = kept s := by
  unfold journalWrite; (try dsimp only); repeat' (first | with_reducible rfl | (simp; done) | split | simp)
@[simp] theorem noteWrite_kept (s : State) : kept (noteWrite s) = kept s := by
  unfold noteWrite; (try dsimp only); repeat' (first | with_reducible rfl | (simp; done) | split | simp)
@[simp] theorem journalWriteDone_kept (s : State) : kept (journalWriteDone s) = kept s := by
  unfold journalWriteDone; (try dsimp only); repeat' (first | with_reducible rfl | (simp; done) | split | simp)
@[simp] theorem watchdogExpiry_kept (core : Nat) (s : State) : kept (watchdogExpiry core s) = kept s := by
  unfold watchdogExpiry; (try dsimp only); repeat' (first | with_reducible rfl | (simp; done) | split | simp)
@[simp] theorem keeperCacheError_kept (s : State) : kept (keeperCacheError s) = kept s := by
  unfold keeperCacheError; (try dsimp only); repeat' (first | with_reducible rfl | (simp; done) | split | simp)
@[simp] theorem cutLoads_kept (s : State) : kept (cutLoads s) = kept s := by
  unfold cutLoads; (try dsimp only); repeat' (first | with_reducible rfl | (intro s x; (try dsimp only)) | rw [kept_foldl] | (simp; done) | simp)
@[simp] theorem resumeKeeper_kept (s : State) : kept (resumeKeeper s) = kept s := by
  unfold resumeKeeper; (try dsimp only); repeat' (first | with_reducible rfl | (simp; done) | split | simp)
@[simp] theorem settleAll_kept (s : State) : kept (settleAll s) = kept s := by
  simp [settleAll]
@[simp] theorem keeperRestartDone_kept (s : State) : kept (keeperRestartDone s) = kept s := by
  unfold keeperRestartDone; (try dsimp only); repeat' (first | with_reducible rfl | (simp; done) | split | simp)
@[simp] theorem lapseAll_kept (s : State) : kept (lapseAll s) = kept s := by
  unfold lapseAll; (try dsimp only); repeat' (first | with_reducible rfl | (simp; done) | split | simp)
@[simp] theorem restartRecord_kept (s : State) : kept (restartRecord s) = kept s := by
  simp [restartRecord]
@[simp] theorem rebuildLedger_kept (s : State) : kept (rebuildLedger s) = kept s := by
  simp [rebuildLedger]
@[simp] theorem keeperMemoryError_kept (banksBad : Nat) (s : State) : kept (keeperMemoryError banksBad s) = kept s := by
  unfold keeperMemoryError; (try dsimp only); repeat' (first | with_reducible rfl | (simp; done) | split | simp)
@[simp] theorem checkImage_kept (ref : CmdRef) (fn n : Nat) (host : HostRead) (s : State) : kept (checkImage ref fn n host s) = kept s := by
  unfold checkImage; (try dsimp only); repeat' (first | with_reducible rfl | (simp; done) | split | simp)
@[simp] theorem handoverTakeover_kept (s : State) : kept (handoverTakeover s) = kept s := by
  unfold handoverTakeover; (try dsimp only); repeat' (first | with_reducible rfl | (simp; done) | split | simp)
@[simp] theorem handoverTimeout_kept (s : State) : kept (handoverTimeout s) = kept s := by
  unfold handoverTimeout; (try dsimp only); repeat' (first | with_reducible rfl | (simp; done) | split | simp)
@[simp] theorem imageStoreWrite_kept (s : State) : kept (imageStoreWrite s) = kept s := by
  unfold imageStoreWrite; (try dsimp only); repeat' (first | with_reducible rfl | (simp; done) | split | simp)
@[simp] theorem endHostLoad_kept (s : State) (i : Nat) : kept (endHostLoad s i) = kept s := by
  unfold endHostLoad; (try dsimp only); repeat' (first | with_reducible rfl | (simp; done) | split | simp)
@[simp] theorem endHostReads_kept (fn : Nat) (s : State) (i : Nat) : kept (endHostReads fn s i) = kept s := by
  unfold endHostReads; (try dsimp only); repeat' (first | with_reducible rfl | (intro s x; (try dsimp only)) | rw [kept_foldl] | (simp; done) | simp)
@[simp] theorem endHostInstall_kept (s : State) (b : Nat) : kept (endHostInstall s b) = kept s := by
  simp [endHostInstall]
@[simp] theorem stopHostAccesses_kept (fn : Nat) (s : State) : kept (stopHostAccesses fn s) = kept s := by
  unfold stopHostAccesses; (try dsimp only); repeat' (first | with_reducible rfl | (intro s x; (try dsimp only)) | rw [kept_foldl] | (simp; done) | split | simp)
@[simp] theorem staleCompletion_kept (fn : Nat) (s : State) : kept (staleCompletion fn s) = kept s := by
  simp [staleCompletion]
@[simp] theorem accessFails_kept (fn : Nat) (a : HostAccess) (s : State) : kept (accessFails fn a s) = kept s := by
  unfold accessFails; (try dsimp only); repeat' (first | with_reducible rfl | (simp; done) | split | simp)
@[simp] theorem cacheTranslation_kept (fn page : Nat) (s : State) : kept (cacheTranslation fn page s) = kept s := by
  unfold cacheTranslation; dsimp only; split
  · rfl
  · split <;> rfl
@[simp] theorem accessDone_kept (fn : Nat) (a : HostAccess) (s : State) : kept (accessDone fn a s) = kept s := by
  unfold accessDone; split <;> simp
@[simp] theorem hostCompletion_kept (fn gen : Nat) (ok : Bool) (a : HostAccess) (s : State) : kept (hostCompletion fn gen ok a s) = kept s := by
  unfold hostCompletion; (try dsimp only); repeat' (first | with_reducible rfl | (simp; done) | split | simp)
@[simp] theorem atsInvalidate_kept (fn page : Nat) (s : State) : kept (atsInvalidate fn page s) = kept s := by
  simp [atsInvalidate]
@[simp] theorem tellFunction_kept (s : State) (fn : Nat) : kept (tellFunction s fn) = kept s := by
  unfold tellFunction; (try dsimp only); repeat' (first | with_reducible rfl | (simp; done) | split | simp)
@[simp] theorem resetSteps_kept (fn : Nat) (to_ : FnSt) (keepBme : Bool) (s : State) : kept (resetSteps fn to_ keepBme s) = kept s := by
  unfold resetSteps; (try dsimp only); repeat' (first | with_reducible rfl | (simp; done) | split | simp)
@[simp] theorem makeAbsent_kept (s : State) (fn : Nat) : kept (makeAbsent s fn) = kept s := by
  have hf (l : List VfReq) (s : State) : kept (l.foldl (fun s q => finish s q.ref .functionAbsent []) s) = kept s :=
    kept_foldl _ _ _ fun s q => finish_kept s q.ref _ _
  unfold makeAbsent; dsimp only; split
  · rfl
  · rw [tellFunction_kept, hf]; simp only [State.modLed_kept, State.modFn_kept, resetSteps_kept]
@[simp] theorem clearVfEnable_kept (s : State) : kept (clearVfEnable s) = kept s := by
  unfold clearVfEnable; (try dsimp only); repeat' (first | with_reducible rfl | (intro s x; (try dsimp only)) | rw [kept_foldl] | (simp; done) | simp)
@[simp] theorem resetVf0_kept (s : State) : kept (resetVf0 s) = kept s := by
  unfold resetVf0; (try dsimp only); repeat' (first | with_reducible rfl | (simp; done) | split | simp)
@[simp] theorem flr_kept (fn : Nat) (s : State) : kept (flr fn s) = kept s := by
  unfold flr; (try dsimp only); repeat' (first | with_reducible rfl | (simp; done) | split | simp)
@[simp] theorem startVf_kept (fn : Nat) (q : VfReq) (s : State) : kept (startVf fn q s) = kept s := by
  unfold startVf; (try dsimp only); repeat' (first | with_reducible rfl | (simp; done) | split | simp)
@[simp] theorem functionResetDone_kept (fn : Nat) (s : State) : kept (functionResetDone fn s) = kept s := by
  unfold functionResetDone; (try dsimp only); repeat' (first | with_reducible rfl | (simp; done) | split | simp)
@[simp] theorem vfEnableSet_kept (n : Nat) (s : State) : kept (vfEnableSet n s) = kept s := by
  unfold vfEnableSet; (try dsimp only); repeat' (first | with_reducible rfl | (intro s x; (try dsimp only)) | rw [kept_foldl] | (simp; done) | split | simp)
@[simp] theorem vfEnableClear_kept (s : State) : kept (vfEnableClear s) = kept s := by
  unfold vfEnableClear; (try dsimp only); repeat' (first | with_reducible rfl | (simp; done) | split | simp)
@[simp] theorem busMasterSet_kept (fn : Nat) (s : State) : kept (busMasterSet fn s) = kept s := by
  unfold busMasterSet; (try dsimp only); repeat' (first | with_reducible rfl | (simp; done) | split | simp)
@[simp] theorem busMasterClear_kept (fn : Nat) (s : State) : kept (busMasterClear fn s) = kept s := by
  unfold busMasterClear; (try dsimp only); repeat' (first | with_reducible rfl | (simp; done) | split | simp)
@[simp] theorem linkLoss_kept (s : State) : kept (linkLoss s) = kept s := by
  unfold linkLoss; (try dsimp only); repeat' (first | with_reducible rfl | (simp; done) | split | simp)
@[simp] theorem linkUp_kept (width rate : Nat) (cache mem : Bool) (s : State) : kept (linkUp width rate cache mem s) = kept s := by
  unfold linkUp; (try dsimp only); repeat' (first | with_reducible rfl | (simp; done) | split | simp)
@[simp] theorem configRequest_kept (fn : Nat) (ats : Option Bool) (s : State) : kept (configRequest fn ats s) = kept s := by
  unfold configRequest; (try dsimp only); repeat' (first | with_reducible rfl | (simp; done) | split | simp)
@[simp] theorem fnCtrlApply_kept (fn value : Nat) (s : State) : kept (fnCtrlApply fn value s) = kept s := by
  unfold fnCtrlApply; (try dsimp only); repeat' (first | with_reducible rfl | (simp; done) | split | simp)
theorem porterWrite_kept (op key : Nat) (argOk : Bool) (act : State → State) (s : State) (hf : ∀ s, kept (act s) = kept s) :
    kept (porterWrite op key argOk act s) = kept s := by
  unfold porterWrite; dsimp only; repeat' (first | with_reducible rfl | (simp [hf]; done) | split)
@[simp] theorem porterBusy_kept (op : Nat) (s : State) : kept (porterBusy op s) = kept s := by
  simp [porterBusy]
@[simp] theorem porterFence_kept (w : Nat) (s : State) : kept (porterFence w s) = kept s := by
  unfold porterFence; (try dsimp only); repeat' (first | with_reducible rfl | (simp; done) | split | simp)
@[simp] theorem writeBar4_kept (fn off v : Nat) (s : State) : kept (writeBar4 fn off v s) = kept s := by
  unfold writeBar4; (try dsimp only); repeat' (first | with_reducible rfl | (refine (porterWrite_kept _ _ _ _ _ fun s => ?_).trans ?_) | (simp; done) | split | simp)
@[simp] theorem registerWrite_kept (space : RegSpace) (fn off width v : Nat) (s : State) : kept (registerWrite space fn off width v s) = kept s := by
  unfold registerWrite; (try dsimp only); repeat' (first | with_reducible rfl | (simp; done) | split | simp)
@[simp] theorem lowHalfRead_kept (fn off : Nat) (s : State) : kept (lowHalfRead fn off s) = kept s := by
  unfold lowHalfRead; (try dsimp only); repeat' (first | with_reducible rfl | (simp; done) | split | simp)
@[simp] theorem State.modDecoder_kept (s : State) (d : Nat) (g : Decoder → Decoder) : kept (State.modDecoder s d g) = kept s := by
  simp [State.modDecoder]
@[simp] theorem decoderCommit_kept (d base size : Nat) (lock : Bool) (s : State) : kept (decoderCommit d base size lock s) = kept s := by
  unfold decoderCommit; (try dsimp only); repeat' (first | with_reducible rfl | (simp; done) | split | simp)
@[simp] theorem decoderUncommit_kept (d : Nat) (s : State) : kept (decoderUncommit d s) = kept s := by
  unfold decoderUncommit; (try dsimp only); repeat' (first | with_reducible rfl | (simp; done) | split | simp)
@[simp] theorem tellDown_kept (c : Nat) (s : State) : kept (tellDown c s) = kept s := by
  unfold tellDown; (try dsimp only); repeat' (first | with_reducible rfl | (simp; done) | split | simp)
@[simp] theorem cxlMemRead_kept (addr : Nat) (s : State) : kept (cxlMemRead addr s) = kept s := by
  unfold cxlMemRead; (try dsimp only); repeat' (first | with_reducible rfl | (simp; done) | split | simp)
@[simp] theorem cxlMemWrite_kept (addr : Nat) (data : Bytes) (s : State) : kept (cxlMemWrite addr data s) = kept s := by
  unfold cxlMemWrite; (try dsimp only); repeat' (first | with_reducible rfl | (simp; done) | split | simp)
@[simp] theorem ideFailure_kept (stream : Nat) (s : State) : kept (ideFailure stream s) = kept s := by
  unfold ideFailure; (try dsimp only); repeat' (first | with_reducible rfl | (simp; done) | split | simp)
@[simp] theorem doeAnswer_kept (s : State) (b : Bytes) : kept (doeAnswer s b) = kept s := by
  simp [doeAnswer]
@[simp] theorem zeroStore_kept (cause : WipeCause) (s : State) : kept (zeroStore cause s) = kept s := by
  unfold zeroStore; (try dsimp only); repeat' (first | with_reducible rfl | (simp; done) | split | simp)
@[simp] theorem loseObj_kept (s : State) (i : Nat) : kept (loseObj s i) = kept s := by
  unfold loseObj; (try dsimp only); repeat' (first | with_reducible rfl | (simp; done) | split | simp)
@[simp] theorem stopIntoLoft_kept (s : State) : kept (stopIntoLoft s) = kept s := by
  unfold stopIntoLoft; (try dsimp only); repeat' (first | with_reducible rfl | (intro s x; (try dsimp only)) | rw [kept_foldl] | (simp; done) | simp)
@[simp] theorem loseHandle_kept (s : State) (i : Nat) : kept (loseHandle s i) = kept s := by
  unfold loseHandle; (try dsimp only); repeat' (first | with_reducible rfl | (intro s x; (try dsimp only)) | rw [kept_foldl] | (simp; done) | split | simp)
@[simp] theorem unreadyBases_kept (s : State) : kept (unreadyBases s) = kept s := by
  unfold unreadyBases; (try dsimp only); repeat' (first | with_reducible rfl | (simp; done) | split | simp)
@[simp] theorem wipeIn_kept (cause : WipeCause) (s : State) : kept (wipeIn cause s) = kept s := by
  unfold wipeIn; (try dsimp only); repeat' (first | with_reducible rfl | (intro s x; (try dsimp only)) | rw [kept_foldl] | (simp; done) | split | simp)
@[simp] theorem wipe_kept (cause : WipeCause) (s : State) : kept (wipe cause s) = kept s := by
  unfold wipe; (try dsimp only); repeat' (first | with_reducible rfl | (simp; done) | split | simp)
@[simp] theorem watched_kept (cause : WipeCause) (met : Bool) (s : State) : kept (watched cause met s) = kept s := by
  unfold watched; (try dsimp only); repeat' (first | with_reducible rfl | (simp; done) | split | simp)
@[simp] theorem dropKey_kept (slot : Nat) (s : State) : kept (dropKey slot s) = kept s := by
  unfold dropKey; (try dsimp only); repeat' (first | with_reducible rfl | (simp; done) | split | simp)
@[simp] theorem secureStoreKeyError_kept (slot : Nat) (s : State) : kept (secureStoreKeyError slot s) = kept s := by
  unfold secureStoreKeyError; (try dsimp only); repeat' (first | with_reducible rfl | (simp; done) | split | simp)
@[simp] theorem keepPassport_kept (b : Bytes) (s : State) : kept (keepPassport b s) = kept s := by
  simp [keepPassport]
theorem givePassport_keeps (s : State) (ak nonce : Bytes) (n : Nat) (ok : Bool) : (givePassport s ak nonce n ok).Keeps := by
  unfold givePassport; repeat' (first | trivial | (intro s; simp; done) | split)
theorem passportGetCmd_keeps (host : HostRead) : (passportGetCmd host).Keeps := by
  refine ⟨fun s h p => ?_, fun h p s => by simp [passportGetCmd]⟩
  unfold passportGetCmd; dsimp only; split
  · exact givePassport_keeps _ _ _ _ _
  · intro s; simp
@[simp] theorem attestError_kept (s : State) (n : Nat) : kept (attestError s n) = kept s := by
  simp [attestError]
@[simp] theorem answerPassport_kept (s : State) (ak nonce : Bytes) : kept (answerPassport s ak nonce) = kept s := by
  simp [answerPassport]
theorem doeRequest_kept (length : Nat) (s : State) (f : State → State) (hf : ∀ s, kept (f s) = kept s) : kept (doeRequest length s f) = kept s := by
  unfold doeRequest; repeat' (first | with_reducible rfl | (simp [hf]; done) | split)
@[simp] theorem passportRequest_kept (length : Nat) (nonce : Bytes) (s : State) : kept (passportRequest length nonce s) = kept s := by
  unfold passportRequest; (try dsimp only); repeat' (first | with_reducible rfl | (refine (doeRequest_kept _ _ _ fun s => ?_).trans ?_) | (simp; done) | split | simp)
@[simp] theorem answerWaiting_kept (ak : Bytes) (s : State) (q : WaitingPassport) : kept (answerWaiting ak s q) = kept s := by
  have hg : (givePassport s ak q.nonce q.capacity q.hostOk).Keeps := by
    unfold givePassport; repeat' (first | trivial | (intro s; simp; done) | split)
  unfold answerWaiting; dsimp only; split
  · simp
  · split <;> rename_i hk <;> (try rw [hk] at hg)
    · rw [pushReply_kept]; exact hg s
    · simp
    · rfl
@[simp] theorem drawKeys_kept (s : State) : kept (drawKeys s) = kept s := by
  simp [drawKeys]
@[simp] theorem akRedrawDone_kept (s : State) : kept (akRedrawDone s) = kept s := by
  unfold akRedrawDone; (try dsimp only); repeat' (first | with_reducible rfl | (intro s x; (try dsimp only)) | rw [kept_foldl] | (simp; done) | split | simp)
@[simp] theorem usePassport_kept (b : Bytes) (s : State) : kept (usePassport b s) = kept s := by
  unfold usePassport; (try dsimp only); repeat' (first | with_reducible rfl | (simp; done) | split | simp)
theorem storeBaseKey_keeps (s : State) (b : Nat) (m z : Bytes) : (storeBaseKey s b m z).Keeps := by
  unfold storeBaseKey; dsimp only; repeat' (first | trivial | (intro s; simp; done) | split)
theorem keyReleaseCmd_keeps : keyReleaseCmd.Keeps := by
  refine ⟨fun s h p => ?_, fun h p s => by simp [keyReleaseCmd]⟩
  unfold keyReleaseCmd; dsimp only
  repeat' (first | exact storeBaseKey_keeps _ _ _ _ | trivial | (intro s; simp; done) | split)
@[simp] theorem endLoftReloads_kept (party : Nat) (s : State) : kept (endLoftReloads party s) = kept s := by
  unfold endLoftReloads; (try dsimp only); repeat' (first | with_reducible rfl | (intro s x; (try dsimp only)) | rw [kept_foldl] | (simp; done) | split | simp)
@[simp] theorem eraseCellar_kept (s : State) : kept (eraseCellar s) = kept s := by
  unfold eraseCellar; (try dsimp only); repeat' (first | with_reducible rfl | (intro s x; (try dsimp only)) | rw [kept_foldl] | (simp; done) | split | simp)
@[simp] theorem setLife_kept (new : Life) (s : State) : kept (setLife new s) = kept s := by
  unfold setLife; (try dsimp only); repeat' (first | with_reducible rfl | (simp; done) | split | simp)
@[simp] theorem debugUnlock_kept (token : Bytes) (s : State) : kept (debugUnlock token s) = kept s := by
  unfold debugUnlock; (try dsimp only); repeat' (first | with_reducible rfl | (refine (doeRequest_kept _ _ _ fun s => ?_).trans ?_) | (simp; done) | split | simp)
@[simp] theorem ideKm_kept (m : Bytes) (s : State) : kept (ideKm m s) = kept s := by
  unfold ideKm; (try dsimp only); repeat' (first | with_reducible rfl | (simp; done) | split | simp)
@[simp] theorem ideKeys_kept (wrapper message : Bytes) (s : State) : kept (ideKeys wrapper message s) = kept s := by
  unfold ideKeys; (try dsimp only); repeat' (first | with_reducible rfl | (refine (doeRequest_kept _ _ _ fun s => ?_).trans ?_) | (simp; done) | split | simp)
@[simp] theorem raiseStep_kept (s : State) : kept (raiseStep s) = kept s := by
  unfold raiseStep; (try dsimp only); repeat' (first | with_reducible rfl | (intro s x; (try dsimp only)) | rw [kept_foldl] | (simp; done) | split | simp)
@[simp] theorem beginStep_kept (n : Nat) (s : State) : kept (beginStep n s) = kept s := by
  simp [beginStep]
@[simp] theorem tryStart_kept (s : State) : kept (tryStart s) = kept s := by
  unfold tryStart; (try dsimp only); repeat' (first | with_reducible rfl | (simp; done) | split | simp)
@[simp] theorem perstAssert_kept (s : State) : kept (perstAssert s) = kept s := by
  simp [perstAssert]
@[simp] theorem perstDeassert_kept (s : State) : kept (perstDeassert s) = kept s := by
  unfold perstDeassert; (try dsimp only); repeat' (first | with_reducible rfl | (simp; done) | split | simp)
@[simp] theorem vinRise_kept (s : State) : kept (vinRise s) = kept s := by
  unfold vinRise; (try dsimp only); repeat' (first | with_reducible rfl | (simp; done) | split | simp)
@[simp] theorem setVin_kept (v : Vin) (s : State) : kept (setVin v s) = kept s := by
  simp [setVin]
@[simp] theorem vinGood_kept (s : State) : kept (vinGood s) = kept s := by
  unfold vinGood; (try dsimp only); repeat' (first | with_reducible rfl | (simp; done) | split | simp)
@[simp] theorem vinHigh_kept (s : State) : kept (vinHigh s) = kept s := by
  unfold vinHigh; (try dsimp only); repeat' (first | with_reducible rfl | (simp; done) | split | simp)
@[simp] theorem vinOver_kept (s : State) : kept (vinOver s) = kept s := by
  unfold vinOver; (try dsimp only); repeat' (first | with_reducible rfl | (simp; done) | split | simp)
@[simp] theorem vinLow_kept (s : State) : kept (vinLow s) = kept s := by
  unfold vinLow; (try dsimp only); repeat' (first | with_reducible rfl | (simp; done) | split | simp)
@[simp] theorem vinLowNoWarn_kept (s : State) : kept (vinLowNoWarn s) = kept s := by
  unfold vinLowNoWarn; (try dsimp only); repeat' (first | with_reducible rfl | (simp; done) | split | simp)
@[simp] theorem vinBelowHoldup_kept (s : State) : kept (vinBelowHoldup s) = kept s := by
  unfold vinBelowHoldup; (try dsimp only); repeat' (first | with_reducible rfl | (simp; done) | split | simp)
@[simp] theorem voltageRepeat_kept (s : State) : kept (voltageRepeat s) = kept s := by
  unfold voltageRepeat; (try dsimp only); repeat' (first | with_reducible rfl | (simp; done) | split | simp)
@[simp] theorem bootCxl_kept (f : BootFound) (s : State) : kept (bootCxl f s) = kept s := by
  simp [bootCxl]
@[simp] theorem bootKeeper_kept (s : State) : kept (bootKeeper s) = kept s := by
  simp [bootKeeper]
@[simp] theorem mismatched_kept (s : State) (c : Nat) : kept (mismatched s c) = kept s := by
  simp [mismatched]
@[simp] theorem bootMemories_kept (f : BootFound) (s : State) : kept (bootMemories f s) = kept s := by
  unfold bootMemories; (try dsimp only); repeat' (first | with_reducible rfl | (intro s x; (try dsimp only)) | rw [kept_foldl] | (simp; done) | simp)
@[simp] theorem cutLong_kept (s : State) (r : CmdRef) : kept (cutLong s r) = kept s := by
  unfold cutLong; (try dsimp only); repeat' (first | with_reducible rfl | (simp; done) | split | simp)
@[simp] theorem cutLongs_kept (s : State) : kept (cutLongs s) = kept s := by
  unfold cutLongs; (try dsimp only); repeat' (first | with_reducible rfl | (intro s x; (try dsimp only)) | rw [kept_foldl] | (simp; done) | split | simp)
@[simp] theorem loseContexts_kept (s : State) : kept (loseContexts s) = kept s := by
  unfold loseContexts; (try dsimp only); repeat' (first | with_reducible rfl | (intro s x; (try dsimp only)) | rw [kept_foldl] | (simp; done) | simp)
@[simp] theorem applyOff_kept (s : State) : kept (applyOff s) = kept s := by
  unfold applyOff; (try dsimp only); repeat' (first | with_reducible rfl | (intro s x; (try dsimp only)) | rw [kept_foldl] | (simp; done) | simp)
@[simp] theorem restoreBases_kept (s : State) : kept (restoreBases s) = kept s := by
  unfold restoreBases; (try dsimp only); repeat' (first | with_reducible rfl | (simp; done) | split | simp)
@[simp] theorem drawLoftKey_kept (s : State) : kept (drawLoftKey s) = kept s := by
  simp [drawLoftKey]
@[simp] theorem openTally_kept (s : State) : kept (openTally s) = kept s := by
  unfold openTally; (try dsimp only); repeat' (first | with_reducible rfl | (simp; done) | split | simp)
@[simp] theorem bootNotices_kept (s : State) : kept (bootNotices s) = kept s := by
  unfold bootNotices; (try dsimp only); repeat' (first | with_reducible rfl | (intro s x; (try dsimp only)) | rw [kept_foldl] | (simp; done) | split | simp)
@[simp] theorem bootReady_kept (s : State) : kept (bootReady s) = kept s := by
  simp [bootReady]
@[simp] theorem endStep_kept (n : Nat) (s : State) : kept (endStep n s) = kept s := by
  simp [endStep]
@[simp] theorem bootStepDone_kept (f : BootFound) (s : State) : kept (bootStepDone f s) = kept s := by
  unfold bootStepDone; (try dsimp only); repeat' (first | with_reducible rfl | (intro s x; (try dsimp only)) | rw [kept_foldl] | (simp; done) | split | simp)
@[simp] theorem bootStepOverrun_kept (reason : Nat) (s : State) : kept (bootStepOverrun reason s) = kept s := by
  unfold bootStepOverrun; (try dsimp only); repeat' (first | with_reducible rfl | (simp; done) | split | simp)
@[simp] theorem retryWaitEnd_kept (s : State) : kept (retryWaitEnd s) = kept s := by
  unfold retryWaitEnd; (try dsimp only); repeat' (first | with_reducible rfl | (simp; done) | split | simp)
@[simp] theorem dozeRequest_kept (s : State) : kept (dozeRequest s) = kept s := by
  unfold dozeRequest; (try dsimp only); repeat' (first | with_reducible rfl | (simp; done) | split | simp)
@[simp] theorem wake_kept (s : State) : kept (wake s) = kept s := by
  simp [wake]
@[simp] theorem setTemp_kept (part : Nat) (t : Int) (s : State) : kept (setTemp part t s) = kept s := by
  simp [setTemp]
@[simp] theorem thermalWarning_kept (part : Nat) (t : Int) (s : State) : kept (thermalWarning part t s) = kept s := by
  unfold thermalWarning; (try dsimp only); repeat' (first | with_reducible rfl | (simp; done) | split | simp)
@[simp] theorem trip_kept (part : Nat) (s : State) : kept (trip part s) = kept s := by
  unfold trip; (try dsimp only); repeat' (first | with_reducible rfl | (simp; done) | split | simp)
@[simp] theorem thermalTrip_kept (part : Nat) (t : Int) (s : State) : kept (thermalTrip part t s) = kept s := by
  unfold thermalTrip; (try dsimp only); repeat' (first | with_reducible rfl | (simp; done) | split | simp)
@[simp] theorem sensorFault_kept (part sensor : Nat) (s : State) : kept (sensorFault part sensor s) = kept s := by
  unfold sensorFault; (try dsimp only); repeat' (first | with_reducible rfl | (simp; done) | split | simp)
@[simp] theorem takeAddress_kept (a : Nat) (s : State) : kept (takeAddress a s) = kept s := by
  unfold takeAddress; (try dsimp only); repeat' (first | with_reducible rfl | (simp; done) | split | simp)
@[simp] theorem selectIr_kept (code : Nat) (s : State) : kept (selectIr code s) = kept s := by
  simp [selectIr]
theorem boundaryScan_kept (code : Nat) (act : State → State) (s : State) (hf : ∀ s, kept (act s) = kept s) : kept (boundaryScan code act s) = kept s := by
  unfold boundaryScan; repeat' (first | with_reducible rfl | (simp [hf]; done) | split)
theorem execJtagDebug_kept (code : Nat) (s t : State) (h' : execJtagDebug code s = .next t) : kept t = kept s := by
  unfold execJtagDebug at h'; split at h'
  · cases h'
  · cases h'; split <;> simp
theorem tallyReadCmd_keeps  : tallyReadCmd.Keeps := by
  refine ⟨fun s h p => ?_, fun h p s => ?_⟩
  · unfold tallyReadCmd; (try dsimp only); repeat' (first | trivial | split | (refine ⟨fun s => ?_, ?_⟩) | (rintro g ⟨⟩) | (intro s) | with_reducible rfl | (simp; done) | (simp only [KRes.Keeps]))
  · unfold tallyReadCmd; (try dsimp only); repeat' (first | with_reducible rfl | (simp; done) | split)
theorem tallyCloseCmd_keeps  : tallyCloseCmd.Keeps := by
  refine ⟨fun s h p => ?_, fun h p s => ?_⟩
  · unfold tallyCloseCmd; (try dsimp only); repeat' (first | trivial | split | (refine ⟨fun s => ?_, ?_⟩) | (rintro g ⟨⟩) | (intro s) | with_reducible rfl | (simp; done) | (simp only [KRes.Keeps]))
  · unfold tallyCloseCmd; (try dsimp only); repeat' (first | with_reducible rfl | (simp; done) | split)
theorem timeSeedCmd_keeps  : timeSeedCmd.Keeps := by
  refine ⟨fun s h p => ?_, fun h p s => ?_⟩
  · unfold timeSeedCmd; (try dsimp only); repeat' (first | trivial | split | (refine ⟨fun s => ?_, ?_⟩) | (rintro g ⟨⟩) | (intro s) | with_reducible rfl | (simp; done) | (simp only [KRes.Keeps]))
  · unfold timeSeedCmd; (try dsimp only); repeat' (first | with_reducible rfl | (simp; done) | split)
theorem timeReadCmd_keeps  : timeReadCmd.Keeps := by
  refine ⟨fun s h p => ?_, fun h p s => ?_⟩
  · unfold timeReadCmd; (try dsimp only); repeat' (first | trivial | split | (refine ⟨fun s => ?_, ?_⟩) | (rintro g ⟨⟩) | (intro s) | with_reducible rfl | (simp; done) | (simp only [KRes.Keeps]))
  · unfold timeReadCmd; (try dsimp only); repeat' (first | with_reducible rfl | (simp; done) | split)
theorem objectCreateCmd_keeps  : objectCreateCmd.Keeps := by
  refine ⟨fun s h p => ?_, fun h p s => ?_⟩
  · unfold objectCreateCmd; (try dsimp only); repeat' (first | trivial | split | (refine ⟨fun s => ?_, ?_⟩) | (rintro g ⟨⟩) | (intro s) | with_reducible rfl | (simp; done) | (simp only [KRes.Keeps]))
  · unfold objectCreateCmd; (try dsimp only); repeat' (first | with_reducible rfl | (simp; done) | split)
theorem objectMoveCmd_keeps  : objectMoveCmd.Keeps := by
  refine ⟨fun s h p => ?_, fun h p s => ?_⟩
  · unfold objectMoveCmd; (try dsimp only); repeat' (first | trivial | split | (refine ⟨fun s => ?_, ?_⟩) | (rintro g ⟨⟩) | (intro s) | with_reducible rfl | (simp; done) | (simp only [KRes.Keeps]))
  · unfold objectMoveCmd; (try dsimp only); repeat' (first | with_reducible rfl | (simp; done) | split)
theorem objectResizeCmd_keeps  : objectResizeCmd.Keeps := by
  refine ⟨fun s h p => ?_, fun h p s => ?_⟩
  · unfold objectResizeCmd; (try dsimp only); repeat' (first | trivial | split | (refine ⟨fun s => ?_, ?_⟩) | (rintro g ⟨⟩) | (intro s) | with_reducible rfl | (simp; done) | (simp only [KRes.Keeps]))
  · unfold objectResizeCmd; (try dsimp only); repeat' (first | with_reducible rfl | (simp; done) | split)
theorem objectFreeCmd_keeps  : objectFreeCmd.Keeps := by
  refine ⟨fun s h p => ?_, fun h p s => ?_⟩
  · unfold objectFreeCmd; (try dsimp only); repeat' (first | trivial | split | (refine ⟨fun s => ?_, ?_⟩) | (rintro g ⟨⟩) | (intro s) | with_reducible rfl | (simp; done) | (simp only [KRes.Keeps]))
  · unfold objectFreeCmd; (try dsimp only); repeat' (first | with_reducible rfl | (simp; done) | split)
theorem objectStatusCmd_keeps  : objectStatusCmd.Keeps := by
  refine ⟨fun s h p => ?_, fun h p s => ?_⟩
  · unfold objectStatusCmd; (try dsimp only); repeat' (first | trivial | split | (refine ⟨fun s => ?_, ?_⟩) | (rintro g ⟨⟩) | (intro s) | with_reducible rfl | (simp; done) | (simp only [KRes.Keeps]))
  · unfold objectStatusCmd; (try dsimp only); repeat' (first | with_reducible rfl | (simp; done) | split)
theorem transferCmd_keeps (code : Nat) (work : Nat → Nat → Nat → CmdRef → ObjWork) : (transferCmd code work).Keeps := by
  refine ⟨fun s h p => ?_, fun h p s => ?_⟩
  · unfold transferCmd; (try dsimp only); repeat' (first | trivial | split | (refine ⟨fun s => ?_, ?_⟩) | (rintro g ⟨⟩) | (intro s) | with_reducible rfl | (simp; done) | (simp only [KRes.Keeps]))
  · unfold transferCmd; (try dsimp only); repeat' (first | with_reducible rfl | (simp; done) | split)
theorem objectWriteCmd_keeps  : objectWriteCmd.Keeps := by
  refine ⟨fun s h p => ?_, fun h p s => ?_⟩
  · unfold objectWriteCmd transferCmd; (try dsimp only); repeat' (first | trivial | split | (refine ⟨fun s => ?_, ?_⟩) | (rintro g ⟨⟩) | (intro s) | with_reducible rfl | (simp; done) | (simp only [KRes.Keeps]))
  · unfold objectWriteCmd transferCmd; (try dsimp only); repeat' (first | with_reducible rfl | (simp; done) | split)
theorem objectReadCmd_keeps  : objectReadCmd.Keeps := by
  refine ⟨fun s h p => ?_, fun h p s => ?_⟩
  · unfold objectReadCmd transferCmd; (try dsimp only); repeat' (first | trivial | split | (refine ⟨fun s => ?_, ?_⟩) | (rintro g ⟨⟩) | (intro s) | with_reducible rfl | (simp; done) | (simp only [KRes.Keeps]))
  · unfold objectReadCmd transferCmd; (try dsimp only); repeat' (first | with_reducible rfl | (simp; done) | split)
/-- What an answer that stands only where a test fails must be. -/
theorem ite_none_some {α : Type} {c : Prop} [Decidable c] {f g : α} (h : (if c then none else some f) = some g) : f = g := by
  split at h
  · cases h
  · exact Option.some.inj h
theorem adapterLoadCmd_keeps (host : HostRead) : (adapterLoadCmd host).Keeps := by
  refine ⟨fun s h p => ?_, fun h p s => rfl⟩
  unfold adapterLoadCmd; dsimp only; split
  · trivial
  · split
    · trivial
    · refine ⟨fun s => ?_, fun g hg s => ?_⟩
      · rw [State.modRoom_kept, startLoad_kept]; split
        · rw [State.modHandle_kept, newRoomObj_kept]
        · split
          · rfl
          · rw [State.modHandle_kept]
      · rw [← ite_none_some hg, failLoad_kept]; simp
theorem roomPinCmd_keeps  : roomPinCmd.Keeps := by
  refine ⟨fun s h p => ?_, fun h p s => ?_⟩
  · unfold roomPinCmd; (try dsimp only); repeat' (first | trivial | split | (refine ⟨fun s => ?_, ?_⟩) | (rintro g ⟨⟩) | (intro s) | with_reducible rfl | (simp; done) | (simp only [KRes.Keeps]))
  · unfold roomPinCmd; (try dsimp only); repeat' (first | with_reducible rfl | (simp; done) | split)
theorem checkoutCmd_keeps  : checkoutCmd.Keeps := by
  refine ⟨fun s h p => ?_, fun h p s => ?_⟩
  · unfold checkoutCmd; (try dsimp only); repeat' (first | trivial | split | (refine ⟨fun s => ?_, ?_⟩) | (rintro g ⟨⟩) | (intro s) | with_reducible rfl | (simp; done) | (simp only [KRes.Keeps]))
  · unfold checkoutCmd; (try dsimp only); repeat' (first | with_reducible rfl | (simp; done) | split)
theorem adapterDeleteCmd_keeps  : adapterDeleteCmd.Keeps := by
  refine ⟨fun s h p => ?_, fun h p s => ?_⟩
  · unfold adapterDeleteCmd; (try dsimp only); repeat' (first | trivial | split | (refine ⟨fun s => ?_, ?_⟩) | (rintro g ⟨⟩) | (intro s) | with_reducible rfl | (simp; done) | (simp only [KRes.Keeps]))
  · unfold adapterDeleteCmd; (try dsimp only); repeat' (first | with_reducible rfl | (simp; done) | split)
theorem adapterReadCmd_keeps  : adapterReadCmd.Keeps := by
  refine ⟨fun s h p => ?_, fun h p s => ?_⟩
  · unfold adapterReadCmd; (try dsimp only); repeat' (first | trivial | split | (refine ⟨fun s => ?_, ?_⟩) | (rintro g ⟨⟩) | (intro s) | with_reducible rfl | (simp; done) | (simp only [KRes.Keeps]))
  · unfold adapterReadCmd; (try dsimp only); repeat' (first | with_reducible rfl | (simp; done) | split)
theorem adapterStatusCmd_keeps  : adapterStatusCmd.Keeps := by
  refine ⟨fun s h p => ?_, fun h p s => ?_⟩
  · unfold adapterStatusCmd; (try dsimp only); repeat' (first | trivial | split | (refine ⟨fun s => ?_, ?_⟩) | (rintro g ⟨⟩) | (intro s) | with_reducible rfl | (simp; done) | (simp only [KRes.Keeps]))
  · unfold adapterStatusCmd; (try dsimp only); repeat' (first | with_reducible rfl | (simp; done) | split)
theorem updateRunCmd_keeps  : updateRunCmd.Keeps := by
  refine ⟨fun s h p => ?_, fun h p s => ?_⟩
  · unfold updateRunCmd; (try dsimp only); repeat' (first | trivial | split | (refine ⟨fun s => ?_, ?_⟩) | (rintro g ⟨⟩) | (intro s) | with_reducible rfl | rw [kept_foldl] | (intro s x; (try dsimp only)) | (simp; done) | (simp only [KRes.Keeps]))
  · unfold updateRunCmd; (try dsimp only); repeat' (first | with_reducible rfl | (simp; done) | split)
theorem watchReadCmd_keeps  : watchReadCmd.Keeps := by
  refine ⟨fun s h p => ?_, fun h p s => ?_⟩
  · unfold watchReadCmd; (try dsimp only); repeat' (first | trivial | split | (refine ⟨fun s => ?_, ?_⟩) | (rintro g ⟨⟩) | (intro s) | with_reducible rfl | (simp; done) | (simp only [KRes.Keeps]))
  · unfold watchReadCmd; (try dsimp only); repeat' (first | with_reducible rfl | (simp; done) | split)
theorem watchSetCmd_keeps  : watchSetCmd.Keeps := by
  refine ⟨fun s h p => ?_, fun h p s => ?_⟩
  · unfold watchSetCmd; (try dsimp only); repeat' (first | trivial | split | (refine ⟨fun s => ?_, ?_⟩) | (rintro g ⟨⟩) | (intro s) | with_reducible rfl | (simp; done) | (simp only [KRes.Keeps]))
  · unfold watchSetCmd; (try dsimp only); repeat' (first | with_reducible rfl | (simp; done) | split)
theorem watchResetCmd_keeps  : watchResetCmd.Keeps := by
  refine ⟨fun s h p => ?_, fun h p s => ?_⟩
  · unfold watchResetCmd; (try dsimp only); repeat' (first | trivial | split | (refine ⟨fun s => ?_, ?_⟩) | (rintro g ⟨⟩) | (intro s) | with_reducible rfl | (simp; done) | (simp only [KRes.Keeps]))
  · unfold watchResetCmd; (try dsimp only); repeat' (first | with_reducible rfl | (simp; done) | split)
theorem detectorSetCmd_keeps  : detectorSetCmd.Keeps := by
  refine ⟨fun s h p => ?_, fun h p s => ?_⟩
  · unfold detectorSetCmd; (try dsimp only); repeat' (first | trivial | split | (refine ⟨fun s => ?_, ?_⟩) | (rintro g ⟨⟩) | (intro s) | with_reducible rfl | (simp; done) | (simp only [KRes.Keeps]))
  · unfold detectorSetCmd; (try dsimp only); repeat' (first | with_reducible rfl | (simp; done) | split)
theorem detectorReleaseCmd_keeps  : detectorReleaseCmd.Keeps := by
  refine ⟨fun s h p => ?_, fun h p s => ?_⟩
  · unfold detectorReleaseCmd; (try dsimp only); repeat' (first | trivial | split | (refine ⟨fun s => ?_, ?_⟩) | (rintro g ⟨⟩) | (intro s) | with_reducible rfl | (simp; done) | (simp only [KRes.Keeps]))
  · unfold detectorReleaseCmd; (try dsimp only); repeat' (first | with_reducible rfl | (simp; done) | split)
theorem noOpCmd_keeps  : noOpCmd.Keeps := by
  refine ⟨fun s h p => ?_, fun h p s => ?_⟩
  · unfold noOpCmd; (try dsimp only); repeat' (first | trivial | split | (refine ⟨fun s => ?_, ?_⟩) | (rintro g ⟨⟩) | (intro s) | with_reducible rfl | (simp; done) | (simp only [KRes.Keeps]))
  · unfold noOpCmd; (try dsimp only); repeat' (first | with_reducible rfl | (simp; done) | split)
theorem sessionOpenCmd_keeps  : sessionOpenCmd.Keeps := by
  refine ⟨fun s h p => ?_, fun h p s => ?_⟩
  · unfold sessionOpenCmd; (try dsimp only); repeat' (first | trivial | split | (refine ⟨fun s => ?_, ?_⟩) | (rintro g ⟨⟩) | (intro s) | with_reducible rfl | (simp; done) | (simp only [KRes.Keeps]))
  · unfold sessionOpenCmd; (try dsimp only); repeat' (first | with_reducible rfl | (simp; done) | split)
theorem sessionResumeCmd_keeps  : sessionResumeCmd.Keeps := by
  refine ⟨fun s h p => ?_, fun h p s => ?_⟩
  · unfold sessionResumeCmd; (try dsimp only); repeat' (first | trivial | split | (refine ⟨fun s => ?_, ?_⟩) | (rintro g ⟨⟩) | (intro s) | with_reducible rfl | (simp; done) | (simp only [KRes.Keeps]))
  · unfold sessionResumeCmd; (try dsimp only); repeat' (first | with_reducible rfl | (simp; done) | split)
theorem sessionStatusCmd_keeps  : sessionStatusCmd.Keeps := by
  refine ⟨fun s h p => ?_, fun h p s => ?_⟩
  · unfold sessionStatusCmd; (try dsimp only); repeat' (first | trivial | split | (refine ⟨fun s => ?_, ?_⟩) | (rintro g ⟨⟩) | (intro s) | with_reducible rfl | (simp; done) | (simp only [KRes.Keeps]))
  · unfold sessionStatusCmd; (try dsimp only); repeat' (first | with_reducible rfl | (simp; done) | split)
theorem sessionSetCmd_keeps  : sessionSetCmd.Keeps := by
  refine ⟨fun s h p => ?_, fun h p s => ?_⟩
  · unfold sessionSetCmd; (try dsimp only); repeat' (first | trivial | split | (refine ⟨fun s => ?_, ?_⟩) | (rintro g ⟨⟩) | (intro s) | with_reducible rfl | (simp; done) | (simp only [KRes.Keeps]))
  · unfold sessionSetCmd; (try dsimp only); repeat' (first | with_reducible rfl | (simp; done) | split)
theorem sessionCloseCmd_keeps  : sessionCloseCmd.Keeps := by
  refine ⟨fun s h p => ?_, fun h p s => ?_⟩
  · unfold sessionCloseCmd; (try dsimp only); repeat' (first | trivial | split | (refine ⟨fun s => ?_, ?_⟩) | (rintro g ⟨⟩) | (intro s) | with_reducible rfl | (simp; done) | (simp only [KRes.Keeps]))
  · unfold sessionCloseCmd; (try dsimp only); repeat' (first | with_reducible rfl | (simp; done) | split)
theorem functionStatusCmd_keeps  : functionStatusCmd.Keeps := by
  refine ⟨fun s h p => ?_, fun h p s => ?_⟩
  · unfold functionStatusCmd; (try dsimp only); repeat' (first | trivial | split | (refine ⟨fun s => ?_, ?_⟩) | (rintro g ⟨⟩) | (intro s) | with_reducible rfl | (simp; done) | (simp only [KRes.Keeps]))
  · unfold functionStatusCmd; (try dsimp only); repeat' (first | with_reducible rfl | (simp; done) | split)
theorem wingStatusCmd_keeps  : wingStatusCmd.Keeps := by
  refine ⟨fun s h p => ?_, fun h p s => ?_⟩
  · unfold wingStatusCmd; (try dsimp only); repeat' (first | trivial | split | (refine ⟨fun s => ?_, ?_⟩) | (rintro g ⟨⟩) | (intro s) | with_reducible rfl | (simp; done) | (simp only [KRes.Keeps]))
  · unfold wingStatusCmd; (try dsimp only); repeat' (first | with_reducible rfl | (simp; done) | split)
theorem stallReadCmd_keeps  : stallReadCmd.Keeps := by
  refine ⟨fun s h p => ?_, fun h p s => ?_⟩
  · unfold stallReadCmd; (try dsimp only); repeat' (first | trivial | split | (refine ⟨fun s => ?_, ?_⟩) | (rintro g ⟨⟩) | (intro s) | with_reducible rfl | (simp; done) | (simp only [KRes.Keeps]))
  · unfold stallReadCmd; (try dsimp only); repeat' (first | with_reducible rfl | (simp; done) | split)
theorem contextCreateCmd_keeps  : contextCreateCmd.Keeps := by
  refine ⟨fun s h p => ?_, fun h p s => ?_⟩
  · unfold contextCreateCmd; (try dsimp only); repeat' (first | trivial | split | (refine ⟨fun s => ?_, ?_⟩) | (rintro g ⟨⟩) | (intro s) | with_reducible rfl | (simp; done) | (simp only [KRes.Keeps]))
  · unfold contextCreateCmd; (try dsimp only); repeat' (first | with_reducible rfl | (simp; done) | split)
theorem contextSetCmd_keeps  : contextSetCmd.Keeps := by
  refine ⟨fun s h p => ?_, fun h p s => ?_⟩
  · unfold contextSetCmd; (try dsimp only); repeat' (first | trivial | split | (refine ⟨fun s => ?_, ?_⟩) | (rintro g ⟨⟩) | (intro s) | with_reducible rfl | (simp; done) | (simp only [KRes.Keeps]))
  · unfold contextSetCmd; (try dsimp only); repeat' (first | with_reducible rfl | (simp; done) | split)
theorem contextDestroyCmd_keeps  : contextDestroyCmd.Keeps := by
  refine ⟨fun s h p => ?_, fun h p s => ?_⟩
  · unfold contextDestroyCmd; (try dsimp only); repeat' (first | trivial | split | (refine ⟨fun s => ?_, ?_⟩) | (rintro g ⟨⟩) | (intro s) | with_reducible rfl | (simp; done) | (simp only [KRes.Keeps]))
  · unfold contextDestroyCmd; (try dsimp only); repeat' (first | with_reducible rfl | (simp; done) | split)
theorem programLoadCmd_keeps (host : HostRead) : (programLoadCmd host).Keeps := by
  refine ⟨fun s h p => ?_, fun h p s => ?_⟩
  · unfold programLoadCmd; (try dsimp only); repeat' (first | trivial | split | (refine ⟨fun s => ?_, ?_⟩) | (rintro g ⟨⟩) | (intro s) | with_reducible rfl | (simp; done) | (simp only [KRes.Keeps]))
  · unfold programLoadCmd; (try dsimp only); repeat' (first | with_reducible rfl | (simp; done) | split)
theorem programFreeCmd_keeps  : programFreeCmd.Keeps := by
  refine ⟨fun s h p => ?_, fun h p s => ?_⟩
  · unfold programFreeCmd; (try dsimp only); repeat' (first | trivial | split | (refine ⟨fun s => ?_, ?_⟩) | (rintro g ⟨⟩) | (intro s) | with_reducible rfl | (simp; done) | (simp only [KRes.Keeps]))
  · unfold programFreeCmd; (try dsimp only); repeat' (first | with_reducible rfl | (simp; done) | split)
theorem windowSetCmd_keeps  : windowSetCmd.Keeps := by
  refine ⟨fun s h p => ?_, fun h p s => ?_⟩
  · unfold windowSetCmd; (try dsimp only); repeat' (first | trivial | split | (refine ⟨fun s => ?_, ?_⟩) | (rintro g ⟨⟩) | (intro s) | with_reducible rfl | (simp; done) | (simp only [KRes.Keeps]))
  · unfold windowSetCmd; (try dsimp only); repeat' (first | with_reducible rfl | (simp; done) | split)
theorem wingCreateCmd_keeps  : wingCreateCmd.Keeps := by
  refine ⟨fun s h p => ?_, fun h p s => ?_⟩
  · unfold wingCreateCmd; (try dsimp only); repeat' (first | trivial | split | (exact ⟨fun s => by simp, fun g hg => by cases hg⟩) | (exact ⟨fun s => by simp, fun g hg s => by cases hg; simp⟩) | (exact fun s => by simp))
  · unfold wingCreateCmd; (try dsimp only); repeat' (first | with_reducible rfl | (simp; done) | split)
theorem wingResizeCmd_keeps  : wingResizeCmd.Keeps := by
  refine ⟨fun s h p => ?_, fun h p s => ?_⟩
  · unfold wingResizeCmd; (try dsimp only); repeat' (first | trivial | split | (refine ⟨fun s => ?_, ?_⟩) | (rintro g ⟨⟩) | (intro s) | with_reducible rfl | (simp; done) | (simp only [KRes.Keeps]))
  · unfold wingResizeCmd; (try dsimp only); repeat' (first | with_reducible rfl | (simp; done) | split)
theorem wingRemoveCmd_keeps  : wingRemoveCmd.Keeps := by
  refine ⟨fun s h p => ?_, fun h p s => ?_⟩
  · unfold wingRemoveCmd; (try dsimp only); repeat' (first | trivial | split | (refine ⟨fun s => ?_, ?_⟩) | (rintro g ⟨⟩) | (intro s) | with_reducible rfl | (simp; done) | (simp only [KRes.Keeps]))
  · unfold wingRemoveCmd; (try dsimp only); repeat' (first | with_reducible rfl | (simp; done) | split)
theorem wingReassignCmd_keeps  : wingReassignCmd.Keeps := by
  refine ⟨fun s h p => ?_, fun h p s => ?_⟩
  · unfold wingReassignCmd; (try dsimp only); repeat' (first | trivial | split | (refine ⟨fun s => ?_, ?_⟩) | (rintro g ⟨⟩) | (intro s) | with_reducible rfl | (simp; done) | (simp only [KRes.Keeps]))
  · unfold wingReassignCmd; (try dsimp only); repeat' (first | with_reducible rfl | (simp; done) | split)
theorem passTrainCmd_keeps  : passTrainCmd.Keeps := by
  refine ⟨fun s h p => ?_, fun h p s => ?_⟩
  · unfold passTrainCmd; (try dsimp only); repeat' (first | trivial | split | (refine ⟨fun s => ?_, ?_⟩) | (rintro g ⟨⟩) | (intro s) | with_reducible rfl | (simp; done) | (simp only [KRes.Keeps]))
  · unfold passTrainCmd; (try dsimp only); repeat' (first | with_reducible rfl | (simp; done) | split)
theorem passServeCmd_keeps  : passServeCmd.Keeps := by
  refine ⟨fun s h p => ?_, fun h p s => ?_⟩
  · unfold passServeCmd; (try dsimp only); repeat' (first | trivial | split | (refine ⟨fun s => ?_, ?_⟩) | (rintro g ⟨⟩) | (intro s) | with_reducible rfl | (simp; done) | (simp only [KRes.Keeps]))
  · unfold passServeCmd; (try dsimp only); repeat' (first | with_reducible rfl | (simp; done) | split)
theorem serveOpenCmd_keeps  : serveOpenCmd.Keeps := by
  refine ⟨fun s h p => ?_, fun h p s => ?_⟩
  · unfold serveOpenCmd; (try dsimp only); repeat' (first | trivial | split | (refine ⟨fun s => ?_, ?_⟩) | (rintro g ⟨⟩) | (intro s) | with_reducible rfl | (simp; done) | (simp only [KRes.Keeps]))
  · unfold serveOpenCmd; (try dsimp only); repeat' (first | with_reducible rfl | (simp; done) | split)
theorem serveAppendCmd_keeps  : serveAppendCmd.Keeps := by
  refine ⟨fun s h p => ?_, fun h p s => ?_⟩
  · unfold serveAppendCmd; (try dsimp only); repeat' (first | trivial | split | (refine ⟨fun s => ?_, ?_⟩) | (rintro g ⟨⟩) | (intro s) | with_reducible rfl | (simp; done) | (simp only [KRes.Keeps]))
  · unfold serveAppendCmd; (try dsimp only); repeat' (first | with_reducible rfl | (simp; done) | split)
theorem serveCloseCmd_keeps  : serveCloseCmd.Keeps := by
  refine ⟨fun s h p => ?_, fun h p s => ?_⟩
  · unfold serveCloseCmd; (try dsimp only); repeat' (first | trivial | split | (refine ⟨fun s => ?_, ?_⟩) | (rintro g ⟨⟩) | (intro s) | with_reducible rfl | (simp; done) | (simp only [KRes.Keeps]))
  · unfold serveCloseCmd; (try dsimp only); repeat' (first | with_reducible rfl | (simp; done) | split)
theorem portRetrainCmd_keeps  : portRetrainCmd.Keeps := by
  refine ⟨fun s h p => ?_, fun h p s => ?_⟩
  · unfold portRetrainCmd; (try dsimp only); repeat' (first | trivial | split | (refine ⟨fun s => ?_, ?_⟩) | (rintro g ⟨⟩) | (intro s) | with_reducible rfl | (simp; done) | (simp only [KRes.Keeps]))
  · unfold portRetrainCmd; (try dsimp only); repeat' (first | with_reducible rfl | (simp; done) | split)
theorem collectiveSetCmd_keeps  : collectiveSetCmd.Keeps := by
  refine ⟨fun s h p => ?_, fun h p s => ?_⟩
  · unfold collectiveSetCmd; (try dsimp only); repeat' (first | trivial | split | (refine ⟨fun s => ?_, ?_⟩) | (rintro g ⟨⟩) | (intro s) | with_reducible rfl | (simp; done) | (simp only [KRes.Keeps]))
  · unfold collectiveSetCmd; (try dsimp only); repeat' (first | with_reducible rfl | (simp; done) | split)
theorem collectivePostCmd_keeps  : collectivePostCmd.Keeps := by
  refine ⟨fun s h p => ?_, fun h p s => ?_⟩
  · unfold collectivePostCmd; (try dsimp only); repeat' (first | trivial | split | (refine ⟨fun s => ?_, ?_⟩) | (rintro g ⟨⟩) | (intro s) | with_reducible rfl | (simp; done) | (simp only [KRes.Keeps]))
  · unfold collectivePostCmd; (try dsimp only); repeat' (first | with_reducible rfl | (simp; done) | split)
theorem mirrorAreaSetCmd_keeps  : mirrorAreaSetCmd.Keeps := by
  refine ⟨fun s h p => ?_, fun h p s => ?_⟩
  · unfold mirrorAreaSetCmd; (try dsimp only); repeat' (first | trivial | split | (refine ⟨fun s => ?_, ?_⟩) | (rintro g ⟨⟩) | (intro s) | with_reducible rfl | rw [kept_foldl] | (intro s x; (try dsimp only)) | (simp; done) | (simp only [KRes.Keeps]))
  · unfold mirrorAreaSetCmd; (try dsimp only); repeat' (first | with_reducible rfl | (simp; done) | split)
theorem ringSetCmd_keeps (host : HostRead) : (ringSetCmd host).Keeps := by
  refine ⟨fun s h p => ?_, fun h p s => ?_⟩
  · unfold ringSetCmd; (try dsimp only); repeat' (first | trivial | split | (refine ⟨fun s => ?_, ?_⟩) | (rintro g ⟨⟩) | (intro s) | with_reducible rfl | (simp; done) | (simp only [KRes.Keeps]))
  · unfold ringSetCmd; (try dsimp only); repeat' (first | with_reducible rfl | (simp; done) | split)
theorem ringStatusCmd_keeps  : ringStatusCmd.Keeps := by
  refine ⟨fun s h p => ?_, fun h p s => ?_⟩
  · unfold ringStatusCmd; (try dsimp only); repeat' (first | trivial | split | (refine ⟨fun s => ?_, ?_⟩) | (rintro g ⟨⟩) | (intro s) | with_reducible rfl | (simp; done) | (simp only [KRes.Keeps]))
  · unfold ringStatusCmd; (try dsimp only); repeat' (first | with_reducible rfl | (simp; done) | split)
theorem baseInstallCmd_keeps (host : HostRead) : (baseInstallCmd host).Keeps := by
  refine ⟨fun s h p => ?_, fun h p s => ?_⟩
  · unfold baseInstallCmd; (try dsimp only); repeat' (first | trivial | split | (refine ⟨fun s => ?_, ?_⟩) | (rintro g ⟨⟩) | (intro s) | with_reducible rfl | (simp; done) | (simp only [KRes.Keeps]))
  · unfold baseInstallCmd; (try dsimp only); repeat' (first | with_reducible rfl | (simp; done) | split)
theorem installCancelCmd_keeps  : installCancelCmd.Keeps := by
  refine ⟨fun s h p => ?_, fun h p s => ?_⟩
  · unfold installCancelCmd; (try dsimp only); repeat' (first | trivial | split | (refine ⟨fun s => ?_, ?_⟩) | (rintro g ⟨⟩) | (intro s) | with_reducible rfl | (simp; done) | (simp only [KRes.Keeps]))
  · unfold installCancelCmd; (try dsimp only); repeat' (first | with_reducible rfl | (simp; done) | split)
theorem baseRemoveCmd_keeps  : baseRemoveCmd.Keeps := by
  refine ⟨fun s h p => ?_, fun h p s => ?_⟩
  · unfold baseRemoveCmd; (try dsimp only); repeat' (first | trivial | split | (refine ⟨fun s => ?_, ?_⟩) | (rintro g ⟨⟩) | (intro s) | with_reducible rfl | (simp; done) | (simp only [KRes.Keeps]))
  · unfold baseRemoveCmd; (try dsimp only); repeat' (first | with_reducible rfl | (simp; done) | split)
theorem baseSelectCmd_keeps  : baseSelectCmd.Keeps := by
  refine ⟨fun s h p => ?_, fun h p s => ?_⟩
  · unfold baseSelectCmd; (try dsimp only); repeat' (first | trivial | split | (refine ⟨fun s => ?_, ?_⟩) | (rintro g ⟨⟩) | (intro s) | with_reducible rfl | (simp; done) | (simp only [KRes.Keeps]))
  · unfold baseSelectCmd; (try dsimp only); repeat' (first | with_reducible rfl | (simp; done) | split)
theorem sweepSetCmd_keeps  : sweepSetCmd.Keeps := by
  refine ⟨fun s h p => ?_, fun h p s => ?_⟩
  · unfold sweepSetCmd; (try dsimp only); repeat' (first | trivial | split | (refine ⟨fun s => ?_, ?_⟩) | (rintro g ⟨⟩) | (intro s) | with_reducible rfl | (simp; done) | (simp only [KRes.Keeps]))
  · unfold sweepSetCmd; (try dsimp only); repeat' (first | with_reducible rfl | (simp; done) | split)
theorem cellarStatusCmd_keeps  : cellarStatusCmd.Keeps := by
  refine ⟨fun s h p => ?_, fun h p s => ?_⟩
  · unfold cellarStatusCmd; (try dsimp only); repeat' (first | trivial | split | (refine ⟨fun s => ?_, ?_⟩) | (rintro g ⟨⟩) | (intro s) | with_reducible rfl | (simp; done) | (simp only [KRes.Keeps]))
  · unfold cellarStatusCmd; (try dsimp only); repeat' (first | with_reducible rfl | (simp; done) | split)
theorem fabricSetCmd_keeps (host : HostRead) : (fabricSetCmd host).Keeps := by
  refine ⟨fun s h p => ?_, fun h p s => ?_⟩
  · unfold fabricSetCmd; (try dsimp only); repeat' (first | trivial | split | (exact ⟨fun s => by simp, fun g hg => by cases hg⟩) | (exact ⟨fun s => by simp, fun g hg s => by cases hg; simp⟩) | (exact fun s => by simp))
  · unfold fabricSetCmd; (try dsimp only); repeat' (first | with_reducible rfl | (simp; done) | split)
theorem fabricStatusCmd_keeps  : fabricStatusCmd.Keeps := by
  refine ⟨fun s h p => ?_, fun h p s => ?_⟩
  · unfold fabricStatusCmd; (try dsimp only); repeat' (first | trivial | split | (refine ⟨fun s => ?_, ?_⟩) | (rintro g ⟨⟩) | (intro s) | with_reducible rfl | (simp; done) | (simp only [KRes.Keeps]))
  · unfold fabricStatusCmd; (try dsimp only); repeat' (first | with_reducible rfl | (simp; done) | split)
theorem faultLogReadCmd_keeps  : faultLogReadCmd.Keeps := by
  refine ⟨fun s h p => ?_, fun h p s => ?_⟩
  · unfold faultLogReadCmd; (try dsimp only); repeat' (first | trivial | split | (refine ⟨fun s => ?_, ?_⟩) | (rintro g ⟨⟩) | (intro s) | with_reducible rfl | (simp; done) | (simp only [KRes.Keeps]))
  · unfold faultLogReadCmd; (try dsimp only); repeat' (first | with_reducible rfl | (simp; done) | split)
theorem tileMapCmd_keeps  : tileMapCmd.Keeps := by
  refine ⟨fun s h p => ?_, fun h p s => ?_⟩
  · unfold tileMapCmd; (try dsimp only); repeat' (first | trivial | split | (refine ⟨fun s => ?_, ?_⟩) | (rintro g ⟨⟩) | (intro s) | with_reducible rfl | (simp; done) | (simp only [KRes.Keeps]))
  · unfold tileMapCmd; (try dsimp only); repeat' (first | with_reducible rfl | (simp; done) | split)
theorem pcRetireCmd_keeps  : pcRetireCmd.Keeps := by
  refine ⟨fun s h p => ?_, fun h p s => ?_⟩
  · unfold pcRetireCmd; (try dsimp only); repeat' (first | trivial | split | (refine ⟨fun s => ?_, ?_⟩) | (rintro g ⟨⟩) | (intro s) | with_reducible rfl | (simp; done) | (simp only [KRes.Keeps]))
  · unfold pcRetireCmd; (try dsimp only); repeat' (first | with_reducible rfl | (simp; done) | split)
theorem loftEvacuateCmd_keeps  : loftEvacuateCmd.Keeps := by
  refine ⟨fun s h p => ?_, fun h p s => ?_⟩
  · unfold loftEvacuateCmd; (try dsimp only); repeat' (first | trivial | split | (refine ⟨fun s => ?_, ?_⟩) | (rintro g ⟨⟩) | (intro s) | with_reducible rfl | (simp; done) | (simp only [KRes.Keeps]))
  · unfold loftEvacuateCmd; (try dsimp only); repeat' (first | with_reducible rfl | (simp; done) | split)
theorem wingFenceCmd_keeps  : wingFenceCmd.Keeps := by
  refine ⟨fun s h p => ?_, fun h p s => ?_⟩
  · unfold wingFenceCmd; (try dsimp only); repeat' (first | trivial | split | (refine ⟨fun s => ?_, ?_⟩) | (rintro g ⟨⟩) | (intro s) | with_reducible rfl | (simp; done) | (simp only [KRes.Keeps]))
  · unfold wingFenceCmd; (try dsimp only); repeat' (first | with_reducible rfl | (simp; done) | split)
theorem domainSetCmd_keeps  : domainSetCmd.Keeps := by
  refine ⟨fun s h p => ?_, fun h p s => ?_⟩
  · unfold domainSetCmd; (try dsimp only); repeat' (first | trivial | split | (refine ⟨fun s => ?_, ?_⟩) | (rintro g ⟨⟩) | (intro s) | with_reducible rfl | (simp; done) | (simp only [KRes.Keeps]))
  · unfold domainSetCmd; (try dsimp only); repeat' (first | with_reducible rfl | (simp; done) | split)
theorem firmwareHandoverCmd_keeps (host : HostRead) : (firmwareHandoverCmd host).Keeps := by
  refine ⟨fun s h p => ?_, fun h p s => ?_⟩
  · unfold firmwareHandoverCmd; (try dsimp only); repeat' (first | trivial | split | (refine ⟨fun s => ?_, ?_⟩) | (rintro g ⟨⟩) | (intro s) | with_reducible rfl | (simp; done) | (simp only [KRes.Keeps]))
  · unfold firmwareHandoverCmd; (try dsimp only); repeat' (first | with_reducible rfl | (simp; done) | split)
theorem vfSetCmd_keeps  : vfSetCmd.Keeps := by
  refine ⟨fun s h p => ?_, fun h p s => ?_⟩
  · unfold vfSetCmd; (try dsimp only); repeat' (first | trivial | split | (refine ⟨fun s => ?_, ?_⟩) | (rintro g ⟨⟩) | (intro s) | with_reducible rfl | (simp; done) | (simp only [KRes.Keeps]))
  · unfold vfSetCmd; (try dsimp only); repeat' (first | with_reducible rfl | (simp; done) | split)
theorem partyKeyLoadCmd_keeps  : partyKeyLoadCmd.Keeps := by
  refine ⟨fun s h p => ?_, fun h p s => ?_⟩
  · unfold partyKeyLoadCmd; (try dsimp only); repeat' (first | trivial | split | (refine ⟨fun s => ?_, ?_⟩) | (rintro g ⟨⟩) | (intro s) | with_reducible rfl | (simp; done) | (simp only [KRes.Keeps]))
  · unfold partyKeyLoadCmd; (try dsimp only); repeat' (first | with_reducible rfl | (simp; done) | split)
theorem partyKeyRemoveCmd_keeps  : partyKeyRemoveCmd.Keeps := by
  refine ⟨fun s h p => ?_, fun h p s => ?_⟩
  · unfold partyKeyRemoveCmd; (try dsimp only); repeat' (first | trivial | split | (refine ⟨fun s => ?_, ?_⟩) | (rintro g ⟨⟩) | (intro s) | with_reducible rfl | (simp; done) | (simp only [KRes.Keeps]))
  · unfold partyKeyRemoveCmd; (try dsimp only); repeat' (first | with_reducible rfl | (simp; done) | split)
theorem partyBindCmd_keeps  : partyBindCmd.Keeps := by
  refine ⟨fun s h p => ?_, fun h p s => ?_⟩
  · unfold partyBindCmd; (try dsimp only); repeat' (first | trivial | split | (refine ⟨fun s => ?_, ?_⟩) | (rintro g ⟨⟩) | (intro s) | with_reducible rfl | rw [kept_foldl] | (intro s x; (try dsimp only)) | (simp; done) | (simp only [KRes.Keeps]))
  · unfold partyBindCmd; (try dsimp only); repeat' (first | with_reducible rfl | (simp; done) | split)
theorem lifeCycleSetCmd_keeps  : lifeCycleSetCmd.Keeps := by
  refine ⟨fun s h p => ?_, fun h p s => ?_⟩
  · unfold lifeCycleSetCmd; (try dsimp only); repeat' (first | trivial | split | (exact ⟨fun s => by simp, fun g hg => by cases hg⟩) | (exact ⟨fun s => by simp, fun g hg s => by cases hg; simp⟩) | (exact fun s => by simp))
  · unfold lifeCycleSetCmd; (try dsimp only); repeat' (first | with_reducible rfl | (simp; done) | split)
theorem execTallyRead_kept (h : CmdHdr) (p : Bytes) (s : State) (t : State) (h' : execTallyRead h p s = .next t) : kept t = kept s := by
  unfold execTallyRead at h'; cases h'; exact kcp_kept _ (tallyReadCmd_keeps ) _ _ _
theorem execTallyClose_kept (h : CmdHdr) (p : Bytes) (s : State) (t : State) (h' : execTallyClose h p s = .next t) : kept t = kept s := by
  unfold execTallyClose at h'; cases h'; exact kcp_kept _ (tallyCloseCmd_keeps ) _ _ _
theorem execSlewDone_kept (s : State) (t : State) (h' : execSlewDone s = .next t) : kept t = kept s := by
  unfold execSlewDone at h'; cases h'; simp
theorem execTimeUnsetReminder_kept (s : State) (t : State) (h' : execTimeUnsetReminder s = .next t) : kept t = kept s := by
  unfold execTimeUnsetReminder at h'; cases h'; simp
theorem execTimeSeed_kept (h : CmdHdr) (p : Bytes) (s : State) (t : State) (h' : execTimeSeed h p s = .next t) : kept t = kept s := by
  unfold execTimeSeed at h'; cases h'; exact kcp_kept _ (timeSeedCmd_keeps ) _ _ _
theorem execTimeRead_kept (h : CmdHdr) (p : Bytes) (s : State) (t : State) (h' : execTimeRead h p s = .next t) : kept t = kept s := by
  unfold execTimeRead at h'; cases h'; exact kcp_kept _ (timeReadCmd_keeps ) _ _ _
theorem execMpCountRead_kept (s : State) (t : State) (h' : execMpCountRead s = .next t) : kept t = kept s := by
  unfold execMpCountRead at h'; cases h'; simp
theorem execShadowLoad_kept (tile : Nat) (block : WBlock) (s : State) (t : State) (h' : execShadowLoad tile block s = .next t) : kept t = kept s := by
  unfold execShadowLoad at h'; obtain ⟨-, rfl⟩ := onPart_next h'; simp
theorem execBlockSwap_kept (tile : Nat) (s : State) (t : State) (h' : execBlockSwap tile s = .next t) : kept t = kept s := by
  unfold execBlockSwap at h'; obtain ⟨-, rfl⟩ := onPart_next h'; simp
theorem execArrayRow_kept (tile : Nat) (row : RowData) (s : State) (t : State) (h' : execArrayRow tile row s = .next t) : kept t = kept s := by
  unfold execArrayRow at h'; obtain ⟨-, rfl⟩ := onPart_next h'; simp
theorem execArrayParityError_kept (tile : Nat) (s : State) (t : State) (h' : execArrayParityError tile s = .next t) : kept t = kept s := by
  unfold execArrayParityError at h'; obtain ⟨-, rfl⟩ := onPart_next h'; simp
theorem execAccOpen_kept (tile : Nat) (args : OpenArgs) (s : State) (t : State) (h' : execAccOpen tile args s = .next t) : kept t = kept s := by
  unfold execAccOpen at h'; obtain ⟨-, rfl⟩ := onPart_next h'; simp
theorem execPromotion_kept (tile tracker row col : Nat) (corrected : Bool) (s : State) (t : State) (h' : execPromotion tile tracker row col corrected s = .next t) : kept t = kept s := by
  unfold execPromotion at h'; obtain ⟨-, rfl⟩ := onPart_next h'; simp
theorem execDrain_kept (tile : Nat) (args : DrainArgs) (s : State) (t : State) (h' : execDrain tile args s = .next t) : kept t = kept s := by
  unfold execDrain at h'; obtain ⟨-, rfl⟩ := onPart_next h'; unfold drainWithin boundsFault; split <;> simp
theorem execAccEccError_kept (tile : Nat) (corrected : Bool) (s : State) (t : State) (h' : execAccEccError tile corrected s = .next t) : kept t = kept s := by
  unfold execAccEccError at h'; obtain ⟨-, rfl⟩ := onPart_next h'; simp
theorem execObjectFillDone_kept (object : Nat) (s : State) (t : State) (h' : execObjectFillDone object s = .next t) : kept t = kept s := by
  unfold execObjectFillDone at h'; obtain ⟨-, rfl⟩ := onPart_next h'; simp
theorem execObjectTransferDone_kept (object : Nat) (bytes : Bytes) (s : State) (t : State) (h' : execObjectTransferDone object bytes s = .next t) : kept t = kept s := by
  unfold execObjectTransferDone at h'; obtain ⟨-, rfl⟩ := onPart_next h'; simp
theorem execObjectCreate_kept (h : CmdHdr) (p : Bytes) (s : State) (t : State) (h' : execObjectCreate h p s = .next t) : kept t = kept s := by
  unfold execObjectCreate at h'; cases h'; exact kcp_kept _ (objectCreateCmd_keeps ) _ _ _
theorem execObjectMove_kept (h : CmdHdr) (p : Bytes) (s : State) (t : State) (h' : execObjectMove h p s = .next t) : kept t = kept s := by
  unfold execObjectMove at h'; cases h'; exact kcp_kept _ (objectMoveCmd_keeps ) _ _ _
theorem execObjectResize_kept (h : CmdHdr) (p : Bytes) (s : State) (t : State) (h' : execObjectResize h p s = .next t) : kept t = kept s := by
  unfold execObjectResize at h'; cases h'; exact kcp_kept _ (objectResizeCmd_keeps ) _ _ _
theorem execObjectFree_kept (h : CmdHdr) (p : Bytes) (s : State) (t : State) (h' : execObjectFree h p s = .next t) : kept t = kept s := by
  unfold execObjectFree at h'; cases h'; exact kcp_kept _ (objectFreeCmd_keeps ) _ _ _
theorem execObjectStatus_kept (h : CmdHdr) (p : Bytes) (s : State) (t : State) (h' : execObjectStatus h p s = .next t) : kept t = kept s := by
  unfold execObjectStatus at h'; cases h'; exact kcp_kept _ (objectStatusCmd_keeps ) _ _ _
theorem execObjectWrite_kept (h : CmdHdr) (p : Bytes) (s : State) (t : State) (h' : execObjectWrite h p s = .next t) : kept t = kept s := by
  unfold execObjectWrite at h'; cases h'; exact kcp_kept _ (objectWriteCmd_keeps ) _ _ _
theorem execObjectRead_kept (h : CmdHdr) (p : Bytes) (s : State) (t : State) (h' : execObjectRead h p s = .next t) : kept t = kept s := by
  unfold execObjectRead at h'; cases h'; exact kcp_kept _ (objectReadCmd_keeps ) _ _ _
theorem execAdapterLoad_kept (h : CmdHdr) (p : Bytes) (host : HostRead) (s : State) (t : State) (h' : execAdapterLoad h p host s = .next t) : kept t = kept s := by
  unfold execAdapterLoad at h'; cases h'; exact kcp_kept _ (adapterLoadCmd_keeps _) _ _ _
theorem execPointArrival_kept (room : Nat) (block : Bytes) (s : State) (t : State) (h' : execPointArrival room block s = .next t) : kept t = kept s := by
  unfold execPointArrival at h'; obtain ⟨-, rfl⟩ := onPart_next h'; simp
theorem execReplacementCommit_kept (handle : Nat) (s : State) (t : State) (h' : execReplacementCommit handle s = .next t) : kept t = kept s := by
  unfold execReplacementCommit at h'; obtain ⟨-, rfl⟩ := onPart_next h'; simp
theorem execRoomPin_kept (h : CmdHdr) (p : Bytes) (s : State) (t : State) (h' : execRoomPin h p s = .next t) : kept t = kept s := by
  unfold execRoomPin at h'; cases h'; exact kcp_kept _ (roomPinCmd_keeps ) _ _ _
theorem execCheckout_kept (h : CmdHdr) (p : Bytes) (s : State) (t : State) (h' : execCheckout h p s = .next t) : kept t = kept s := by
  unfold execCheckout at h'; cases h'; exact kcp_kept _ (checkoutCmd_keeps ) _ _ _
theorem execCheckoutMoveCommit_kept (room : Nat) (s : State) (t : State) (h' : execCheckoutMoveCommit room s = .next t) : kept t = kept s := by
  unfold execCheckoutMoveCommit at h'; obtain ⟨-, rfl⟩ := onPart_next h'; simp
theorem execAdapterDelete_kept (h : CmdHdr) (p : Bytes) (s : State) (t : State) (h' : execAdapterDelete h p s = .next t) : kept t = kept s := by
  unfold execAdapterDelete at h'; cases h'; exact kcp_kept _ (adapterDeleteCmd_keeps ) _ _ _
theorem execAdapterRead_kept (h : CmdHdr) (p : Bytes) (s : State) (t : State) (h' : execAdapterRead h p s = .next t) : kept t = kept s := by
  unfold execAdapterRead at h'; cases h'; exact kcp_kept _ (adapterReadCmd_keeps ) _ _ _
theorem execAdapterReadDone_kept (handle : Nat) (s : State) (t : State) (h' : execAdapterReadDone handle s = .next t) : kept t = kept s := by
  unfold execAdapterReadDone at h'; obtain ⟨-, rfl⟩ := onPart_next h'; simp
theorem execAdapterStatus_kept (h : CmdHdr) (p : Bytes) (s : State) (t : State) (h' : execAdapterStatus h p s = .next t) : kept t = kept s := by
  unfold execAdapterStatus at h'; cases h'; exact kcp_kept _ (adapterStatusCmd_keeps ) _ _ _
theorem execNop_kept (tile : Nat) (a : TvxArgs) (s : State) (t : State) (h' : execNop tile a s = .next t) : kept t = kept s := by
  unfold execNop at h'; exact vecOp_kept h'
theorem execEndProgram_kept (tile : Nat) (a : TvxArgs) (s : State) (t : State) (h' : execEndProgram tile a s = .next t) : kept t = kept s := by
  unfold execEndProgram at h'; exact vecOp_kept h'
theorem execLoop_kept (tile : Nat) (a : TvxArgs) (s : State) (t : State) (h' : execLoop tile a s = .next t) : kept t = kept s := by
  unfold execLoop at h'; exact vecOp_kept h'
theorem execWait_kept (tile : Nat) (a : TvxArgs) (s : State) (t : State) (h' : execWait tile a s = .next t) : kept t = kept s := by
  unfold execWait at h'; exact vecOp_kept h'
theorem execPost_kept (tile : Nat) (a : TvxArgs) (s : State) (t : State) (h' : execPost tile a s = .next t) : kept t = kept s := by
  unfold execPost at h'; exact vecOp_kept h'
theorem execTag_kept (tile : Nat) (a : TvxArgs) (s : State) (t : State) (h' : execTag tile a s = .next t) : kept t = kept s := by
  unfold execTag at h'; exact vecOp_kept h'
theorem execSld_kept (tile : Nat) (a : TvxArgs) (s : State) (t : State) (h' : execSld tile a s = .next t) : kept t = kept s := by
  unfold execSld at h'; exact vecOp_kept h'
theorem execStream_kept (tile : Nat) (a : StreamArgs) (s : State) (t : State) (h' : execStream tile a s = .next t) : kept t = kept s := by
  unfold execStream at h'; obtain ⟨-, rfl⟩ := onPart_next h'; simp
theorem execAdd_kept (tile : Nat) (a : TvxArgs) (s : State) (t : State) (h' : execAdd tile a s = .next t) : kept t = kept s := by
  unfold execAdd at h'; exact vecOp_kept h'
theorem execSub_kept (tile : Nat) (a : TvxArgs) (s : State) (t : State) (h' : execSub tile a s = .next t) : kept t = kept s := by
  unfold execSub at h'; exact vecOp_kept h'
theorem execMul_kept (tile : Nat) (a : TvxArgs) (s : State) (t : State) (h' : execMul tile a s = .next t) : kept t = kept s := by
  unfold execMul at h'; exact vecOp_kept h'
theorem execFma_kept (tile : Nat) (a : TvxArgs) (s : State) (t : State) (h' : execFma tile a s = .next t) : kept t = kept s := by
  unfold execFma at h'; exact vecOp_kept h'
theorem execMin_kept (tile : Nat) (a : TvxArgs) (s : State) (t : State) (h' : execMin tile a s = .next t) : kept t = kept s := by
  unfold execMin at h'; exact vecOp_kept h'
theorem execMax_kept (tile : Nat) (a : TvxArgs) (s : State) (t : State) (h' : execMax tile a s = .next t) : kept t = kept s := by
  unfold execMax at h'; exact vecOp_kept h'
theorem execAbs_kept (tile : Nat) (a : TvxArgs) (s : State) (t : State) (h' : execAbs tile a s = .next t) : kept t = kept s := by
  unfold execAbs at h'; exact vecOp_kept h'
theorem execNeg_kept (tile : Nat) (a : TvxArgs) (s : State) (t : State) (h' : execNeg tile a s = .next t) : kept t = kept s := by
  unfold execNeg at h'; exact vecOp_kept h'
theorem execSel_kept (tile : Nat) (a : TvxArgs) (s : State) (t : State) (h' : execSel tile a s = .next t) : kept t = kept s := by
  unfold execSel at h'; exact vecOp_kept h'
theorem execCmp_kept (tile : Nat) (a : TvxArgs) (s : State) (t : State) (h' : execCmp tile a s = .next t) : kept t = kept s := by
  unfold execCmp at h'; exact vecOp_kept h'
theorem execExp2_kept (tile : Nat) (a : TvxArgs) (s : State) (t : State) (h' : execExp2 tile a s = .next t) : kept t = kept s := by
  unfold execExp2 at h'; exact vecOp_kept h'
theorem execLog2_kept (tile : Nat) (a : TvxArgs) (s : State) (t : State) (h' : execLog2 tile a s = .next t) : kept t = kept s := by
  unfold execLog2 at h'; exact vecOp_kept h'
theorem execRcp_kept (tile : Nat) (a : TvxArgs) (s : State) (t : State) (h' : execRcp tile a s = .next t) : kept t = kept s := by
  unfold execRcp at h'; exact vecOp_kept h'
theorem execSqrt_kept (tile : Nat) (a : TvxArgs) (s : State) (t : State) (h' : execSqrt tile a s = .next t) : kept t = kept s := by
  unfold execSqrt at h'; exact vecOp_kept h'
theorem execRsqrt_kept (tile : Nat) (a : TvxArgs) (s : State) (t : State) (h' : execRsqrt tile a s = .next t) : kept t = kept s := by
  unfold execRsqrt at h'; exact vecOp_kept h'
theorem execTanh_kept (tile : Nat) (a : TvxArgs) (s : State) (t : State) (h' : execTanh tile a s = .next t) : kept t = kept s := by
  unfold execTanh at h'; exact vecOp_kept h'
theorem execCvt_kept (tile : Nat) (a : TvxArgs) (s : State) (t : State) (h' : execCvt tile a s = .next t) : kept t = kept s := by
  unfold execCvt at h'; exact vecOp_kept h'
theorem execQuant_kept (tile : Nat) (a : TvxArgs) (s : State) (t : State) (h' : execQuant tile a s = .next t) : kept t = kept s := by
  unfold execQuant at h'; exact vecOp_kept h'
theorem execIadd_kept (tile : Nat) (a : TvxArgs) (s : State) (t : State) (h' : execIadd tile a s = .next t) : kept t = kept s := by
  unfold execIadd at h'; exact vecOp_kept h'
theorem execIand_kept (tile : Nat) (a : TvxArgs) (s : State) (t : State) (h' : execIand tile a s = .next t) : kept t = kept s := by
  unfold execIand at h'; exact vecOp_kept h'
theorem execIor_kept (tile : Nat) (a : TvxArgs) (s : State) (t : State) (h' : execIor tile a s = .next t) : kept t = kept s := by
  unfold execIor at h'; exact vecOp_kept h'
theorem execIxor_kept (tile : Nat) (a : TvxArgs) (s : State) (t : State) (h' : execIxor tile a s = .next t) : kept t = kept s := by
  unfold execIxor at h'; exact vecOp_kept h'
theorem execIshl_kept (tile : Nat) (a : TvxArgs) (s : State) (t : State) (h' : execIshl tile a s = .next t) : kept t = kept s := by
  unfold execIshl at h'; exact vecOp_kept h'
theorem execIshr_kept (tile : Nat) (a : TvxArgs) (s : State) (t : State) (h' : execIshr tile a s = .next t) : kept t = kept s := by
  unfold execIshr at h'; exact vecOp_kept h'
theorem execMset_kept (tile : Nat) (a : TvxArgs) (s : State) (t : State) (h' : execMset tile a s = .next t) : kept t = kept s := by
  unfold execMset at h'; exact vecOp_kept h'
theorem execMand_kept (tile : Nat) (a : TvxArgs) (s : State) (t : State) (h' : execMand tile a s = .next t) : kept t = kept s := by
  unfold execMand at h'; exact vecOp_kept h'
theorem execMor_kept (tile : Nat) (a : TvxArgs) (s : State) (t : State) (h' : execMor tile a s = .next t) : kept t = kept s := by
  unfold execMor at h'; exact vecOp_kept h'
theorem execMxor_kept (tile : Nat) (a : TvxArgs) (s : State) (t : State) (h' : execMxor tile a s = .next t) : kept t = kept s := by
  unfold execMxor at h'; exact vecOp_kept h'
theorem execMnot_kept (tile : Nat) (a : TvxArgs) (s : State) (t : State) (h' : execMnot tile a s = .next t) : kept t = kept s := by
  unfold execMnot at h'; exact vecOp_kept h'
theorem execGseed_kept (tile : Nat) (a : TvxArgs) (s : State) (t : State) (h' : execGseed tile a s = .next t) : kept t = kept s := by
  unfold execGseed at h'; exact vecOp_kept h'
theorem execRand_kept (tile : Nat) (a : TvxArgs) (s : State) (t : State) (h' : execRand tile a s = .next t) : kept t = kept s := by
  unfold execRand at h'; exact vecOp_kept h'
theorem execDrop_kept (tile : Nat) (a : TvxArgs) (s : State) (t : State) (h' : execDrop tile a s = .next t) : kept t = kept s := by
  unfold execDrop at h'; exact vecOp_kept h'
theorem execRtz_kept (tile : Nat) (a : TvxArgs) (s : State) (t : State) (h' : execRtz tile a s = .next t) : kept t = kept s := by
  unfold execRtz at h'; exact vecOp_kept h'
theorem execRtacc_kept (tile : Nat) (a : TvxArgs) (s : State) (t : State) (h' : execRtacc tile a s = .next t) : kept t = kept s := by
  unfold execRtacc at h'; exact vecOp_kept h'
theorem execRtred_kept (tile : Nat) (a : TvxArgs) (s : State) (t : State) (h' : execRtred tile a s = .next t) : kept t = kept s := by
  unfold execRtred at h'; exact vecOp_kept h'
theorem execRtout_kept (tile : Nat) (a : TvxArgs) (s : State) (t : State) (h' : execRtout tile a s = .next t) : kept t = kept s := by
  unfold execRtout at h'; exact vecOp_kept h'
theorem execUpdateJobStart_kept (job handle : Nat) (s : State) (t : State) (h' : execUpdateJobStart job handle s = .next t) : kept t = kept s := by
  unfold execUpdateJobStart at h'; cases h'; simp
theorem execUpdateSlice_kept (quarter : Nat) (s : State) (t : State) (h' : execUpdateSlice quarter s = .next t) : kept t = kept s := by
  unfold execUpdateSlice at h'; obtain ⟨-, rfl⟩ := onPart_next h'; simp
theorem execUpdateCommit_kept (job handle : Nat) (s : State) (t : State) (h' : execUpdateCommit job handle s = .next t) : kept t = kept s := by
  unfold execUpdateCommit at h'; cases h'; simp
theorem execUpdateRun_kept (h : CmdHdr) (p : Bytes) (s : State) (t : State) (h' : execUpdateRun h p s = .next t) : kept t = kept s := by
  unfold execUpdateRun at h'; cases h'; exact kcp_kept _ (updateRunCmd_keeps ) _ _ _
theorem execWatchRead_kept (h : CmdHdr) (p : Bytes) (s : State) (t : State) (h' : execWatchRead h p s = .next t) : kept t = kept s := by
  unfold execWatchRead at h'; cases h'; exact kcp_kept _ (watchReadCmd_keeps ) _ _ _
theorem execWatchSet_kept (h : CmdHdr) (p : Bytes) (s : State) (t : State) (h' : execWatchSet h p s = .next t) : kept t = kept s := by
  unfold execWatchSet at h'; cases h'; exact kcp_kept _ (watchSetCmd_keeps ) _ _ _
theorem execWatchReset_kept (h : CmdHdr) (p : Bytes) (s : State) (t : State) (h' : execWatchReset h p s = .next t) : kept t = kept s := by
  unfold execWatchReset at h'; cases h'; exact kcp_kept _ (watchResetCmd_keeps ) _ _ _
theorem execDetectorSet_kept (h : CmdHdr) (p : Bytes) (s : State) (t : State) (h' : execDetectorSet h p s = .next t) : kept t = kept s := by
  unfold execDetectorSet at h'; cases h'; exact kcp_kept _ (detectorSetCmd_keeps ) _ _ _
theorem execDetectorRelease_kept (h : CmdHdr) (p : Bytes) (s : State) (t : State) (h' : execDetectorRelease h p s = .next t) : kept t = kept s := by
  unfold execDetectorRelease at h'; cases h'; exact kcp_kept _ (detectorReleaseCmd_keeps ) _ _ _
theorem execCmdDoorbell_kept (fn value : Nat) (words : List Nat) (s : State) (t : State) (h' : execCmdDoorbell fn value words s = .next t) : kept t = kept s := by
  unfold execCmdDoorbell at h'; obtain ⟨-, rfl⟩ := onPart_next h'; simp
theorem execReplyHeadWrite_kept (fn value : Nat) (s : State) (t : State) (h' : execReplyHeadWrite fn value s = .next t) : kept t = kept s := by
  unfold execReplyHeadWrite at h'; obtain ⟨-, rfl⟩ := onPart_next h'; simp
theorem execNoticeHeadWrite_kept (fn value : Nat) (s : State) (t : State) (h' : execNoticeHeadWrite fn value s = .next t) : kept t = kept s := by
  unfold execNoticeHeadWrite at h'; obtain ⟨-, rfl⟩ := onPart_next h'; simp
theorem execCmdWindowWrite_kept (fn offset : Nat) (data : Bytes) (s : State) (t : State) (h' : execCmdWindowWrite fn offset data s = .next t) : kept t = kept s := by
  unfold execCmdWindowWrite at h'; obtain ⟨-, rfl⟩ := onPart_next h'; simp
theorem execReplyWindowRead_kept (fn width : Nat) (s : State) (t : State) (h' : execReplyWindowRead fn width s = .next t) : kept t = kept s := by
  unfold execReplyWindowRead at h'; obtain ⟨-, rfl⟩ := onPart_next h'; simp
theorem execNoticeWindowRead_kept (fn width : Nat) (s : State) (t : State) (h' : execNoticeWindowRead fn width s = .next t) : kept t = kept s := by
  unfold execNoticeWindowRead at h'; obtain ⟨-, rfl⟩ := onPart_next h'; simp
theorem execPacketArrivalTimeout_kept (fn : Nat) (s : State) (t : State) (h' : execPacketArrivalTimeout fn s = .next t) : kept t = kept s := by
  unfold execPacketArrivalTimeout at h'; obtain ⟨-, rfl⟩ := onPart_next h'; simp
theorem execGapNoticeTimeout_kept (fn session : Nat) (s : State) (t : State) (h' : execGapNoticeTimeout fn session s = .next t) : kept t = kept s := by
  unfold execGapNoticeTimeout at h'; exact onSession_kept h' fun k x => by simp
theorem execGapSkipTimeout_kept (fn session : Nat) (s : State) (t : State) (h' : execGapSkipTimeout fn session s = .next t) : kept t = kept s := by
  unfold execGapSkipTimeout at h'; exact onSession_kept h' fun k x => by simp
theorem execLeaseExpiry_kept (fn session : Nat) (s : State) (t : State) (h' : execLeaseExpiry fn session s = .next t) : kept t = kept s := by
  unfold execLeaseExpiry at h'; exact onSession_kept h' fun k x => by simp
theorem execLapseHoldExpiry_kept (fn session : Nat) (s : State) (t : State) (h' : execLapseHoldExpiry fn session s = .next t) : kept t = kept s := by
  unfold execLapseHoldExpiry at h'; exact onSession_kept h' fun k x => by simp
theorem execProbationEnd_kept (fn session : Nat) (s : State) (t : State) (h' : execProbationEnd fn session s = .next t) : kept t = kept s := by
  unfold execProbationEnd at h'; exact onSession_kept h' fun k x => by simp
theorem execNoOp_kept (h : CmdHdr) (p : Bytes) (s : State) (t : State) (h' : execNoOp h p s = .next t) : kept t = kept s := by
  unfold execNoOp at h'; cases h'; exact kcpNoOp_kept _ (noOpCmd_keeps ) _ _ _
theorem execSessionOpen_kept (h : CmdHdr) (p : Bytes) (s : State) (t : State) (h' : execSessionOpen h p s = .next t) : kept t = kept s := by
  unfold execSessionOpen at h'; cases h'; exact kcp_kept _ (sessionOpenCmd_keeps ) _ _ _
theorem execSessionResume_kept (h : CmdHdr) (p : Bytes) (s : State) (t : State) (h' : execSessionResume h p s = .next t) : kept t = kept s := by
  unfold execSessionResume at h'; cases h'; exact kcp_kept _ (sessionResumeCmd_keeps ) _ _ _
theorem execSessionStatus_kept (h : CmdHdr) (p : Bytes) (s : State) (t : State) (h' : execSessionStatus h p s = .next t) : kept t = kept s := by
  unfold execSessionStatus at h'; cases h'; exact kcp_kept _ (sessionStatusCmd_keeps ) _ _ _
theorem execSessionSet_kept (h : CmdHdr) (p : Bytes) (s : State) (t : State) (h' : execSessionSet h p s = .next t) : kept t = kept s := by
  unfold execSessionSet at h'; cases h'; exact kcp_kept _ (sessionSetCmd_keeps ) _ _ _
theorem execSessionClose_kept (h : CmdHdr) (p : Bytes) (s : State) (t : State) (h' : execSessionClose h p s = .next t) : kept t = kept s := by
  unfold execSessionClose at h'; cases h'; exact kcp_kept _ (sessionCloseCmd_keeps ) _ _ _
theorem execFunctionStatus_kept (h : CmdHdr) (p : Bytes) (s : State) (t : State) (h' : execFunctionStatus h p s = .next t) : kept t = kept s := by
  unfold execFunctionStatus at h'; cases h'; exact kcp_kept _ (functionStatusCmd_keeps ) _ _ _
theorem execWingStatus_kept (h : CmdHdr) (p : Bytes) (s : State) (t : State) (h' : execWingStatus h p s = .next t) : kept t = kept s := by
  unfold execWingStatus at h'; cases h'; exact kcp_kept _ (wingStatusCmd_keeps ) _ _ _
theorem execStallRead_kept (h : CmdHdr) (p : Bytes) (s : State) (t : State) (h' : execStallRead h p s = .next t) : kept t = kept s := by
  unfold execStallRead at h'; cases h'; exact kcp_kept _ (stallReadCmd_keeps ) _ _ _
theorem execContextCreate_kept (h : CmdHdr) (p : Bytes) (s : State) (t : State) (h' : execContextCreate h p s = .next t) : kept t = kept s := by
  unfold execContextCreate at h'; cases h'; exact kcp_kept _ (contextCreateCmd_keeps ) _ _ _
theorem execContextSet_kept (h : CmdHdr) (p : Bytes) (s : State) (t : State) (h' : execContextSet h p s = .next t) : kept t = kept s := by
  unfold execContextSet at h'; cases h'; exact kcp_kept _ (contextSetCmd_keeps ) _ _ _
theorem execContextDestroy_kept (h : CmdHdr) (p : Bytes) (s : State) (t : State) (h' : execContextDestroy h p s = .next t) : kept t = kept s := by
  unfold execContextDestroy at h'; cases h'; exact kcp_kept _ (contextDestroyCmd_keeps ) _ _ _
theorem execProgramLoad_kept (h : CmdHdr) (p : Bytes) (host : HostRead) (s : State) (t : State) (h' : execProgramLoad h p host s = .next t) : kept t = kept s := by
  unfold execProgramLoad at h'; cases h'; exact kcp_kept _ (programLoadCmd_keeps _) _ _ _
theorem execProgramFree_kept (h : CmdHdr) (p : Bytes) (s : State) (t : State) (h' : execProgramFree h p s = .next t) : kept t = kept s := by
  unfold execProgramFree at h'; cases h'; exact kcp_kept _ (programFreeCmd_keeps ) _ _ _
theorem execWindowSet_kept (h : CmdHdr) (p : Bytes) (s : State) (t : State) (h' : execWindowSet h p s = .next t) : kept t = kept s := by
  unfold execWindowSet at h'; cases h'; exact kcp_kept _ (windowSetCmd_keeps ) _ _ _
theorem execWingCreate_kept (h : CmdHdr) (p : Bytes) (s : State) (t : State) (h' : execWingCreate h p s = .next t) : kept t = kept s := by
  unfold execWingCreate at h'; cases h'; exact kcp_kept _ (wingCreateCmd_keeps ) _ _ _
theorem execWingResize_kept (h : CmdHdr) (p : Bytes) (s : State) (t : State) (h' : execWingResize h p s = .next t) : kept t = kept s := by
  unfold execWingResize at h'; cases h'; exact kcp_kept _ (wingResizeCmd_keeps ) _ _ _
theorem execWingRemove_kept (h : CmdHdr) (p : Bytes) (s : State) (t : State) (h' : execWingRemove h p s = .next t) : kept t = kept s := by
  unfold execWingRemove at h'; cases h'; exact kcp_kept _ (wingRemoveCmd_keeps ) _ _ _
theorem execWingRemoveDone_kept (wing : Nat) (s : State) (t : State) (h' : execWingRemoveDone wing s = .next t) : kept t = kept s := by
  unfold execWingRemoveDone at h'; obtain ⟨-, rfl⟩ := onPart_next h'; simp
theorem execWingReassign_kept (h : CmdHdr) (p : Bytes) (s : State) (t : State) (h' : execWingReassign h p s = .next t) : kept t = kept s := by
  unfold execWingReassign at h'; cases h'; exact kcp_kept _ (wingReassignCmd_keeps ) _ _ _
theorem execPassTrain_kept (h : CmdHdr) (p : Bytes) (s : State) (t : State) (h' : execPassTrain h p s = .next t) : kept t = kept s := by
  unfold execPassTrain at h'; cases h'; exact kcp_kept _ (passTrainCmd_keeps ) _ _ _
theorem execPassServe_kept (h : CmdHdr) (p : Bytes) (s : State) (t : State) (h' : execPassServe h p s = .next t) : kept t = kept s := by
  unfold execPassServe at h'; cases h'; exact kcp_kept _ (passServeCmd_keeps ) _ _ _
theorem execServeOpen_kept (h : CmdHdr) (p : Bytes) (s : State) (t : State) (h' : execServeOpen h p s = .next t) : kept t = kept s := by
  unfold execServeOpen at h'; cases h'; exact kcp_kept _ (serveOpenCmd_keeps ) _ _ _
theorem execServeAppend_kept (h : CmdHdr) (p : Bytes) (s : State) (t : State) (h' : execServeAppend h p s = .next t) : kept t = kept s := by
  unfold execServeAppend at h'; cases h'; exact kcp_kept _ (serveAppendCmd_keeps ) _ _ _
theorem execServeClose_kept (h : CmdHdr) (p : Bytes) (s : State) (t : State) (h' : execServeClose h p s = .next t) : kept t = kept s := by
  unfold execServeClose at h'; cases h'; exact kcp_kept _ (serveCloseCmd_keeps ) _ _ _
theorem execPassAdmit_kept (wing context : Nat) (s : State) (t : State) (h' : execPassAdmit wing context s = .next t) : kept t = kept s := by
  unfold execPassAdmit at h'; obtain ⟨-, rfl⟩ := onPart_next h'; simp
theorem execTrainingPhaseDone_kept (port lanes : Nat) (s : State) (t : State) (h' : execTrainingPhaseDone port lanes s = .next t) : kept t = kept s := by
  unfold execTrainingPhaseDone at h'; obtain ⟨-, rfl⟩ := onPart_next h'; simp
theorem execTrainingPhaseOverrun_kept (port : Nat) (s : State) (t : State) (h' : execTrainingPhaseOverrun port s = .next t) : kept t = kept s := by
  unfold execTrainingPhaseOverrun at h'; obtain ⟨-, rfl⟩ := onPart_next h'; simp
theorem execTrainingRetry_kept (port : Nat) (s : State) (t : State) (h' : execTrainingRetry port s = .next t) : kept t = kept s := by
  unfold execTrainingRetry at h'; obtain ⟨-, rfl⟩ := onPart_next h'; simp
theorem execHello_kept (port : Nat) (body : HelloBody) (s : State) (t : State) (h' : execHello port body s = .next t) : kept t = kept s := by
  unfold execHello at h'; obtain ⟨-, rfl⟩ := onPart_next h'; simp
theorem execLaneLockLoss_kept (port lane : Nat) (locked : Nat) (s : State) (t : State) (h' : execLaneLockLoss port lane locked s = .next t) : kept t = kept s := by
  unfold execLaneLockLoss at h'; obtain ⟨-, rfl⟩ := onPart_next h'; simp
theorem execUncorrectableCodeword_kept (port : Nat) (locked : Nat) (s : State) (t : State) (h' : execUncorrectableCodeword port locked s = .next t) : kept t = kept s := by
  unfold execUncorrectableCodeword at h'; obtain ⟨-, rfl⟩ := onPart_next h'; simp
theorem execDataFrame_kept (port : Nat) (frame : Frame) (s : State) (t : State) (h' : execDataFrame port frame s = .next t) : kept t = kept s := by
  unfold execDataFrame at h'; obtain ⟨-, rfl⟩ := onPart_next h'; simp
theorem execIdleFrame_kept (port : Nat) (frame : Frame) (s : State) (t : State) (h' : execIdleFrame port frame s = .next t) : kept t = kept s := by
  unfold execIdleFrame at h'; obtain ⟨-, rfl⟩ := onPart_next h'; simp
theorem execRetryFrame_kept (port : Nat) (frame : Frame) (s : State) (t : State) (h' : execRetryFrame port frame s = .next t) : kept t = kept s := by
  unfold execRetryFrame at h'; obtain ⟨-, rfl⟩ := onPart_next h'; simp
theorem execAckTimeout_kept (port : Nat) (s : State) (t : State) (h' : execAckTimeout port s = .next t) : kept t = kept s := by
  unfold execAckTimeout at h'; obtain ⟨-, rfl⟩ := onPart_next h'; simp
theorem execLinkRetrainDone_kept (port : Nat) (ok : Bool) (s : State) (t : State) (h' : execLinkRetrainDone port ok s = .next t) : kept t = kept s := by
  unfold execLinkRetrainDone at h'; obtain ⟨-, rfl⟩ := onPart_next h'; simp
theorem execPortRetrain_kept (h : CmdHdr) (p : Bytes) (s : State) (t : State) (h' : execPortRetrain h p s = .next t) : kept t = kept s := by
  unfold execPortRetrain at h'; cases h'; exact kcp_kept _ (portRetrainCmd_keeps ) _ _ _
theorem execRelayTimeout_kept (port : Nat) (s : State) (t : State) (h' : execRelayTimeout port s = .next t) : kept t = kept s := by
  unfold execRelayTimeout at h'; obtain ⟨-, rfl⟩ := onPart_next h'; simp
theorem execForwardPassEnd_kept (wing context : Nat) (s : State) (t : State) (h' : execForwardPassEnd wing context s = .next t) : kept t = kept s := by
  unfold execForwardPassEnd at h'; obtain ⟨-, rfl⟩ := onPart_next h'; simp
theorem execBackwardPassEnd_kept (wing context : Nat) (s : State) (t : State) (h' : execBackwardPassEnd wing context s = .next t) : kept t = kept s := by
  unfold execBackwardPassEnd at h'; obtain ⟨-, rfl⟩ := onPart_next h'; simp
theorem execStepCommit_kept (wing context : Nat) (s : State) (t : State) (h' : execStepCommit wing context s = .next t) : kept t = kept s := by
  unfold execStepCommit at h'; obtain ⟨-, rfl⟩ := onPart_next h'; simp
theorem execPassEnd_kept (wing context : Nat) (s : State) (t : State) (h' : execPassEnd wing context s = .next t) : kept t = kept s := by
  unfold execPassEnd at h'; obtain ⟨-, rfl⟩ := onPart_next h'; simp
theorem execStageEnd_kept (wing : Nat) (s : State) (t : State) (h' : execStageEnd wing s = .next t) : kept t = kept s := by
  unfold execStageEnd at h'; obtain ⟨-, rfl⟩ := onPart_next h'; simp
theorem execStageStart_kept (wing : Nat) (s : State) (t : State) (h' : execStageStart wing s = .next t) : kept t = kept s := by
  unfold execStageStart at h'; obtain ⟨-, rfl⟩ := onPart_next h'; simp
theorem execSwitchEdge_kept (wing : Nat) (s : State) (t : State) (h' : execSwitchEdge wing s = .next t) : kept t = kept s := by
  unfold execSwitchEdge at h'; obtain ⟨-, rfl⟩ := onPart_next h'; simp
theorem execParkThreshold_kept (wing : Nat) (s : State) (t : State) (h' : execParkThreshold wing s = .next t) : kept t = kept s := by
  unfold execParkThreshold at h'; obtain ⟨-, rfl⟩ := onPart_next h'; simp
theorem execTicketExpiry_kept (wing : Nat) (s : State) (t : State) (h' : execTicketExpiry wing s = .next t) : kept t = kept s := by
  unfold execTicketExpiry at h'; obtain ⟨-, rfl⟩ := onPart_next h'; simp
theorem execFenceEntry_kept (wing : Nat) (s : State) (t : State) (h' : execFenceEntry wing s = .next t) : kept t = kept s := by
  unfold execFenceEntry at h'; obtain ⟨-, rfl⟩ := onPart_next h'; simp
theorem execSwapOutStart_kept (wing : Nat) (s : State) (t : State) (h' : execSwapOutStart wing s = .next t) : kept t = kept s := by
  unfold execSwapOutStart at h'; obtain ⟨-, rfl⟩ := onPart_next h'; simp
theorem execSwapInStart_kept (wing : Nat) (s : State) (t : State) (h' : execSwapInStart wing s = .next t) : kept t = kept s := by
  unfold execSwapInStart at h'; obtain ⟨-, rfl⟩ := onPart_next h'; simp
theorem execSwapCommit_kept (wing : Nat) (s : State) (t : State) (h' : execSwapCommit wing s = .next t) : kept t = kept s := by
  unfold execSwapCommit at h'; obtain ⟨-, rfl⟩ := onPart_next h'; simp
theorem execCollectiveSet_kept (h : CmdHdr) (p : Bytes) (s : State) (t : State) (h' : execCollectiveSet h p s = .next t) : kept t = kept s := by
  unfold execCollectiveSet at h'; cases h'; exact kcp_kept _ (collectiveSetCmd_keeps ) _ _ _
theorem execCollectivePost_kept (h : CmdHdr) (p : Bytes) (s : State) (t : State) (h' : execCollectivePost h p s = .next t) : kept t = kept s := by
  unfold execCollectivePost at h'; cases h'; exact kcp_kept _ (collectivePostCmd_keeps ) _ _ _
theorem execCollective_kept (collective : Nat) (s : State) (t : State) (h' : execCollective collective s = .next t) : kept t = kept s := by
  unfold execCollective at h'; cases h'; simp
theorem execReduceData_kept (hdr : MsgHdr) (back : Bool) (data : Bytes) (s : State) (t : State) (h' : execReduceData hdr back data s = .next t) : kept t = kept s := by
  unfold execReduceData at h'; cases h'; simp
theorem execCollectiveCommit_kept (collective : Nat) (s : State) (t : State) (h' : execCollectiveCommit collective s = .next t) : kept t = kept s := by
  unfold execCollectiveCommit at h'; cases h'; simp
theorem execMirrorAreaSet_kept (h : CmdHdr) (p : Bytes) (s : State) (t : State) (h' : execMirrorAreaSet h p s = .next t) : kept t = kept s := by
  unfold execMirrorAreaSet at h'; cases h'; exact kcp_kept _ (mirrorAreaSetCmd_keeps ) _ _ _
theorem execRingSet_kept (h : CmdHdr) (p : Bytes) (host : HostRead) (s : State) (t : State) (h' : execRingSet h p host s = .next t) : kept t = kept s := by
  unfold execRingSet at h'; cases h'; exact kcp_kept _ (ringSetCmd_keeps _) _ _ _
theorem execRingStatus_kept (h : CmdHdr) (p : Bytes) (s : State) (t : State) (h' : execRingStatus h p s = .next t) : kept t = kept s := by
  unfold execRingStatus at h'; cases h'; exact kcp_kept _ (ringStatusCmd_keeps ) _ _ _
theorem execRemoteData_kept (hdr : MsgHdr) (ticket : Nat) (data : Bytes) (s : State) (t : State) (h' : execRemoteData hdr ticket data s = .next t) : kept t = kept s := by
  unfold execRemoteData at h'; cases h'; simp
theorem execRemoteRead_kept (hdr : MsgHdr) (object addr len : Nat) (s : State) (t : State) (h' : execRemoteRead hdr object addr len s = .next t) : kept t = kept s := by
  unfold execRemoteRead at h'; cases h'; simp
theorem execRingBlock_kept (hdr : MsgHdr) (wing ticket leg step : Nat) (data : Bytes) (s : State) (t : State) (h' : execRingBlock hdr wing ticket leg step data s = .next t) : kept t = kept s := by
  unfold execRingBlock at h'; obtain ⟨-, rfl⟩ := onPart_next h'; simp
theorem execRingDone_kept (hdr : MsgHdr) (wing ticket leg : Nat) (s : State) (t : State) (h' : execRingDone hdr wing ticket leg s = .next t) : kept t = kept s := by
  unfold execRingDone at h'; obtain ⟨-, rfl⟩ := onPart_next h'; simp
theorem execMirrorWrite_kept (hdr : MsgHdr) (leg party : Nat) (data : Bytes) (s : State) (t : State) (h' : execMirrorWrite hdr leg party data s = .next t) : kept t = kept s := by
  unfold execMirrorWrite at h'; cases h'; simp
theorem execMirrorAck_kept (hdr : MsgHdr) (leg : Nat) (s : State) (t : State) (h' : execMirrorAck hdr leg s = .next t) : kept t = kept s := by
  unfold execMirrorAck at h'; cases h'; simp
theorem execMirrorAckTimeout_kept (ring leg : Nat) (s : State) (t : State) (h' : execMirrorAckTimeout ring leg s = .next t) : kept t = kept s := by
  unfold execMirrorAckTimeout at h'; cases h'; simp
theorem execObjectMoveCommit_kept (object : Nat) (s : State) (t : State) (h' : execObjectMoveCommit object s = .next t) : kept t = kept s := by
  unfold execObjectMoveCommit at h'; obtain ⟨-, rfl⟩ := onPart_next h'; simp
theorem execScrub_kept (wing : Nat) (s : State) (t : State) (h' : execScrub wing s = .next t) : kept t = kept s := by
  unfold execScrub at h'; obtain ⟨-, rfl⟩ := onPart_next h'; simp
theorem execScrubDone_kept (wing : Nat) (s : State) (t : State) (h' : execScrubDone wing s = .next t) : kept t = kept s := by
  unfold execScrubDone at h'; obtain ⟨-, rfl⟩ := onPart_next h'; simp
theorem execBaseInstall_kept (h : CmdHdr) (p : Bytes) (host : HostRead) (s : State) (t : State) (h' : execBaseInstall h p host s = .next t) : kept t = kept s := by
  unfold execBaseInstall at h'; cases h'; exact kcp_kept _ (baseInstallCmd_keeps _) _ _ _
theorem execInstallCancel_kept (h : CmdHdr) (p : Bytes) (s : State) (t : State) (h' : execInstallCancel h p s = .next t) : kept t = kept s := by
  unfold execInstallCancel at h'; cases h'; exact kcp_kept _ (installCancelCmd_keeps ) _ _ _
theorem execBaseRemove_kept (h : CmdHdr) (p : Bytes) (s : State) (t : State) (h' : execBaseRemove h p s = .next t) : kept t = kept s := by
  unfold execBaseRemove at h'; cases h'; exact kcp_kept _ (baseRemoveCmd_keeps ) _ _ _
theorem execBaseSelect_kept (h : CmdHdr) (p : Bytes) (s : State) (t : State) (h' : execBaseSelect h p s = .next t) : kept t = kept s := by
  unfold execBaseSelect at h'; cases h'; exact kcp_kept _ (baseSelectCmd_keeps ) _ _ _
theorem execBcastData_kept (hdr : MsgHdr) (shard : Nat) (last : Bool) (digest : Nat) (s : State) (t : State) (h' : execBcastData hdr shard last digest s = .next t) : kept t = kept s := by
  unfold execBcastData at h'; cases h'; simp
theorem execBcastAck_kept (hdr : MsgHdr) (shard : Nat) (s : State) (t : State) (h' : execBcastAck hdr shard s = .next t) : kept t = kept s := by
  unfold execBcastAck at h'; cases h'; simp
theorem execShardProgramDone_kept (shard : Nat) (ok : Bool) (digest : Nat) (s : State) (t : State) (h' : execShardProgramDone shard ok digest s = .next t) : kept t = kept s := by
  unfold execShardProgramDone at h'; obtain ⟨-, rfl⟩ := onPart_next h'; simp
theorem execShardReadbackDone_kept (shard : Nat) (digest : Nat) (outlierListsOk : Bool) (s : State) (t : State) (h' : execShardReadbackDone shard digest outlierListsOk s = .next t) : kept t = kept s := by
  unfold execShardReadbackDone at h'; obtain ⟨-, rfl⟩ := onPart_next h'; simp
theorem execShardEraseDone_kept (shard : Nat) (s : State) (t : State) (h' : execShardEraseDone shard s = .next t) : kept t = kept s := by
  unfold execShardEraseDone at h'; obtain ⟨-, rfl⟩ := onPart_next h'; simp
theorem execShardFetch_kept (wing : Nat) (s : State) (t : State) (h' : execShardFetch wing s = .next t) : kept t = kept s := by
  unfold execShardFetch at h'; obtain ⟨-, rfl⟩ := onPart_next h'; simp
theorem execShardArrival_kept (wing shard : Nat) (digest : Nat) (s : State) (t : State) (h' : execShardArrival wing shard digest s = .next t) : kept t = kept s := by
  unfold execShardArrival at h'; obtain ⟨-, rfl⟩ := onPart_next h'; simp
theorem execShardRequest_kept (hdr : MsgHdr) (root shard : Nat) (s : State) (t : State) (h' : execShardRequest hdr root shard s = .next t) : kept t = kept s := by
  unfold execShardRequest at h'; cases h'; simp
theorem execShardData_kept (hdr : MsgHdr) (shard : Nat) (paced : Bool) (digest : Nat) (s : State) (t : State) (h' : execShardData hdr shard paced digest s = .next t) : kept t = kept s := by
  unfold execShardData at h'; cases h'; simp
theorem execNotHeld_kept (hdr : MsgHdr) (shard : Nat) (s : State) (t : State) (h' : execNotHeld hdr shard s = .next t) : kept t = kept s := by
  unfold execNotHeld at h'; cases h'; simp
theorem execHolderTimeout_kept (shard : Nat) (s : State) (t : State) (h' : execHolderTimeout shard s = .next t) : kept t = kept s := by
  unfold execHolderTimeout at h'; obtain ⟨-, rfl⟩ := onPart_next h'; simp
theorem execCellarSlot_kept (s : State) (t : State) (h' : execCellarSlot s = .next t) : kept t = kept s := by
  unfold execCellarSlot at h'; cases h'; simp
theorem execDigestSweep_kept (s : State) (t : State) (h' : execDigestSweep s = .next t) : kept t = kept s := by
  unfold execDigestSweep at h'; cases h'; simp
theorem execSweepReadDone_kept (shard : Nat) (digest : Nat) (s : State) (t : State) (h' : execSweepReadDone shard digest s = .next t) : kept t = kept s := by
  unfold execSweepReadDone at h'; obtain ⟨-, rfl⟩ := onPart_next h'; simp
theorem execSweepSet_kept (h : CmdHdr) (p : Bytes) (s : State) (t : State) (h' : execSweepSet h p s = .next t) : kept t = kept s := by
  unfold execSweepSet at h'; cases h'; exact kcp_kept _ (sweepSetCmd_keeps ) _ _ _
theorem execCellarStatus_kept (h : CmdHdr) (p : Bytes) (s : State) (t : State) (h' : execCellarStatus h p s = .next t) : kept t = kept s := by
  unfold execCellarStatus at h'; cases h'; exact kcp_kept _ (cellarStatusCmd_keeps ) _ _ _
theorem execRollCall_kept (s : State) (t : State) (h' : execRollCall s = .next t) : kept t = kept s := by
  unfold execRollCall at h'; cases h'; simp
theorem execEntry_kept (hdr : MsgHdr) (body : EntryBody) (nearEdge : Bool) (s : State) (t : State) (h' : execEntry hdr body nearEdge s = .next t) : kept t = kept s := by
  unfold execEntry at h'; cases h'; simp
theorem execRollCallClose_kept (s : State) (t : State) (h' : execRollCallClose s = .next t) : kept t = kept s := by
  unfold execRollCallClose at h'; cases h'; simp
theorem execFailover_kept (s : State) (t : State) (h' : execFailover s = .next t) : kept t = kept s := by
  unfold execFailover at h'; cases h'; simp
theorem execFabricParamsApply_kept (s : State) (t : State) (h' : execFabricParamsApply s = .next t) : kept t = kept s := by
  unfold execFabricParamsApply at h'; cases h'; simp
theorem execFabricSet_kept (h : CmdHdr) (p : Bytes) (host : HostRead) (s : State) (t : State) (h' : execFabricSet h p host s = .next t) : kept t = kept s := by
  unfold execFabricSet at h'; cases h'; exact kcp_kept _ (fabricSetCmd_keeps _) _ _ _
theorem execFabricStatus_kept (h : CmdHdr) (p : Bytes) (s : State) (t : State) (h' : execFabricStatus h p s = .next t) : kept t = kept s := by
  unfold execFabricStatus at h'; cases h'; exact kcp_kept _ (fabricStatusCmd_keeps ) _ _ _
theorem execHbmCorrectedError_kept (pc addr : Nat) (s : State) (t : State) (h' : execHbmCorrectedError pc addr s = .next t) : kept t = kept s := by
  unfold execHbmCorrectedError at h'; obtain ⟨-, rfl⟩ := onPart_next h'; simp
theorem execHbmUncorrectableError_kept (pc addr : Nat) (place : ErrPlace) (s : State) (t : State) (h' : execHbmUncorrectableError pc addr place s = .next t) : kept t = kept s := by
  unfold execHbmUncorrectableError at h'; obtain ⟨-, rfl⟩ := onPart_next h'; simp
theorem execLoftCorrectedError_kept (channel addr : Nat) (s : State) (t : State) (h' : execLoftCorrectedError channel addr s = .next t) : kept t = kept s := by
  unfold execLoftCorrectedError at h'; obtain ⟨-, rfl⟩ := onPart_next h'; simp
theorem execLoftUncorrectableError_kept (channel addr : Nat) (place : ErrPlace) (s : State) (t : State) (h' : execLoftUncorrectableError channel addr place s = .next t) : kept t = kept s := by
  unfold execLoftUncorrectableError at h'; obtain ⟨-, rfl⟩ := onPart_next h'; simp
theorem execLoftChannelLoss_kept (channel : Nat) (s : State) (t : State) (h' : execLoftChannelLoss channel s = .next t) : kept t = kept s := by
  unfold execLoftChannelLoss at h'; obtain ⟨-, rfl⟩ := onPart_next h'; simp
theorem execFaultLogRead_kept (h : CmdHdr) (p : Bytes) (s : State) (t : State) (h' : execFaultLogRead h p s = .next t) : kept t = kept s := by
  unfold execFaultLogRead at h'; cases h'; exact kcp_kept _ (faultLogReadCmd_keeps ) _ _ _
theorem execTileMap_kept (h : CmdHdr) (p : Bytes) (s : State) (t : State) (h' : execTileMap h p s = .next t) : kept t = kept s := by
  unfold execTileMap at h'; cases h'; exact kcp_kept _ (tileMapCmd_keeps ) _ _ _
theorem execSpareSwitch_kept (tile : Nat) (badWords : List Nat) (s : State) (t : State) (h' : execSpareSwitch tile badWords s = .next t) : kept t = kept s := by
  unfold execSpareSwitch at h'; obtain ⟨-, rfl⟩ := onPart_next h'; simp
theorem execPcRetire_kept (h : CmdHdr) (p : Bytes) (s : State) (t : State) (h' : execPcRetire h p s = .next t) : kept t = kept s := by
  unfold execPcRetire at h'; cases h'; exact kcp_kept _ (pcRetireCmd_keeps ) _ _ _
theorem execPcRetireDone_kept (pc : Nat) (s : State) (t : State) (h' : execPcRetireDone pc s = .next t) : kept t = kept s := by
  unfold execPcRetireDone at h'; obtain ⟨-, rfl⟩ := onPart_next h'; simp
theorem execLoftEvacuate_kept (h : CmdHdr) (p : Bytes) (s : State) (t : State) (h' : execLoftEvacuate h p s = .next t) : kept t = kept s := by
  unfold execLoftEvacuate at h'; cases h'; exact kcp_kept _ (loftEvacuateCmd_keeps ) _ _ _
theorem execLoftEvacuateDone_kept (channel : Nat) (s : State) (t : State) (h' : execLoftEvacuateDone channel s = .next t) : kept t = kept s := by
  unfold execLoftEvacuateDone at h'; obtain ⟨-, rfl⟩ := onPart_next h'; simp
theorem execLoftReturnDone_kept (channel : Nat) (dimmsMatch : Bool) (s : State) (t : State) (h' : execLoftReturnDone channel dimmsMatch s = .next t) : kept t = kept s := by
  unfold execLoftReturnDone at h'; obtain ⟨-, rfl⟩ := onPart_next h'; simp
theorem execWingFence_kept (h : CmdHdr) (p : Bytes) (s : State) (t : State) (h' : execWingFence h p s = .next t) : kept t = kept s := by
  unfold execWingFence at h'; cases h'; exact kcp_kept _ (wingFenceCmd_keeps ) _ _ _
theorem execCounterSnapshot_kept (s : State) (t : State) (h' : execCounterSnapshot s = .next t) : kept t = kept s := by
  unfold execCounterSnapshot at h'; cases h'; simp
theorem execDomainSet_kept (h : CmdHdr) (p : Bytes) (s : State) (t : State) (h' : execDomainSet h p s = .next t) : kept t = kept s := by
  unfold execDomainSet at h'; cases h'; exact kcp_kept _ (domainSetCmd_keeps ) _ _ _
theorem execDomainPowerGood_kept (domain : Nat) (s : State) (t : State) (h' : execDomainPowerGood domain s = .next t) : kept t = kept s := by
  unfold execDomainPowerGood at h'; obtain ⟨-, rfl⟩ := onPart_next h'; simp
theorem execPowerGoodTimeout_kept (domain : Nat) (s : State) (t : State) (h' : execPowerGoodTimeout domain s = .next t) : kept t = kept s := by
  unfold execPowerGoodTimeout at h'; obtain ⟨-, rfl⟩ := onPart_next h'; simp
theorem execDomainSequenceDone_kept (domain : Nat) (s : State) (t : State) (h' : execDomainSequenceDone domain s = .next t) : kept t = kept s := by
  unfold execDomainSequenceDone at h'; obtain ⟨-, rfl⟩ := onPart_next h'; simp
theorem execJournalWrite_kept (s : State) (t : State) (h' : execJournalWrite s = .next t) : kept t = kept s := by
  unfold execJournalWrite at h'; cases h'; simp
theorem execJournalWriteDone_kept (s : State) (t : State) (h' : execJournalWriteDone s = .next t) : kept t = kept s := by
  unfold execJournalWriteDone at h'; cases h'; simp
theorem execWatchdogExpiry_kept (core : Nat) (s : State) (t : State) (h' : execWatchdogExpiry core s = .next t) : kept t = kept s := by
  unfold execWatchdogExpiry at h'; cases h'; simp
theorem execKeeperCacheError_kept (_core : Nat) (s : State) (t : State) (h' : execKeeperCacheError _core s = .next t) : kept t = kept s := by
  unfold execKeeperCacheError at h'; cases h'; simp
theorem execKeeperRestartDone_kept (s : State) (t : State) (h' : execKeeperRestartDone s = .next t) : kept t = kept s := by
  unfold execKeeperRestartDone at h'; cases h'; simp
theorem execKeeperMemoryError_kept (banksBad : Nat) (s : State) (t : State) (h' : execKeeperMemoryError banksBad s = .next t) : kept t = kept s := by
  unfold execKeeperMemoryError at h'; cases h'; simp
theorem execFirmwareHandover_kept (h : CmdHdr) (p : Bytes) (host : HostRead) (s : State) (t : State) (h' : execFirmwareHandover h p host s = .next t) : kept t = kept s := by
  unfold execFirmwareHandover at h'; cases h'; exact kcp_kept _ (firmwareHandoverCmd_keeps _) _ _ _
theorem execHandoverTakeover_kept (s : State) (t : State) (h' : execHandoverTakeover s = .next t) : kept t = kept s := by
  unfold execHandoverTakeover at h'; cases h'; simp
theorem execHandoverTimeout_kept (s : State) (t : State) (h' : execHandoverTimeout s = .next t) : kept t = kept s := by
  unfold execHandoverTimeout at h'; cases h'; simp
theorem execImageStoreWrite_kept (s : State) (t : State) (h' : execImageStoreWrite s = .next t) : kept t = kept s := by
  unfold execImageStoreWrite at h'; cases h'; simp
theorem execHostCompletion_kept (fn gen : Nat) (ok : Bool) (access : HostAccess) (s : State) (t : State) (h' : execHostCompletion fn gen ok access s = .next t) : kept t = kept s := by
  unfold execHostCompletion at h'; obtain ⟨-, rfl⟩ := onPart_next h'; simp
theorem execAtsInvalidate_kept (fn page : Nat) (s : State) (t : State) (h' : execAtsInvalidate fn page s = .next t) : kept t = kept s := by
  unfold execAtsInvalidate at h'; obtain ⟨-, rfl⟩ := onPart_next h'; simp
theorem execFlr_kept (fn : Nat) (s : State) (t : State) (h' : execFlr fn s = .next t) : kept t = kept s := by
  unfold execFlr at h'; obtain ⟨-, rfl⟩ := onPart_next h'; simp
theorem execVfSet_kept (h : CmdHdr) (p : Bytes) (s : State) (t : State) (h' : execVfSet h p s = .next t) : kept t = kept s := by
  unfold execVfSet at h'; cases h'; exact kcp_kept _ (vfSetCmd_keeps ) _ _ _
theorem execFunctionResetDone_kept (fn : Nat) (s : State) (t : State) (h' : execFunctionResetDone fn s = .next t) : kept t = kept s := by
  unfold execFunctionResetDone at h'; obtain ⟨-, rfl⟩ := onPart_next h'; simp
theorem execVfEnableSet_kept (numVfs : Nat) (s : State) (t : State) (h' : execVfEnableSet numVfs s = .next t) : kept t = kept s := by
  unfold execVfEnableSet at h'; cases h'; simp
theorem execVfEnableClear_kept (s : State) (t : State) (h' : execVfEnableClear s = .next t) : kept t = kept s := by
  unfold execVfEnableClear at h'; cases h'; simp
theorem execBusMasterEnableSet_kept (fn : Nat) (s : State) (t : State) (h' : execBusMasterEnableSet fn s = .next t) : kept t = kept s := by
  unfold execBusMasterEnableSet at h'; obtain ⟨-, rfl⟩ := onPart_next h'; simp
theorem execBusMasterEnableClear_kept (fn : Nat) (s : State) (t : State) (h' : execBusMasterEnableClear fn s = .next t) : kept t = kept s := by
  unfold execBusMasterEnableClear at h'; obtain ⟨-, rfl⟩ := onPart_next h'; simp
theorem execLinkLoss_kept (s : State) (t : State) (h' : execLinkLoss s = .next t) : kept t = kept s := by
  unfold execLinkLoss at h'; cases h'; simp
theorem execLinkUp_kept (width rate : Nat) (cache mem : Bool) (s : State) (t : State) (h' : execLinkUp width rate cache mem s = .next t) : kept t = kept s := by
  unfold execLinkUp at h'; cases h'; simp
theorem execConfigRequest_kept (fn : Nat) (ats : Option Bool) (s : State) (t : State) (h' : execConfigRequest fn ats s = .next t) : kept t = kept s := by
  unfold execConfigRequest at h'; obtain ⟨-, rfl⟩ := onPart_next h'; simp
theorem execSnoop_kept (addr : Nat) (s : State) (t : State) (h' : execSnoop addr s = .next t) : kept t = kept s := by
  unfold execSnoop at h'; cases h'; simp
theorem execFnCtrlApply_kept (fn value : Nat) (s : State) (t : State) (h' : execFnCtrlApply fn value s = .next t) : kept t = kept s := by
  unfold execFnCtrlApply at h'; obtain ⟨-, rfl⟩ := onPart_next h'; simp
theorem execPorterKeeperReset_kept (key arg : Nat) (s : State) (t : State) (h' : execPorterKeeperReset key arg s = .next t) : kept t = kept s := by
  unfold execPorterKeeperReset at h'; cases h'; exact porterWrite_kept _ _ _ _ _ fun s => by simp
theorem execPorterWingFence_kept (key arg : Nat) (s : State) (t : State) (h' : execPorterWingFence key arg s = .next t) : kept t = kept s := by
  unfold execPorterWingFence at h'; cases h'; exact porterWrite_kept _ _ _ _ _ fun s => by simp
theorem execPorterPowerOff_kept (key arg : Nat) (s : State) (t : State) (h' : execPorterPowerOff key arg s = .next t) : kept t = kept s := by
  unfold execPorterPowerOff at h'; cases h'; exact porterWrite_kept _ _ _ _ _ fun s => by simp
theorem execRegisterWrite_kept (space : RegSpace) (fn offset width value : Nat) (s : State) (t : State) (h' : execRegisterWrite space fn offset width value s = .next t) : kept t = kept s := by
  unfold execRegisterWrite at h'; obtain ⟨-, rfl⟩ := onPart_next h'; simp
theorem execLowHalfRead_kept (fn offset : Nat) (s : State) (t : State) (h' : execLowHalfRead fn offset s = .next t) : kept t = kept s := by
  unfold execLowHalfRead at h'; obtain ⟨-, rfl⟩ := onPart_next h'; simp
theorem execDecoderCommit_kept (decoder base size : Nat) (lock : Bool) (s : State) (t : State) (h' : execDecoderCommit decoder base size lock s = .next t) : kept t = kept s := by
  unfold execDecoderCommit at h'; obtain ⟨-, rfl⟩ := onPart_next h'; simp
theorem execDecoderUncommit_kept (decoder : Nat) (s : State) (t : State) (h' : execDecoderUncommit decoder s = .next t) : kept t = kept s := by
  unfold execDecoderUncommit at h'; obtain ⟨-, rfl⟩ := onPart_next h'; simp
theorem execCxlMemRead_kept (addr : Nat) (s : State) (t : State) (h' : execCxlMemRead addr s = .next t) : kept t = kept s := by
  unfold execCxlMemRead at h'; cases h'; simp
theorem execCxlMemWrite_kept (addr : Nat) (data : Bytes) (s : State) (t : State) (h' : execCxlMemWrite addr data s = .next t) : kept t = kept s := by
  unfold execCxlMemWrite at h'; cases h'; simp
theorem execIdeIntegrityFailure_kept (stream : Nat) (s : State) (t : State) (h' : execIdeIntegrityFailure stream s = .next t) : kept t = kept s := by
  unfold execIdeIntegrityFailure at h'; obtain ⟨-, rfl⟩ := onPart_next h'; simp
theorem execDoeDiscovery_kept (index : Nat) (s : State) (t : State) (h' : execDoeDiscovery index s = .next t) : kept t = kept s := by
  unfold execDoeDiscovery at h'; cases h'; simp
theorem execDoeAbort_kept (s : State) (t : State) (h' : execDoeAbort s = .next t) : kept t = kept s := by
  unfold execDoeAbort at h'; cases h'; simp
theorem execMeshBreak_kept (s : State) (t : State) (h' : execMeshBreak s = .next t) : kept t = kept s := by
  unfold execMeshBreak at h'; cases h'; simp
theorem execSupplyExcursion_kept (ns : Nat) (s : State) (t : State) (h' : execSupplyExcursion ns s = .next t) : kept t = kept s := by
  unfold execSupplyExcursion at h'; cases h'; simp
theorem execClockExcursion_kept (ns : Nat) (s : State) (t : State) (h' : execClockExcursion ns s = .next t) : kept t = kept s := by
  unfold execClockExcursion at h'; cases h'; simp
theorem execThermalExcursion_kept (eighths : Int) (s : State) (t : State) (h' : execThermalExcursion eighths s = .next t) : kept t = kept s := by
  unfold execThermalExcursion at h'; cases h'; simp
theorem execTamperIn_kept (ns : Nat) (s : State) (t : State) (h' : execTamperIn ns s = .next t) : kept t = kept s := by
  unfold execTamperIn at h'; cases h'; simp
theorem execPorterSecureWipe_kept (key arg : Nat) (s : State) (t : State) (h' : execPorterSecureWipe key arg s = .next t) : kept t = kept s := by
  unfold execPorterSecureWipe at h'; cases h'; exact porterWrite_kept _ _ _ _ _ fun s => by simp
theorem execSecureStoreKeyError_kept (slot : Nat) (s : State) (t : State) (h' : execSecureStoreKeyError slot s = .next t) : kept t = kept s := by
  unfold execSecureStoreKeyError at h'; obtain ⟨-, rfl⟩ := onPart_next h'; simp
theorem execPassportGet_kept (h : CmdHdr) (p : Bytes) (host : HostRead) (s : State) (t : State) (h' : execPassportGet h p host s = .next t) : kept t = kept s := by
  unfold execPassportGet at h'; cases h'; exact kcp_kept _ (passportGetCmd_keeps _) _ _ _
theorem execPassportRequest_kept (length : Nat) (nonce : Bytes) (s : State) (t : State) (h' : execPassportRequest length nonce s = .next t) : kept t = kept s := by
  unfold execPassportRequest at h'; cases h'; simp
theorem execAkRedrawDone_kept (s : State) (t : State) (h' : execAkRedrawDone s = .next t) : kept t = kept s := by
  unfold execAkRedrawDone at h'; cases h'; simp
theorem execKeyRelease_kept (h : CmdHdr) (p : Bytes) (s : State) (t : State) (h' : execKeyRelease h p s = .next t) : kept t = kept s := by
  unfold execKeyRelease at h'; cases h'; exact kcp_kept _ (keyReleaseCmd_keeps ) _ _ _
theorem execPartyKeyLoad_kept (h : CmdHdr) (p : Bytes) (s : State) (t : State) (h' : execPartyKeyLoad h p s = .next t) : kept t = kept s := by
  unfold execPartyKeyLoad at h'; cases h'; exact kcp_kept _ (partyKeyLoadCmd_keeps ) _ _ _
theorem execPartyKeyRemove_kept (h : CmdHdr) (p : Bytes) (s : State) (t : State) (h' : execPartyKeyRemove h p s = .next t) : kept t = kept s := by
  unfold execPartyKeyRemove at h'; cases h'; exact kcp_kept _ (partyKeyRemoveCmd_keeps ) _ _ _
theorem execPartyBind_kept (h : CmdHdr) (p : Bytes) (s : State) (t : State) (h' : execPartyBind h p s = .next t) : kept t = kept s := by
  unfold execPartyBind at h'; cases h'; exact kcp_kept _ (partyBindCmd_keeps ) _ _ _
theorem execLifeCycleSet_kept (h : CmdHdr) (p : Bytes) (s : State) (t : State) (h' : execLifeCycleSet h p s = .next t) : kept t = kept s := by
  unfold execLifeCycleSet at h'; cases h'; exact kcp_kept _ (lifeCycleSetCmd_keeps ) _ _ _
theorem execDebugUnlock_kept (token : Bytes) (s : State) (t : State) (h' : execDebugUnlock token s = .next t) : kept t = kept s := by
  unfold execDebugUnlock at h'; cases h'; simp
theorem execIdeKeys_kept (wrapper message : Bytes) (s : State) (t : State) (h' : execIdeKeys wrapper message s = .next t) : kept t = kept s := by
  unfold execIdeKeys at h'; cases h'; simp
theorem execPerstNAssert_kept (s : State) (t : State) (h' : execPerstNAssert s = .next t) : kept t = kept s := by
  unfold execPerstNAssert at h'; cases h'; simp
theorem execPerstNDeassert_kept (s : State) (t : State) (h' : execPerstNDeassert s = .next t) : kept t = kept s := by
  unfold execPerstNDeassert at h'; cases h'; simp
theorem execPfailNAssert_kept (s : State) (t : State) (h' : execPfailNAssert s = .next t) : kept t = kept s := by
  unfold execPfailNAssert at h'; cases h'; simp
theorem execVinRiseAlwaysOn_kept (s : State) (t : State) (h' : execVinRiseAlwaysOn s = .next t) : kept t = kept s := by
  unfold execVinRiseAlwaysOn at h'; cases h'; simp
theorem execVinGood_kept (s : State) (t : State) (h' : execVinGood s = .next t) : kept t = kept s := by
  unfold execVinGood at h'; cases h'; simp
theorem execVinHigh_kept (s : State) (t : State) (h' : execVinHigh s = .next t) : kept t = kept s := by
  unfold execVinHigh at h'; cases h'; simp
theorem execVinOver_kept (s : State) (t : State) (h' : execVinOver s = .next t) : kept t = kept s := by
  unfold execVinOver at h'; cases h'; simp
theorem execVinLow_kept (s : State) (t : State) (h' : execVinLow s = .next t) : kept t = kept s := by
  unfold execVinLow at h'; cases h'; simp
theorem execVinLowNoWarn_kept (s : State) (t : State) (h' : execVinLowNoWarn s = .next t) : kept t = kept s := by
  unfold execVinLowNoWarn at h'; cases h'; simp
theorem execVinBelowHoldup_kept (s : State) (t : State) (h' : execVinBelowHoldup s = .next t) : kept t = kept s := by
  unfold execVinBelowHoldup at h'; cases h'; simp
theorem execVoltageRecordRepeat_kept (s : State) (t : State) (h' : execVoltageRecordRepeat s = .next t) : kept t = kept s := by
  unfold execVoltageRecordRepeat at h'; cases h'; simp
theorem execBootStepDone_kept (found : BootFound) (s : State) (t : State) (h' : execBootStepDone found s = .next t) : kept t = kept s := by
  unfold execBootStepDone at h'; cases h'; simp
theorem execBootStepOverrun_kept (reason : Nat) (s : State) (t : State) (h' : execBootStepOverrun reason s = .next t) : kept t = kept s := by
  unfold execBootStepOverrun at h'; cases h'; simp
theorem execRetryWaitEnd_kept (s : State) (t : State) (h' : execRetryWaitEnd s = .next t) : kept t = kept s := by
  unfold execRetryWaitEnd at h'; cases h'; simp
theorem execDozeRequest_kept (s : State) (t : State) (h' : execDozeRequest s = .next t) : kept t = kept s := by
  unfold execDozeRequest at h'; cases h'; simp
theorem execDozeWake_kept (source : WakeSource) (s : State) (t : State) (h' : execDozeWake source s = .next t) : kept t = kept s := by
  unfold execDozeWake at h'; cases h'; simp
theorem execWakeAlarm_kept (s : State) (t : State) (h' : execWakeAlarm s = .next t) : kept t = kept s := by
  unfold execWakeAlarm at h'; cases h'; simp
theorem execThermalWarningCross_kept (part : Nat) (eighths : Int) (s : State) (t : State) (h' : execThermalWarningCross part eighths s = .next t) : kept t = kept s := by
  unfold execThermalWarningCross at h'; obtain ⟨-, rfl⟩ := onPart_next h'; simp
theorem execThermalWarningClear_kept (s : State) (t : State) (h' : execThermalWarningClear s = .next t) : kept t = kept s := by
  unfold execThermalWarningClear at h'; cases h'; simp
theorem execThermalTrip_kept (part : Nat) (eighths : Int) (s : State) (t : State) (h' : execThermalTrip part eighths s = .next t) : kept t = kept s := by
  unfold execThermalTrip at h'; obtain ⟨-, rfl⟩ := onPart_next h'; simp
theorem execSensorFault_kept (part sensor : Nat) (s : State) (t : State) (h' : execSensorFault part sensor s = .next t) : kept t = kept s := by
  unfold execSensorFault at h'; obtain ⟨-, rfl⟩ := onPart_next h'; simp
theorem execI3cSetdasa_kept (staticAddr dynAddr : Nat) (s : State) (t : State) (h' : execI3cSetdasa staticAddr dynAddr s = .next t) : kept t = kept s := by
  unfold execI3cSetdasa at h'; cases h'; simp
theorem execI3cEntdaa_kept (dynAddr : Nat) (s : State) (t : State) (h' : execI3cEntdaa dynAddr s = .next t) : kept t = kept s := by
  unfold execI3cEntdaa at h'; cases h'; simp
theorem execI3cRstdaa_kept (s : State) (t : State) (h' : execI3cRstdaa s = .next t) : kept t = kept s := by
  unfold execI3cRstdaa at h'; cases h'; simp
theorem execI3cGetstatus_kept (s : State) (t : State) (h' : execI3cGetstatus s = .next t) : kept t = kept s := by
  unfold execI3cGetstatus at h'; cases h'; simp
theorem execJtagBypass_kept (s : State) (t : State) (h' : execJtagBypass s = .next t) : kept t = kept s := by
  unfold execJtagBypass at h'; cases h'; simp
theorem execJtagIdcode_kept (s : State) (t : State) (h' : execJtagIdcode s = .next t) : kept t = kept s := by
  unfold execJtagIdcode at h'; cases h'; simp
theorem execJtagExtest_kept (s : State) (t : State) (h' : execJtagExtest s = .next t) : kept t = kept s := by
  unfold execJtagExtest at h'; cases h'; exact boundaryScan_kept _ _ _ fun s => by simp
theorem execJtagSample_kept (s : State) (t : State) (h' : execJtagSample s = .next t) : kept t = kept s := by
  unfold execJtagSample at h'; cases h'; exact boundaryScan_kept _ _ _ fun s => by simp
theorem execJtagPreload_kept (value : List Bool) (s : State) (t : State) (h' : execJtagPreload value s = .next t) : kept t = kept s := by
  unfold execJtagPreload at h'; cases h'; exact boundaryScan_kept _ _ _ fun s => by simp
@[simp] theorem kept_fst (s : State) : (kept s).1 = s.pending := rfl
theorem pending_of_kept {s t : State} (h : kept t = kept s) : t.pending = s.pending := congrArg (·.1) h
@[simp] theorem modClock_keeps_pending (s : State) (g : Clock → Clock) : (s.modClock g).pending = s.pending := rfl
@[simp] theorem enterLocked_pending (s : State) : (enterLocked s).pending = s.pending := by
  unfold enterLocked; rw [← kept_fst, notify_kept]; rfl
@[simp] theorem advanceCount_pending (s : State) (k : Nat) : (advanceCount s k).pending = s.pending := by
  unfold advanceCount; dsimp only; rw [← kept_fst, fireRange_kept, chargeMileposts_kept]; rfl
@[simp] theorem replaceCount_pending (s : State) (n : Nat) : (replaceCount s n).pending = s.pending := by
  unfold replaceCount; dsimp only; rw [enterLocked_pending, modClock_keeps_pending, ← kept_fst, shiftTimes_kept, fireMilepost_kept]; rfl
@[simp] theorem relockEdge_pending (s : State) (n : Nat) : (relockEdge s n).pending = s.pending := by
  unfold relockEdge; dsimp only; repeat' (first | (simp; done) | split)
@[simp] theorem countEdge_pending (s : State) : (countEdge s).pending = s.pending := by
  unfold countEdge; dsimp only; repeat' (first | (simp; done) | split)
@[simp] theorem localEdge_pending (s : State) : (localEdge s).pending = s.pending := by
  unfold localEdge; split
  · rfl
  · dsimp only
    rw [← kept_fst, rewritePages_kept, reraise_kept, countStalls_kept, kept_fst, modClock_keeps_pending, ← kept_fst, writeRegisters_kept, kept_fst,
      countEdge_pending, ← kept_fst, markLate_kept]; rfl
@[simp] theorem mpclkEdge_pending (s : State) (dt : Nat) (o : Int) : (mpclkEdge dt o s).pending = s.pending := by
  unfold mpclkEdge; split <;> rfl
@[simp] theorem mpclkRequalify_pending (s : State) : (mpclkRequalify s).pending = s.pending := by
  unfold mpclkRequalify; split <;> rfl
@[simp] theorem enterAdrift_pending (s : State) : (enterAdrift s).pending = s.pending := by
  unfold enterAdrift; dsimp only
  rw [← kept_fst, State.modFabric_kept, withdraw_kept, notify_kept]; rfl
@[simp] theorem mpclkLoss_pending (s : State) (n : Nat) : (mpclkLoss n s).pending = s.pending := by
  have h (x : State) (g : Clock → Clock) : (notify (x.modClock g) .timeHoldover {} []).pending = x.pending := by
    rw [← kept_fst, notify_kept]; rfl
  unfold mpclkLoss; split
  · rfl
  · dsimp only; split
    · rw [h]; rfl
    · split
      · rw [enterAdrift_pending]; rfl
      · rw [h]; rfl
    · rfl
@[simp] theorem holdoverLimit_pending (s : State) : (holdoverLimit s).pending = s.pending := by
  unfold holdoverLimit; split <;> simp
@[simp] theorem alwaysOnUp_pending (s : State) (m : Nat) : (alwaysOnUp m s).pending = s.pending := by
  unfold alwaysOnUp; split
  · rfl
  · dsimp only; rw [← kept_fst, tryStart_kept]; rfl
@[simp] theorem vinFall_pending (s : State) : (vinFall s).pending = s.pending := by
  have h := pending_of_kept (powerOffIfOn_kept .poweredOff false s)
  exact h
/-- The rows whose work is the count and the time state themselves. -/
def clockRow : Instr → Bool
  | .mpclkEdge _ _ | .localMilepostEdge | .countAdopt | .mpclkRequalify | .mpclkLoss _ | .holdoverLimit | .alwaysOnUp _ | .vinFallAlwaysOff => true
  | _ => false
theorem exec_kept (i : Instr) (hi : clockRow i = false) (s t : State) (h : exec i s = .next t) : kept t = kept s := by
  cases i with
  | mpclkEdge => cases hi
  | localMilepostEdge => cases hi
  | mpclkLoss => cases hi
  | mpclkRequalify => cases hi
  | slewDone => exact execSlewDone_kept s t h
  | countAdopt => cases hi
  | holdoverLimit => cases hi
  | timeUnsetReminder => exact execTimeUnsetReminder_kept s t h
  | rollCall => exact execRollCall_kept s t h
  | failover => exact execFailover_kept s t h
  | fenceEntry => exact execFenceEntry_kept _ s t h
  | stageEnd => exact execStageEnd_kept _ s t h
  | scrub => exact execScrub_kept _ s t h
  | stageStart => exact execStageStart_kept _ s t h
  | cellarSlot => exact execCellarSlot_kept s t h
  | collective => exact execCollective_kept _ s t h
  | ticketExpiry => exact execTicketExpiry_kept _ s t h
  | digestSweep => exact execDigestSweep_kept s t h
  | arrayRow => exact execArrayRow_kept _ _ s t h
  | shadowLoad => exact execShadowLoad_kept _ _ s t h
  | blockSwap => exact execBlockSwap_kept _ s t h
  | arrayParityError => exact execArrayParityError_kept _ s t h
  | accOpen => exact execAccOpen_kept _ _ s t h
  | promotion => exact execPromotion_kept _ _ _ _ _ s t h
  | drain => exact execDrain_kept _ _ s t h
  | accEccError => exact execAccEccError_kept _ _ s t h
  | nop => exact execNop_kept _ _ s t h
  | endProgram => exact execEndProgram_kept _ _ s t h
  | loop => exact execLoop_kept _ _ s t h
  | wait => exact execWait_kept _ _ s t h
  | post => exact execPost_kept _ _ s t h
  | tag => exact execTag_kept _ _ s t h
  | sld => exact execSld_kept _ _ s t h
  | stream => exact execStream_kept _ _ s t h
  | add => exact execAdd_kept _ _ s t h
  | sub => exact execSub_kept _ _ s t h
  | mul => exact execMul_kept _ _ s t h
  | fma => exact execFma_kept _ _ s t h
  | min => exact execMin_kept _ _ s t h
  | max => exact execMax_kept _ _ s t h
  | abs => exact execAbs_kept _ _ s t h
  | neg => exact execNeg_kept _ _ s t h
  | sel => exact execSel_kept _ _ s t h
  | cmp => exact execCmp_kept _ _ s t h
  | exp2 => exact execExp2_kept _ _ s t h
  | log2 => exact execLog2_kept _ _ s t h
  | rcp => exact execRcp_kept _ _ s t h
  | sqrt => exact execSqrt_kept _ _ s t h
  | rsqrt => exact execRsqrt_kept _ _ s t h
  | tanh => exact execTanh_kept _ _ s t h
  | cvt => exact execCvt_kept _ _ s t h
  | quant => exact execQuant_kept _ _ s t h
  | iadd => exact execIadd_kept _ _ s t h
  | iand => exact execIand_kept _ _ s t h
  | ior => exact execIor_kept _ _ s t h
  | ixor => exact execIxor_kept _ _ s t h
  | ishl => exact execIshl_kept _ _ s t h
  | ishr => exact execIshr_kept _ _ s t h
  | mset => exact execMset_kept _ _ s t h
  | mand => exact execMand_kept _ _ s t h
  | mor => exact execMor_kept _ _ s t h
  | mxor => exact execMxor_kept _ _ s t h
  | mnot => exact execMnot_kept _ _ s t h
  | gseed => exact execGseed_kept _ _ s t h
  | rand => exact execRand_kept _ _ s t h
  | drop => exact execDrop_kept _ _ s t h
  | rtz => exact execRtz_kept _ _ s t h
  | rtacc => exact execRtacc_kept _ _ s t h
  | rtred => exact execRtred_kept _ _ s t h
  | rtout => exact execRtout_kept _ _ s t h
  | updateJobStart => exact execUpdateJobStart_kept _ _ s t h
  | updateSlice => exact execUpdateSlice_kept _ s t h
  | updateCommit => exact execUpdateCommit_kept _ _ s t h
  | passAdmit => exact execPassAdmit_kept _ _ s t h
  | forwardPassEnd => exact execForwardPassEnd_kept _ _ s t h
  | backwardPassEnd => exact execBackwardPassEnd_kept _ _ s t h
  | stepCommit => exact execStepCommit_kept _ _ s t h
  | passEnd => exact execPassEnd_kept _ _ s t h
  | pointArrival => exact execPointArrival_kept _ _ s t h
  | replacementCommit => exact execReplacementCommit_kept _ s t h
  | checkoutMoveCommit => exact execCheckoutMoveCommit_kept _ s t h
  | adapterReadDone => exact execAdapterReadDone_kept _ s t h
  | objectMoveCommit => exact execObjectMoveCommit_kept _ s t h
  | objectFillDone => exact execObjectFillDone_kept _ s t h
  | objectTransferDone => exact execObjectTransferDone_kept _ _ s t h
  | shardFetch => exact execShardFetch_kept _ s t h
  | shardArrival => exact execShardArrival_kept _ _ _ s t h
  | hbmCorrectedError => exact execHbmCorrectedError_kept _ _ s t h
  | hbmUncorrectableError => exact execHbmUncorrectableError_kept _ _ _ s t h
  | loftCorrectedError => exact execLoftCorrectedError_kept _ _ s t h
  | loftUncorrectableError => exact execLoftUncorrectableError_kept _ _ _ s t h
  | loftChannelLoss => exact execLoftChannelLoss_kept _ s t h
  | storeCorrectedError => exact execStoreCorrectedError_kept _ _ s t h
  | storeEccError => exact execStoreEccError_kept _ _ _ _ s t h
  | secureStoreKeyError => exact execSecureStoreKeyError_kept _ s t h
  | shardProgramDone => exact execShardProgramDone_kept _ _ _ s t h
  | shardReadbackDone => exact execShardReadbackDone_kept _ _ _ s t h
  | sweepReadDone => exact execSweepReadDone_kept _ _ s t h
  | shardEraseDone => exact execShardEraseDone_kept _ s t h
  | holderTimeout => exact execHolderTimeout_kept _ s t h
  | switchEdge => exact execSwitchEdge_kept _ s t h
  | parkThreshold => exact execParkThreshold_kept _ s t h
  | swapOutStart => exact execSwapOutStart_kept _ s t h
  | swapInStart => exact execSwapInStart_kept _ s t h
  | swapCommit => exact execSwapCommit_kept _ s t h
  | wingRemoveDone => exact execWingRemoveDone_kept _ s t h
  | trainingPhaseDone => exact execTrainingPhaseDone_kept _ _ s t h
  | trainingPhaseOverrun => exact execTrainingPhaseOverrun_kept _ s t h
  | trainingRetry => exact execTrainingRetry_kept _ s t h
  | hello => exact execHello_kept _ _ s t h
  | laneLockLoss => exact execLaneLockLoss_kept _ _ _ s t h
  | uncorrectableCodeword => exact execUncorrectableCodeword_kept _ _ s t h
  | dataFrame => exact execDataFrame_kept _ _ s t h
  | retryFrame => exact execRetryFrame_kept _ _ s t h
  | idleFrame => exact execIdleFrame_kept _ _ s t h
  | ackTimeout => exact execAckTimeout_kept _ s t h
  | linkRetrainDone => exact execLinkRetrainDone_kept _ _ s t h
  | entry => exact execEntry_kept _ _ _ s t h
  | rollCallClose => exact execRollCallClose_kept s t h
  | ringBlock => exact execRingBlock_kept _ _ _ _ _ _ s t h
  | ringDone => exact execRingDone_kept _ _ _ _ s t h
  | mirrorWrite => exact execMirrorWrite_kept _ _ _ _ s t h
  | mirrorAck => exact execMirrorAck_kept _ _ s t h
  | mirrorAckTimeout => exact execMirrorAckTimeout_kept _ _ s t h
  | bcastData => exact execBcastData_kept _ _ _ _ s t h
  | bcastAck => exact execBcastAck_kept _ _ s t h
  | reduceData => exact execReduceData_kept _ _ _ s t h
  | collectiveCommit => exact execCollectiveCommit_kept _ s t h
  | shardRequest => exact execShardRequest_kept _ _ _ s t h
  | shardData => exact execShardData_kept _ _ _ _ s t h
  | notHeld => exact execNotHeld_kept _ _ s t h
  | remoteRead => exact execRemoteRead_kept _ _ _ _ s t h
  | remoteData => exact execRemoteData_kept _ _ _ s t h
  | relayTimeout => exact execRelayTimeout_kept _ s t h
  | fabricParamsApply => exact execFabricParamsApply_kept s t h
  | cmdDoorbell => exact execCmdDoorbell_kept _ _ _ s t h
  | replyHeadWrite => exact execReplyHeadWrite_kept _ _ s t h
  | noticeHeadWrite => exact execNoticeHeadWrite_kept _ _ s t h
  | cmdWindowWrite => exact execCmdWindowWrite_kept _ _ _ s t h
  | replyWindowRead => exact execReplyWindowRead_kept _ _ s t h
  | noticeWindowRead => exact execNoticeWindowRead_kept _ _ s t h
  | packetArrivalTimeout => exact execPacketArrivalTimeout_kept _ s t h
  | gapNoticeTimeout => exact execGapNoticeTimeout_kept _ _ s t h
  | gapSkipTimeout => exact execGapSkipTimeout_kept _ _ s t h
  | leaseExpiry => exact execLeaseExpiry_kept _ _ s t h
  | lapseHoldExpiry => exact execLapseHoldExpiry_kept _ _ s t h
  | probationEnd => exact execProbationEnd_kept _ _ s t h
  | noOp => exact execNoOp_kept _ _ s t h
  | sessionOpen => exact execSessionOpen_kept _ _ s t h
  | sessionResume => exact execSessionResume_kept _ _ s t h
  | sessionStatus => exact execSessionStatus_kept _ _ s t h
  | sessionSet => exact execSessionSet_kept _ _ s t h
  | sessionClose => exact execSessionClose_kept _ _ s t h
  | functionStatus => exact execFunctionStatus_kept _ _ s t h
  | timeSeed => exact execTimeSeed_kept _ _ s t h
  | timeRead => exact execTimeRead_kept _ _ s t h
  | wingCreate => exact execWingCreate_kept _ _ s t h
  | wingResize => exact execWingResize_kept _ _ s t h
  | wingRemove => exact execWingRemove_kept _ _ s t h
  | wingReassign => exact execWingReassign_kept _ _ s t h
  | wingStatus => exact execWingStatus_kept _ _ s t h
  | stallRead => exact execStallRead_kept _ _ s t h
  | contextCreate => exact execContextCreate_kept _ _ s t h
  | contextSet => exact execContextSet_kept _ _ s t h
  | contextDestroy => exact execContextDestroy_kept _ _ s t h
  | programLoad => exact execProgramLoad_kept _ _ _ s t h
  | programFree => exact execProgramFree_kept _ _ s t h
  | passTrain => exact execPassTrain_kept _ _ s t h
  | passServe => exact execPassServe_kept _ _ s t h
  | serveOpen => exact execServeOpen_kept _ _ s t h
  | serveAppend => exact execServeAppend_kept _ _ s t h
  | serveClose => exact execServeClose_kept _ _ s t h
  | updateRun => exact execUpdateRun_kept _ _ s t h
  | watchRead => exact execWatchRead_kept _ _ s t h
  | watchSet => exact execWatchSet_kept _ _ s t h
  | watchReset => exact execWatchReset_kept _ _ s t h
  | detectorSet => exact execDetectorSet_kept _ _ s t h
  | detectorRelease => exact execDetectorRelease_kept _ _ s t h
  | objectCreate => exact execObjectCreate_kept _ _ s t h
  | objectMove => exact execObjectMove_kept _ _ s t h
  | objectResize => exact execObjectResize_kept _ _ s t h
  | objectFree => exact execObjectFree_kept _ _ s t h
  | objectStatus => exact execObjectStatus_kept _ _ s t h
  | objectWrite => exact execObjectWrite_kept _ _ s t h
  | objectRead => exact execObjectRead_kept _ _ s t h
  | windowSet => exact execWindowSet_kept _ _ s t h
  | adapterLoad => exact execAdapterLoad_kept _ _ _ s t h
  | roomPin => exact execRoomPin_kept _ _ s t h
  | checkout => exact execCheckout_kept _ _ s t h
  | adapterDelete => exact execAdapterDelete_kept _ _ s t h
  | adapterRead => exact execAdapterRead_kept _ _ s t h
  | adapterStatus => exact execAdapterStatus_kept _ _ s t h
  | baseInstall => exact execBaseInstall_kept _ _ _ s t h
  | installCancel => exact execInstallCancel_kept _ _ s t h
  | baseRemove => exact execBaseRemove_kept _ _ s t h
  | baseSelect => exact execBaseSelect_kept _ _ s t h
  | sweepSet => exact execSweepSet_kept _ _ s t h
  | cellarStatus => exact execCellarStatus_kept _ _ s t h
  | fabricSet => exact execFabricSet_kept _ _ _ s t h
  | collectiveSet => exact execCollectiveSet_kept _ _ s t h
  | collectivePost => exact execCollectivePost_kept _ _ s t h
  | ringSet => exact execRingSet_kept _ _ _ s t h
  | ringStatus => exact execRingStatus_kept _ _ s t h
  | fabricStatus => exact execFabricStatus_kept _ _ s t h
  | portRetrain => exact execPortRetrain_kept _ _ s t h
  | mirrorAreaSet => exact execMirrorAreaSet_kept _ _ s t h
  | passportGet => exact execPassportGet_kept _ _ _ s t h
  | keyRelease => exact execKeyRelease_kept _ _ s t h
  | partyKeyLoad => exact execPartyKeyLoad_kept _ _ s t h
  | partyKeyRemove => exact execPartyKeyRemove_kept _ _ s t h
  | partyBind => exact execPartyBind_kept _ _ s t h
  | lifeCycleSet => exact execLifeCycleSet_kept _ _ s t h
  | faultLogRead => exact execFaultLogRead_kept _ _ s t h
  | tileMap => exact execTileMap_kept _ _ s t h
  | pcRetire => exact execPcRetire_kept _ _ s t h
  | loftEvacuate => exact execLoftEvacuate_kept _ _ s t h
  | wingFence => exact execWingFence_kept _ _ s t h
  | firmwareHandover => exact execFirmwareHandover_kept _ _ _ s t h
  | domainSet => exact execDomainSet_kept _ _ s t h
  | vfSet => exact execVfSet_kept _ _ s t h
  | tallyRead => exact execTallyRead_kept _ _ s t h
  | tallyClose => exact execTallyClose_kept _ _ s t h
  | perstNAssert => exact execPerstNAssert_kept s t h
  | perstNDeassert => exact execPerstNDeassert_kept s t h
  | configRequest => exact execConfigRequest_kept _ _ s t h
  | flr => exact execFlr_kept _ s t h
  | vfEnableClear => exact execVfEnableClear_kept s t h
  | busMasterEnableClear => exact execBusMasterEnableClear_kept _ s t h
  | linkLoss => exact execLinkLoss_kept s t h
  | functionResetDone => exact execFunctionResetDone_kept _ s t h
  | hostCompletion => exact execHostCompletion_kept _ _ _ _ s t h
  | atsInvalidate => exact execAtsInvalidate_kept _ _ s t h
  | fnCtrlApply => exact execFnCtrlApply_kept _ _ s t h
  | decoderCommit => exact execDecoderCommit_kept _ _ _ _ s t h
  | decoderUncommit => exact execDecoderUncommit_kept _ s t h
  | cxlMemRead => exact execCxlMemRead_kept _ s t h
  | cxlMemWrite => exact execCxlMemWrite_kept _ _ s t h
  | ideIntegrityFailure => exact execIdeIntegrityFailure_kept _ s t h
  | passportRequest => exact execPassportRequest_kept _ _ s t h
  | ideKeys => exact execIdeKeys_kept _ _ s t h
  | debugUnlock => exact execDebugUnlock_kept _ s t h
  | doeDiscovery => exact execDoeDiscovery_kept _ s t h
  | doeAbort => exact execDoeAbort_kept s t h
  | porterKeeperReset => exact execPorterKeeperReset_kept _ _ s t h
  | porterSecureWipe => exact execPorterSecureWipe_kept _ _ s t h
  | porterWingFence => exact execPorterWingFence_kept _ _ s t h
  | porterPowerOff => exact execPorterPowerOff_kept _ _ s t h
  | mpCountRead => exact execMpCountRead_kept s t h
  | lowHalfRead => exact execLowHalfRead_kept _ _ s t h
  | registerWrite => exact execRegisterWrite_kept _ _ _ _ _ s t h
  | meshBreak => exact execMeshBreak_kept s t h
  | supplyExcursion => exact execSupplyExcursion_kept _ s t h
  | clockExcursion => exact execClockExcursion_kept _ s t h
  | thermalExcursion => exact execThermalExcursion_kept _ s t h
  | tamperIn => exact execTamperIn_kept _ s t h
  | akRedrawDone => exact execAkRedrawDone_kept s t h
  | scrubDone => exact execScrubDone_kept _ s t h
  | counterSnapshot => exact execCounterSnapshot_kept s t h
  | journalWrite => exact execJournalWrite_kept s t h
  | journalWriteDone => exact execJournalWriteDone_kept s t h
  | watchdogExpiry => exact execWatchdogExpiry_kept _ s t h
  | keeperCacheError => exact execKeeperCacheError_kept 0 s t h
  | keeperRestartDone => exact execKeeperRestartDone_kept s t h
  | keeperMemoryError => exact execKeeperMemoryError_kept _ s t h
  | handoverTakeover => exact execHandoverTakeover_kept s t h
  | handoverTimeout => exact execHandoverTimeout_kept s t h
  | imageStoreWrite => exact execImageStoreWrite_kept s t h
  | spareSwitch => exact execSpareSwitch_kept _ _ s t h
  | pcRetireDone => exact execPcRetireDone_kept _ s t h
  | loftEvacuateDone => exact execLoftEvacuateDone_kept _ s t h
  | loftReturnDone => exact execLoftReturnDone_kept _ _ s t h
  | pfailNAssert => exact execPfailNAssert_kept s t h
  | thermalWarningCross => exact execThermalWarningCross_kept _ _ s t h
  | thermalWarningClear => exact execThermalWarningClear_kept s t h
  | thermalTrip => exact execThermalTrip_kept _ _ s t h
  | sensorFault => exact execSensorFault_kept _ _ s t h
  | vinRiseAlwaysOn => exact execVinRiseAlwaysOn_kept s t h
  | alwaysOnUp => cases hi
  | vinFallAlwaysOff => cases hi
  | vinGood => exact execVinGood_kept s t h
  | vinHigh => exact execVinHigh_kept s t h
  | vinOver => exact execVinOver_kept s t h
  | vinLow => exact execVinLow_kept s t h
  | vinLowNoWarn => exact execVinLowNoWarn_kept s t h
  | vinBelowHoldup => exact execVinBelowHoldup_kept s t h
  | voltageRecordRepeat => exact execVoltageRecordRepeat_kept s t h
  | domainPowerGood => exact execDomainPowerGood_kept _ s t h
  | powerGoodTimeout => exact execPowerGoodTimeout_kept _ s t h
  | domainSequenceDone => exact execDomainSequenceDone_kept _ s t h
  | dozeRequest => exact execDozeRequest_kept s t h
  | dozeWake => exact execDozeWake_kept _ s t h
  | wakeAlarm => exact execWakeAlarm_kept s t h
  | bootStepDone => exact execBootStepDone_kept _ s t h
  | bootStepOverrun => exact execBootStepOverrun_kept _ s t h
  | retryWaitEnd => exact execRetryWaitEnd_kept s t h
  | i3cSetdasa => exact execI3cSetdasa_kept _ _ s t h
  | i3cEntdaa => exact execI3cEntdaa_kept _ s t h
  | i3cRstdaa => exact execI3cRstdaa_kept s t h
  | i3cGetstatus => exact execI3cGetstatus_kept s t h
  | jtagBypass => exact execJtagBypass_kept s t h
  | jtagIdcode => exact execJtagIdcode_kept s t h
  | jtagExtest => exact execJtagExtest_kept s t h
  | jtagSample => exact execJtagSample_kept s t h
  | jtagPreload => exact execJtagPreload_kept _ s t h
  | jtagDebug => exact execJtagDebug_kept 0 s t h
  | vfEnableSet => exact execVfEnableSet_kept _ s t h
  | busMasterEnableSet => exact execBusMasterEnableSet_kept _ s t h
  | linkUp => exact execLinkUp_kept _ _ _ _ s t h
  | snoop => exact execSnoop_kept _ s t h
theorem exec_pending (i : Instr) (s t : State) (h : exec i s = .next t) : t.pending = s.pending := by
  cases hi : clockRow i with
  | false => exact pending_of_kept (exec_kept i hi s t h)
  | true =>
    cases i <;> try cases hi
    · cases h; simp
    · cases h; simp
    · cases h; simp
    · cases h; simp
    · cases h; split <;> simp
    · cases h; simp
    · cases h; simp
    · cases h; simp

end Sys2Proof.Machine
end

