-- ==== Sys2Proof/Laws/Table.lean ====
section
/-! SUPPORT. The laws of the sparse tables and of the memories: a number read after it was written, every other number as
before, and the canonical form kept by every operation. -/

namespace Sys2Proof

open Sys2Proof.Machine

variable {α : Type}

/-! ### Reading after writing -/

@[simp] theorem tlook_terase_self (t : Tbl α) (i : Nat) : tlook (terase t i) i = none := by
  induction t with
  | nil => rfl
  | cons p t ih =>
    obtain ⟨j, x⟩ := p
    by_cases h : j = i
    · simp [terase, h, ih]
    · simp [terase, h, tlook, ih]

theorem tlook_terase_ne (t : Tbl α) {i k : Nat} (h : k ≠ i) : tlook (terase t i) k = tlook t k := by
  induction t with
  | nil => rfl
  | cons p t ih =>
    obtain ⟨j, x⟩ := p
    by_cases hj : j = i
    · subst hj; simp [terase, tlook, ih, Ne.symm h]
    · simp [terase, hj, tlook, ih]

theorem tlook_tinsert_self (t : Tbl α) (i : Nat) (v : α) (h : tlook t i = none) : tlook (tinsert t i v) i = some v := by
  induction t with
  | nil => simp [tinsert, tlook]
  | cons p t ih =>
    obtain ⟨j, x⟩ := p
    by_cases hj : j = i
    · simp [tlook, hj] at h
    · have h' : tlook t i = none := by simpa [tlook, hj] using h
      by_cases hl : i < j <;> simp [tinsert, hl, tlook, hj, ih h']

theorem tlook_tinsert_ne (t : Tbl α) {i k : Nat} (v : α) (h : k ≠ i) : tlook (tinsert t i v) k = tlook t k := by
  induction t with
  | nil => simp [tinsert, tlook, Ne.symm h]
  | cons p t ih =>
    obtain ⟨j, x⟩ := p
    by_cases hl : i < j <;> simp [tinsert, hl, tlook, Ne.symm h, ih]

variable [DecidableEq α]

/-- A number reads as what was written to it. -/
@[simp] theorem tgetD_tputD_self (d : α) (t : Tbl α) (i : Nat) (v : α) : tgetD d (tputD d t i v) i = v := by
  unfold tgetD tputD
  split
  · next h => simp [h]
  · rw [tlook_tinsert_self _ _ _ (tlook_terase_self t i)]; rfl

/-- Every other number reads as before. -/
theorem tgetD_tputD_ne (d : α) (t : Tbl α) {i k : Nat} (v : α) (h : k ≠ i) : tgetD d (tputD d t i v) k = tgetD d t k := by
  unfold tgetD tputD
  split
  · rw [tlook_terase_ne _ h]
  · rw [tlook_tinsert_ne _ _ h, tlook_terase_ne _ h]

theorem tgetD_tputD (d : α) (t : Tbl α) (i k : Nat) (v : α) :
    tgetD d (tputD d t i v) k = if k = i then v else tgetD d t k := by
  split
  · next h => rw [h, tgetD_tputD_self]
  · next h => exact tgetD_tputD_ne d t v h

variable [Inhabited α]

@[simp] theorem tget_tput_self (t : Tbl α) (i : Nat) (v : α) : tget (tput t i v) i = v := tgetD_tputD_self _ t i v

theorem tget_tput_ne (t : Tbl α) {i k : Nat} (v : α) (h : k ≠ i) : tget (tput t i v) k = tget t k := tgetD_tputD_ne _ t v h

theorem tget_tput (t : Tbl α) (i k : Nat) (v : α) : tget (tput t i v) k = if k = i then v else tget t k := tgetD_tputD _ t i k v

@[simp] theorem tget_tmod_self (t : Tbl α) (i : Nat) (f : α → α) : tget (tmod t i f) i = f (tget t i) := tget_tput_self t i _

theorem tget_tmod_ne (t : Tbl α) {i k : Nat} (f : α → α) (h : k ≠ i) : tget (tmod t i f) k = tget t k := tget_tput_ne t _ h

/-! ### The canonical form -/

omit [DecidableEq α] [Inhabited α] in
theorem trising_mono {t : Tbl α} {a b : Nat} (h : trising b t = true) (hab : a ≤ b) : trising a t = true := by
  cases t with
  | nil => rfl
  | cons p t =>
    obtain ⟨j, x⟩ := p
    simp only [trising, Bool.and_eq_true, decide_eq_true_eq] at h ⊢
    exact ⟨by omega, h.2⟩

omit [DecidableEq α] [Inhabited α] in
theorem trising_terase {t : Tbl α} {b : Nat} (i : Nat) (h : trising b t = true) : trising b (terase t i) = true := by
  induction t generalizing b with
  | nil => rfl
  | cons p t ih =>
    obtain ⟨j, x⟩ := p
    simp only [trising, Bool.and_eq_true, decide_eq_true_eq] at h
    unfold terase
    split
    · exact trising_mono (ih h.2) (by omega)
    · simp only [trising, Bool.and_eq_true, decide_eq_true_eq]; exact ⟨h.1, ih h.2⟩

omit [DecidableEq α] [Inhabited α] in
theorem trising_tinsert {t : Tbl α} {b i : Nat} (v : α) (h : trising b t = true) (hb : b ≤ i) (hn : tlook t i = none) :
    trising b (tinsert t i v) = true := by
  induction t generalizing b with
  | nil => simp [tinsert, trising, hb]
  | cons p t ih =>
    obtain ⟨j, x⟩ := p
    simp only [trising, Bool.and_eq_true, decide_eq_true_eq] at h
    have hj : j ≠ i := by rintro rfl; simp [tlook] at hn
    have hn' : tlook t i = none := by simpa [tlook, hj] using hn
    unfold tinsert
    split
    · next hl => simp only [trising, Bool.and_eq_true, decide_eq_true_eq]; exact ⟨hb, by omega, h.2⟩
    · next hl => simp only [trising, Bool.and_eq_true, decide_eq_true_eq]; exact ⟨h.1, ih h.2 (by omega) hn'⟩

omit [DecidableEq α] [Inhabited α] in
theorem terase_sub (t : Tbl α) (i : Nat) : ∀ p ∈ terase t i, p ∈ t := by
  induction t with
  | nil => intro p h; exact h
  | cons q t ih =>
    obtain ⟨j, x⟩ := q
    intro p hp
    unfold terase at hp
    split at hp
    · exact List.mem_cons_of_mem _ (ih p hp)
    · rcases List.mem_cons.mp hp with rfl | hp
      · exact List.mem_cons_self
      · exact List.mem_cons_of_mem _ (ih p hp)

omit [DecidableEq α] [Inhabited α] in
theorem mem_tinsert {t : Tbl α} {i : Nat} {v : α} : ∀ p ∈ tinsert t i v, p = (i, v) ∨ p ∈ t := by
  induction t with
  | nil => intro p h; simpa [tinsert] using h
  | cons q t ih =>
    obtain ⟨j, x⟩ := q
    intro p hp
    unfold tinsert at hp
    split at hp
    · simpa using hp
    · rcases List.mem_cons.mp hp with rfl | hp
      · exact .inr List.mem_cons_self
      · exact (ih p hp).imp_right (List.mem_cons_of_mem _)

omit [Inhabited α] in
/-- Writing a number keeps the canonical form. -/
theorem twf_tputD {d : α} {t : Tbl α} (i : Nat) (v : α) (h : twf d t = true) : twf d (tputD d t i v) = true := by
  simp only [twf, Bool.and_eq_true, List.all_eq_true, decide_eq_true_eq] at h ⊢
  unfold tputD
  split
  · exact ⟨trising_terase i h.1, fun p hp => h.2 p (terase_sub t i p hp)⟩
  · next hv =>
    refine ⟨trising_tinsert v (trising_terase i h.1) (Nat.zero_le i) (tlook_terase_self t i), fun p hp => ?_⟩
    rcases mem_tinsert p hp with rfl | hp
    · exact hv
    · exact h.2 p (terase_sub t i p hp)

theorem twf_tput {t : Tbl α} (i : Nat) (v : α) (h : twf default t = true) : twf default (tput t i v) = true := twf_tputD i v h

theorem twf_tmod {t : Tbl α} (i : Nat) (f : α → α) (h : twf default t = true) : twf default (tmod t i f) = true := twf_tputD i _ h

/-- Changing every listed value gives a table in the canonical form. -/
theorem twf_tmap (f : Nat → α → α) (t : Tbl α) : twf default (tmap f t) = true := by
  have h (l : Tbl α) (u : Tbl α) (hu : twf default u = true) :
      twf default (l.foldl (fun u p => tput u p.1 (f p.1 p.2)) u) = true := by
    induction l generalizing u with
    | nil => exact hu
    | cons p l ih => exact ih _ (twf_tput _ _ hu)
  exact h t [] rfl

omit [DecidableEq α] [Inhabited α] in
theorem trising_filter {t : Tbl α} {b : Nat} (q : Nat × α → Bool) (h : trising b t = true) : trising b (t.filter q) = true := by
  induction t generalizing b with
  | nil => rfl
  | cons p t ih =>
    obtain ⟨j, x⟩ := p
    simp only [trising, Bool.and_eq_true, decide_eq_true_eq] at h
    rw [List.filter_cons]
    split
    · simp only [trising, Bool.and_eq_true, decide_eq_true_eq]; exact ⟨h.1, ih h.2⟩
    · exact trising_mono (ih h.2) (by omega)

omit [Inhabited α] in
/-- A part of a table in the canonical form is in it. -/
theorem twf_filter {d : α} {t : Tbl α} (q : Nat × α → Bool) (h : twf d t = true) : twf d (t.filter q) = true := by
  simp only [twf, Bool.and_eq_true, List.all_eq_true, decide_eq_true_eq] at h ⊢
  exact ⟨trising_filter q h.1, fun p hp => h.2 p (List.mem_filter.mp hp).1⟩

/-! ### Memories -/

@[simp] theorem mread_mwrite_self (m : Mem) (a : Nat) (b : BitVec 8) : mread (mwrite m a b) a = b := tgetD_tputD_self _ m a b

theorem mread_mwrite_ne (m : Mem) {a c : Nat} (b : BitVec 8) (h : c ≠ a) : mread (mwrite m a b) c = mread m c :=
  tgetD_tputD_ne _ m b h

theorem Memory.wf_mwrite {m : Mem} (a : Nat) (b : BitVec 8) (h : Memory.wf m = true) : Memory.wf (mwrite m a b) = true :=
  twf_tputD a b h

theorem Memory.wf_mstore {m : Mem} (a : Nat) (bs : Bytes) (h : Memory.wf m = true) : Memory.wf (mstore m a bs) = true := by
  induction bs generalizing m a with
  | nil => exact h
  | cons b bs ih => exact ih (a + 1) (Memory.wf_mwrite a b h)

theorem Memory.wf_mclear {m : Mem} (a n : Nat) (h : Memory.wf m = true) : Memory.wf (mclear m a n) = true := twf_filter _ h

theorem Memory.wf_mslice {m : Mem} (a n : Nat) (h : Memory.wf m = true) : Memory.wf (mslice m a n) = true := by
  have hf := twf_filter (fun c => decide (a ≤ c.1) && decide (c.1 < a + n)) h
  have hr (l : Mem) (b : Nat) (hl : trising b l = true) (hb : ∀ p ∈ l, a ≤ p.1) :
      trising (b - a) (l.map (fun c => (c.1 - a, c.2))) = true := by
    induction l generalizing b with
    | nil => rfl
    | cons p l ih =>
      obtain ⟨j, x⟩ := p
      simp only [trising, Bool.and_eq_true, decide_eq_true_eq] at hl
      have ha : a ≤ j := hb (j, x) List.mem_cons_self
      simp only [List.map_cons, trising, Bool.and_eq_true, decide_eq_true_eq]
      exact ⟨by omega, trising_mono (ih (j + 1) hl.2 fun p hp => hb p (List.mem_cons_of_mem _ hp)) (by omega)⟩
  simp only [Memory.wf, mslice, twf, Bool.and_eq_true, List.all_eq_true, decide_eq_true_eq] at hf ⊢
  refine ⟨?_, fun p hp => ?_⟩
  · refine trising_mono (hr _ 0 hf.1 fun p hp => ?_) (by omega)
    have := (List.mem_filter.mp hp).2
    simp only [Bool.and_eq_true, decide_eq_true_eq] at this
    exact this.1
  · obtain ⟨c, hc, rfl⟩ := List.mem_map.mp hp
    exact hf.2 c hc

theorem Memory.wf_mput {m : Mem} (base len : Nat) (from_ : Mem) (h : Memory.wf m = true) :
    Memory.wf (mput m base len from_) = true := by
  have hl (l : Mem) (u : Mem) (hu : Memory.wf u = true) : Memory.wf (l.foldl (fun m c => mwrite m (base + c.1) c.2) u) = true := by
    induction l generalizing u with
    | nil => exact hu
    | cons p l ih => exact ih _ (Memory.wf_mwrite _ _ hu)
  exact hl from_ _ (Memory.wf_mclear base len h)

/-- Every byte outside a store reads as before. -/
theorem mread_mstore_out (m : Mem) (a c : Nat) (bs : Bytes) (h : c < a ∨ a + bs.length ≤ c) :
    mread (mstore m a bs) c = mread m c := by
  induction bs generalizing m a with
  | nil => rfl
  | cons b bs ih =>
    simp only [List.length_cons] at h
    rw [mstore, ih _ _ (by omega), mread_mwrite_ne _ _ (by omega)]

/-- A stored byte reads back. -/
theorem mread_mstore_in (m : Mem) (a : Nat) (bs : Bytes) (i : Nat) (h : i < bs.length) : mread (mstore m a bs) (a + i) = bs[i] := by
  induction bs generalizing m a i with
  | nil => simp at h
  | cons b bs ih =>
    cases i with
    | zero => rw [mstore, Nat.add_zero, mread_mstore_out _ _ _ _ (by omega)]; simp
    | succ i =>
      have := ih (mwrite m a b) (a + 1) i (by simpa using h)
      rw [mstore, show a + (i + 1) = a + 1 + i by omega]; simpa using this

/-- At reset every memory lists nothing, and has the canonical form. -/
theorem reset_memory_wf : Memory.wf State.reset.qmem = true ∧ State.reset.led.objects = [] ∧ State.reset.tiles = [] := by
  exact ⟨rfl, rfl, rfl⟩

end Sys2Proof
end

