-- ==== Sys2Proof/Laws/Memory.lean ====
section
/-! SUPPORT. The larger memory operations keep the canonical form: drains, torn ranges, a store copied to a spare, a context's
state gathered into its SAVE object and a SAVE object's contents for another tile set. -/

namespace Sys2Proof.Machine

open Sys2Proof

theorem wf_drainRows {m : Mem} (base : Nat) (bf16 : Bool) (l : List (Nat × Nat × Rounded)) (h : Memory.wf m = true) :
    Memory.wf (drainRows m base bf16 l) = true := by
  unfold drainRows
  induction l generalizing m with
  | nil => exact h
  | cons x l ih => exact ih (Memory.wf_mstore _ _ h)

theorem wf_gradientDrain {m : Mem} (a : Acc) (base : Nat) (first : Bool) (k : Nat) (h : Memory.wf m = true) :
    Memory.wf (gradientDrain a base first k m).2 = true := by
  have fold {β γ : Type} (f : γ × Mem → β → γ × Mem) (hf : ∀ x b, Memory.wf x.2 = true → Memory.wf (f x b).2 = true)
      (l : List β) (x : γ × Mem) (hx : Memory.wf x.2 = true) : Memory.wf (l.foldl f x).2 = true := by
    induction l generalizing x with
    | nil => exact hx
    | cons b l ih => exact ih _ (hf x b hx)
  exact fold _ (fun x r hx => fold _ (fun y c hy => Memory.wf_mstore _ _ hy) _ x hx) _ _ h

theorem wf_torn {m : Mem} (s : State) (off len : Nat) (h : Memory.wf m = true) : Memory.wf (torn s m off len) = true :=
  Memory.wf_mstore _ _ h

theorem wf_copiedStore (t : Tile) (bad : List Nat) (h : Memory.wf t.store = true) : Memory.wf (copiedStore t bad) = true := by
  unfold copiedStore
  generalize t.store = m at h
  induction bad generalizing m with
  | nil => exact h
  | cons k l ih => exact ih _ (Memory.wf_mclear _ _ h)

/-! ### Memories gathered from pieces -/

theorem trising_append {l k : Mem} {b e : Nat} (hl : trising b l = true) (hle : ∀ p ∈ l, p.1 < e) (hbe : b ≤ e)
    (hk : trising e k = true) : trising b (l ++ k) = true := by
  induction l generalizing b with
  | nil => exact trising_mono hk hbe
  | cons p l ih =>
    obtain ⟨j, x⟩ := p
    simp only [trising, Bool.and_eq_true, decide_eq_true_eq, List.cons_append] at hl ⊢
    have hj : j < e := hle (j, x) List.mem_cons_self
    exact ⟨hl.1, ih hl.2 (fun p hp => hle p (List.mem_cons_of_mem _ hp)) hj⟩

/-- A piece at an offset: its addresses rise from the offset and stay below its end. -/
def PieceAt (at_ len : Nat) (l : Mem) : Prop :=
  trising at_ l = true ∧ (∀ p ∈ l, p.1 < at_ + len) ∧ ∀ p ∈ l, p.2 ≠ (0 : BitVec 8)

theorem pieceAt_mslice {m : Mem} (a r k : Nat) (h : Memory.wf m = true) :
    PieceAt k r ((mslice m a r).map (fun c => (k + c.1, c.2))) := by
  have hw := Memory.wf_mslice a r h
  have hb : ∀ p ∈ mslice m a r, p.1 < r := by
    intro p hp
    obtain ⟨c, hc, rfl⟩ := List.mem_map.mp hp
    have := (List.mem_filter.mp hc).2
    simp only [Bool.and_eq_true, decide_eq_true_eq] at this
    dsimp only; omega
  have hr (l : Mem) (b : Nat) (hl : trising b l = true) : trising (k + b) (l.map (fun c => (k + c.1, c.2))) = true := by
    induction l generalizing b with
    | nil => rfl
    | cons p l ih =>
      obtain ⟨j, x⟩ := p
      simp only [trising, Bool.and_eq_true, decide_eq_true_eq] at hl
      simp only [List.map_cons, trising, Bool.and_eq_true, decide_eq_true_eq]
      exact ⟨by omega, by simpa [Nat.add_assoc] using ih (j + 1) hl.2⟩
  simp only [Memory.wf, twf, Bool.and_eq_true, List.all_eq_true, decide_eq_true_eq] at hw
  refine ⟨hr _ 0 hw.1, fun p hp => ?_, fun p hp => ?_⟩
  · obtain ⟨c, hc, rfl⟩ := List.mem_map.mp hp
    have := hb c hc; dsimp only; omega
  · obtain ⟨c, hc, rfl⟩ := List.mem_map.mp hp
    exact hw.2 c hc

/-- Pieces at rising places, one after the other. -/
theorem pieceAt_flatMap {β : Type} {l : List β} {ix : β → Nat} {f : β → Mem} {r b e : Nat} (hp : l.Pairwise (fun x y => ix x < ix y))
    (hf : ∀ x ∈ l, PieceAt (ix x * r) r (f x)) (hb : ∀ x ∈ l, b ≤ ix x * r ∧ ix x * r + r ≤ b + e) : PieceAt b e (l.flatMap f) := by
  refine ⟨?_, fun p hp => ?_, fun p hp => ?_⟩
  · induction l generalizing b e with
    | nil => rfl
    | cons x l ih =>
      rw [List.flatMap_cons]
      have hx := hf x List.mem_cons_self
      have hxb := hb x List.mem_cons_self
      rw [List.pairwise_cons] at hp
      refine trising_mono (trising_append (e := ix x * r + r) hx.1 hx.2.1 (by omega) ?_) hxb.1
      refine ih (e := b + e) hp.2 (fun y hy => hf y (List.mem_cons_of_mem _ hy)) fun y hy => ?_
      have h1 := Nat.mul_le_mul_right r (hp.1 y hy)
      have h2 := (hb y (List.mem_cons_of_mem _ hy)).2
      rw [Nat.succ_mul] at h1
      omega
  · obtain ⟨x, hx, hp⟩ := List.mem_flatMap.mp hp
    have := (hf x hx).2.1 p hp
    have := (hb x hx).2
    omega
  · obtain ⟨x, hx, hp⟩ := List.mem_flatMap.mp hp
    exact (hf x hx).2.2 p hp

theorem wf_append {l k : Mem} {e n : Nat} (hl : PieceAt 0 e l) (hk : PieceAt e n k) : Memory.wf (l ++ k) = true := by
  simp only [Memory.wf, twf, Bool.and_eq_true, List.all_eq_true, decide_eq_true_eq]
  refine ⟨trising_append hl.1 (fun p hp => by simpa using hl.2.1 p hp) (Nat.zero_le e) hk.1, fun p hp => ?_⟩
  rcases List.mem_append.mp hp with hp | hp
  · exact hl.2.2 p hp
  · exact hk.2.2 p hp

theorem zip_range_pairwise {β : Type} (l : List β) :
    ((List.range l.length).zip l).Pairwise (fun x y => x.1 < y.1) := by
  have h : (((List.range l.length).zip l).map Prod.fst).Pairwise (· < ·) := by
    rw [List.map_fst_zip (by simp)]; exact List.pairwise_lt_range
  exact List.pairwise_map.mp h

theorem zip_range_bound {β : Type} (l : List β) : ∀ x ∈ (List.range l.length).zip l, x.1 < l.length := by
  intro x hx
  have := (List.of_mem_zip hx).1
  simpa using this

/-- A context's state gathered for its SAVE object is in the canonical form (R258). -/
theorem wf_swappedOut {s : State} (w : Nat) (x : Ctx) (ht : ∀ n, Memory.wf (s.tile n).store = true) (hq : Memory.wf s.qmem = true) :
    Memory.wf (swappedOut s w x) = true := by
  unfold swappedOut
  dsimp only
  refine wf_append (e := (maskList 128 (s.wing w).tiles).length * (x.region * 32768)) (n := (maskList 256 x.slices).length * 2 ^ 20) ?_ ?_
  · refine pieceAt_flatMap (ix := Prod.fst) (r := x.region * 32768) (zip_range_pairwise _) (fun p _ => ?_) fun p hp => ?_
    · split
      · exact pieceAt_mslice _ _ _ (ht _)
      · exact ⟨rfl, by simp, by simp⟩
    · have h := Nat.mul_le_mul_right (x.region * 32768) (zip_range_bound _ p hp)
      rw [Nat.succ_mul] at h; omega
  · generalize hk : (maskList 128 (s.wing w).tiles).length * (x.region * 32768) = k
    have hg := pieceAt_flatMap (f := fun p : Nat × Nat => (mslice s.qmem (p.2 * 2 ^ 20) (2 ^ 20)).map (fun c => (p.1 * 2 ^ 20 + c.1, c.2)))
      (ix := Prod.fst) (r := 2 ^ 20) (b := 0) (e := (maskList 256 x.slices).length * 2 ^ 20)
      (zip_range_pairwise (maskList 256 x.slices)) (fun p _ => pieceAt_mslice _ _ _ hq) (fun p hp => by
        have h := Nat.mul_le_mul_right (2 ^ 20) (zip_range_bound _ p hp)
        rw [Nat.succ_mul] at h; omega)
    have hs (l : Mem) (b n : Nat) (h : PieceAt b n l) : PieceAt (k + b) n (l.map (fun c => (k + c.1, c.2))) := by
      refine ⟨?_, fun p hp => ?_, fun p hp => ?_⟩
      · have h1 := h.1
        clear h hg
        induction l generalizing b with
        | nil => rfl
        | cons p l ih =>
          obtain ⟨j, x⟩ := p
          simp only [trising, Bool.and_eq_true, decide_eq_true_eq, List.map_cons] at h1 ⊢
          exact ⟨by omega, by simpa [Nat.add_assoc] using ih (j + 1) h1.2⟩
      · obtain ⟨c, hc, rfl⟩ := List.mem_map.mp hp
        have := h.2.1 c hc; dsimp only; omega
      · obtain ⟨c, hc, rfl⟩ := List.mem_map.mp hp
        exact h.2.2 c hc
    have := hs _ _ _ hg
    simpa [List.map_flatMap, Nat.add_assoc, Function.comp_def] using this

theorem place_pairwise {l : List Nat} (h : l.Nodup) :
    l.Pairwise (fun a b => (l.takeWhile (fun t => decide (t ≠ a))).length < (l.takeWhile (fun t => decide (t ≠ b))).length) := by
  induction l with
  | nil => exact List.Pairwise.nil
  | cons x l ih =>
    rw [List.nodup_cons] at h
    refine List.pairwise_cons.mpr ⟨fun y hy => ?_, (ih h.2).imp_of_mem fun {a b} ha hb hab => ?_⟩
    · have : x ≠ y := by rintro rfl; exact h.1 hy
      simp [this]
    · have h1 : x ≠ a := by rintro rfl; exact h.1 ha
      have h2 : x ≠ b := by rintro rfl; exact h.1 hb
      simpa [h1, h2] using hab

theorem place_bound {l : List Nat} {t : Nat} (h : t ∈ l) : (l.takeWhile (fun u => decide (u ≠ t))).length < l.length := by
  induction l with
  | nil => cases h
  | cons x l ih =>
    by_cases hx : x = t
    · simp [hx]
    · have := ih ((List.mem_cons.mp h).resolve_left (Ne.symm hx))
      simpa [hx] using this

/-- A SAVE object's contents for another tile set are in the canonical form (R238). -/
theorem wf_retileSave {m : Mem} (old new region : Nat) (h : Memory.wf m = true) : Memory.wf (retileSave old new region m) = true := by
  unfold retileSave
  dsimp only
  have hn : (maskList 128 new).Nodup := List.Nodup.filter _ List.nodup_range
  refine wf_append (e := (maskList 128 new).length * (region * 32768)) (n := 2 ^ 28) ?_ (pieceAt_mslice _ _ _ h)
  refine pieceAt_flatMap (ix := fun t => ((maskList 128 new).takeWhile (fun u => decide (u ≠ t))).length) (r := region * 32768)
    ((place_pairwise hn).filter _) (fun t _ => pieceAt_mslice _ _ _ h) fun t ht => ?_
  have hb := Nat.mul_le_mul_right (region * 32768) (place_bound (List.mem_filter.mp ht).1)
  rw [Nat.succ_mul] at hb; omega

end Sys2Proof.Machine
end

