-- ==== Sys2Proof/Laws/State.lean ====
section
/-! SUPPORT. One lemma per field of State per update of it, so that no proof unfolds a record update, and for each numbered
part that the part changed reads as its change and every other part as before. -/

namespace Sys2Proof.Machine

open Sys2Proof

/-! #### setFn -/

@[simp] theorem State.setFn_clock (s : State) (i : Nat) (f : Fn) : (s.setFn i f).clock = s.clock := rfl
@[simp] theorem State.setFn_tt (s : State) (i : Nat) (f : Fn) : (s.setFn i f).tt = s.tt := rfl
@[simp] theorem State.setFn_led (s : State) (i : Nat) (f : Fn) : (s.setFn i f).led = s.led := rfl
@[simp] theorem State.setFn_durable (s : State) (i : Nat) (f : Fn) : (s.setFn i f).durable = s.durable := rfl
@[simp] theorem State.setFn_writing (s : State) (i : Nat) (f : Fn) : (s.setFn i f).writing = s.writing := rfl
@[simp] theorem State.setFn_wingPages (s : State) (i : Nat) (f : Fn) : (s.setFn i f).wingPages = s.wingPages := rfl
@[simp] theorem State.setFn_stamped (s : State) (i : Nat) (f : Fn) : (s.setFn i f).stamped = s.stamped := rfl
@[simp] theorem State.setFn_tickets (s : State) (i : Nat) (f : Fn) : (s.setFn i f).tickets = s.tickets := rfl
@[simp] theorem State.setFn_tiles (s : State) (i : Nat) (f : Fn) : (s.setFn i f).tiles = s.tiles := rfl
@[simp] theorem State.setFn_quarters (s : State) (i : Nat) (f : Fn) : (s.setFn i f).quarters = s.quarters := rfl
@[simp] theorem State.setFn_qmem (s : State) (i : Nat) (f : Fn) : (s.setFn i f).qmem = s.qmem := rfl
@[simp] theorem State.setFn_updEngines (s : State) (i : Nat) (f : Fn) : (s.setFn i f).updEngines = s.updEngines := rfl
@[simp] theorem State.setFn_jobs (s : State) (i : Nat) (f : Fn) : (s.setFn i f).jobs = s.jobs := rfl
@[simp] theorem State.setFn_runs (s : State) (i : Nat) (f : Fn) : (s.setFn i f).runs = s.runs := rfl
@[simp] theorem State.setFn_cellar (s : State) (i : Nat) (f : Fn) : (s.setFn i f).cellar = s.cellar := rfl
@[simp] theorem State.setFn_ports (s : State) (i : Nat) (f : Fn) : (s.setFn i f).ports = s.ports := rfl
@[simp] theorem State.setFn_fabric (s : State) (i : Nat) (f : Fn) : (s.setFn i f).fabric = s.fabric := rfl
@[simp] theorem State.setFn_secure (s : State) (i : Nat) (f : Fn) : (s.setFn i f).secure = s.secure := rfl
@[simp] theorem State.setFn_keeper (s : State) (i : Nat) (f : Fn) : (s.setFn i f).keeper = s.keeper := rfl
@[simp] theorem State.setFn_power (s : State) (i : Nat) (f : Fn) : (s.setFn i f).power = s.power := rfl
@[simp] theorem State.setFn_porter (s : State) (i : Nat) (f : Fn) : (s.setFn i f).porter = s.porter := rfl
@[simp] theorem State.setFn_snapshot (s : State) (i : Nat) (f : Fn) : (s.setFn i f).snapshot = s.snapshot := rfl
@[simp] theorem State.setFn_mgmt (s : State) (i : Nat) (f : Fn) : (s.setFn i f).mgmt = s.mgmt := rfl
@[simp] theorem State.setFn_link (s : State) (i : Nat) (f : Fn) : (s.setFn i f).link = s.link := rfl
@[simp] theorem State.setFn_free (s : State) (i : Nat) (f : Fn) : (s.setFn i f).free = s.free := rfl
@[simp] theorem State.setFn_pending (s : State) (i : Nat) (f : Fn) : (s.setFn i f).pending = s.pending := rfl

/-! #### modFn -/

@[simp] theorem State.modFn_clock (s : State) (i : Nat) (g : Fn → Fn) : (s.modFn i g).clock = s.clock := rfl
@[simp] theorem State.modFn_tt (s : State) (i : Nat) (g : Fn → Fn) : (s.modFn i g).tt = s.tt := rfl
@[simp] theorem State.modFn_led (s : State) (i : Nat) (g : Fn → Fn) : (s.modFn i g).led = s.led := rfl
@[simp] theorem State.modFn_durable (s : State) (i : Nat) (g : Fn → Fn) : (s.modFn i g).durable = s.durable := rfl
@[simp] theorem State.modFn_writing (s : State) (i : Nat) (g : Fn → Fn) : (s.modFn i g).writing = s.writing := rfl
@[simp] theorem State.modFn_wingPages (s : State) (i : Nat) (g : Fn → Fn) : (s.modFn i g).wingPages = s.wingPages := rfl
@[simp] theorem State.modFn_stamped (s : State) (i : Nat) (g : Fn → Fn) : (s.modFn i g).stamped = s.stamped := rfl
@[simp] theorem State.modFn_tickets (s : State) (i : Nat) (g : Fn → Fn) : (s.modFn i g).tickets = s.tickets := rfl
@[simp] theorem State.modFn_tiles (s : State) (i : Nat) (g : Fn → Fn) : (s.modFn i g).tiles = s.tiles := rfl
@[simp] theorem State.modFn_quarters (s : State) (i : Nat) (g : Fn → Fn) : (s.modFn i g).quarters = s.quarters := rfl
@[simp] theorem State.modFn_qmem (s : State) (i : Nat) (g : Fn → Fn) : (s.modFn i g).qmem = s.qmem := rfl
@[simp] theorem State.modFn_updEngines (s : State) (i : Nat) (g : Fn → Fn) : (s.modFn i g).updEngines = s.updEngines := rfl
@[simp] theorem State.modFn_jobs (s : State) (i : Nat) (g : Fn → Fn) : (s.modFn i g).jobs = s.jobs := rfl
@[simp] theorem State.modFn_runs (s : State) (i : Nat) (g : Fn → Fn) : (s.modFn i g).runs = s.runs := rfl
@[simp] theorem State.modFn_cellar (s : State) (i : Nat) (g : Fn → Fn) : (s.modFn i g).cellar = s.cellar := rfl
@[simp] theorem State.modFn_ports (s : State) (i : Nat) (g : Fn → Fn) : (s.modFn i g).ports = s.ports := rfl
@[simp] theorem State.modFn_fabric (s : State) (i : Nat) (g : Fn → Fn) : (s.modFn i g).fabric = s.fabric := rfl
@[simp] theorem State.modFn_secure (s : State) (i : Nat) (g : Fn → Fn) : (s.modFn i g).secure = s.secure := rfl
@[simp] theorem State.modFn_keeper (s : State) (i : Nat) (g : Fn → Fn) : (s.modFn i g).keeper = s.keeper := rfl
@[simp] theorem State.modFn_power (s : State) (i : Nat) (g : Fn → Fn) : (s.modFn i g).power = s.power := rfl
@[simp] theorem State.modFn_porter (s : State) (i : Nat) (g : Fn → Fn) : (s.modFn i g).porter = s.porter := rfl
@[simp] theorem State.modFn_snapshot (s : State) (i : Nat) (g : Fn → Fn) : (s.modFn i g).snapshot = s.snapshot := rfl
@[simp] theorem State.modFn_mgmt (s : State) (i : Nat) (g : Fn → Fn) : (s.modFn i g).mgmt = s.mgmt := rfl
@[simp] theorem State.modFn_link (s : State) (i : Nat) (g : Fn → Fn) : (s.modFn i g).link = s.link := rfl
@[simp] theorem State.modFn_free (s : State) (i : Nat) (g : Fn → Fn) : (s.modFn i g).free = s.free := rfl
@[simp] theorem State.modFn_pending (s : State) (i : Nat) (g : Fn → Fn) : (s.modFn i g).pending = s.pending := rfl

/-! #### modSess -/

@[simp] theorem State.modSess_clock (s : State) (k : Nat) (g : Session → Session) : (s.modSess k g).clock = s.clock := rfl
@[simp] theorem State.modSess_tt (s : State) (k : Nat) (g : Session → Session) : (s.modSess k g).tt = s.tt := rfl
@[simp] theorem State.modSess_durable (s : State) (k : Nat) (g : Session → Session) : (s.modSess k g).durable = s.durable := rfl
@[simp] theorem State.modSess_writing (s : State) (k : Nat) (g : Session → Session) : (s.modSess k g).writing = s.writing := rfl
@[simp] theorem State.modSess_fns (s : State) (k : Nat) (g : Session → Session) : (s.modSess k g).fns = s.fns := rfl
@[simp] theorem State.modSess_wingPages (s : State) (k : Nat) (g : Session → Session) : (s.modSess k g).wingPages = s.wingPages := rfl
@[simp] theorem State.modSess_stamped (s : State) (k : Nat) (g : Session → Session) : (s.modSess k g).stamped = s.stamped := rfl
@[simp] theorem State.modSess_tickets (s : State) (k : Nat) (g : Session → Session) : (s.modSess k g).tickets = s.tickets := rfl
@[simp] theorem State.modSess_tiles (s : State) (k : Nat) (g : Session → Session) : (s.modSess k g).tiles = s.tiles := rfl
@[simp] theorem State.modSess_quarters (s : State) (k : Nat) (g : Session → Session) : (s.modSess k g).quarters = s.quarters := rfl
@[simp] theorem State.modSess_qmem (s : State) (k : Nat) (g : Session → Session) : (s.modSess k g).qmem = s.qmem := rfl
@[simp] theorem State.modSess_updEngines (s : State) (k : Nat) (g : Session → Session) : (s.modSess k g).updEngines = s.updEngines := rfl
@[simp] theorem State.modSess_jobs (s : State) (k : Nat) (g : Session → Session) : (s.modSess k g).jobs = s.jobs := rfl
@[simp] theorem State.modSess_runs (s : State) (k : Nat) (g : Session → Session) : (s.modSess k g).runs = s.runs := rfl
@[simp] theorem State.modSess_cellar (s : State) (k : Nat) (g : Session → Session) : (s.modSess k g).cellar = s.cellar := rfl
@[simp] theorem State.modSess_ports (s : State) (k : Nat) (g : Session → Session) : (s.modSess k g).ports = s.ports := rfl
@[simp] theorem State.modSess_fabric (s : State) (k : Nat) (g : Session → Session) : (s.modSess k g).fabric = s.fabric := rfl
@[simp] theorem State.modSess_secure (s : State) (k : Nat) (g : Session → Session) : (s.modSess k g).secure = s.secure := rfl
@[simp] theorem State.modSess_keeper (s : State) (k : Nat) (g : Session → Session) : (s.modSess k g).keeper = s.keeper := rfl
@[simp] theorem State.modSess_power (s : State) (k : Nat) (g : Session → Session) : (s.modSess k g).power = s.power := rfl
@[simp] theorem State.modSess_porter (s : State) (k : Nat) (g : Session → Session) : (s.modSess k g).porter = s.porter := rfl
@[simp] theorem State.modSess_snapshot (s : State) (k : Nat) (g : Session → Session) : (s.modSess k g).snapshot = s.snapshot := rfl
@[simp] theorem State.modSess_mgmt (s : State) (k : Nat) (g : Session → Session) : (s.modSess k g).mgmt = s.mgmt := rfl
@[simp] theorem State.modSess_link (s : State) (k : Nat) (g : Session → Session) : (s.modSess k g).link = s.link := rfl
@[simp] theorem State.modSess_free (s : State) (k : Nat) (g : Session → Session) : (s.modSess k g).free = s.free := rfl
@[simp] theorem State.modSess_pending (s : State) (k : Nat) (g : Session → Session) : (s.modSess k g).pending = s.pending := rfl

/-! #### modWing -/

@[simp] theorem State.modWing_clock (s : State) (w : Nat) (g : Wing → Wing) : (s.modWing w g).clock = s.clock := rfl
@[simp] theorem State.modWing_tt (s : State) (w : Nat) (g : Wing → Wing) : (s.modWing w g).tt = s.tt := rfl
@[simp] theorem State.modWing_durable (s : State) (w : Nat) (g : Wing → Wing) : (s.modWing w g).durable = s.durable := rfl
@[simp] theorem State.modWing_writing (s : State) (w : Nat) (g : Wing → Wing) : (s.modWing w g).writing = s.writing := rfl
@[simp] theorem State.modWing_fns (s : State) (w : Nat) (g : Wing → Wing) : (s.modWing w g).fns = s.fns := rfl
@[simp] theorem State.modWing_wingPages (s : State) (w : Nat) (g : Wing → Wing) : (s.modWing w g).wingPages = s.wingPages := rfl
@[simp] theorem State.modWing_stamped (s : State) (w : Nat) (g : Wing → Wing) : (s.modWing w g).stamped = s.stamped := rfl
@[simp] theorem State.modWing_tickets (s : State) (w : Nat) (g : Wing → Wing) : (s.modWing w g).tickets = s.tickets := rfl
@[simp] theorem State.modWing_tiles (s : State) (w : Nat) (g : Wing → Wing) : (s.modWing w g).tiles = s.tiles := rfl
@[simp] theorem State.modWing_quarters (s : State) (w : Nat) (g : Wing → Wing) : (s.modWing w g).quarters = s.quarters := rfl
@[simp] theorem State.modWing_qmem (s : State) (w : Nat) (g : Wing → Wing) : (s.modWing w g).qmem = s.qmem := rfl
@[simp] theorem State.modWing_updEngines (s : State) (w : Nat) (g : Wing → Wing) : (s.modWing w g).updEngines = s.updEngines := rfl
@[simp] theorem State.modWing_jobs (s : State) (w : Nat) (g : Wing → Wing) : (s.modWing w g).jobs = s.jobs := rfl
@[simp] theorem State.modWing_runs (s : State) (w : Nat) (g : Wing → Wing) : (s.modWing w g).runs = s.runs := rfl
@[simp] theorem State.modWing_cellar (s : State) (w : Nat) (g : Wing → Wing) : (s.modWing w g).cellar = s.cellar := rfl
@[simp] theorem State.modWing_ports (s : State) (w : Nat) (g : Wing → Wing) : (s.modWing w g).ports = s.ports := rfl
@[simp] theorem State.modWing_fabric (s : State) (w : Nat) (g : Wing → Wing) : (s.modWing w g).fabric = s.fabric := rfl
@[simp] theorem State.modWing_secure (s : State) (w : Nat) (g : Wing → Wing) : (s.modWing w g).secure = s.secure := rfl
@[simp] theorem State.modWing_keeper (s : State) (w : Nat) (g : Wing → Wing) : (s.modWing w g).keeper = s.keeper := rfl
@[simp] theorem State.modWing_power (s : State) (w : Nat) (g : Wing → Wing) : (s.modWing w g).power = s.power := rfl
@[simp] theorem State.modWing_porter (s : State) (w : Nat) (g : Wing → Wing) : (s.modWing w g).porter = s.porter := rfl
@[simp] theorem State.modWing_snapshot (s : State) (w : Nat) (g : Wing → Wing) : (s.modWing w g).snapshot = s.snapshot := rfl
@[simp] theorem State.modWing_mgmt (s : State) (w : Nat) (g : Wing → Wing) : (s.modWing w g).mgmt = s.mgmt := rfl
@[simp] theorem State.modWing_link (s : State) (w : Nat) (g : Wing → Wing) : (s.modWing w g).link = s.link := rfl
@[simp] theorem State.modWing_free (s : State) (w : Nat) (g : Wing → Wing) : (s.modWing w g).free = s.free := rfl
@[simp] theorem State.modWing_pending (s : State) (w : Nat) (g : Wing → Wing) : (s.modWing w g).pending = s.pending := rfl

/-! #### modCtx -/

@[simp] theorem State.modCtx_clock (s : State) (w c : Nat) (g : Ctx → Ctx) : (s.modCtx w c g).clock = s.clock := rfl
@[simp] theorem State.modCtx_tt (s : State) (w c : Nat) (g : Ctx → Ctx) : (s.modCtx w c g).tt = s.tt := rfl
@[simp] theorem State.modCtx_durable (s : State) (w c : Nat) (g : Ctx → Ctx) : (s.modCtx w c g).durable = s.durable := rfl
@[simp] theorem State.modCtx_writing (s : State) (w c : Nat) (g : Ctx → Ctx) : (s.modCtx w c g).writing = s.writing := rfl
@[simp] theorem State.modCtx_fns (s : State) (w c : Nat) (g : Ctx → Ctx) : (s.modCtx w c g).fns = s.fns := rfl
@[simp] theorem State.modCtx_wingPages (s : State) (w c : Nat) (g : Ctx → Ctx) : (s.modCtx w c g).wingPages = s.wingPages := rfl
@[simp] theorem State.modCtx_stamped (s : State) (w c : Nat) (g : Ctx → Ctx) : (s.modCtx w c g).stamped = s.stamped := rfl
@[simp] theorem State.modCtx_tickets (s : State) (w c : Nat) (g : Ctx → Ctx) : (s.modCtx w c g).tickets = s.tickets := rfl
@[simp] theorem State.modCtx_tiles (s : State) (w c : Nat) (g : Ctx → Ctx) : (s.modCtx w c g).tiles = s.tiles := rfl
@[simp] theorem State.modCtx_quarters (s : State) (w c : Nat) (g : Ctx → Ctx) : (s.modCtx w c g).quarters = s.quarters := rfl
@[simp] theorem State.modCtx_qmem (s : State) (w c : Nat) (g : Ctx → Ctx) : (s.modCtx w c g).qmem = s.qmem := rfl
@[simp] theorem State.modCtx_updEngines (s : State) (w c : Nat) (g : Ctx → Ctx) : (s.modCtx w c g).updEngines = s.updEngines := rfl
@[simp] theorem State.modCtx_jobs (s : State) (w c : Nat) (g : Ctx → Ctx) : (s.modCtx w c g).jobs = s.jobs := rfl
@[simp] theorem State.modCtx_runs (s : State) (w c : Nat) (g : Ctx → Ctx) : (s.modCtx w c g).runs = s.runs := rfl
@[simp] theorem State.modCtx_cellar (s : State) (w c : Nat) (g : Ctx → Ctx) : (s.modCtx w c g).cellar = s.cellar := rfl
@[simp] theorem State.modCtx_ports (s : State) (w c : Nat) (g : Ctx → Ctx) : (s.modCtx w c g).ports = s.ports := rfl
@[simp] theorem State.modCtx_fabric (s : State) (w c : Nat) (g : Ctx → Ctx) : (s.modCtx w c g).fabric = s.fabric := rfl
@[simp] theorem State.modCtx_secure (s : State) (w c : Nat) (g : Ctx → Ctx) : (s.modCtx w c g).secure = s.secure := rfl
@[simp] theorem State.modCtx_keeper (s : State) (w c : Nat) (g : Ctx → Ctx) : (s.modCtx w c g).keeper = s.keeper := rfl
@[simp] theorem State.modCtx_power (s : State) (w c : Nat) (g : Ctx → Ctx) : (s.modCtx w c g).power = s.power := rfl
@[simp] theorem State.modCtx_porter (s : State) (w c : Nat) (g : Ctx → Ctx) : (s.modCtx w c g).porter = s.porter := rfl
@[simp] theorem State.modCtx_snapshot (s : State) (w c : Nat) (g : Ctx → Ctx) : (s.modCtx w c g).snapshot = s.snapshot := rfl
@[simp] theorem State.modCtx_mgmt (s : State) (w c : Nat) (g : Ctx → Ctx) : (s.modCtx w c g).mgmt = s.mgmt := rfl
@[simp] theorem State.modCtx_link (s : State) (w c : Nat) (g : Ctx → Ctx) : (s.modCtx w c g).link = s.link := rfl
@[simp] theorem State.modCtx_free (s : State) (w c : Nat) (g : Ctx → Ctx) : (s.modCtx w c g).free = s.free := rfl
@[simp] theorem State.modCtx_pending (s : State) (w c : Nat) (g : Ctx → Ctx) : (s.modCtx w c g).pending = s.pending := rfl

/-! #### modObj -/

@[simp] theorem State.modObj_clock (s : State) (i : Nat) (g : Obj → Obj) : (s.modObj i g).clock = s.clock := rfl
@[simp] theorem State.modObj_tt (s : State) (i : Nat) (g : Obj → Obj) : (s.modObj i g).tt = s.tt := rfl
@[simp] theorem State.modObj_durable (s : State) (i : Nat) (g : Obj → Obj) : (s.modObj i g).durable = s.durable := rfl
@[simp] theorem State.modObj_writing (s : State) (i : Nat) (g : Obj → Obj) : (s.modObj i g).writing = s.writing := rfl
@[simp] theorem State.modObj_fns (s : State) (i : Nat) (g : Obj → Obj) : (s.modObj i g).fns = s.fns := rfl
@[simp] theorem State.modObj_wingPages (s : State) (i : Nat) (g : Obj → Obj) : (s.modObj i g).wingPages = s.wingPages := rfl
@[simp] theorem State.modObj_stamped (s : State) (i : Nat) (g : Obj → Obj) : (s.modObj i g).stamped = s.stamped := rfl
@[simp] theorem State.modObj_tickets (s : State) (i : Nat) (g : Obj → Obj) : (s.modObj i g).tickets = s.tickets := rfl
@[simp] theorem State.modObj_tiles (s : State) (i : Nat) (g : Obj → Obj) : (s.modObj i g).tiles = s.tiles := rfl
@[simp] theorem State.modObj_quarters (s : State) (i : Nat) (g : Obj → Obj) : (s.modObj i g).quarters = s.quarters := rfl
@[simp] theorem State.modObj_qmem (s : State) (i : Nat) (g : Obj → Obj) : (s.modObj i g).qmem = s.qmem := rfl
@[simp] theorem State.modObj_updEngines (s : State) (i : Nat) (g : Obj → Obj) : (s.modObj i g).updEngines = s.updEngines := rfl
@[simp] theorem State.modObj_jobs (s : State) (i : Nat) (g : Obj → Obj) : (s.modObj i g).jobs = s.jobs := rfl
@[simp] theorem State.modObj_runs (s : State) (i : Nat) (g : Obj → Obj) : (s.modObj i g).runs = s.runs := rfl
@[simp] theorem State.modObj_cellar (s : State) (i : Nat) (g : Obj → Obj) : (s.modObj i g).cellar = s.cellar := rfl
@[simp] theorem State.modObj_ports (s : State) (i : Nat) (g : Obj → Obj) : (s.modObj i g).ports = s.ports := rfl
@[simp] theorem State.modObj_fabric (s : State) (i : Nat) (g : Obj → Obj) : (s.modObj i g).fabric = s.fabric := rfl
@[simp] theorem State.modObj_secure (s : State) (i : Nat) (g : Obj → Obj) : (s.modObj i g).secure = s.secure := rfl
@[simp] theorem State.modObj_keeper (s : State) (i : Nat) (g : Obj → Obj) : (s.modObj i g).keeper = s.keeper := rfl
@[simp] theorem State.modObj_power (s : State) (i : Nat) (g : Obj → Obj) : (s.modObj i g).power = s.power := rfl
@[simp] theorem State.modObj_porter (s : State) (i : Nat) (g : Obj → Obj) : (s.modObj i g).porter = s.porter := rfl
@[simp] theorem State.modObj_snapshot (s : State) (i : Nat) (g : Obj → Obj) : (s.modObj i g).snapshot = s.snapshot := rfl
@[simp] theorem State.modObj_mgmt (s : State) (i : Nat) (g : Obj → Obj) : (s.modObj i g).mgmt = s.mgmt := rfl
@[simp] theorem State.modObj_link (s : State) (i : Nat) (g : Obj → Obj) : (s.modObj i g).link = s.link := rfl
@[simp] theorem State.modObj_free (s : State) (i : Nat) (g : Obj → Obj) : (s.modObj i g).free = s.free := rfl
@[simp] theorem State.modObj_pending (s : State) (i : Nat) (g : Obj → Obj) : (s.modObj i g).pending = s.pending := rfl

/-! #### modRoom -/

@[simp] theorem State.modRoom_clock (s : State) (i : Nat) (g : Room → Room) : (s.modRoom i g).clock = s.clock := rfl
@[simp] theorem State.modRoom_tt (s : State) (i : Nat) (g : Room → Room) : (s.modRoom i g).tt = s.tt := rfl
@[simp] theorem State.modRoom_durable (s : State) (i : Nat) (g : Room → Room) : (s.modRoom i g).durable = s.durable := rfl
@[simp] theorem State.modRoom_writing (s : State) (i : Nat) (g : Room → Room) : (s.modRoom i g).writing = s.writing := rfl
@[simp] theorem State.modRoom_fns (s : State) (i : Nat) (g : Room → Room) : (s.modRoom i g).fns = s.fns := rfl
@[simp] theorem State.modRoom_wingPages (s : State) (i : Nat) (g : Room → Room) : (s.modRoom i g).wingPages = s.wingPages := rfl
@[simp] theorem State.modRoom_stamped (s : State) (i : Nat) (g : Room → Room) : (s.modRoom i g).stamped = s.stamped := rfl
@[simp] theorem State.modRoom_tickets (s : State) (i : Nat) (g : Room → Room) : (s.modRoom i g).tickets = s.tickets := rfl
@[simp] theorem State.modRoom_tiles (s : State) (i : Nat) (g : Room → Room) : (s.modRoom i g).tiles = s.tiles := rfl
@[simp] theorem State.modRoom_quarters (s : State) (i : Nat) (g : Room → Room) : (s.modRoom i g).quarters = s.quarters := rfl
@[simp] theorem State.modRoom_qmem (s : State) (i : Nat) (g : Room → Room) : (s.modRoom i g).qmem = s.qmem := rfl
@[simp] theorem State.modRoom_updEngines (s : State) (i : Nat) (g : Room → Room) : (s.modRoom i g).updEngines = s.updEngines := rfl
@[simp] theorem State.modRoom_jobs (s : State) (i : Nat) (g : Room → Room) : (s.modRoom i g).jobs = s.jobs := rfl
@[simp] theorem State.modRoom_runs (s : State) (i : Nat) (g : Room → Room) : (s.modRoom i g).runs = s.runs := rfl
@[simp] theorem State.modRoom_cellar (s : State) (i : Nat) (g : Room → Room) : (s.modRoom i g).cellar = s.cellar := rfl
@[simp] theorem State.modRoom_ports (s : State) (i : Nat) (g : Room → Room) : (s.modRoom i g).ports = s.ports := rfl
@[simp] theorem State.modRoom_fabric (s : State) (i : Nat) (g : Room → Room) : (s.modRoom i g).fabric = s.fabric := rfl
@[simp] theorem State.modRoom_secure (s : State) (i : Nat) (g : Room → Room) : (s.modRoom i g).secure = s.secure := rfl
@[simp] theorem State.modRoom_keeper (s : State) (i : Nat) (g : Room → Room) : (s.modRoom i g).keeper = s.keeper := rfl
@[simp] theorem State.modRoom_power (s : State) (i : Nat) (g : Room → Room) : (s.modRoom i g).power = s.power := rfl
@[simp] theorem State.modRoom_porter (s : State) (i : Nat) (g : Room → Room) : (s.modRoom i g).porter = s.porter := rfl
@[simp] theorem State.modRoom_snapshot (s : State) (i : Nat) (g : Room → Room) : (s.modRoom i g).snapshot = s.snapshot := rfl
@[simp] theorem State.modRoom_mgmt (s : State) (i : Nat) (g : Room → Room) : (s.modRoom i g).mgmt = s.mgmt := rfl
@[simp] theorem State.modRoom_link (s : State) (i : Nat) (g : Room → Room) : (s.modRoom i g).link = s.link := rfl
@[simp] theorem State.modRoom_free (s : State) (i : Nat) (g : Room → Room) : (s.modRoom i g).free = s.free := rfl
@[simp] theorem State.modRoom_pending (s : State) (i : Nat) (g : Room → Room) : (s.modRoom i g).pending = s.pending := rfl

/-! #### modHandle -/

@[simp] theorem State.modHandle_clock (s : State) (i : Nat) (g : Handle → Handle) : (s.modHandle i g).clock = s.clock := rfl
@[simp] theorem State.modHandle_tt (s : State) (i : Nat) (g : Handle → Handle) : (s.modHandle i g).tt = s.tt := rfl
@[simp] theorem State.modHandle_durable (s : State) (i : Nat) (g : Handle → Handle) : (s.modHandle i g).durable = s.durable := rfl
@[simp] theorem State.modHandle_writing (s : State) (i : Nat) (g : Handle → Handle) : (s.modHandle i g).writing = s.writing := rfl
@[simp] theorem State.modHandle_fns (s : State) (i : Nat) (g : Handle → Handle) : (s.modHandle i g).fns = s.fns := rfl
@[simp] theorem State.modHandle_wingPages (s : State) (i : Nat) (g : Handle → Handle) : (s.modHandle i g).wingPages = s.wingPages := rfl
@[simp] theorem State.modHandle_stamped (s : State) (i : Nat) (g : Handle → Handle) : (s.modHandle i g).stamped = s.stamped := rfl
@[simp] theorem State.modHandle_tickets (s : State) (i : Nat) (g : Handle → Handle) : (s.modHandle i g).tickets = s.tickets := rfl
@[simp] theorem State.modHandle_tiles (s : State) (i : Nat) (g : Handle → Handle) : (s.modHandle i g).tiles = s.tiles := rfl
@[simp] theorem State.modHandle_quarters (s : State) (i : Nat) (g : Handle → Handle) : (s.modHandle i g).quarters = s.quarters := rfl
@[simp] theorem State.modHandle_qmem (s : State) (i : Nat) (g : Handle → Handle) : (s.modHandle i g).qmem = s.qmem := rfl
@[simp] theorem State.modHandle_updEngines (s : State) (i : Nat) (g : Handle → Handle) : (s.modHandle i g).updEngines = s.updEngines := rfl
@[simp] theorem State.modHandle_jobs (s : State) (i : Nat) (g : Handle → Handle) : (s.modHandle i g).jobs = s.jobs := rfl
@[simp] theorem State.modHandle_runs (s : State) (i : Nat) (g : Handle → Handle) : (s.modHandle i g).runs = s.runs := rfl
@[simp] theorem State.modHandle_cellar (s : State) (i : Nat) (g : Handle → Handle) : (s.modHandle i g).cellar = s.cellar := rfl
@[simp] theorem State.modHandle_ports (s : State) (i : Nat) (g : Handle → Handle) : (s.modHandle i g).ports = s.ports := rfl
@[simp] theorem State.modHandle_fabric (s : State) (i : Nat) (g : Handle → Handle) : (s.modHandle i g).fabric = s.fabric := rfl
@[simp] theorem State.modHandle_secure (s : State) (i : Nat) (g : Handle → Handle) : (s.modHandle i g).secure = s.secure := rfl
@[simp] theorem State.modHandle_keeper (s : State) (i : Nat) (g : Handle → Handle) : (s.modHandle i g).keeper = s.keeper := rfl
@[simp] theorem State.modHandle_power (s : State) (i : Nat) (g : Handle → Handle) : (s.modHandle i g).power = s.power := rfl
@[simp] theorem State.modHandle_porter (s : State) (i : Nat) (g : Handle → Handle) : (s.modHandle i g).porter = s.porter := rfl
@[simp] theorem State.modHandle_snapshot (s : State) (i : Nat) (g : Handle → Handle) : (s.modHandle i g).snapshot = s.snapshot := rfl
@[simp] theorem State.modHandle_mgmt (s : State) (i : Nat) (g : Handle → Handle) : (s.modHandle i g).mgmt = s.mgmt := rfl
@[simp] theorem State.modHandle_link (s : State) (i : Nat) (g : Handle → Handle) : (s.modHandle i g).link = s.link := rfl
@[simp] theorem State.modHandle_free (s : State) (i : Nat) (g : Handle → Handle) : (s.modHandle i g).free = s.free := rfl
@[simp] theorem State.modHandle_pending (s : State) (i : Nat) (g : Handle → Handle) : (s.modHandle i g).pending = s.pending := rfl

/-! #### modRing -/

@[simp] theorem State.modRing_clock (s : State) (i : Nat) (g : Ring → Ring) : (s.modRing i g).clock = s.clock := rfl
@[simp] theorem State.modRing_tt (s : State) (i : Nat) (g : Ring → Ring) : (s.modRing i g).tt = s.tt := rfl
@[simp] theorem State.modRing_durable (s : State) (i : Nat) (g : Ring → Ring) : (s.modRing i g).durable = s.durable := rfl
@[simp] theorem State.modRing_writing (s : State) (i : Nat) (g : Ring → Ring) : (s.modRing i g).writing = s.writing := rfl
@[simp] theorem State.modRing_fns (s : State) (i : Nat) (g : Ring → Ring) : (s.modRing i g).fns = s.fns := rfl
@[simp] theorem State.modRing_wingPages (s : State) (i : Nat) (g : Ring → Ring) : (s.modRing i g).wingPages = s.wingPages := rfl
@[simp] theorem State.modRing_stamped (s : State) (i : Nat) (g : Ring → Ring) : (s.modRing i g).stamped = s.stamped := rfl
@[simp] theorem State.modRing_tickets (s : State) (i : Nat) (g : Ring → Ring) : (s.modRing i g).tickets = s.tickets := rfl
@[simp] theorem State.modRing_tiles (s : State) (i : Nat) (g : Ring → Ring) : (s.modRing i g).tiles = s.tiles := rfl
@[simp] theorem State.modRing_quarters (s : State) (i : Nat) (g : Ring → Ring) : (s.modRing i g).quarters = s.quarters := rfl
@[simp] theorem State.modRing_qmem (s : State) (i : Nat) (g : Ring → Ring) : (s.modRing i g).qmem = s.qmem := rfl
@[simp] theorem State.modRing_updEngines (s : State) (i : Nat) (g : Ring → Ring) : (s.modRing i g).updEngines = s.updEngines := rfl
@[simp] theorem State.modRing_jobs (s : State) (i : Nat) (g : Ring → Ring) : (s.modRing i g).jobs = s.jobs := rfl
@[simp] theorem State.modRing_runs (s : State) (i : Nat) (g : Ring → Ring) : (s.modRing i g).runs = s.runs := rfl
@[simp] theorem State.modRing_cellar (s : State) (i : Nat) (g : Ring → Ring) : (s.modRing i g).cellar = s.cellar := rfl
@[simp] theorem State.modRing_ports (s : State) (i : Nat) (g : Ring → Ring) : (s.modRing i g).ports = s.ports := rfl
@[simp] theorem State.modRing_fabric (s : State) (i : Nat) (g : Ring → Ring) : (s.modRing i g).fabric = s.fabric := rfl
@[simp] theorem State.modRing_secure (s : State) (i : Nat) (g : Ring → Ring) : (s.modRing i g).secure = s.secure := rfl
@[simp] theorem State.modRing_keeper (s : State) (i : Nat) (g : Ring → Ring) : (s.modRing i g).keeper = s.keeper := rfl
@[simp] theorem State.modRing_power (s : State) (i : Nat) (g : Ring → Ring) : (s.modRing i g).power = s.power := rfl
@[simp] theorem State.modRing_porter (s : State) (i : Nat) (g : Ring → Ring) : (s.modRing i g).porter = s.porter := rfl
@[simp] theorem State.modRing_snapshot (s : State) (i : Nat) (g : Ring → Ring) : (s.modRing i g).snapshot = s.snapshot := rfl
@[simp] theorem State.modRing_mgmt (s : State) (i : Nat) (g : Ring → Ring) : (s.modRing i g).mgmt = s.mgmt := rfl
@[simp] theorem State.modRing_link (s : State) (i : Nat) (g : Ring → Ring) : (s.modRing i g).link = s.link := rfl
@[simp] theorem State.modRing_free (s : State) (i : Nat) (g : Ring → Ring) : (s.modRing i g).free = s.free := rfl
@[simp] theorem State.modRing_pending (s : State) (i : Nat) (g : Ring → Ring) : (s.modRing i g).pending = s.pending := rfl

/-! #### modGroup -/

@[simp] theorem State.modGroup_clock (s : State) (i : Nat) (g : Group → Group) : (s.modGroup i g).clock = s.clock := rfl
@[simp] theorem State.modGroup_tt (s : State) (i : Nat) (g : Group → Group) : (s.modGroup i g).tt = s.tt := rfl
@[simp] theorem State.modGroup_durable (s : State) (i : Nat) (g : Group → Group) : (s.modGroup i g).durable = s.durable := rfl
@[simp] theorem State.modGroup_writing (s : State) (i : Nat) (g : Group → Group) : (s.modGroup i g).writing = s.writing := rfl
@[simp] theorem State.modGroup_fns (s : State) (i : Nat) (g : Group → Group) : (s.modGroup i g).fns = s.fns := rfl
@[simp] theorem State.modGroup_wingPages (s : State) (i : Nat) (g : Group → Group) : (s.modGroup i g).wingPages = s.wingPages := rfl
@[simp] theorem State.modGroup_stamped (s : State) (i : Nat) (g : Group → Group) : (s.modGroup i g).stamped = s.stamped := rfl
@[simp] theorem State.modGroup_tickets (s : State) (i : Nat) (g : Group → Group) : (s.modGroup i g).tickets = s.tickets := rfl
@[simp] theorem State.modGroup_tiles (s : State) (i : Nat) (g : Group → Group) : (s.modGroup i g).tiles = s.tiles := rfl
@[simp] theorem State.modGroup_quarters (s : State) (i : Nat) (g : Group → Group) : (s.modGroup i g).quarters = s.quarters := rfl
@[simp] theorem State.modGroup_qmem (s : State) (i : Nat) (g : Group → Group) : (s.modGroup i g).qmem = s.qmem := rfl
@[simp] theorem State.modGroup_updEngines (s : State) (i : Nat) (g : Group → Group) : (s.modGroup i g).updEngines = s.updEngines := rfl
@[simp] theorem State.modGroup_jobs (s : State) (i : Nat) (g : Group → Group) : (s.modGroup i g).jobs = s.jobs := rfl
@[simp] theorem State.modGroup_runs (s : State) (i : Nat) (g : Group → Group) : (s.modGroup i g).runs = s.runs := rfl
@[simp] theorem State.modGroup_cellar (s : State) (i : Nat) (g : Group → Group) : (s.modGroup i g).cellar = s.cellar := rfl
@[simp] theorem State.modGroup_ports (s : State) (i : Nat) (g : Group → Group) : (s.modGroup i g).ports = s.ports := rfl
@[simp] theorem State.modGroup_fabric (s : State) (i : Nat) (g : Group → Group) : (s.modGroup i g).fabric = s.fabric := rfl
@[simp] theorem State.modGroup_secure (s : State) (i : Nat) (g : Group → Group) : (s.modGroup i g).secure = s.secure := rfl
@[simp] theorem State.modGroup_keeper (s : State) (i : Nat) (g : Group → Group) : (s.modGroup i g).keeper = s.keeper := rfl
@[simp] theorem State.modGroup_power (s : State) (i : Nat) (g : Group → Group) : (s.modGroup i g).power = s.power := rfl
@[simp] theorem State.modGroup_porter (s : State) (i : Nat) (g : Group → Group) : (s.modGroup i g).porter = s.porter := rfl
@[simp] theorem State.modGroup_snapshot (s : State) (i : Nat) (g : Group → Group) : (s.modGroup i g).snapshot = s.snapshot := rfl
@[simp] theorem State.modGroup_mgmt (s : State) (i : Nat) (g : Group → Group) : (s.modGroup i g).mgmt = s.mgmt := rfl
@[simp] theorem State.modGroup_link (s : State) (i : Nat) (g : Group → Group) : (s.modGroup i g).link = s.link := rfl
@[simp] theorem State.modGroup_free (s : State) (i : Nat) (g : Group → Group) : (s.modGroup i g).free = s.free := rfl
@[simp] theorem State.modGroup_pending (s : State) (i : Nat) (g : Group → Group) : (s.modGroup i g).pending = s.pending := rfl

/-! #### modPc -/

@[simp] theorem State.modPc_clock (s : State) (i : Nat) (g : Pc → Pc) : (s.modPc i g).clock = s.clock := rfl
@[simp] theorem State.modPc_tt (s : State) (i : Nat) (g : Pc → Pc) : (s.modPc i g).tt = s.tt := rfl
@[simp] theorem State.modPc_durable (s : State) (i : Nat) (g : Pc → Pc) : (s.modPc i g).durable = s.durable := rfl
@[simp] theorem State.modPc_writing (s : State) (i : Nat) (g : Pc → Pc) : (s.modPc i g).writing = s.writing := rfl
@[simp] theorem State.modPc_fns (s : State) (i : Nat) (g : Pc → Pc) : (s.modPc i g).fns = s.fns := rfl
@[simp] theorem State.modPc_wingPages (s : State) (i : Nat) (g : Pc → Pc) : (s.modPc i g).wingPages = s.wingPages := rfl
@[simp] theorem State.modPc_stamped (s : State) (i : Nat) (g : Pc → Pc) : (s.modPc i g).stamped = s.stamped := rfl
@[simp] theorem State.modPc_tickets (s : State) (i : Nat) (g : Pc → Pc) : (s.modPc i g).tickets = s.tickets := rfl
@[simp] theorem State.modPc_tiles (s : State) (i : Nat) (g : Pc → Pc) : (s.modPc i g).tiles = s.tiles := rfl
@[simp] theorem State.modPc_quarters (s : State) (i : Nat) (g : Pc → Pc) : (s.modPc i g).quarters = s.quarters := rfl
@[simp] theorem State.modPc_qmem (s : State) (i : Nat) (g : Pc → Pc) : (s.modPc i g).qmem = s.qmem := rfl
@[simp] theorem State.modPc_updEngines (s : State) (i : Nat) (g : Pc → Pc) : (s.modPc i g).updEngines = s.updEngines := rfl
@[simp] theorem State.modPc_jobs (s : State) (i : Nat) (g : Pc → Pc) : (s.modPc i g).jobs = s.jobs := rfl
@[simp] theorem State.modPc_runs (s : State) (i : Nat) (g : Pc → Pc) : (s.modPc i g).runs = s.runs := rfl
@[simp] theorem State.modPc_cellar (s : State) (i : Nat) (g : Pc → Pc) : (s.modPc i g).cellar = s.cellar := rfl
@[simp] theorem State.modPc_ports (s : State) (i : Nat) (g : Pc → Pc) : (s.modPc i g).ports = s.ports := rfl
@[simp] theorem State.modPc_fabric (s : State) (i : Nat) (g : Pc → Pc) : (s.modPc i g).fabric = s.fabric := rfl
@[simp] theorem State.modPc_secure (s : State) (i : Nat) (g : Pc → Pc) : (s.modPc i g).secure = s.secure := rfl
@[simp] theorem State.modPc_keeper (s : State) (i : Nat) (g : Pc → Pc) : (s.modPc i g).keeper = s.keeper := rfl
@[simp] theorem State.modPc_power (s : State) (i : Nat) (g : Pc → Pc) : (s.modPc i g).power = s.power := rfl
@[simp] theorem State.modPc_porter (s : State) (i : Nat) (g : Pc → Pc) : (s.modPc i g).porter = s.porter := rfl
@[simp] theorem State.modPc_snapshot (s : State) (i : Nat) (g : Pc → Pc) : (s.modPc i g).snapshot = s.snapshot := rfl
@[simp] theorem State.modPc_mgmt (s : State) (i : Nat) (g : Pc → Pc) : (s.modPc i g).mgmt = s.mgmt := rfl
@[simp] theorem State.modPc_link (s : State) (i : Nat) (g : Pc → Pc) : (s.modPc i g).link = s.link := rfl
@[simp] theorem State.modPc_free (s : State) (i : Nat) (g : Pc → Pc) : (s.modPc i g).free = s.free := rfl
@[simp] theorem State.modPc_pending (s : State) (i : Nat) (g : Pc → Pc) : (s.modPc i g).pending = s.pending := rfl

/-! #### modLoft -/

@[simp] theorem State.modLoft_clock (s : State) (i : Nat) (g : Loft → Loft) : (s.modLoft i g).clock = s.clock := rfl
@[simp] theorem State.modLoft_tt (s : State) (i : Nat) (g : Loft → Loft) : (s.modLoft i g).tt = s.tt := rfl
@[simp] theorem State.modLoft_durable (s : State) (i : Nat) (g : Loft → Loft) : (s.modLoft i g).durable = s.durable := rfl
@[simp] theorem State.modLoft_writing (s : State) (i : Nat) (g : Loft → Loft) : (s.modLoft i g).writing = s.writing := rfl
@[simp] theorem State.modLoft_fns (s : State) (i : Nat) (g : Loft → Loft) : (s.modLoft i g).fns = s.fns := rfl
@[simp] theorem State.modLoft_wingPages (s : State) (i : Nat) (g : Loft → Loft) : (s.modLoft i g).wingPages = s.wingPages := rfl
@[simp] theorem State.modLoft_stamped (s : State) (i : Nat) (g : Loft → Loft) : (s.modLoft i g).stamped = s.stamped := rfl
@[simp] theorem State.modLoft_tickets (s : State) (i : Nat) (g : Loft → Loft) : (s.modLoft i g).tickets = s.tickets := rfl
@[simp] theorem State.modLoft_tiles (s : State) (i : Nat) (g : Loft → Loft) : (s.modLoft i g).tiles = s.tiles := rfl
@[simp] theorem State.modLoft_quarters (s : State) (i : Nat) (g : Loft → Loft) : (s.modLoft i g).quarters = s.quarters := rfl
@[simp] theorem State.modLoft_qmem (s : State) (i : Nat) (g : Loft → Loft) : (s.modLoft i g).qmem = s.qmem := rfl
@[simp] theorem State.modLoft_updEngines (s : State) (i : Nat) (g : Loft → Loft) : (s.modLoft i g).updEngines = s.updEngines := rfl
@[simp] theorem State.modLoft_jobs (s : State) (i : Nat) (g : Loft → Loft) : (s.modLoft i g).jobs = s.jobs := rfl
@[simp] theorem State.modLoft_runs (s : State) (i : Nat) (g : Loft → Loft) : (s.modLoft i g).runs = s.runs := rfl
@[simp] theorem State.modLoft_cellar (s : State) (i : Nat) (g : Loft → Loft) : (s.modLoft i g).cellar = s.cellar := rfl
@[simp] theorem State.modLoft_ports (s : State) (i : Nat) (g : Loft → Loft) : (s.modLoft i g).ports = s.ports := rfl
@[simp] theorem State.modLoft_fabric (s : State) (i : Nat) (g : Loft → Loft) : (s.modLoft i g).fabric = s.fabric := rfl
@[simp] theorem State.modLoft_secure (s : State) (i : Nat) (g : Loft → Loft) : (s.modLoft i g).secure = s.secure := rfl
@[simp] theorem State.modLoft_keeper (s : State) (i : Nat) (g : Loft → Loft) : (s.modLoft i g).keeper = s.keeper := rfl
@[simp] theorem State.modLoft_power (s : State) (i : Nat) (g : Loft → Loft) : (s.modLoft i g).power = s.power := rfl
@[simp] theorem State.modLoft_porter (s : State) (i : Nat) (g : Loft → Loft) : (s.modLoft i g).porter = s.porter := rfl
@[simp] theorem State.modLoft_snapshot (s : State) (i : Nat) (g : Loft → Loft) : (s.modLoft i g).snapshot = s.snapshot := rfl
@[simp] theorem State.modLoft_mgmt (s : State) (i : Nat) (g : Loft → Loft) : (s.modLoft i g).mgmt = s.mgmt := rfl
@[simp] theorem State.modLoft_link (s : State) (i : Nat) (g : Loft → Loft) : (s.modLoft i g).link = s.link := rfl
@[simp] theorem State.modLoft_free (s : State) (i : Nat) (g : Loft → Loft) : (s.modLoft i g).free = s.free := rfl
@[simp] theorem State.modLoft_pending (s : State) (i : Nat) (g : Loft → Loft) : (s.modLoft i g).pending = s.pending := rfl

/-! #### modTile -/

@[simp] theorem State.modTile_clock (s : State) (i : Nat) (g : Tile → Tile) : (s.modTile i g).clock = s.clock := rfl
@[simp] theorem State.modTile_tt (s : State) (i : Nat) (g : Tile → Tile) : (s.modTile i g).tt = s.tt := rfl
@[simp] theorem State.modTile_led (s : State) (i : Nat) (g : Tile → Tile) : (s.modTile i g).led = s.led := rfl
@[simp] theorem State.modTile_durable (s : State) (i : Nat) (g : Tile → Tile) : (s.modTile i g).durable = s.durable := rfl
@[simp] theorem State.modTile_writing (s : State) (i : Nat) (g : Tile → Tile) : (s.modTile i g).writing = s.writing := rfl
@[simp] theorem State.modTile_fns (s : State) (i : Nat) (g : Tile → Tile) : (s.modTile i g).fns = s.fns := rfl
@[simp] theorem State.modTile_wingPages (s : State) (i : Nat) (g : Tile → Tile) : (s.modTile i g).wingPages = s.wingPages := rfl
@[simp] theorem State.modTile_stamped (s : State) (i : Nat) (g : Tile → Tile) : (s.modTile i g).stamped = s.stamped := rfl
@[simp] theorem State.modTile_tickets (s : State) (i : Nat) (g : Tile → Tile) : (s.modTile i g).tickets = s.tickets := rfl
@[simp] theorem State.modTile_quarters (s : State) (i : Nat) (g : Tile → Tile) : (s.modTile i g).quarters = s.quarters := rfl
@[simp] theorem State.modTile_qmem (s : State) (i : Nat) (g : Tile → Tile) : (s.modTile i g).qmem = s.qmem := rfl
@[simp] theorem State.modTile_updEngines (s : State) (i : Nat) (g : Tile → Tile) : (s.modTile i g).updEngines = s.updEngines := rfl
@[simp] theorem State.modTile_jobs (s : State) (i : Nat) (g : Tile → Tile) : (s.modTile i g).jobs = s.jobs := rfl
@[simp] theorem State.modTile_runs (s : State) (i : Nat) (g : Tile → Tile) : (s.modTile i g).runs = s.runs := rfl
@[simp] theorem State.modTile_cellar (s : State) (i : Nat) (g : Tile → Tile) : (s.modTile i g).cellar = s.cellar := rfl
@[simp] theorem State.modTile_ports (s : State) (i : Nat) (g : Tile → Tile) : (s.modTile i g).ports = s.ports := rfl
@[simp] theorem State.modTile_fabric (s : State) (i : Nat) (g : Tile → Tile) : (s.modTile i g).fabric = s.fabric := rfl
@[simp] theorem State.modTile_secure (s : State) (i : Nat) (g : Tile → Tile) : (s.modTile i g).secure = s.secure := rfl
@[simp] theorem State.modTile_keeper (s : State) (i : Nat) (g : Tile → Tile) : (s.modTile i g).keeper = s.keeper := rfl
@[simp] theorem State.modTile_power (s : State) (i : Nat) (g : Tile → Tile) : (s.modTile i g).power = s.power := rfl
@[simp] theorem State.modTile_porter (s : State) (i : Nat) (g : Tile → Tile) : (s.modTile i g).porter = s.porter := rfl
@[simp] theorem State.modTile_snapshot (s : State) (i : Nat) (g : Tile → Tile) : (s.modTile i g).snapshot = s.snapshot := rfl
@[simp] theorem State.modTile_mgmt (s : State) (i : Nat) (g : Tile → Tile) : (s.modTile i g).mgmt = s.mgmt := rfl
@[simp] theorem State.modTile_link (s : State) (i : Nat) (g : Tile → Tile) : (s.modTile i g).link = s.link := rfl
@[simp] theorem State.modTile_free (s : State) (i : Nat) (g : Tile → Tile) : (s.modTile i g).free = s.free := rfl
@[simp] theorem State.modTile_pending (s : State) (i : Nat) (g : Tile → Tile) : (s.modTile i g).pending = s.pending := rfl

/-! #### modQuarter -/

@[simp] theorem State.modQuarter_clock (s : State) (i : Nat) (g : Quarter → Quarter) : (s.modQuarter i g).clock = s.clock := rfl
@[simp] theorem State.modQuarter_tt (s : State) (i : Nat) (g : Quarter → Quarter) : (s.modQuarter i g).tt = s.tt := rfl
@[simp] theorem State.modQuarter_led (s : State) (i : Nat) (g : Quarter → Quarter) : (s.modQuarter i g).led = s.led := rfl
@[simp] theorem State.modQuarter_durable (s : State) (i : Nat) (g : Quarter → Quarter) : (s.modQuarter i g).durable = s.durable := rfl
@[simp] theorem State.modQuarter_writing (s : State) (i : Nat) (g : Quarter → Quarter) : (s.modQuarter i g).writing = s.writing := rfl
@[simp] theorem State.modQuarter_fns (s : State) (i : Nat) (g : Quarter → Quarter) : (s.modQuarter i g).fns = s.fns := rfl
@[simp] theorem State.modQuarter_wingPages (s : State) (i : Nat) (g : Quarter → Quarter) : (s.modQuarter i g).wingPages = s.wingPages := rfl
@[simp] theorem State.modQuarter_stamped (s : State) (i : Nat) (g : Quarter → Quarter) : (s.modQuarter i g).stamped = s.stamped := rfl
@[simp] theorem State.modQuarter_tickets (s : State) (i : Nat) (g : Quarter → Quarter) : (s.modQuarter i g).tickets = s.tickets := rfl
@[simp] theorem State.modQuarter_tiles (s : State) (i : Nat) (g : Quarter → Quarter) : (s.modQuarter i g).tiles = s.tiles := rfl
@[simp] theorem State.modQuarter_qmem (s : State) (i : Nat) (g : Quarter → Quarter) : (s.modQuarter i g).qmem = s.qmem := rfl
@[simp] theorem State.modQuarter_updEngines (s : State) (i : Nat) (g : Quarter → Quarter) : (s.modQuarter i g).updEngines = s.updEngines := rfl
@[simp] theorem State.modQuarter_jobs (s : State) (i : Nat) (g : Quarter → Quarter) : (s.modQuarter i g).jobs = s.jobs := rfl
@[simp] theorem State.modQuarter_runs (s : State) (i : Nat) (g : Quarter → Quarter) : (s.modQuarter i g).runs = s.runs := rfl
@[simp] theorem State.modQuarter_cellar (s : State) (i : Nat) (g : Quarter → Quarter) : (s.modQuarter i g).cellar = s.cellar := rfl
@[simp] theorem State.modQuarter_ports (s : State) (i : Nat) (g : Quarter → Quarter) : (s.modQuarter i g).ports = s.ports := rfl
@[simp] theorem State.modQuarter_fabric (s : State) (i : Nat) (g : Quarter → Quarter) : (s.modQuarter i g).fabric = s.fabric := rfl
@[simp] theorem State.modQuarter_secure (s : State) (i : Nat) (g : Quarter → Quarter) : (s.modQuarter i g).secure = s.secure := rfl
@[simp] theorem State.modQuarter_keeper (s : State) (i : Nat) (g : Quarter → Quarter) : (s.modQuarter i g).keeper = s.keeper := rfl
@[simp] theorem State.modQuarter_power (s : State) (i : Nat) (g : Quarter → Quarter) : (s.modQuarter i g).power = s.power := rfl
@[simp] theorem State.modQuarter_porter (s : State) (i : Nat) (g : Quarter → Quarter) : (s.modQuarter i g).porter = s.porter := rfl
@[simp] theorem State.modQuarter_snapshot (s : State) (i : Nat) (g : Quarter → Quarter) : (s.modQuarter i g).snapshot = s.snapshot := rfl
@[simp] theorem State.modQuarter_mgmt (s : State) (i : Nat) (g : Quarter → Quarter) : (s.modQuarter i g).mgmt = s.mgmt := rfl
@[simp] theorem State.modQuarter_link (s : State) (i : Nat) (g : Quarter → Quarter) : (s.modQuarter i g).link = s.link := rfl
@[simp] theorem State.modQuarter_free (s : State) (i : Nat) (g : Quarter → Quarter) : (s.modQuarter i g).free = s.free := rfl
@[simp] theorem State.modQuarter_pending (s : State) (i : Nat) (g : Quarter → Quarter) : (s.modQuarter i g).pending = s.pending := rfl

/-! #### modShard -/

@[simp] theorem State.modShard_clock (s : State) (i : Nat) (g : Shard → Shard) : (s.modShard i g).clock = s.clock := rfl
@[simp] theorem State.modShard_tt (s : State) (i : Nat) (g : Shard → Shard) : (s.modShard i g).tt = s.tt := rfl
@[simp] theorem State.modShard_led (s : State) (i : Nat) (g : Shard → Shard) : (s.modShard i g).led = s.led := rfl
@[simp] theorem State.modShard_durable (s : State) (i : Nat) (g : Shard → Shard) : (s.modShard i g).durable = s.durable := rfl
@[simp] theorem State.modShard_writing (s : State) (i : Nat) (g : Shard → Shard) : (s.modShard i g).writing = s.writing := rfl
@[simp] theorem State.modShard_fns (s : State) (i : Nat) (g : Shard → Shard) : (s.modShard i g).fns = s.fns := rfl
@[simp] theorem State.modShard_wingPages (s : State) (i : Nat) (g : Shard → Shard) : (s.modShard i g).wingPages = s.wingPages := rfl
@[simp] theorem State.modShard_stamped (s : State) (i : Nat) (g : Shard → Shard) : (s.modShard i g).stamped = s.stamped := rfl
@[simp] theorem State.modShard_tickets (s : State) (i : Nat) (g : Shard → Shard) : (s.modShard i g).tickets = s.tickets := rfl
@[simp] theorem State.modShard_tiles (s : State) (i : Nat) (g : Shard → Shard) : (s.modShard i g).tiles = s.tiles := rfl
@[simp] theorem State.modShard_quarters (s : State) (i : Nat) (g : Shard → Shard) : (s.modShard i g).quarters = s.quarters := rfl
@[simp] theorem State.modShard_qmem (s : State) (i : Nat) (g : Shard → Shard) : (s.modShard i g).qmem = s.qmem := rfl
@[simp] theorem State.modShard_updEngines (s : State) (i : Nat) (g : Shard → Shard) : (s.modShard i g).updEngines = s.updEngines := rfl
@[simp] theorem State.modShard_jobs (s : State) (i : Nat) (g : Shard → Shard) : (s.modShard i g).jobs = s.jobs := rfl
@[simp] theorem State.modShard_runs (s : State) (i : Nat) (g : Shard → Shard) : (s.modShard i g).runs = s.runs := rfl
@[simp] theorem State.modShard_ports (s : State) (i : Nat) (g : Shard → Shard) : (s.modShard i g).ports = s.ports := rfl
@[simp] theorem State.modShard_fabric (s : State) (i : Nat) (g : Shard → Shard) : (s.modShard i g).fabric = s.fabric := rfl
@[simp] theorem State.modShard_secure (s : State) (i : Nat) (g : Shard → Shard) : (s.modShard i g).secure = s.secure := rfl
@[simp] theorem State.modShard_keeper (s : State) (i : Nat) (g : Shard → Shard) : (s.modShard i g).keeper = s.keeper := rfl
@[simp] theorem State.modShard_power (s : State) (i : Nat) (g : Shard → Shard) : (s.modShard i g).power = s.power := rfl
@[simp] theorem State.modShard_porter (s : State) (i : Nat) (g : Shard → Shard) : (s.modShard i g).porter = s.porter := rfl
@[simp] theorem State.modShard_snapshot (s : State) (i : Nat) (g : Shard → Shard) : (s.modShard i g).snapshot = s.snapshot := rfl
@[simp] theorem State.modShard_mgmt (s : State) (i : Nat) (g : Shard → Shard) : (s.modShard i g).mgmt = s.mgmt := rfl
@[simp] theorem State.modShard_link (s : State) (i : Nat) (g : Shard → Shard) : (s.modShard i g).link = s.link := rfl
@[simp] theorem State.modShard_free (s : State) (i : Nat) (g : Shard → Shard) : (s.modShard i g).free = s.free := rfl
@[simp] theorem State.modShard_pending (s : State) (i : Nat) (g : Shard → Shard) : (s.modShard i g).pending = s.pending := rfl

/-! #### modBase -/

@[simp] theorem State.modBase_clock (s : State) (i : Nat) (g : Base → Base) : (s.modBase i g).clock = s.clock := rfl
@[simp] theorem State.modBase_tt (s : State) (i : Nat) (g : Base → Base) : (s.modBase i g).tt = s.tt := rfl
@[simp] theorem State.modBase_led (s : State) (i : Nat) (g : Base → Base) : (s.modBase i g).led = s.led := rfl
@[simp] theorem State.modBase_durable (s : State) (i : Nat) (g : Base → Base) : (s.modBase i g).durable = s.durable := rfl
@[simp] theorem State.modBase_writing (s : State) (i : Nat) (g : Base → Base) : (s.modBase i g).writing = s.writing := rfl
@[simp] theorem State.modBase_fns (s : State) (i : Nat) (g : Base → Base) : (s.modBase i g).fns = s.fns := rfl
@[simp] theorem State.modBase_wingPages (s : State) (i : Nat) (g : Base → Base) : (s.modBase i g).wingPages = s.wingPages := rfl
@[simp] theorem State.modBase_stamped (s : State) (i : Nat) (g : Base → Base) : (s.modBase i g).stamped = s.stamped := rfl
@[simp] theorem State.modBase_tickets (s : State) (i : Nat) (g : Base → Base) : (s.modBase i g).tickets = s.tickets := rfl
@[simp] theorem State.modBase_tiles (s : State) (i : Nat) (g : Base → Base) : (s.modBase i g).tiles = s.tiles := rfl
@[simp] theorem State.modBase_quarters (s : State) (i : Nat) (g : Base → Base) : (s.modBase i g).quarters = s.quarters := rfl
@[simp] theorem State.modBase_qmem (s : State) (i : Nat) (g : Base → Base) : (s.modBase i g).qmem = s.qmem := rfl
@[simp] theorem State.modBase_updEngines (s : State) (i : Nat) (g : Base → Base) : (s.modBase i g).updEngines = s.updEngines := rfl
@[simp] theorem State.modBase_jobs (s : State) (i : Nat) (g : Base → Base) : (s.modBase i g).jobs = s.jobs := rfl
@[simp] theorem State.modBase_runs (s : State) (i : Nat) (g : Base → Base) : (s.modBase i g).runs = s.runs := rfl
@[simp] theorem State.modBase_ports (s : State) (i : Nat) (g : Base → Base) : (s.modBase i g).ports = s.ports := rfl
@[simp] theorem State.modBase_fabric (s : State) (i : Nat) (g : Base → Base) : (s.modBase i g).fabric = s.fabric := rfl
@[simp] theorem State.modBase_secure (s : State) (i : Nat) (g : Base → Base) : (s.modBase i g).secure = s.secure := rfl
@[simp] theorem State.modBase_keeper (s : State) (i : Nat) (g : Base → Base) : (s.modBase i g).keeper = s.keeper := rfl
@[simp] theorem State.modBase_power (s : State) (i : Nat) (g : Base → Base) : (s.modBase i g).power = s.power := rfl
@[simp] theorem State.modBase_porter (s : State) (i : Nat) (g : Base → Base) : (s.modBase i g).porter = s.porter := rfl
@[simp] theorem State.modBase_snapshot (s : State) (i : Nat) (g : Base → Base) : (s.modBase i g).snapshot = s.snapshot := rfl
@[simp] theorem State.modBase_mgmt (s : State) (i : Nat) (g : Base → Base) : (s.modBase i g).mgmt = s.mgmt := rfl
@[simp] theorem State.modBase_link (s : State) (i : Nat) (g : Base → Base) : (s.modBase i g).link = s.link := rfl
@[simp] theorem State.modBase_free (s : State) (i : Nat) (g : Base → Base) : (s.modBase i g).free = s.free := rfl
@[simp] theorem State.modBase_pending (s : State) (i : Nat) (g : Base → Base) : (s.modBase i g).pending = s.pending := rfl

/-! #### modPort -/

@[simp] theorem State.modPort_clock (s : State) (i : Nat) (g : Port → Port) : (s.modPort i g).clock = s.clock := rfl
@[simp] theorem State.modPort_tt (s : State) (i : Nat) (g : Port → Port) : (s.modPort i g).tt = s.tt := rfl
@[simp] theorem State.modPort_led (s : State) (i : Nat) (g : Port → Port) : (s.modPort i g).led = s.led := rfl
@[simp] theorem State.modPort_durable (s : State) (i : Nat) (g : Port → Port) : (s.modPort i g).durable = s.durable := rfl
@[simp] theorem State.modPort_writing (s : State) (i : Nat) (g : Port → Port) : (s.modPort i g).writing = s.writing := rfl
@[simp] theorem State.modPort_fns (s : State) (i : Nat) (g : Port → Port) : (s.modPort i g).fns = s.fns := rfl
@[simp] theorem State.modPort_wingPages (s : State) (i : Nat) (g : Port → Port) : (s.modPort i g).wingPages = s.wingPages := rfl
@[simp] theorem State.modPort_stamped (s : State) (i : Nat) (g : Port → Port) : (s.modPort i g).stamped = s.stamped := rfl
@[simp] theorem State.modPort_tickets (s : State) (i : Nat) (g : Port → Port) : (s.modPort i g).tickets = s.tickets := rfl
@[simp] theorem State.modPort_tiles (s : State) (i : Nat) (g : Port → Port) : (s.modPort i g).tiles = s.tiles := rfl
@[simp] theorem State.modPort_quarters (s : State) (i : Nat) (g : Port → Port) : (s.modPort i g).quarters = s.quarters := rfl
@[simp] theorem State.modPort_qmem (s : State) (i : Nat) (g : Port → Port) : (s.modPort i g).qmem = s.qmem := rfl
@[simp] theorem State.modPort_updEngines (s : State) (i : Nat) (g : Port → Port) : (s.modPort i g).updEngines = s.updEngines := rfl
@[simp] theorem State.modPort_jobs (s : State) (i : Nat) (g : Port → Port) : (s.modPort i g).jobs = s.jobs := rfl
@[simp] theorem State.modPort_runs (s : State) (i : Nat) (g : Port → Port) : (s.modPort i g).runs = s.runs := rfl
@[simp] theorem State.modPort_cellar (s : State) (i : Nat) (g : Port → Port) : (s.modPort i g).cellar = s.cellar := rfl
@[simp] theorem State.modPort_fabric (s : State) (i : Nat) (g : Port → Port) : (s.modPort i g).fabric = s.fabric := rfl
@[simp] theorem State.modPort_secure (s : State) (i : Nat) (g : Port → Port) : (s.modPort i g).secure = s.secure := rfl
@[simp] theorem State.modPort_keeper (s : State) (i : Nat) (g : Port → Port) : (s.modPort i g).keeper = s.keeper := rfl
@[simp] theorem State.modPort_power (s : State) (i : Nat) (g : Port → Port) : (s.modPort i g).power = s.power := rfl
@[simp] theorem State.modPort_porter (s : State) (i : Nat) (g : Port → Port) : (s.modPort i g).porter = s.porter := rfl
@[simp] theorem State.modPort_snapshot (s : State) (i : Nat) (g : Port → Port) : (s.modPort i g).snapshot = s.snapshot := rfl
@[simp] theorem State.modPort_mgmt (s : State) (i : Nat) (g : Port → Port) : (s.modPort i g).mgmt = s.mgmt := rfl
@[simp] theorem State.modPort_link (s : State) (i : Nat) (g : Port → Port) : (s.modPort i g).link = s.link := rfl
@[simp] theorem State.modPort_free (s : State) (i : Nat) (g : Port → Port) : (s.modPort i g).free = s.free := rfl
@[simp] theorem State.modPort_pending (s : State) (i : Nat) (g : Port → Port) : (s.modPort i g).pending = s.pending := rfl

/-! #### modDomain -/

@[simp] theorem State.modDomain_clock (s : State) (i : Nat) (g : Domain → Domain) : (s.modDomain i g).clock = s.clock := rfl
@[simp] theorem State.modDomain_tt (s : State) (i : Nat) (g : Domain → Domain) : (s.modDomain i g).tt = s.tt := rfl
@[simp] theorem State.modDomain_led (s : State) (i : Nat) (g : Domain → Domain) : (s.modDomain i g).led = s.led := rfl
@[simp] theorem State.modDomain_durable (s : State) (i : Nat) (g : Domain → Domain) : (s.modDomain i g).durable = s.durable := rfl
@[simp] theorem State.modDomain_writing (s : State) (i : Nat) (g : Domain → Domain) : (s.modDomain i g).writing = s.writing := rfl
@[simp] theorem State.modDomain_fns (s : State) (i : Nat) (g : Domain → Domain) : (s.modDomain i g).fns = s.fns := rfl
@[simp] theorem State.modDomain_wingPages (s : State) (i : Nat) (g : Domain → Domain) : (s.modDomain i g).wingPages = s.wingPages := rfl
@[simp] theorem State.modDomain_stamped (s : State) (i : Nat) (g : Domain → Domain) : (s.modDomain i g).stamped = s.stamped := rfl
@[simp] theorem State.modDomain_tickets (s : State) (i : Nat) (g : Domain → Domain) : (s.modDomain i g).tickets = s.tickets := rfl
@[simp] theorem State.modDomain_tiles (s : State) (i : Nat) (g : Domain → Domain) : (s.modDomain i g).tiles = s.tiles := rfl
@[simp] theorem State.modDomain_quarters (s : State) (i : Nat) (g : Domain → Domain) : (s.modDomain i g).quarters = s.quarters := rfl
@[simp] theorem State.modDomain_qmem (s : State) (i : Nat) (g : Domain → Domain) : (s.modDomain i g).qmem = s.qmem := rfl
@[simp] theorem State.modDomain_updEngines (s : State) (i : Nat) (g : Domain → Domain) : (s.modDomain i g).updEngines = s.updEngines := rfl
@[simp] theorem State.modDomain_jobs (s : State) (i : Nat) (g : Domain → Domain) : (s.modDomain i g).jobs = s.jobs := rfl
@[simp] theorem State.modDomain_runs (s : State) (i : Nat) (g : Domain → Domain) : (s.modDomain i g).runs = s.runs := rfl
@[simp] theorem State.modDomain_cellar (s : State) (i : Nat) (g : Domain → Domain) : (s.modDomain i g).cellar = s.cellar := rfl
@[simp] theorem State.modDomain_ports (s : State) (i : Nat) (g : Domain → Domain) : (s.modDomain i g).ports = s.ports := rfl
@[simp] theorem State.modDomain_fabric (s : State) (i : Nat) (g : Domain → Domain) : (s.modDomain i g).fabric = s.fabric := rfl
@[simp] theorem State.modDomain_secure (s : State) (i : Nat) (g : Domain → Domain) : (s.modDomain i g).secure = s.secure := rfl
@[simp] theorem State.modDomain_keeper (s : State) (i : Nat) (g : Domain → Domain) : (s.modDomain i g).keeper = s.keeper := rfl
@[simp] theorem State.modDomain_porter (s : State) (i : Nat) (g : Domain → Domain) : (s.modDomain i g).porter = s.porter := rfl
@[simp] theorem State.modDomain_snapshot (s : State) (i : Nat) (g : Domain → Domain) : (s.modDomain i g).snapshot = s.snapshot := rfl
@[simp] theorem State.modDomain_mgmt (s : State) (i : Nat) (g : Domain → Domain) : (s.modDomain i g).mgmt = s.mgmt := rfl
@[simp] theorem State.modDomain_link (s : State) (i : Nat) (g : Domain → Domain) : (s.modDomain i g).link = s.link := rfl
@[simp] theorem State.modDomain_free (s : State) (i : Nat) (g : Domain → Domain) : (s.modDomain i g).free = s.free := rfl
@[simp] theorem State.modDomain_pending (s : State) (i : Nat) (g : Domain → Domain) : (s.modDomain i g).pending = s.pending := rfl

/-! #### modJob -/

@[simp] theorem State.modJob_clock (s : State) (i : Nat) (g : Job → Job) : (s.modJob i g).clock = s.clock := rfl
@[simp] theorem State.modJob_tt (s : State) (i : Nat) (g : Job → Job) : (s.modJob i g).tt = s.tt := rfl
@[simp] theorem State.modJob_led (s : State) (i : Nat) (g : Job → Job) : (s.modJob i g).led = s.led := rfl
@[simp] theorem State.modJob_durable (s : State) (i : Nat) (g : Job → Job) : (s.modJob i g).durable = s.durable := rfl
@[simp] theorem State.modJob_writing (s : State) (i : Nat) (g : Job → Job) : (s.modJob i g).writing = s.writing := rfl
@[simp] theorem State.modJob_fns (s : State) (i : Nat) (g : Job → Job) : (s.modJob i g).fns = s.fns := rfl
@[simp] theorem State.modJob_wingPages (s : State) (i : Nat) (g : Job → Job) : (s.modJob i g).wingPages = s.wingPages := rfl
@[simp] theorem State.modJob_stamped (s : State) (i : Nat) (g : Job → Job) : (s.modJob i g).stamped = s.stamped := rfl
@[simp] theorem State.modJob_tickets (s : State) (i : Nat) (g : Job → Job) : (s.modJob i g).tickets = s.tickets := rfl
@[simp] theorem State.modJob_tiles (s : State) (i : Nat) (g : Job → Job) : (s.modJob i g).tiles = s.tiles := rfl
@[simp] theorem State.modJob_quarters (s : State) (i : Nat) (g : Job → Job) : (s.modJob i g).quarters = s.quarters := rfl
@[simp] theorem State.modJob_qmem (s : State) (i : Nat) (g : Job → Job) : (s.modJob i g).qmem = s.qmem := rfl
@[simp] theorem State.modJob_updEngines (s : State) (i : Nat) (g : Job → Job) : (s.modJob i g).updEngines = s.updEngines := rfl
@[simp] theorem State.modJob_runs (s : State) (i : Nat) (g : Job → Job) : (s.modJob i g).runs = s.runs := rfl
@[simp] theorem State.modJob_cellar (s : State) (i : Nat) (g : Job → Job) : (s.modJob i g).cellar = s.cellar := rfl
@[simp] theorem State.modJob_ports (s : State) (i : Nat) (g : Job → Job) : (s.modJob i g).ports = s.ports := rfl
@[simp] theorem State.modJob_fabric (s : State) (i : Nat) (g : Job → Job) : (s.modJob i g).fabric = s.fabric := rfl
@[simp] theorem State.modJob_secure (s : State) (i : Nat) (g : Job → Job) : (s.modJob i g).secure = s.secure := rfl
@[simp] theorem State.modJob_keeper (s : State) (i : Nat) (g : Job → Job) : (s.modJob i g).keeper = s.keeper := rfl
@[simp] theorem State.modJob_power (s : State) (i : Nat) (g : Job → Job) : (s.modJob i g).power = s.power := rfl
@[simp] theorem State.modJob_porter (s : State) (i : Nat) (g : Job → Job) : (s.modJob i g).porter = s.porter := rfl
@[simp] theorem State.modJob_snapshot (s : State) (i : Nat) (g : Job → Job) : (s.modJob i g).snapshot = s.snapshot := rfl
@[simp] theorem State.modJob_mgmt (s : State) (i : Nat) (g : Job → Job) : (s.modJob i g).mgmt = s.mgmt := rfl
@[simp] theorem State.modJob_link (s : State) (i : Nat) (g : Job → Job) : (s.modJob i g).link = s.link := rfl
@[simp] theorem State.modJob_free (s : State) (i : Nat) (g : Job → Job) : (s.modJob i g).free = s.free := rfl
@[simp] theorem State.modJob_pending (s : State) (i : Nat) (g : Job → Job) : (s.modJob i g).pending = s.pending := rfl

/-! #### modClock -/

@[simp] theorem State.modClock_tt (s : State) (g : Clock → Clock) : (s.modClock g).tt = s.tt := rfl
@[simp] theorem State.modClock_led (s : State) (g : Clock → Clock) : (s.modClock g).led = s.led := rfl
@[simp] theorem State.modClock_durable (s : State) (g : Clock → Clock) : (s.modClock g).durable = s.durable := rfl
@[simp] theorem State.modClock_writing (s : State) (g : Clock → Clock) : (s.modClock g).writing = s.writing := rfl
@[simp] theorem State.modClock_fns (s : State) (g : Clock → Clock) : (s.modClock g).fns = s.fns := rfl
@[simp] theorem State.modClock_wingPages (s : State) (g : Clock → Clock) : (s.modClock g).wingPages = s.wingPages := rfl
@[simp] theorem State.modClock_stamped (s : State) (g : Clock → Clock) : (s.modClock g).stamped = s.stamped := rfl
@[simp] theorem State.modClock_tickets (s : State) (g : Clock → Clock) : (s.modClock g).tickets = s.tickets := rfl
@[simp] theorem State.modClock_tiles (s : State) (g : Clock → Clock) : (s.modClock g).tiles = s.tiles := rfl
@[simp] theorem State.modClock_quarters (s : State) (g : Clock → Clock) : (s.modClock g).quarters = s.quarters := rfl
@[simp] theorem State.modClock_qmem (s : State) (g : Clock → Clock) : (s.modClock g).qmem = s.qmem := rfl
@[simp] theorem State.modClock_updEngines (s : State) (g : Clock → Clock) : (s.modClock g).updEngines = s.updEngines := rfl
@[simp] theorem State.modClock_jobs (s : State) (g : Clock → Clock) : (s.modClock g).jobs = s.jobs := rfl
@[simp] theorem State.modClock_runs (s : State) (g : Clock → Clock) : (s.modClock g).runs = s.runs := rfl
@[simp] theorem State.modClock_cellar (s : State) (g : Clock → Clock) : (s.modClock g).cellar = s.cellar := rfl
@[simp] theorem State.modClock_ports (s : State) (g : Clock → Clock) : (s.modClock g).ports = s.ports := rfl
@[simp] theorem State.modClock_fabric (s : State) (g : Clock → Clock) : (s.modClock g).fabric = s.fabric := rfl
@[simp] theorem State.modClock_secure (s : State) (g : Clock → Clock) : (s.modClock g).secure = s.secure := rfl
@[simp] theorem State.modClock_keeper (s : State) (g : Clock → Clock) : (s.modClock g).keeper = s.keeper := rfl
@[simp] theorem State.modClock_power (s : State) (g : Clock → Clock) : (s.modClock g).power = s.power := rfl
@[simp] theorem State.modClock_porter (s : State) (g : Clock → Clock) : (s.modClock g).porter = s.porter := rfl
@[simp] theorem State.modClock_snapshot (s : State) (g : Clock → Clock) : (s.modClock g).snapshot = s.snapshot := rfl
@[simp] theorem State.modClock_mgmt (s : State) (g : Clock → Clock) : (s.modClock g).mgmt = s.mgmt := rfl
@[simp] theorem State.modClock_link (s : State) (g : Clock → Clock) : (s.modClock g).link = s.link := rfl
@[simp] theorem State.modClock_free (s : State) (g : Clock → Clock) : (s.modClock g).free = s.free := rfl
@[simp] theorem State.modClock_pending (s : State) (g : Clock → Clock) : (s.modClock g).pending = s.pending := rfl

/-! #### modFabric -/

@[simp] theorem State.modFabric_clock (s : State) (g : Fabric → Fabric) : (s.modFabric g).clock = s.clock := rfl
@[simp] theorem State.modFabric_tt (s : State) (g : Fabric → Fabric) : (s.modFabric g).tt = s.tt := rfl
@[simp] theorem State.modFabric_led (s : State) (g : Fabric → Fabric) : (s.modFabric g).led = s.led := rfl
@[simp] theorem State.modFabric_durable (s : State) (g : Fabric → Fabric) : (s.modFabric g).durable = s.durable := rfl
@[simp] theorem State.modFabric_writing (s : State) (g : Fabric → Fabric) : (s.modFabric g).writing = s.writing := rfl
@[simp] theorem State.modFabric_fns (s : State) (g : Fabric → Fabric) : (s.modFabric g).fns = s.fns := rfl
@[simp] theorem State.modFabric_wingPages (s : State) (g : Fabric → Fabric) : (s.modFabric g).wingPages = s.wingPages := rfl
@[simp] theorem State.modFabric_stamped (s : State) (g : Fabric → Fabric) : (s.modFabric g).stamped = s.stamped := rfl
@[simp] theorem State.modFabric_tickets (s : State) (g : Fabric → Fabric) : (s.modFabric g).tickets = s.tickets := rfl
@[simp] theorem State.modFabric_tiles (s : State) (g : Fabric → Fabric) : (s.modFabric g).tiles = s.tiles := rfl
@[simp] theorem State.modFabric_quarters (s : State) (g : Fabric → Fabric) : (s.modFabric g).quarters = s.quarters := rfl
@[simp] theorem State.modFabric_qmem (s : State) (g : Fabric → Fabric) : (s.modFabric g).qmem = s.qmem := rfl
@[simp] theorem State.modFabric_updEngines (s : State) (g : Fabric → Fabric) : (s.modFabric g).updEngines = s.updEngines := rfl
@[simp] theorem State.modFabric_jobs (s : State) (g : Fabric → Fabric) : (s.modFabric g).jobs = s.jobs := rfl
@[simp] theorem State.modFabric_runs (s : State) (g : Fabric → Fabric) : (s.modFabric g).runs = s.runs := rfl
@[simp] theorem State.modFabric_cellar (s : State) (g : Fabric → Fabric) : (s.modFabric g).cellar = s.cellar := rfl
@[simp] theorem State.modFabric_ports (s : State) (g : Fabric → Fabric) : (s.modFabric g).ports = s.ports := rfl
@[simp] theorem State.modFabric_secure (s : State) (g : Fabric → Fabric) : (s.modFabric g).secure = s.secure := rfl
@[simp] theorem State.modFabric_keeper (s : State) (g : Fabric → Fabric) : (s.modFabric g).keeper = s.keeper := rfl
@[simp] theorem State.modFabric_power (s : State) (g : Fabric → Fabric) : (s.modFabric g).power = s.power := rfl
@[simp] theorem State.modFabric_porter (s : State) (g : Fabric → Fabric) : (s.modFabric g).porter = s.porter := rfl
@[simp] theorem State.modFabric_snapshot (s : State) (g : Fabric → Fabric) : (s.modFabric g).snapshot = s.snapshot := rfl
@[simp] theorem State.modFabric_mgmt (s : State) (g : Fabric → Fabric) : (s.modFabric g).mgmt = s.mgmt := rfl
@[simp] theorem State.modFabric_link (s : State) (g : Fabric → Fabric) : (s.modFabric g).link = s.link := rfl
@[simp] theorem State.modFabric_free (s : State) (g : Fabric → Fabric) : (s.modFabric g).free = s.free := rfl
@[simp] theorem State.modFabric_pending (s : State) (g : Fabric → Fabric) : (s.modFabric g).pending = s.pending := rfl

/-! #### modSecure -/

@[simp] theorem State.modSecure_clock (s : State) (g : Secure → Secure) : (s.modSecure g).clock = s.clock := rfl
@[simp] theorem State.modSecure_tt (s : State) (g : Secure → Secure) : (s.modSecure g).tt = s.tt := rfl
@[simp] theorem State.modSecure_led (s : State) (g : Secure → Secure) : (s.modSecure g).led = s.led := rfl
@[simp] theorem State.modSecure_durable (s : State) (g : Secure → Secure) : (s.modSecure g).durable = s.durable := rfl
@[simp] theorem State.modSecure_writing (s : State) (g : Secure → Secure) : (s.modSecure g).writing = s.writing := rfl
@[simp] theorem State.modSecure_fns (s : State) (g : Secure → Secure) : (s.modSecure g).fns = s.fns := rfl
@[simp] theorem State.modSecure_wingPages (s : State) (g : Secure → Secure) : (s.modSecure g).wingPages = s.wingPages := rfl
@[simp] theorem State.modSecure_stamped (s : State) (g : Secure → Secure) : (s.modSecure g).stamped = s.stamped := rfl
@[simp] theorem State.modSecure_tickets (s : State) (g : Secure → Secure) : (s.modSecure g).tickets = s.tickets := rfl
@[simp] theorem State.modSecure_tiles (s : State) (g : Secure → Secure) : (s.modSecure g).tiles = s.tiles := rfl
@[simp] theorem State.modSecure_quarters (s : State) (g : Secure → Secure) : (s.modSecure g).quarters = s.quarters := rfl
@[simp] theorem State.modSecure_qmem (s : State) (g : Secure → Secure) : (s.modSecure g).qmem = s.qmem := rfl
@[simp] theorem State.modSecure_updEngines (s : State) (g : Secure → Secure) : (s.modSecure g).updEngines = s.updEngines := rfl
@[simp] theorem State.modSecure_jobs (s : State) (g : Secure → Secure) : (s.modSecure g).jobs = s.jobs := rfl
@[simp] theorem State.modSecure_runs (s : State) (g : Secure → Secure) : (s.modSecure g).runs = s.runs := rfl
@[simp] theorem State.modSecure_cellar (s : State) (g : Secure → Secure) : (s.modSecure g).cellar = s.cellar := rfl
@[simp] theorem State.modSecure_ports (s : State) (g : Secure → Secure) : (s.modSecure g).ports = s.ports := rfl
@[simp] theorem State.modSecure_fabric (s : State) (g : Secure → Secure) : (s.modSecure g).fabric = s.fabric := rfl
@[simp] theorem State.modSecure_keeper (s : State) (g : Secure → Secure) : (s.modSecure g).keeper = s.keeper := rfl
@[simp] theorem State.modSecure_power (s : State) (g : Secure → Secure) : (s.modSecure g).power = s.power := rfl
@[simp] theorem State.modSecure_porter (s : State) (g : Secure → Secure) : (s.modSecure g).porter = s.porter := rfl
@[simp] theorem State.modSecure_snapshot (s : State) (g : Secure → Secure) : (s.modSecure g).snapshot = s.snapshot := rfl
@[simp] theorem State.modSecure_mgmt (s : State) (g : Secure → Secure) : (s.modSecure g).mgmt = s.mgmt := rfl
@[simp] theorem State.modSecure_link (s : State) (g : Secure → Secure) : (s.modSecure g).link = s.link := rfl
@[simp] theorem State.modSecure_free (s : State) (g : Secure → Secure) : (s.modSecure g).free = s.free := rfl
@[simp] theorem State.modSecure_pending (s : State) (g : Secure → Secure) : (s.modSecure g).pending = s.pending := rfl

/-! #### modKeeper -/

@[simp] theorem State.modKeeper_clock (s : State) (g : Keeper → Keeper) : (s.modKeeper g).clock = s.clock := rfl
@[simp] theorem State.modKeeper_tt (s : State) (g : Keeper → Keeper) : (s.modKeeper g).tt = s.tt := rfl
@[simp] theorem State.modKeeper_led (s : State) (g : Keeper → Keeper) : (s.modKeeper g).led = s.led := rfl
@[simp] theorem State.modKeeper_durable (s : State) (g : Keeper → Keeper) : (s.modKeeper g).durable = s.durable := rfl
@[simp] theorem State.modKeeper_writing (s : State) (g : Keeper → Keeper) : (s.modKeeper g).writing = s.writing := rfl
@[simp] theorem State.modKeeper_fns (s : State) (g : Keeper → Keeper) : (s.modKeeper g).fns = s.fns := rfl
@[simp] theorem State.modKeeper_wingPages (s : State) (g : Keeper → Keeper) : (s.modKeeper g).wingPages = s.wingPages := rfl
@[simp] theorem State.modKeeper_stamped (s : State) (g : Keeper → Keeper) : (s.modKeeper g).stamped = s.stamped := rfl
@[simp] theorem State.modKeeper_tickets (s : State) (g : Keeper → Keeper) : (s.modKeeper g).tickets = s.tickets := rfl
@[simp] theorem State.modKeeper_tiles (s : State) (g : Keeper → Keeper) : (s.modKeeper g).tiles = s.tiles := rfl
@[simp] theorem State.modKeeper_quarters (s : State) (g : Keeper → Keeper) : (s.modKeeper g).quarters = s.quarters := rfl
@[simp] theorem State.modKeeper_qmem (s : State) (g : Keeper → Keeper) : (s.modKeeper g).qmem = s.qmem := rfl
@[simp] theorem State.modKeeper_updEngines (s : State) (g : Keeper → Keeper) : (s.modKeeper g).updEngines = s.updEngines := rfl
@[simp] theorem State.modKeeper_jobs (s : State) (g : Keeper → Keeper) : (s.modKeeper g).jobs = s.jobs := rfl
@[simp] theorem State.modKeeper_runs (s : State) (g : Keeper → Keeper) : (s.modKeeper g).runs = s.runs := rfl
@[simp] theorem State.modKeeper_cellar (s : State) (g : Keeper → Keeper) : (s.modKeeper g).cellar = s.cellar := rfl
@[simp] theorem State.modKeeper_ports (s : State) (g : Keeper → Keeper) : (s.modKeeper g).ports = s.ports := rfl
@[simp] theorem State.modKeeper_fabric (s : State) (g : Keeper → Keeper) : (s.modKeeper g).fabric = s.fabric := rfl
@[simp] theorem State.modKeeper_secure (s : State) (g : Keeper → Keeper) : (s.modKeeper g).secure = s.secure := rfl
@[simp] theorem State.modKeeper_power (s : State) (g : Keeper → Keeper) : (s.modKeeper g).power = s.power := rfl
@[simp] theorem State.modKeeper_porter (s : State) (g : Keeper → Keeper) : (s.modKeeper g).porter = s.porter := rfl
@[simp] theorem State.modKeeper_snapshot (s : State) (g : Keeper → Keeper) : (s.modKeeper g).snapshot = s.snapshot := rfl
@[simp] theorem State.modKeeper_mgmt (s : State) (g : Keeper → Keeper) : (s.modKeeper g).mgmt = s.mgmt := rfl
@[simp] theorem State.modKeeper_link (s : State) (g : Keeper → Keeper) : (s.modKeeper g).link = s.link := rfl
@[simp] theorem State.modKeeper_free (s : State) (g : Keeper → Keeper) : (s.modKeeper g).free = s.free := rfl
@[simp] theorem State.modKeeper_pending (s : State) (g : Keeper → Keeper) : (s.modKeeper g).pending = s.pending := rfl

/-! #### modPower -/

@[simp] theorem State.modPower_clock (s : State) (g : Power → Power) : (s.modPower g).clock = s.clock := rfl
@[simp] theorem State.modPower_tt (s : State) (g : Power → Power) : (s.modPower g).tt = s.tt := rfl
@[simp] theorem State.modPower_led (s : State) (g : Power → Power) : (s.modPower g).led = s.led := rfl
@[simp] theorem State.modPower_durable (s : State) (g : Power → Power) : (s.modPower g).durable = s.durable := rfl
@[simp] theorem State.modPower_writing (s : State) (g : Power → Power) : (s.modPower g).writing = s.writing := rfl
@[simp] theorem State.modPower_fns (s : State) (g : Power → Power) : (s.modPower g).fns = s.fns := rfl
@[simp] theorem State.modPower_wingPages (s : State) (g : Power → Power) : (s.modPower g).wingPages = s.wingPages := rfl
@[simp] theorem State.modPower_stamped (s : State) (g : Power → Power) : (s.modPower g).stamped = s.stamped := rfl
@[simp] theorem State.modPower_tickets (s : State) (g : Power → Power) : (s.modPower g).tickets = s.tickets := rfl
@[simp] theorem State.modPower_tiles (s : State) (g : Power → Power) : (s.modPower g).tiles = s.tiles := rfl
@[simp] theorem State.modPower_quarters (s : State) (g : Power → Power) : (s.modPower g).quarters = s.quarters := rfl
@[simp] theorem State.modPower_qmem (s : State) (g : Power → Power) : (s.modPower g).qmem = s.qmem := rfl
@[simp] theorem State.modPower_updEngines (s : State) (g : Power → Power) : (s.modPower g).updEngines = s.updEngines := rfl
@[simp] theorem State.modPower_jobs (s : State) (g : Power → Power) : (s.modPower g).jobs = s.jobs := rfl
@[simp] theorem State.modPower_runs (s : State) (g : Power → Power) : (s.modPower g).runs = s.runs := rfl
@[simp] theorem State.modPower_cellar (s : State) (g : Power → Power) : (s.modPower g).cellar = s.cellar := rfl
@[simp] theorem State.modPower_ports (s : State) (g : Power → Power) : (s.modPower g).ports = s.ports := rfl
@[simp] theorem State.modPower_fabric (s : State) (g : Power → Power) : (s.modPower g).fabric = s.fabric := rfl
@[simp] theorem State.modPower_secure (s : State) (g : Power → Power) : (s.modPower g).secure = s.secure := rfl
@[simp] theorem State.modPower_keeper (s : State) (g : Power → Power) : (s.modPower g).keeper = s.keeper := rfl
@[simp] theorem State.modPower_porter (s : State) (g : Power → Power) : (s.modPower g).porter = s.porter := rfl
@[simp] theorem State.modPower_snapshot (s : State) (g : Power → Power) : (s.modPower g).snapshot = s.snapshot := rfl
@[simp] theorem State.modPower_mgmt (s : State) (g : Power → Power) : (s.modPower g).mgmt = s.mgmt := rfl
@[simp] theorem State.modPower_link (s : State) (g : Power → Power) : (s.modPower g).link = s.link := rfl
@[simp] theorem State.modPower_free (s : State) (g : Power → Power) : (s.modPower g).free = s.free := rfl
@[simp] theorem State.modPower_pending (s : State) (g : Power → Power) : (s.modPower g).pending = s.pending := rfl

/-! #### modMgmt -/

@[simp] theorem State.modMgmt_clock (s : State) (g : Mgmt → Mgmt) : (s.modMgmt g).clock = s.clock := rfl
@[simp] theorem State.modMgmt_tt (s : State) (g : Mgmt → Mgmt) : (s.modMgmt g).tt = s.tt := rfl
@[simp] theorem State.modMgmt_led (s : State) (g : Mgmt → Mgmt) : (s.modMgmt g).led = s.led := rfl
@[simp] theorem State.modMgmt_durable (s : State) (g : Mgmt → Mgmt) : (s.modMgmt g).durable = s.durable := rfl
@[simp] theorem State.modMgmt_writing (s : State) (g : Mgmt → Mgmt) : (s.modMgmt g).writing = s.writing := rfl
@[simp] theorem State.modMgmt_fns (s : State) (g : Mgmt → Mgmt) : (s.modMgmt g).fns = s.fns := rfl
@[simp] theorem State.modMgmt_wingPages (s : State) (g : Mgmt → Mgmt) : (s.modMgmt g).wingPages = s.wingPages := rfl
@[simp] theorem State.modMgmt_stamped (s : State) (g : Mgmt → Mgmt) : (s.modMgmt g).stamped = s.stamped := rfl
@[simp] theorem State.modMgmt_tickets (s : State) (g : Mgmt → Mgmt) : (s.modMgmt g).tickets = s.tickets := rfl
@[simp] theorem State.modMgmt_tiles (s : State) (g : Mgmt → Mgmt) : (s.modMgmt g).tiles = s.tiles := rfl
@[simp] theorem State.modMgmt_quarters (s : State) (g : Mgmt → Mgmt) : (s.modMgmt g).quarters = s.quarters := rfl
@[simp] theorem State.modMgmt_qmem (s : State) (g : Mgmt → Mgmt) : (s.modMgmt g).qmem = s.qmem := rfl
@[simp] theorem State.modMgmt_updEngines (s : State) (g : Mgmt → Mgmt) : (s.modMgmt g).updEngines = s.updEngines := rfl
@[simp] theorem State.modMgmt_jobs (s : State) (g : Mgmt → Mgmt) : (s.modMgmt g).jobs = s.jobs := rfl
@[simp] theorem State.modMgmt_runs (s : State) (g : Mgmt → Mgmt) : (s.modMgmt g).runs = s.runs := rfl
@[simp] theorem State.modMgmt_cellar (s : State) (g : Mgmt → Mgmt) : (s.modMgmt g).cellar = s.cellar := rfl
@[simp] theorem State.modMgmt_ports (s : State) (g : Mgmt → Mgmt) : (s.modMgmt g).ports = s.ports := rfl
@[simp] theorem State.modMgmt_fabric (s : State) (g : Mgmt → Mgmt) : (s.modMgmt g).fabric = s.fabric := rfl
@[simp] theorem State.modMgmt_secure (s : State) (g : Mgmt → Mgmt) : (s.modMgmt g).secure = s.secure := rfl
@[simp] theorem State.modMgmt_keeper (s : State) (g : Mgmt → Mgmt) : (s.modMgmt g).keeper = s.keeper := rfl
@[simp] theorem State.modMgmt_power (s : State) (g : Mgmt → Mgmt) : (s.modMgmt g).power = s.power := rfl
@[simp] theorem State.modMgmt_porter (s : State) (g : Mgmt → Mgmt) : (s.modMgmt g).porter = s.porter := rfl
@[simp] theorem State.modMgmt_snapshot (s : State) (g : Mgmt → Mgmt) : (s.modMgmt g).snapshot = s.snapshot := rfl
@[simp] theorem State.modMgmt_link (s : State) (g : Mgmt → Mgmt) : (s.modMgmt g).link = s.link := rfl
@[simp] theorem State.modMgmt_free (s : State) (g : Mgmt → Mgmt) : (s.modMgmt g).free = s.free := rfl
@[simp] theorem State.modMgmt_pending (s : State) (g : Mgmt → Mgmt) : (s.modMgmt g).pending = s.pending := rfl

/-! #### modLink -/

@[simp] theorem State.modLink_clock (s : State) (g : Link → Link) : (s.modLink g).clock = s.clock := rfl
@[simp] theorem State.modLink_tt (s : State) (g : Link → Link) : (s.modLink g).tt = s.tt := rfl
@[simp] theorem State.modLink_led (s : State) (g : Link → Link) : (s.modLink g).led = s.led := rfl
@[simp] theorem State.modLink_durable (s : State) (g : Link → Link) : (s.modLink g).durable = s.durable := rfl
@[simp] theorem State.modLink_writing (s : State) (g : Link → Link) : (s.modLink g).writing = s.writing := rfl
@[simp] theorem State.modLink_fns (s : State) (g : Link → Link) : (s.modLink g).fns = s.fns := rfl
@[simp] theorem State.modLink_wingPages (s : State) (g : Link → Link) : (s.modLink g).wingPages = s.wingPages := rfl
@[simp] theorem State.modLink_stamped (s : State) (g : Link → Link) : (s.modLink g).stamped = s.stamped := rfl
@[simp] theorem State.modLink_tickets (s : State) (g : Link → Link) : (s.modLink g).tickets = s.tickets := rfl
@[simp] theorem State.modLink_tiles (s : State) (g : Link → Link) : (s.modLink g).tiles = s.tiles := rfl
@[simp] theorem State.modLink_quarters (s : State) (g : Link → Link) : (s.modLink g).quarters = s.quarters := rfl
@[simp] theorem State.modLink_qmem (s : State) (g : Link → Link) : (s.modLink g).qmem = s.qmem := rfl
@[simp] theorem State.modLink_updEngines (s : State) (g : Link → Link) : (s.modLink g).updEngines = s.updEngines := rfl
@[simp] theorem State.modLink_jobs (s : State) (g : Link → Link) : (s.modLink g).jobs = s.jobs := rfl
@[simp] theorem State.modLink_runs (s : State) (g : Link → Link) : (s.modLink g).runs = s.runs := rfl
@[simp] theorem State.modLink_cellar (s : State) (g : Link → Link) : (s.modLink g).cellar = s.cellar := rfl
@[simp] theorem State.modLink_ports (s : State) (g : Link → Link) : (s.modLink g).ports = s.ports := rfl
@[simp] theorem State.modLink_fabric (s : State) (g : Link → Link) : (s.modLink g).fabric = s.fabric := rfl
@[simp] theorem State.modLink_secure (s : State) (g : Link → Link) : (s.modLink g).secure = s.secure := rfl
@[simp] theorem State.modLink_keeper (s : State) (g : Link → Link) : (s.modLink g).keeper = s.keeper := rfl
@[simp] theorem State.modLink_power (s : State) (g : Link → Link) : (s.modLink g).power = s.power := rfl
@[simp] theorem State.modLink_porter (s : State) (g : Link → Link) : (s.modLink g).porter = s.porter := rfl
@[simp] theorem State.modLink_snapshot (s : State) (g : Link → Link) : (s.modLink g).snapshot = s.snapshot := rfl
@[simp] theorem State.modLink_mgmt (s : State) (g : Link → Link) : (s.modLink g).mgmt = s.mgmt := rfl
@[simp] theorem State.modLink_free (s : State) (g : Link → Link) : (s.modLink g).free = s.free := rfl
@[simp] theorem State.modLink_pending (s : State) (g : Link → Link) : (s.modLink g).pending = s.pending := rfl

/-! #### modCellar -/

@[simp] theorem State.modCellar_clock (s : State) (g : Cellar → Cellar) : (s.modCellar g).clock = s.clock := rfl
@[simp] theorem State.modCellar_tt (s : State) (g : Cellar → Cellar) : (s.modCellar g).tt = s.tt := rfl
@[simp] theorem State.modCellar_led (s : State) (g : Cellar → Cellar) : (s.modCellar g).led = s.led := rfl
@[simp] theorem State.modCellar_durable (s : State) (g : Cellar → Cellar) : (s.modCellar g).durable = s.durable := rfl
@[simp] theorem State.modCellar_writing (s : State) (g : Cellar → Cellar) : (s.modCellar g).writing = s.writing := rfl
@[simp] theorem State.modCellar_fns (s : State) (g : Cellar → Cellar) : (s.modCellar g).fns = s.fns := rfl
@[simp] theorem State.modCellar_wingPages (s : State) (g : Cellar → Cellar) : (s.modCellar g).wingPages = s.wingPages := rfl
@[simp] theorem State.modCellar_stamped (s : State) (g : Cellar → Cellar) : (s.modCellar g).stamped = s.stamped := rfl
@[simp] theorem State.modCellar_tickets (s : State) (g : Cellar → Cellar) : (s.modCellar g).tickets = s.tickets := rfl
@[simp] theorem State.modCellar_tiles (s : State) (g : Cellar → Cellar) : (s.modCellar g).tiles = s.tiles := rfl
@[simp] theorem State.modCellar_quarters (s : State) (g : Cellar → Cellar) : (s.modCellar g).quarters = s.quarters := rfl
@[simp] theorem State.modCellar_qmem (s : State) (g : Cellar → Cellar) : (s.modCellar g).qmem = s.qmem := rfl
@[simp] theorem State.modCellar_updEngines (s : State) (g : Cellar → Cellar) : (s.modCellar g).updEngines = s.updEngines := rfl
@[simp] theorem State.modCellar_jobs (s : State) (g : Cellar → Cellar) : (s.modCellar g).jobs = s.jobs := rfl
@[simp] theorem State.modCellar_runs (s : State) (g : Cellar → Cellar) : (s.modCellar g).runs = s.runs := rfl
@[simp] theorem State.modCellar_ports (s : State) (g : Cellar → Cellar) : (s.modCellar g).ports = s.ports := rfl
@[simp] theorem State.modCellar_fabric (s : State) (g : Cellar → Cellar) : (s.modCellar g).fabric = s.fabric := rfl
@[simp] theorem State.modCellar_secure (s : State) (g : Cellar → Cellar) : (s.modCellar g).secure = s.secure := rfl
@[simp] theorem State.modCellar_keeper (s : State) (g : Cellar → Cellar) : (s.modCellar g).keeper = s.keeper := rfl
@[simp] theorem State.modCellar_power (s : State) (g : Cellar → Cellar) : (s.modCellar g).power = s.power := rfl
@[simp] theorem State.modCellar_porter (s : State) (g : Cellar → Cellar) : (s.modCellar g).porter = s.porter := rfl
@[simp] theorem State.modCellar_snapshot (s : State) (g : Cellar → Cellar) : (s.modCellar g).snapshot = s.snapshot := rfl
@[simp] theorem State.modCellar_mgmt (s : State) (g : Cellar → Cellar) : (s.modCellar g).mgmt = s.mgmt := rfl
@[simp] theorem State.modCellar_link (s : State) (g : Cellar → Cellar) : (s.modCellar g).link = s.link := rfl
@[simp] theorem State.modCellar_free (s : State) (g : Cellar → Cellar) : (s.modCellar g).free = s.free := rfl
@[simp] theorem State.modCellar_pending (s : State) (g : Cellar → Cellar) : (s.modCellar g).pending = s.pending := rfl

/-! #### modLed -/

@[simp] theorem State.modLed_clock (s : State) (g : Led → Led) : (s.modLed g).clock = s.clock := rfl
@[simp] theorem State.modLed_tt (s : State) (g : Led → Led) : (s.modLed g).tt = s.tt := rfl
@[simp] theorem State.modLed_durable (s : State) (g : Led → Led) : (s.modLed g).durable = s.durable := rfl
@[simp] theorem State.modLed_writing (s : State) (g : Led → Led) : (s.modLed g).writing = s.writing := rfl
@[simp] theorem State.modLed_fns (s : State) (g : Led → Led) : (s.modLed g).fns = s.fns := rfl
@[simp] theorem State.modLed_wingPages (s : State) (g : Led → Led) : (s.modLed g).wingPages = s.wingPages := rfl
@[simp] theorem State.modLed_stamped (s : State) (g : Led → Led) : (s.modLed g).stamped = s.stamped := rfl
@[simp] theorem State.modLed_tickets (s : State) (g : Led → Led) : (s.modLed g).tickets = s.tickets := rfl
@[simp] theorem State.modLed_tiles (s : State) (g : Led → Led) : (s.modLed g).tiles = s.tiles := rfl
@[simp] theorem State.modLed_quarters (s : State) (g : Led → Led) : (s.modLed g).quarters = s.quarters := rfl
@[simp] theorem State.modLed_qmem (s : State) (g : Led → Led) : (s.modLed g).qmem = s.qmem := rfl
@[simp] theorem State.modLed_updEngines (s : State) (g : Led → Led) : (s.modLed g).updEngines = s.updEngines := rfl
@[simp] theorem State.modLed_jobs (s : State) (g : Led → Led) : (s.modLed g).jobs = s.jobs := rfl
@[simp] theorem State.modLed_runs (s : State) (g : Led → Led) : (s.modLed g).runs = s.runs := rfl
@[simp] theorem State.modLed_cellar (s : State) (g : Led → Led) : (s.modLed g).cellar = s.cellar := rfl
@[simp] theorem State.modLed_ports (s : State) (g : Led → Led) : (s.modLed g).ports = s.ports := rfl
@[simp] theorem State.modLed_fabric (s : State) (g : Led → Led) : (s.modLed g).fabric = s.fabric := rfl
@[simp] theorem State.modLed_secure (s : State) (g : Led → Led) : (s.modLed g).secure = s.secure := rfl
@[simp] theorem State.modLed_keeper (s : State) (g : Led → Led) : (s.modLed g).keeper = s.keeper := rfl
@[simp] theorem State.modLed_power (s : State) (g : Led → Led) : (s.modLed g).power = s.power := rfl
@[simp] theorem State.modLed_porter (s : State) (g : Led → Led) : (s.modLed g).porter = s.porter := rfl
@[simp] theorem State.modLed_snapshot (s : State) (g : Led → Led) : (s.modLed g).snapshot = s.snapshot := rfl
@[simp] theorem State.modLed_mgmt (s : State) (g : Led → Led) : (s.modLed g).mgmt = s.mgmt := rfl
@[simp] theorem State.modLed_link (s : State) (g : Led → Led) : (s.modLed g).link = s.link := rfl
@[simp] theorem State.modLed_free (s : State) (g : Led → Led) : (s.modLed g).free = s.free := rfl
@[simp] theorem State.modLed_pending (s : State) (g : Led → Led) : (s.modLed g).pending = s.pending := rfl

/-! #### draw -/

@[simp] theorem State.draw_clock (s : State) : (s.draw).clock = s.clock := rfl
@[simp] theorem State.draw_tt (s : State) : (s.draw).tt = s.tt := rfl
@[simp] theorem State.draw_led (s : State) : (s.draw).led = s.led := rfl
@[simp] theorem State.draw_durable (s : State) : (s.draw).durable = s.durable := rfl
@[simp] theorem State.draw_writing (s : State) : (s.draw).writing = s.writing := rfl
@[simp] theorem State.draw_fns (s : State) : (s.draw).fns = s.fns := rfl
@[simp] theorem State.draw_wingPages (s : State) : (s.draw).wingPages = s.wingPages := rfl
@[simp] theorem State.draw_stamped (s : State) : (s.draw).stamped = s.stamped := rfl
@[simp] theorem State.draw_tickets (s : State) : (s.draw).tickets = s.tickets := rfl
@[simp] theorem State.draw_tiles (s : State) : (s.draw).tiles = s.tiles := rfl
@[simp] theorem State.draw_quarters (s : State) : (s.draw).quarters = s.quarters := rfl
@[simp] theorem State.draw_qmem (s : State) : (s.draw).qmem = s.qmem := rfl
@[simp] theorem State.draw_updEngines (s : State) : (s.draw).updEngines = s.updEngines := rfl
@[simp] theorem State.draw_jobs (s : State) : (s.draw).jobs = s.jobs := rfl
@[simp] theorem State.draw_runs (s : State) : (s.draw).runs = s.runs := rfl
@[simp] theorem State.draw_cellar (s : State) : (s.draw).cellar = s.cellar := rfl
@[simp] theorem State.draw_ports (s : State) : (s.draw).ports = s.ports := rfl
@[simp] theorem State.draw_fabric (s : State) : (s.draw).fabric = s.fabric := rfl
@[simp] theorem State.draw_secure (s : State) : (s.draw).secure = s.secure := rfl
@[simp] theorem State.draw_keeper (s : State) : (s.draw).keeper = s.keeper := rfl
@[simp] theorem State.draw_power (s : State) : (s.draw).power = s.power := rfl
@[simp] theorem State.draw_porter (s : State) : (s.draw).porter = s.porter := rfl
@[simp] theorem State.draw_snapshot (s : State) : (s.draw).snapshot = s.snapshot := rfl
@[simp] theorem State.draw_mgmt (s : State) : (s.draw).mgmt = s.mgmt := rfl
@[simp] theorem State.draw_link (s : State) : (s.draw).link = s.link := rfl
@[simp] theorem State.draw_pending (s : State) : (s.draw).pending = s.pending := rfl

/-! ### Parts read after they change -/

@[simp] theorem State.modFn_self (s : State) (i : Nat) (g : Fn → Fn) : (s.modFn i g).fn i = g (s.fn i) := tgetD_tputD_self _ _ _ _
theorem State.modFn_ne (s : State) {i k : Nat} (g : Fn → Fn) (h : k ≠ i) : (s.modFn i g).fn k = s.fn k := tgetD_tputD_ne _ _ _ h
@[simp] theorem State.modSess_self (s : State) (i : Nat) (g : Session → Session) : (s.modSess i g).sess i = g (s.sess i) := tget_tmod_self _ _ _
theorem State.modSess_ne (s : State) {i k : Nat} (g : Session → Session) (h : k ≠ i) : (s.modSess i g).sess k = s.sess k := tget_tmod_ne _ _ h
@[simp] theorem State.modWing_self (s : State) (i : Nat) (g : Wing → Wing) : (s.modWing i g).wing i = g (s.wing i) := tget_tmod_self _ _ _
theorem State.modWing_ne (s : State) {i k : Nat} (g : Wing → Wing) (h : k ≠ i) : (s.modWing i g).wing k = s.wing k := tget_tmod_ne _ _ h
@[simp] theorem State.modObj_self (s : State) (i : Nat) (g : Obj → Obj) : (s.modObj i g).obj i = g (s.obj i) := tget_tmod_self _ _ _
theorem State.modObj_ne (s : State) {i k : Nat} (g : Obj → Obj) (h : k ≠ i) : (s.modObj i g).obj k = s.obj k := tget_tmod_ne _ _ h
@[simp] theorem State.modRoom_self (s : State) (i : Nat) (g : Room → Room) : (s.modRoom i g).room i = g (s.room i) := tget_tmod_self _ _ _
theorem State.modRoom_ne (s : State) {i k : Nat} (g : Room → Room) (h : k ≠ i) : (s.modRoom i g).room k = s.room k := tget_tmod_ne _ _ h
@[simp] theorem State.modHandle_self (s : State) (i : Nat) (g : Handle → Handle) : (s.modHandle i g).handle i = g (s.handle i) := tget_tmod_self _ _ _
theorem State.modHandle_ne (s : State) {i k : Nat} (g : Handle → Handle) (h : k ≠ i) : (s.modHandle i g).handle k = s.handle k := tget_tmod_ne _ _ h
@[simp] theorem State.modRing_self (s : State) (i : Nat) (g : Ring → Ring) : (s.modRing i g).ring i = g (s.ring i) := tget_tmod_self _ _ _
theorem State.modRing_ne (s : State) {i k : Nat} (g : Ring → Ring) (h : k ≠ i) : (s.modRing i g).ring k = s.ring k := tget_tmod_ne _ _ h
@[simp] theorem State.modGroup_self (s : State) (i : Nat) (g : Group → Group) : (s.modGroup i g).group i = g (s.group i) := tget_tmod_self _ _ _
theorem State.modGroup_ne (s : State) {i k : Nat} (g : Group → Group) (h : k ≠ i) : (s.modGroup i g).group k = s.group k := tget_tmod_ne _ _ h
@[simp] theorem State.modPc_self (s : State) (i : Nat) (g : Pc → Pc) : (s.modPc i g).pc i = g (s.pc i) := tget_tmod_self _ _ _
theorem State.modPc_ne (s : State) {i k : Nat} (g : Pc → Pc) (h : k ≠ i) : (s.modPc i g).pc k = s.pc k := tget_tmod_ne _ _ h
@[simp] theorem State.modLoft_self (s : State) (i : Nat) (g : Loft → Loft) : (s.modLoft i g).loft i = g (s.loft i) := tget_tmod_self _ _ _
theorem State.modLoft_ne (s : State) {i k : Nat} (g : Loft → Loft) (h : k ≠ i) : (s.modLoft i g).loft k = s.loft k := tget_tmod_ne _ _ h
@[simp] theorem State.modTile_self (s : State) (i : Nat) (g : Tile → Tile) : (s.modTile i g).tile i = g (s.tile i) := tget_tmod_self _ _ _
theorem State.modTile_ne (s : State) {i k : Nat} (g : Tile → Tile) (h : k ≠ i) : (s.modTile i g).tile k = s.tile k := tget_tmod_ne _ _ h
@[simp] theorem State.modQuarter_self (s : State) (i : Nat) (g : Quarter → Quarter) : (s.modQuarter i g).quarter i = g (s.quarter i) := tget_tmod_self _ _ _
theorem State.modQuarter_ne (s : State) {i k : Nat} (g : Quarter → Quarter) (h : k ≠ i) : (s.modQuarter i g).quarter k = s.quarter k := tget_tmod_ne _ _ h
@[simp] theorem State.modShard_self (s : State) (i : Nat) (g : Shard → Shard) : (s.modShard i g).shard i = g (s.shard i) := tget_tmod_self _ _ _
theorem State.modShard_ne (s : State) {i k : Nat} (g : Shard → Shard) (h : k ≠ i) : (s.modShard i g).shard k = s.shard k := tget_tmod_ne _ _ h
@[simp] theorem State.modBase_self (s : State) (i : Nat) (g : Base → Base) : (s.modBase i g).base i = g (s.base i) := tget_tmod_self _ _ _
theorem State.modBase_ne (s : State) {i k : Nat} (g : Base → Base) (h : k ≠ i) : (s.modBase i g).base k = s.base k := tget_tmod_ne _ _ h
@[simp] theorem State.modPort_self (s : State) (i : Nat) (g : Port → Port) : (s.modPort i g).port i = g (s.port i) := tget_tmod_self _ _ _
theorem State.modPort_ne (s : State) {i k : Nat} (g : Port → Port) (h : k ≠ i) : (s.modPort i g).port k = s.port k := tget_tmod_ne _ _ h
@[simp] theorem State.modDomain_self (s : State) (i : Nat) (g : Domain → Domain) : (s.modDomain i g).domain i = g (s.domain i) := tget_tmod_self _ _ _
theorem State.modDomain_ne (s : State) {i k : Nat} (g : Domain → Domain) (h : k ≠ i) : (s.modDomain i g).domain k = s.domain k := tget_tmod_ne _ _ h
@[simp] theorem State.modJob_self (s : State) (i : Nat) (g : Job → Job) : (s.modJob i g).job i = g (s.job i) := tget_tmod_self _ _ _
theorem State.modJob_ne (s : State) {i k : Nat} (g : Job → Job) (h : k ≠ i) : (s.modJob i g).job k = s.job k := tget_tmod_ne _ _ h

@[simp] theorem State.modCtx_self (s : State) (w c : Nat) (g : Ctx → Ctx) : (s.modCtx w c g).ctx w c = g (s.ctx w c) := by
  unfold State.ctx State.modCtx; rw [State.modWing_self]; exact tget_tmod_self _ _ _
theorem State.modCtx_ne (s : State) {w c v d : Nat} (g : Ctx → Ctx) (h : v ≠ w ∨ d ≠ c) : (s.modCtx w c g).ctx v d = s.ctx v d := by
  unfold State.ctx State.modCtx
  by_cases hv : v = w
  · subst hv; rw [State.modWing_self]; exact tget_tmod_ne _ _ (h.resolve_left (fun h => h rfl))
  · rw [State.modWing_ne _ _ hv]

/-! ### The state after reset -/

/-- The reset state's tables are empty and its ledger is the blank one (R460 to R462). -/
theorem State.reset_led : State.reset.led = Led.blank ∧ State.reset.durable = Led.blank := ⟨rfl, rfl⟩

/-- Nothing waits at reset. -/
theorem State.reset_pending : State.reset.pending = [] := rfl

end Sys2Proof.Machine
end

