-- ==== Sys2Proof/Laws/Ops.lean ====
section
/-! SUPPORT. What each shared operation can do, said once: the parts of the state it may change, and the record it makes. -/

namespace Sys2Proof.Machine

open Sys2Proof

/-! ### Records, the log and notices -/

/-- While the keeper runs, a record raises the version by one and nothing else (R319). -/
theorem bump_up {s : State} (h : s.keeper.up = true) : s.bump = { s with led := { s.led with version := s.led.version + 1 } } := by
  unfold State.bump; rw [if_pos h]

/-- While it does not, the record is counted for later (R442). -/
theorem bump_down {s : State} (h : s.keeper.up = false) : s.bump = { s with keeper := { s.keeper with unrecorded := s.keeper.unrecorded + 1 } } := by
  unfold State.bump; rw [if_neg (by simp [h])]

/-- Logging an event changes the log and its numbering alone. -/
theorem logEvent_frame (s : State) (code sev : Nat) (a : At) (d : List Nat) :
    logEvent s code sev a d = { s with keeper := { s.keeper with
      log := (logEvent s code sev a d).keeper.log, logNext := (logEvent s code sev a d).keeper.logNext } } := by
  unfold logEvent; dsimp only; repeat' (first | rfl | split)

/-- A notice sent changes the functions' queues alone. -/
theorem sendNotice_frame (s : State) (every : Bool) (n : Notice) (a : At) (b : List Nat) :
    sendNotice s every n a b = { s with fns := (sendNotice s every n a b).fns } := rfl

/-- A notice's event changes the functions' queues and the log alone (R314, R495). -/
theorem notify_frame (s : State) (n : Notice) (a : At) (b : List Nat) :
    notify s n a b = { s with
      fns := (notify s n a b).fns
      keeper := { s.keeper with log := (notify s n a b).keeper.log, logNext := (notify s n a b).keeper.logNext } } := by
  unfold notify; rw [logEvent_frame, sendNotice_frame]

/-! ### Replies -/

/-- A reply changes its function alone. -/
theorem pushReply_frame (s : State) (fn : Nat) (r : Reply) : pushReply s fn r = { s with fns := (pushReply s fn r).fns } := rfl

/-- A reply outside a number changes its function alone. -/
theorem answer_frame (s : State) (k : Packet) (st : Status) (b : Bytes) : answer s k st b = { s with fns := (answer s k st b).fns } := rfl

/-- E moved past a number changes its host session alone (R322). -/
theorem passNumber_frame (s : State) (k n : Nat) (m : Mark) :
    passNumber s k n m = { s with led := { s.led with sessions := (passNumber s k n m).led.sessions } } := rfl

/-- Passing skipped numbers changes the host session alone. -/
theorem passSkipped_frame (n k : Nat) (s : State) :
    passSkipped n k s = { s with led := { s.led with sessions := (passSkipped n k s).led.sessions } } := by
  induction n generalizing s with
  | zero => rfl
  | succ n ih =>
    unfold passSkipped; dsimp only
    split
    · rw [ih, passNumber_frame]
    · rfl

/-- Releasing held commands changes the host sessions and the stamped commands alone (R317). -/
theorem releaseHeld_frame (n k seq : Nat) (s : State) :
    releaseHeld n k seq s = { s with
      led := { s.led with sessions := (releaseHeld n k seq s).led.sessions }, stamped := (releaseHeld n k seq s).stamped } := by
  induction n generalizing seq s with
  | zero => rfl
  | succ n ih =>
    unfold releaseHeld
    split
    · rw [ih]; rfl
    · rfl

/-- What follows a number changes the host sessions and the stamped commands alone. -/
theorem afterNumber_frame (s : State) (k : Nat) :
    afterNumber s k = { s with
      led := { s.led with sessions := (afterNumber s k).led.sessions }, stamped := (afterNumber s k).stamped } := by
  unfold afterNumber; dsimp only; rw [releaseHeld_frame, passSkipped_frame]

end Sys2Proof.Machine
end

