-- ==== Sys2Proof/Machine/Lane.lean ====
section
/-! DEFINITION. The arithmetic of the adapter lane at one insertion point (R149 to R155, R131), as functions of a row's
values and its adapter's point block. No row of the opcode table carries a row of a pass through the lane, so no command
runs these (log entry 62). -/

namespace Sys2Proof.Machine

open Sys2Proof

/-! ### The products of the lane: BF16 mode, WA40 -/

/-- The exact sum of one unit of 32 lanes in BF16 mode (Table 4.2, R68), with the alignment exponent of the stationary
side lowered by `shift` (R131). NaN where a lane of either side is poisoned (R57, R59). -/
def unitSum (shift : Int) (ws xs : List (BitVec 16)) : Exact :=
  let ew := blockExp ws
  let ea := blockExp xs
  let bad := (ws ++ xs).any (fun v => fpNonFinite 7 v.toNat)
  scaledTerm bad (dot (ws.map (alignBf16 ew)) (xs.map (alignBf16 ea))) ((ew : Int) - shift + ea - 282)

/-- Lane `k` of a column, +0 beyond its K lanes (R41, R149). -/
def laneOf (f : Nat → BitVec 16) (kDim k : Nat) : BitVec 16 := if k < kDim then f k else 0

/-- One accumulation of the lane (R71): units of 32 lanes in ascending order, each promoted with one rounding into WA40.
The answer is the element and its saturations. -/
def laneAcc (shift : Int) (kDim : Nat) (w x : Nat → BitVec 16) : Nat × Nat :=
  (List.range (ceilDiv kDim 32)).foldl (fun a u =>
    let lanes := (List.range 32).map (fun i => 32 * u + i)
    let r := promote .wa40 a.1 (unitSum shift (lanes.map (laneOf w kDim)) (lanes.map (laneOf x kDim)))
    (r.bits, satCount a.2 r.sat)) (0, 0)

/-- An accumulation of the lane drained to FP32 with scale 1 (R79, R149). -/
def laneDrain (shift : Int) (kDim : Nat) (w x : Nat → BitVec 16) : Rounded × Nat :=
  let a := laneAcc shift kDim w x
  (drainValue .wa40 false a.1 0x3F800000, a.2)

/-! ### The nonlinearity (R150, Table 7.5) -/

/-- −log2 e as FP32 (Table 7.5). -/
def negLog2E : Nat := 0xBFB8AA3B

/-- s of SILU: RCP(round(1 + EXP2(round(z × c)))). -/
def siluGate (z : Nat) : Nat := (fpRcp (fpAdd 0x3F800000 (fpExp2 (fpMul z negLog2E).bits).bits).bits).bits

/-- φ(z). NaN gives the canonical NaN. Codes 3 to 255 are refused when the adapter is loaded (R135). -/
def phiOf (code z : Nat) : Nat :=
  if fpNonFinite 23 z then nan32
  else if code = 1 then fpMax z 0
  else if code = 2 then (fpMul z (siluGate z)).bits
  else z

/-- φ′ applied to an incoming gradient `e`. -/
def phiGrad (code z e : Nat) : Nat :=
  if fpNonFinite 23 z then nan32
  else if code = 1 then (if 0 < valueKey z then input32 e else 0)
  else if code = 2 then
    let s := siluGate z
    (fpMul e (fpFma s (fpMul z (fpAdd 0x3F800000 (fpNeg s)).bits).bits s).bits).bits
  else input32 e

/-! ### A point's block and a row's values -/

/-- An FP32 value converted to BF16, nearest even (R97). -/
def bf16Of (v : Nat) : BitVec 16 := BitVec.ofNat 16 (roundIeee 7 (fpValue 23 v) (neg32 v)).bits

/-- A value of the residual stream in FP32: a BF16 stream holds the upper half of one. -/
def streamValue (bf16 : Bool) (v : Nat) : Nat := if bf16 then v % 2 ^ 16 * 2 ^ 16 else v % 2 ^ 32

/-- round_res: the exact sum of two FP32 values rounded once to the residual stream's format (R149). -/
def roundStream (bf16 : Bool) (a b : Nat) : Nat :=
  (roundIeee (if bf16 then 7 else 23) ((fpValue 23 a).add (fpValue 23 b)) (neg32 a && neg32 b)).bits

/-- What the lane needs of an adapter at one point: its shape, and its point block as it lies in the room. -/
structure LanePoint where
  d : Nat
  r : Nat
  phi : Nat
  biases : Bool
  b : Int
  k : Nat
  block : Mem
  deriving DecidableEq, Repr, Inhabited

/-- The BF16 value at a byte of a point block. -/
def LanePoint.half (p : LanePoint) (a : Nat) : BitVec 16 := BitVec.ofNat 16 (leNat (mload p.block a 2))

/-- A[i, j] as stored (Table 7.3): column by column. -/
def LanePoint.down (p : LanePoint) (i j : Nat) : BitVec 16 := p.half (2 * (j * p.d + i))

/-- B[j, i] as stored (Table 7.3): column by column, behind A. -/
def LanePoint.up (p : LanePoint) (j i : Nat) : BitVec 16 := p.half (2 * p.d * p.r + 2 * (i * p.r + j))

/-- A bias in FP32, or +0 without biases (R137, R149). -/
def LanePoint.bias (p : LanePoint) (a : Nat) : Nat := if p.biases then (p.half a).toNat * 2 ^ 16 else 0

/-- cd of column `j`. -/
def LanePoint.downBias (p : LanePoint) (j : Nat) : Nat := p.bias (4 * p.d * p.r + 2 * j)

/-- cu of column `i`. -/
def LanePoint.upBias (p : LanePoint) (i : Nat) : Nat := p.bias (4 * p.d * p.r + 2 * p.r + 2 * i)

/-! ### Forward and backward through a point (R149, R151) -/

/-- What a row's way forward through a point gives: z, which training keeps (R151), the stream after it, and the counts
of R80 of its two drains, for the point's tags z and y (R153). -/
structure LaneForward where
  z : List Nat
  out : List Nat
  countsZ : Bank
  countsY : Bank
  deriving DecidableEq, Repr, Inhabited

/-- The counts of a run of drained elements, each with its accumulation's saturations (R80). -/
def laneCounts (l : List (Rounded × Nat)) : Bank :=
  { written := l.length, zero := (l.filter (fun x => decide (x.1.bits = 0))).length
    saturated := (l.filter (fun x => x.1.sat)).length, nan := (l.filter (fun x => x.1.nan)).length
    accSat := Nat.min (l.foldl (fun n x => n + x.2) 0) (2 ^ 32 - 1) }

/-- h of a row at a point, from its z (R149, R151). -/
def laneHidden (p : LanePoint) (z : List Nat) : List (BitVec 16) := z.map (fun v => bf16Of (phiOf p.phi v))

/-- A row whose stream is `x` forward through a point (R149). -/
def laneForward (p : LanePoint) (bf16 : Bool) (x : List Nat) : LaneForward :=
  let x32 := x.map (streamValue bf16)
  let x16 := x32.map bf16Of
  let zs := (List.range p.r).map (fun j => laneDrain p.b p.d (fun i => p.down i j) (fun i => x16[i]?.getD 0))
  let z := (zs.zip (List.range p.r)).map (fun q => (fpAdd q.1.1.bits (p.downBias q.2)).bits)
  let h := laneHidden p z
  let ys := (List.range p.d).map (fun i => laneDrain p.b p.r (fun j => p.up j i) (fun j => h[j]?.getD 0))
  let y := (ys.zip (List.range p.d)).map (fun q => (fpAdd q.1.1.bits (p.upBias q.2)).bits)
  { z := z, out := (x32.zip y).map (fun q => roundStream bf16 q.1 q.2), countsZ := laneCounts zs, countsY := laneCounts ys }

/-- dz of a row at a point, from the gradient arriving at out and the z that was kept (R151). -/
def laneDz (p : LanePoint) (bf16 : Bool) (z g : List Nat) : List (BitVec 16) :=
  let g16 := g.map (fun v => bf16Of (streamValue bf16 v))
  (z.zip (List.range p.r)).map (fun q =>
    bf16Of (phiGrad p.phi q.1 (laneDrain p.b p.d (fun i => p.up q.2 i) (fun i => g16[i]?.getD 0)).1.bits))

/-- A row's gradient backward through a point (R151). -/
def laneBackward (p : LanePoint) (bf16 : Bool) (z g : List Nat) : List Nat :=
  let dz := laneDz p bf16 z g
  let e := (List.range p.d).map (fun i => (laneDrain p.b p.r (fun j => p.down i j) (fun j => dz[j]?.getD 0)).1.bits)
  ((g.map (streamValue bf16)).zip e).map (fun q => roundStream bf16 q.1 q.2)

/-! ### Weight gradients (R152, R153) -/

/-- One weight gradient: the accumulation over an adapter's rows in ascending pass-row order, padded with +0 rows to a
multiple of 32 (R152). Neither side carries the shift of R131. For dA[i, j] the sides are x16[i] and dz[j] of each row,
for dB[j, i] they are h[j] and g16[i]. -/
def weightGradient (u v : List (BitVec 16)) : Nat × Nat :=
  laneAcc 0 u.length (fun n => u[n]?.getD 0) (fun n => v[n]?.getD 0)

/-- What a weight gradient leaves in its element of G (R153). -/
def scatterGradient (p : LanePoint) (first : Bool) (old : BitVec 16) (u v : List (BitVec 16)) : Rounded :=
  gradientElem .wa40 (weightGradient u v).1 first p.k old

/-- The tile, in the wing's tile order, on which an adapter's weight gradients of a point are formed (R152). -/
def homeTile (listIndex point tiles : Nat) : Nat := (listIndex + point) % Nat.max tiles 1

/-! ### Dealing rows to tiles (R155) -/

/-- The rows of a pass that carry an adapter, as (tag, pass row), sorted by tag and then by pass row. -/
def laneOrder (rows : List (Nat × Nat)) : List (Nat × Nat) :=
  sortBy (fun a b => decide (a.1 < b.1 ∨ (a.1 = b.1 ∧ a.2 < b.2))) rows

/-- The rows dealt in chunks of ⌈m ÷ T_w⌉ to the wing's tiles in ascending logical order. -/
def dealRows (rows : List (Nat × Nat)) (tiles : Nat) : List (List (Nat × Nat)) :=
  chunks (ceilDiv rows.length (Nat.max tiles 1)) tiles (laneOrder rows)

end Sys2Proof.Machine
end

