-- ==== Sys2Proof/Tests/Slice0.lean ====
section
/-! SUPPORT. States and operands that meet every statement's hypotheses, worked examples of the manual, and ill-formed commands. -/

namespace Sys2Proof.Tests
open Sys2Proof Sys2Proof.Machine Sys2Proof.Safety

set_option Elab.async false

/-! ### A module that runs -/

/-- A module that is READY, in LOCKED, at milepost 4,096. -/
def on : State :=
  { State.reset with
    clock := { (default : Clock) with count := 4096, st := .locked, qualified := true, everLocked := true, echo := true }
    keeper := { State.reset.keeper with up := true }
    power := { State.reset.power with vin := .good, perst := false, stat := .ready, ready := true, memActive := true, bootStep := 5 }
    fabric := { State.reset.fabric with withdrawn := false, view := [0] }
    cellar := { State.reset.cellar with nextVisit := 1000000 } }

/-- The same with its clock otherwise. -/
def clk (g : Clock → Clock) : State := on.modClock g

theorem test_clock_complete :
    [ (.mpclkEdge 1000 0, on), (.localMilepostEdge, on)
    , (.countAdopt, clk (fun c => { c with st := .unset, heard := [{ peer := 1, stamp := 5 }] }))
    , (.mpclkLoss 2, on), (.mpclkRequalify, clk (fun c => { c with st := .holdover, qualified := false, goodRun := 64 }))
    , (.slewDone, clk (fun c => { c with st := .relock })), (.holdoverLimit, clk (fun c => { c with st := .holdover, count := 1000000 }))
    , (.timeUnsetReminder, clk (fun c => { c with st := .unset, count := 1000000 })), (.mpCountRead, on)
    ].all (fun p => clockCompletes p.1 p.2) = true := by decide +kernel

/-! ### Wings -/

/-- A shared wing of tiles 0 to 7 with one context, number 0, whose SAVE object is object 0. -/
def wing0 : Wing :=
  { (default : Wing) with
    live := true, gen := 1, stage := 1024, nextStage := 1024, park := 50, ticketLife := 2000000, weight := 16, tiles := 0xFF, pcs := 0xF
    slices := 0xF, loft := 0xF
    contexts := [(0, { (default : Ctx) with live := true, gen := 1, runLen := 1, region := 16, accBudget := 16, trackers := 4, slices := 1,
                                            resident := true, st := .runnable, kind := .train })] }

/-- The module with such a wing as wing 0, changed by `g`. -/
def winged (g : Wing → Wing) : State :=
  (on.modWing 0 (fun _ => g wing0)).modObj 0 (fun _ => { (default : Obj) with live := true, gen := 1, kind := .save, size := 4096 })

/-- Its context 0 changed by `g`. -/
def ctxd (g : Ctx → Ctx) : State := (winged id).modCtx 0 0 g

/-- An entry that is due. -/
def due (c : TtClass) (w : Option Nat) (a : Nat) (s : State) : State :=
  { s with tt := { s.tt with due := [{ mp := 4096, cls := c, wing := w, arg := a, late := false }] } }

theorem test_entries_complete :
    [ (.rollCall, due .rollCall none 0 on), (.failover, due .failover none 0 on), (.fenceEntry 0, due .fence (some 0) 0 (winged id))
    , (.stageEnd 0, due .stageEnd (some 0) 0 (winged id))
    , (.scrub 0, due .scrub (some 0) 0 (winged (fun w => { w with sealed := true, party := 1 })))
    , (.stageStart 0, due .stageStart (some 0) 0 (winged (fun w => { w with nextFresh := true, nextCtx := some 0 })))
    , (.cellarSlot, due .cellarSlot none 0 on)
    , (.collective 0, due .collective (some 0) 0 (on.modGroup 0 (fun g => { g with live := true, post := some default })))
    , (.ticketExpiry 0, due .ticketExpiry (some 0) 0 (winged id)), (.digestSweep, due .digestSweep none 0 on)
    ].all (fun p => stageCompletes p.1 p.2) = true := by decide +kernel

theorem test_switches_complete :
    [ (.switchEdge 0, winged (fun w => { w with wantSwitch := true }))
    , (.parkThreshold 0, { (winged (fun w => { w with running := some 0 })).modCtx 0 0 (fun c => { c with st := .running }) with
        tickets := [(0, { (default : Ticket) with live := true, ctxGen := 1 })] })
    , (.swapOutStart 0, (ctxd (fun c => { c with st := .blocked, region := 128 })).modCtx 0 1 (fun _ =>
        { (default : Ctx) with live := true, gen := 1, region := 64, st := .out, runnableAt := 1, kind := .train }))
    , (.swapInStart 0, ctxd (fun c => { c with resident := false, st := .out, runnableAt := 1 }))
    , (.swapCommit 0, winged (fun w => { w with swap := some default }))
    , (.wingRemoveDone 0, winged (fun w => { w with contexts := [], removing := some default, leaving := true }))
    , (.scrubDone 0, winged (fun w => { w with sealed := true, scrub := some { (default : Scrub) with start := 0, length := 10 } }))
    ].all (fun p => stageCompletes p.1 p.2) = true := by decide +kernel

/-! ### Tiles -/

/-- Tile 0, owned by context 0 of wing 0, changed by `g`. -/
def tiled (g : Tile → Tile) : State := (winged id).modTile 0 (fun t => g { t with owner := some (0, 0) })

/-- Such a tile whose engine stands at a word, its four streams of one format, 1 KiB apart. -/
def stood (w : W64) (format : Nat) : State :=
  let st (k : Nat) : Stream := { args := { slot := k, format := format, object := 0, base := 1024 * k, contiguous := true, vstride := 64, q := 0 }, pos := 0 }
  tiled (fun t => { t with engine := { t.engine with
    program := [w, encodeTvx 0x01 { mb := 0, ml := 0, rm := 0, immUse := 0, scalar := false, n := 1, imm := 0 }], running := true, flags := 2 ^ 3
    streams := [(0, st 0), (1, st 1), (2, st 2), (3, st 3)] } })

/-- One vector under M0, with an immediate value. -/
def one (imm : W32) : TvxArgs := { mb := 0, ml := 0, rm := 0, immUse := 0, scalar := false, n := 1, imm := imm }

/-- One vector under M0 into the mask M1. -/
def oneM1 (imm : W32) : TvxArgs := { one imm with mb := 1 }

theorem test_fp_rows_complete :
    [ (.add 0 (one 0), stood (encodeTvx 0x10 (one 0)) 0), (.sub 0 (one 0), stood (encodeTvx 0x11 (one 0)) 0)
    , (.mul 0 (one 0), stood (encodeTvx 0x12 (one 0)) 0), (.fma 0 (one 0), stood (encodeTvx 0x13 (one 0)) 0)
    , (.min 0 (one 0), stood (encodeTvx 0x14 (one 0)) 0), (.max 0 (one 0), stood (encodeTvx 0x15 (one 0)) 0)
    , (.abs 0 (one 0), stood (encodeTvx 0x16 (one 0)) 0), (.neg 0 (one 0), stood (encodeTvx 0x17 (one 0)) 0)
    , (.sel 0 (one 1), stood (encodeTvx 0x18 (one 1)) 0), (.exp2 0 (one 0), stood (encodeTvx 0x20 (one 0)) 0)
    , (.log2 0 (one 0), stood (encodeTvx 0x21 (one 0)) 0), (.rcp 0 (one 0), stood (encodeTvx 0x22 (one 0)) 0)
    , (.sqrt 0 (one 0), stood (encodeTvx 0x23 (one 0)) 0), (.rsqrt 0 (one 0), stood (encodeTvx 0x24 (one 0)) 0)
    , (.tanh 0 (one 0), stood (encodeTvx 0x25 (one 0)) 0), (.cvt 0 (one 0), stood (encodeTvx 0x28 (one 0)) 0)
    , (.quant 0 (one 0), stood (encodeTvx 0x29 (one 0)) 0), (.drop 0 (one 5), stood (encodeTvx 0x42 (one 5)) 0)
    , (.rtred 0 (one 0), stood (encodeTvx 0x4A (one 0)) 0), (.rtout 0 (one 0), stood (encodeTvx 0x4B (one 0)) 0)
    ].all (fun p => (elementRow p.1).any (fun r => opCompletes r.1 r.2.1 r.2.2 p.2)) = true := by decide +kernel

theorem test_int_rows_complete :
    [ (.iadd 0 (one 0), stood (encodeTvx 0x30 (one 0)) 3), (.iand 0 (one 0), stood (encodeTvx 0x31 (one 0)) 3)
    , (.ior 0 (one 0), stood (encodeTvx 0x32 (one 0)) 3), (.ixor 0 (one 0), stood (encodeTvx 0x33 (one 0)) 3)
    , (.ishl 0 (one 0), stood (encodeTvx 0x34 (one 0)) 3), (.ishr 0 (one 0), stood (encodeTvx 0x35 (one 0)) 3)
    , (.rand 0 (one 0), stood (encodeTvx 0x41 (one 0)) 3)
    ].all (fun p => (elementRow p.1).any (fun r => opCompletes r.1 r.2.1 r.2.2 p.2)) = true := by decide +kernel

theorem test_control_rows_complete :
    [ (.nop 0 (one 0), stood (encodeTvx 0x00 (one 0)) 0), (.endProgram 0 (one 0), stood (encodeTvx 0x01 (one 0)) 0)
    , (.loop 0 (one 0x10002), stood (encodeTvx 0x02 (one 0x10002)) 0), (.wait 0 (one 3), stood (encodeTvx 0x03 (one 3)) 0)
    , (.post 0 (one 3), stood (encodeTvx 0x04 (one 3)) 0), (.tag 0 (one 7), stood (encodeTvx 0x05 (one 7)) 0)
    , (.sld 0 (one 2), stood (encodeTvx 0x06 (one 2)) 0), (.cmp 0 (oneM1 1), stood (encodeTvx 0x19 (oneM1 1)) 0)
    , (.mset 0 (oneM1 5), stood (encodeTvx 0x38 (oneM1 5)) 0), (.mand 0 (oneM1 2), stood (encodeTvx 0x39 (oneM1 2)) 0)
    , (.mor 0 (oneM1 2), stood (encodeTvx 0x3A (oneM1 2)) 0), (.mxor 0 (oneM1 2), stood (encodeTvx 0x3B (oneM1 2)) 0)
    , (.mnot 0 (oneM1 0), stood (encodeTvx 0x3C (oneM1 0)) 0), (.gseed 0 (one 9), stood (encodeTvx 0x40 (one 9)) 0)
    , (.rtz 0 (one 1), stood (encodeTvx 0x48 (one 1)) 0), (.rtacc 0 (one 0x10000), stood (encodeTvx 0x49 (one 0x10000)) 0)
    ].all (fun p => (controlRow p.1).any (fun r => opCompletes r.1 r.2.1 r.2.2 p.2)) = true := by decide +kernel

/-- A STREAM word. -/
def str0 : StreamArgs := { slot := 1, format := 1, object := 0, base := 256, contiguous := true, vstride := 64, q := 2 }

theorem test_stream_completes : (streamFits str0 && engineAt (stood (encodeStream str0) 0) 0 (encodeStream str0)) = true := by decide +kernel

/-! ### The array -/

/-- A BF16 block of zeros. -/
def blk : WBlock :=
  { mode := .bf16, size := 0, storedG := 0, block := 0, kDim := 128, nDim := 128, tile0 := 0, bytes := List.replicate 32768 0, matrix := 0, outliers := [], shift := 0 }

/-- Such a block in the cells. -/
def cells : Cells := { (default : Cells) with mode := .bf16, kDim := 128, nDim := 128 }

/-- An accumulation of 32 rows opened with it. -/
def opened : OpenArgs :=
  { tracker := 0, mode := .bf16, size := 0, fmt := .fp32, rows := 32, blocks := 1, kDim := 128, nDim := 128, tile0 := 0, chain := false, outliers := [], matrix := 0 }

/-- The row that feeds it. -/
def row0 : RowData := { tracker := 0, row := 0, values := [], scales := [], side := [] }

/-- Tile 0 with that accumulation, changed by `g`. -/
def accum (g : Acc → Acc) : State := tiled (fun t => { t with active := some cells, accs := [(0, g (freshAcc opened))] })

theorem test_shadow_load_completes : loadCompletes 0 blk (tiled id) = true := by decide +kernel
theorem test_block_swap_completes : swapCompletes 0 (tiled (fun t => { t with shadow := some cells })) = true := by decide +kernel
theorem test_array_row_completes : rowCompletes 0 row0 (accum id) = true := by decide +kernel
theorem test_acc_open_completes : openCompletes 0 opened ((tiled id).modCtx 0 0 (fun c => { c with accBudget := 327680 })) = true := by decide +kernel
theorem test_acc_link_completes :
    chainCompletes 0 { opened with chain := true } (accum (fun a => { a with blocks := 512, closed := true })) = true := by decide +kernel
theorem test_promotion_completes :
    promotionCompletes 0 0 0 0 ((accum id).modTile 0 (fun t => { t with terms := [default] })) = true := by decide +kernel
theorem test_drain_outside :
    drainOutside 0 { tracker := 0, bf16 := true, scales := none, dest := .gradient 1 0 true 0, tag := 0, flag := none }
      ((((accum (fun a => { a with closed := true })).modObj 1 (fun o => { o with place := { o.place with tier := .quarter, set := 1 } })).modCtx 0 0
        (fun c => { c with live := true })).modWing 0 (fun x => { x with slices := 0 })) = some (0, 0) := by decide +kernel
theorem test_drain_completes :
    drainCompletes 0 { tracker := 0, bf16 := true, scales := none, dest := .tile 0, tag := 0, flag := none }
      (accum (fun a => { a with closed := true })) = true := by decide +kernel

/-! ### Passes, updates and rooms -/

/-- A pass in flight of context 0, which runs. -/
def passing (train : Bool) (phase : PassPhase) : State :=
  (winged (fun w => { w with running := some 0 })).modCtx 0 0 (fun c => { c with
    st := .running, kind := if train then .train else .serve
    pass := some { (default : Pass) with cmd := { (default : PassCmd) with train := train, tileCount := 8 }, phase := phase } })

/-- An image of one point of 512 by 16 elements. -/
def img : Image := { (default : Image) with rank := 16, width := 512, points := [default] }

/-- Handle 0 RESIDENT in room 0 with such an image, changed by `g` and `r`. -/
def hosted (g : Handle → Handle) (r : Room → Room) : State :=
  ((winged id).modHandle 0 (fun h => g { h with st := .resident, gen := 1, image := img, blocks := [List.replicate 64 0] })).modRoom 0
    (fun x => r { x with gen := 1, st := .ready, mib := 1 })

/-- A job of wing 0 for handle 0. -/
def job0 : Job :=
  { (default : Job) with live := true, ref := some default, words := [encodeTvx 0x01 (one 0)] }

/-- A load of that image into room 0. -/
def load0 : Load := { (default : Load) with image := img, fromLoft := true }

theorem test_passes_complete :
    [ (.updateJobStart 0 0, { hosted id id with jobs := [(0, job0)] })
    , (.updateSlice 0, { (hosted id (fun r => { r with st := .updating })).modWing 0 (fun w => { w with running := some 0 }) with jobs := [(0, { job0 with started := true })] })
    , (.updateCommit 0 0, { hosted (fun h => { h with image := default }) id with jobs := [(0, { job0 with started := true })] })
    , (.passAdmit 0 0, ctxd (fun c => { c with queue := [{ (default : PassCmd) with train := true, tileCount := 8 }] }))
    , (.forwardPassEnd 0 0, passing true .forward), (.backwardPassEnd 0 0, passing true .backward)
    , (.stepCommit 0 0, passing true .updating), (.passEnd 0 0, passing false .forward)
    ].all (fun p => passCompletes p.1 p.2) = true := by decide +kernel

/-- An object of wing 0 with work under way. -/
def working (st : ObjSt) (w : ObjWork) : State :=
  (winged id).modObj 1 (fun o => { o with live := true, gen := 1, kind := .gradient, size := 4096, st := st, work := w })

/-- A base of one layer and 16 shards, INSTALLED from row 0. -/
def base0 : Base := { (default : Base) with st := .installed, shards := 16, layers := 1, root := 7, digests := List.replicate 16 3 }

/-- A wing that runs a pass of a plan of one shard. -/
def fetching (ring : List Slot) : State :=
  (((winged (fun w => { w with window := { (default : Window) with slots := 2, plan := [0], ring := ring, set := 0xF, places := [default, default] } })).modBase 0
    (fun _ => base0))).modShard 0 (fun x => { x with st := .valid })

/-- A shard of that base being installed. -/
def shard0 (g : Shard → Shard) : State := (on.modBase 0 (fun _ => base0)).modShard 0 g

theorem test_rooms_complete :
    [ (.pointArrival 0 [], hosted (fun h => { h with st := .loading, load := some load0 }) (fun r => { r with st := .loading }))
    , (.replacementCommit 0, hosted (fun h => { h with load := some { load0 with blocks := [[]], room := 1 } }) id)
    , (.checkoutMoveCommit 0, hosted (fun h => { h with st := .leaving, homeHost := true }) (fun r => { r with st := .leaving }))
    , (.adapterReadDone 0, hosted (fun h => { h with reading := [default] }) id)
    , (.objectMoveCommit 1, working .moving (.retire default)), (.objectFillDone 1, working .home (.create default))
    , (.objectTransferDone 1 [0], working .home (.write 0 1 0 default))
    , (.shardFetch 0, fetching []), (.shardArrival 0 0 3, fetching [{ base := 0, shard := 0, arrived := false, verified := false }])
    , (.shardProgramDone 0 true 3, shard0 (fun x => { x with incoming := true }))
    , (.shardReadbackDone 0 3 true, shard0 (fun x => { x with st := .writing }))
    , (.sweepReadDone 0 3, on.modCellar (fun c => { c with visiting := some 0 }))
    , (.shardEraseDone 0, shard0 (fun x => { x with erasing := true }))
    , (.holderTimeout 0, (clk (fun c => { c with count := 30000 })).modCellar (fun c => { c with requests := [default] }))
    ].all (fun p => roomCompletes p.1 p.2) = true := by decide +kernel

/-! ### Errors -/

theorem test_errors_complete :
    [ (.arrayParityError 0, tiled (fun t => { t with active := some cells })), (.accEccError 0 false, accum id)
    , (.hbmCorrectedError 0 64, on), (.hbmUncorrectableError 0 64 .empty, on), (.loftCorrectedError 0 64, on)
    , (.loftUncorrectableError 0 64 .empty, on), (.loftChannelLoss 0, on), (.storeCorrectedError true 0, on)
    , (.storeEccError false 0 5 none, on), (.secureStoreKeyError 0, on)
    ].all (fun p => errorCompletes p.1 p.2) = true := by decide +kernel

/-! ### Ports -/

/-- Port 0 changed by `g`. -/
def ported (g : Port → Port) : State := on.modPort 0 g

/-- Port 0 UP, towards identity 9. -/
def linked9 : State := ported (fun p => { p with st := .up, lanes := 8, peer := some 9 })

/-- A frame with a good CRC. -/
def frm : Frame := { (default : Frame) with crcOk := true, first := true, last := true }

theorem test_links_complete :
    [ (.trainingPhaseDone 0 8, ported (fun p => { p with st := .training, phase := 1 }))
    , (.trainingPhaseOverrun 0, ported (fun p => { p with st := .training, phase := 1 }))
    , (.trainingRetry 0, ported (fun p => { p with st := .down, retryAt := some 4096 }))
    , (.hello 0 default, ported (fun p => { p with st := .training, phase := 4 })), (.laneLockLoss 0 1 0xF0, linked9)
    , (.uncorrectableCodeword 0 0xFF, linked9), (.dataFrame 0 frm, linked9), (.retryFrame 0 frm, linked9), (.idleFrame 0 frm, linked9)
    , (.ackTimeout 0, linked9), (.linkRetrainDone 0 true, ported (fun p => { p with st := .training, retraining := true }))
    , (.relayTimeout 0, linked9)
    ].all (fun p => linkCompletes p.1 p.2) = true := by decide +kernel

/-! ### Queues and host sessions -/

/-- VF0 ENABLED, changed by `g`. -/
def fn0 (g : Fn → Fn) : State := on.modFn 0 (fun f => g { f with st := .enabled, bme := true })

/-- Host session 0 of VF0 open, changed by `g`. -/
def sess0 (g : Session → Session) : State :=
  (fn0 id).modSess 0 (fun x => g { x with st := .opened, gen := 1, next := 1, lease := 1000000, lapseHold := 1000000, gap := 100, leaseEnd := 1000000 })

/-- A held command, number 2, stamped at 3,000. -/
def heldCmd : Packet := { (default : Packet) with hdr := { (default : CmdHdr) with sgen := 1, seq := 2, stamp := 3000 }, clean := true }

theorem test_queues_complete :
    [ (.cmdDoorbell 0 1 [], fn0 (fun f => { f with window := false })), (.replyHeadWrite 0 0, fn0 (fun f => { f with window := false }))
    , (.noticeHeadWrite 0 0, fn0 (fun f => { f with window := false })), (.cmdWindowWrite 0 0 [], fn0 id), (.replyWindowRead 0 8, fn0 id)
    , (.noticeWindowRead 0 8, fn0 id), (.packetArrivalTimeout 0, fn0 (fun f => { f with words := [{ bits := 0, at_ := 5, ok := true }] }))
    , (.gapNoticeTimeout 0 0, sess0 (fun x => { x with held := [(2, some heldCmd)] }))
    , (.gapSkipTimeout 0 0, sess0 (fun x => { x with held := [(2, some heldCmd)] })), (.leaseExpiry 0 0, sess0 (fun x => { x with leaseEnd := 5 }))
    , (.lapseHoldExpiry 0 0, sess0 (fun x => { x with st := .lapsed, lapseHold := 100 }))
    , (.probationEnd 0 0, (sess0 (fun x => { x with st := .probation })).modClock (fun c => { c with count := 1000000 }))
    ].all (fun p => queueCompletes p.1 p.2) = true := by decide +kernel

/-! ### The host port -/

/-- The CXL link up, with CXL.cache and CXL.mem. -/
def cxl (s : State) : State := s.modLink (fun l => { l with up := true, width := 16, rate := 32, cache := true, mem := true, loftDimms := 16, loftDimmGiB := 64 })

theorem test_host_complete :
    [ (.configRequest 0 none, on), (.flr 0, fn0 id), (.functionResetDone 0, fn0 (fun f => { f with st := .resetting }))
    , (.vfEnableSet 4, cxl on), (.vfEnableClear, on.modLink (fun l => { l with vfEnable := true }))
    , (.busMasterEnableSet 0, fn0 id), (.busMasterEnableClear 0, fn0 id), (.linkLoss, cxl on), (.linkUp 16 32 true true, on)
    , (.hostCompletion 0 0 true .ringRead, fn0 id), (.atsInvalidate 0 5, on), (.fnCtrlApply 0 2, cxl (fn0 id))
    , (.decoderCommit 0 0 0x10000000 false, cxl on), (.decoderUncommit 0, on.modDecoder 0 (fun d => { d with committed := true }))
    , (.cxlMemRead 0, cxl (on.modDecoder 0 (fun d => { d with committed := true, size := 0x10000000 })))
    , (.cxlMemWrite 0 (List.replicate 64 0), cxl (on.modDecoder 0 (fun d => { d with committed := true, size := 0x10000000 })))
    , (.ideIntegrityFailure 0, cxl (on.modSecure (fun x => { x with ideIo := true }))), (.lowHalfRead 0 0x10, cxl on), (.registerWrite .i3c 0 0x0C 4 1, on)
    , (.snoop 64, cxl on)
    ].all (fun p => hostCompletes p.1 p.2) = true := by decide +kernel

/-! ### Security -/

/-- A DEPLOYED module whose link is up. -/
def deployed (g : Secure → Secure) : State := cxl (on.modSecure (fun x => g { x with life := .deployed, ak := some [1], rk := some [2] }))

/-- A wrapper of kind 3 with no key in it. -/
def wrap3 : Bytes := [1, 0, 3] ++ List.replicate 1805 0

theorem test_ide_keys_completes :
    secureCompletes (.ideKeys wrap3 []) ((deployed (fun x => { x with passports := [{ digest := List.replicate 64 0, used := false }] })).modClock
      (fun c => { c with count := 0 })) = true := by decide +kernel

theorem test_security_complete :
    [ (.meshBreak, on), (.supplyExcursion 101, on), (.clockExcursion 1001, on), (.thermalExcursion 1048, on), (.tamperIn 1000, on)
    , (.porterKeeperReset 0x51A7 0, cxl on), (.porterSecureWipe 0x51A7 0, cxl on), (.porterWingFence 0x51A7 0, cxl (winged id))
    , (.porterPowerOff 0x51A7 0, cxl on), (.passportRequest 32 (List.replicate 32 0), deployed id)
    , (.debugUnlock (List.replicate 3389 0), deployed id), (.doeDiscovery 0, cxl on), (.doeAbort, cxl on), (.akRedrawDone, on)
    ].all (fun p => secureCompletes p.1 p.2) = true := by decide +kernel

/-! ### The keeper -/

/-- The keeper changed by `g`. -/
def kept0 (g : Keeper → Keeper) : State := on.modKeeper g

theorem test_keeper_complete :
    [ (.counterSnapshot, clk (fun c => { c with count := 3600000000 })), (.journalWrite, clk (fun c => { c with count := 5000 }))
    , (.journalWriteDone, { on with writing := some (Led.blank, []) }), (.watchdogExpiry 0, on), (.keeperCacheError 0, on)
    , (.keeperRestartDone, kept0 (fun k => { k with up := false, resetting := true })), (.keeperMemoryError 0, on)
    , (.handoverTakeover, (clk (fun c => { c with count := 5000 })).modKeeper (fun k => { k with handover := .checked [] default }))
    , (.handoverTimeout, (clk (fun c => { c with count := 200000 })).modKeeper (fun k => { k with handover := .restarting [] default 5 }))
    , (.imageStoreWrite, kept0 (fun k => { k with handover := .running [] true }))
    , (.spareSwitch 0 [], (winged id).modTile 0 (fun t => { t with spare := some 33 }))
    , (.pcRetireDone 0, on.modPc 0 (fun x => { x with retiring := true })), (.loftEvacuateDone 0, on.modLoft 0 (fun x => { x with st := .evacuating }))
    , (.loftReturnDone 0 true, on.modLoft 0 (fun x => { x with st := .returning }))
    ].all (fun p => keeperCompletes p.1 p.2) = true := by decide +kernel

/-! ### Power -/

/-- The power state changed by `g`. -/
def pw (g : Power → Power) : State := on.modPower g

theorem test_power_complete :
    [ (.perstNAssert, on), (.perstNDeassert, State.reset), (.pfailNAssert, on), (.vinRiseAlwaysOn, pw (fun p => { p with vin := .off }))
    , (.alwaysOnUp 3, pw (fun p => { p with alwaysOn := false })), (.vinFallAlwaysOff, on), (.vinGood, on), (.vinHigh, on), (.vinOver, on)
    , (.vinLow, on), (.vinLowNoWarn, on), (.vinBelowHoldup, on)
    , (.voltageRecordRepeat, (pw (fun p => { p with vin := .high })).modClock (fun c => { c with count := 1000000 }))
    , (.domainPowerGood 0, on.modDomain 0 (fun d => { d with st := .rising })), (.powerGoodTimeout 0, on.modDomain 0 (fun d => { d with st := .rising }))
    , (.domainSequenceDone 0, on.modDomain 0 (fun d => { d with st := .falling })), (.dozeRequest, on), (.dozeWake .doorbell, on)
    , (.wakeAlarm, kept0 (fun k => { k with doze := true, alarm := some 4096 }))
    , (.bootStepDone default, pw (fun p => { p with step := 2, stat := .boot, ready := false })), (.bootStepOverrun 0x0101, pw (fun p => { p with step := 1 }))
    , (.retryWaitEnd, pw (fun p => { p with retryWait := true }))
    ].all (fun p => powerCompletes p.1 p.2) = true := by decide +kernel

/-! ### Sensors and serial ports -/

theorem test_pins_complete :
    [ (.thermalWarningCross 0 800, on), (.thermalWarningClear, on), (.thermalTrip 0 920, on), (.sensorFault 0 0, on)
    , (.i3cSetdasa 0x68 9, on), (.i3cEntdaa 9, on), (.i3cRstdaa, on), (.i3cGetstatus, on.modMgmt (fun m => { m with dynAddr := some 9 }))
    , (.jtagBypass, on), (.jtagIdcode, on), (.jtagExtest, State.reset), (.jtagSample, State.reset), (.jtagPreload [true], State.reset)
    , (.jtagDebug 0, deployed id)
    ].all (fun p => pinCompletes p.1 p.2) = true := by decide +kernel

/-! ### Commands -/

/-- A payload from its fields: how many bytes each takes, and its value. -/
def pay (l : List (Nat × Nat)) : Bytes := l.flatMap (fun x => leBytes x.1 x.2)

/-- The header of command number 1 of host session 0 of VF0. -/
def first : CmdHdr := { fn := 0, session := 0, sgen := 1, seq := 1, deadline := 0, hostTag := 5, crc := 77, stamp := 4000 }

/-- The header of a command outside any session. -/
def free : CmdHdr := { first with session := 0xFFFFFFFF, sgen := 0, seq := 0 }

/-- The state with VF0 ENABLED, its host session 0 open, and a command stamped and waiting. -/
def asked (s : State) (i : Instr) : State :=
  match commandOf i with
  | some (c, h, p) =>
    { ((s.modFn 0 (fun f => { f with st := .enabled, bme := true })).modSess 0 (fun x =>
        { x with st := .opened, gen := 1, next := 1, lease := 1000000, lapseHold := 1000000, gap := 100, leaseEnd := 1000000 })) with
      stamped := [{ hdr := h, code := c.code, payload := p, clean := true }] }
  | none => s

/-- A command's turn has come in such a state, and rules find nothing against it. -/
def goes (rules : Instr → State → Bool) (x : Instr × State) : Bool :=
  let s := asked x.2 x.1
  (commandOf x.1).any (fun k => starts k.1 k.2.1 k.2.2 s && rules x.1 (taken k.1 k.2.1 s))

/-- Wing 0 sealed for party 1, with no context. -/
def sealedWing : State := winged (fun w => { w with sealed := true, party := 1, contexts := [], nextSlotMap := 1, slotMap := 1 })

/-- Base 0 READY. -/
def readyBase (s : State) : State := s.modBase 0 (fun _ => { base0 with st := .ready })

/-- Wing 0, generation 1, in a payload of 8 bytes. -/
def wingPay : Bytes := pay [(4, 0), (4, 1)]

theorem test_session_commands_complete :
    [ (.noOp first [], on), (.sessionOpen free (pay [(4, 0), (4, 0), (4, 0)]), on)
    , (.sessionResume free (pay [(4, 0), (4, 1), (8, 1)]), on), (.sessionStatus first [], on), (.sessionSet first (pay [(4, 2000000), (4, 0), (4, 0)]), on)
    , (.sessionClose first [], on), (.functionStatus free [], on), (.timeSeed first (pay [(8, 1000)]), clk (fun c => { c with st := .unset }))
    , (.timeRead first [], on)
    ].all (fun p => goes wingRules p) = true := by decide +kernel

theorem test_wing_commands_complete :
    [ (.wingCreate first (pay [(1, 1), (1, 0), (1, 0), (1, 0), (2, 0xFFFF), (2, 16), (4, 0), (4, 0), (4, 0), (4, 0), (16, 0xFF), (64, 0xF), (32, 0), (8, 0), (2, 0), (2, 0), (8, 0)]), readyBase on)
    , (.wingResize first (pay [(1, 0), (1, 0), (1, 0), (1, 0), (2, 0xFFFF), (2, 0), (4, 100), (4, 0), (4, 0), (4, 0), (16, 0), (64, 0), (32, 0), (8, 0), (2, 0), (2, 0), (8, 0), (4, 1), (2, 1), (2, 0)]), winged id)
    , (.wingRemove first wingPay, winged id), (.wingReassign first (pay [(2, 0), (2, 2), (4, 1)]), sealedWing), (.wingStatus first wingPay, winged id)
    , (.stallRead first wingPay, winged id)
    , (.contextCreate first (pay [(1, 0), (1, 1), (1, 0), (1, 0), (4, 1), (2, 16), (1, 4), (1, 0), (4, 640), (4, 0), (4, 0), (4, 0), (4, 0), (32, 2), (64, 0xF)]), winged id)
    , (.contextSet first (pay [(1, 0), (1, 0), (1, 1), (1, 2), (4, 1), (4, 1), (4, 0), (1, 3)]), winged id)
    , (.contextDestroy first (pay [(1, 0), (1, 0), (2, 0), (4, 1), (4, 1)]), winged id)
    , (.programLoad first (pay [(1, 0), (1, 0), (2, 1), (4, 1), (8, 0)]) (.data (leBytes 8 (encodeTvx 0x01 (one 0)).toNat)), cxl (winged id))
    , (.programFree first (pay [(1, 0), (1, 0), (2, 3), (4, 1)]), winged (fun w => { w with programs := [(3, { (default : Program) with live := true })] }))
    ].all (fun p => goes wingRules p) = true := by decide +kernel

/-- Object 2, HOME in pseudo-channel 0 with some bytes as its contents. -/
def tabled (b : Bytes) (s : State) : State :=
  s.modObj 2 (fun _ => { (default : Obj) with
    live := true, gen := 1, kind := .scratch, size := 4096, place := { (default : Place) with tier := .hbm, set := 1, starts := [0], len := 4096 }
    content := mstore [] 0 b })

/-- The table of a training pass of one party and one row. -/
def trainTable : Bytes := pay [(2, 1), (2, 0), (2, 1), (2, 0), (4, 1), (4, 0), (2, 1), (6, 0), (2, 1), (2, 0x7FF), (4, 0)]

/-- The table of an update-run for handle 0. -/
def runTable : Bytes := pay [(2, 1), (2, 1), (2, 0), (2, 1), (4, 0), (4, 0), (2, 0), (2, 0), (4, 1), (4, 0xFFFFFFFF), (4, 0), (4, 0xFFFFFFFF), (4, 0), (4, 0xFFFFFFFF), (4, 0), (64, 0)]

/-- Programs 0 and 1 held in a wing with no pass. -/
def programmed (k : CtxKind) : State :=
  (winged (fun w => { w with programs := [(0, { (default : Program) with live := true }), (1, { (default : Program) with live := true })] })).modCtx 0 0
    (fun c => { c with kind := k })

/-- A KV object of party 1, number 1. -/
def kvObj (s : State) : State := s.modObj 1 (fun _ => { (default : Obj) with live := true, gen := 1, kind := .kv, owner := some 1, size := 4096 })

/-- Serving session 0 open in context 0. -/
def serving : State :=
  kvObj ((programmed .serve).modCtx 0 0 (fun c => { c with serves := [(0, { (default : Serve) with live := true, gen := 1, party := 1, kv := 1, kvGen := 1 })] }))

/-- Object 1, of one page in pseudo-channel 0, under no work. -/
def paged : State :=
  (winged id).modObj 1 (fun _ => { (default : Obj) with
    live := true, gen := 1, kind := .gradient, size := 4096, place := { (default : Place) with tier := .hbm, set := 1, starts := [0], len := 4096 } })

theorem test_pass_commands_complete :
    [ (.passTrain first (pay [(1, 0), (1, 0), (2, 8), (4, 1), (4, 1), (4, 2), (4, 1), (2, 0), (2, 1), (2, 0xFFFF), (1, 1), (1, 0), (2, 0), (2, 0), (4, 0), (4, 0), (8, 3)]), tabled trainTable (programmed .train))
    , (.passServe first (pay [(1, 0), (1, 0), (2, 8), (4, 1), (4, 1), (2, 0), (2, 65535)]), programmed .serve)
    , (.serveOpen first (pay [(1, 0), (1, 0), (2, 1), (4, 1), (4, 1), (2, 0), (1, 1), (1, 0), (4, 0), (4, 1), (4, 1), (4, 262144)]), kvObj (programmed .serve))
    , (.serveAppend first (pay [(1, 0), (1, 0), (2, 0), (4, 1), (4, 1), (4, 1), (4, 9)]), serving)
    , (.serveClose first (pay [(1, 0), (1, 0), (2, 0), (4, 1), (4, 1), (4, 1)]), serving)
    , (.updateRun first (pay [(1, 0), (1, 1), (2, 0), (4, 1), (4, 2), (4, 1), (8, 3), (1, 0)]), tabled runTable (hosted id id))
    , (.watchRead first (pay [(1, 0), (1, 0), (2, 996), (4, 1), (2, 28)]), winged id)
    , (.watchSet first (pay [(1, 0), (1, 0), (2, 1022), (4, 1), (2, 2), (6, 0), (4, 5), (4, 10)]), winged id)
    , (.watchReset first (pay [(1, 0), (1, 0), (2, 0), (4, 1), (2, 1024)]), winged id)
    , (.detectorSet first (pay [(2, 0), (1, 3), (1, 0), (4, 1), (1, 10), (1, 2), (1, 255), (1, 0), (2, 1000), (2, 0), (4, 0x7F7FFFFF), (4, 0), (4, 1), (4, 0), (8, 2), (4, 3)]), hosted id id)
    , (.detectorRelease first (pay [(2, 0), (2, 0), (4, 1)]), hosted (fun h => { h with det := { h.det with held := true } }) id)
    , (.detectorRelease first (pay [(2, 0), (2, 0), (4, 1)]), hosted id id)
    ].all (fun p => goes passRules p) = true := by decide +kernel

theorem test_object_commands_complete :
    [ (.objectCreate first (pay [(1, 3), (1, 0), (1, 0), (1, 0), (4, 1), (2, 1), (6, 0), (8, 4096), (64, 3), (8, 0), (1, 0), (3, 0), (4, 0), (4, 0), (4, 0)]), winged id)
    , (.objectMove first (pay [(4, 1), (4, 1), (1, 0), (7, 0), (64, 2), (8, 0)]), paged)
    , (.objectResize first (pay [(4, 1), (4, 1), (8, 4096)]), paged), (.objectResize first (pay [(4, 1), (4, 1), (8, 8192)]), paged)
    , (.objectFree first (pay [(4, 1), (4, 1)]), paged), (.objectStatus first (pay [(4, 1), (4, 1)]), paged)
    , (.objectWrite first (pay [(4, 1), (4, 1), (8, 4032), (8, 64), (8, 0)]), paged), (.objectRead first (pay [(4, 1), (4, 1), (8, 0), (8, 4096), (8, 64)]), paged)
    , (.windowSet first (pay [(1, 0), (1, 0), (2, 2), (4, 1), (64, 0)]), readyBase (winged id))
    ].all (fun p => goes passRules p) = true := by decide +kernel

/-- A manifest of one layer and one shard of zeros' digest, with its root as SHAKE256 gives it (computed outside the model). -/
def manifest : Bytes :=
  pay [(2, 1), (2, 1), (4, 1), (8, 9), (4, 512), (4, 0), (8, 64), (8, 0), (24, 0)
    , (64, 0x90dd739e9be98aea126be6adbe69694c0c6ecc657d727bc7296fced48d23c4ba3d069e2d6eb2638891076e289f65f2059541fcbe466e67cd9119fbea68d93344)
    , (8, 0), (8, 64), (4, 0), (4, 0), (64, 0)]

/-- A payload that carries a sealed wrapper of a kind, for base 0 and party 0, against the passport whose digest is 0. -/
def wrapped (kind : Nat) : Bytes := pay [(2, 0), (2, 1808), (2, 1), (1, kind), (5, 0), (8, 100000)] ++ List.replicate 1792 0

/-- A DEPLOYED module that has issued that passport, with its host link up. -/
def issued (s : State) : State :=
  cxl (s.modSecure (fun x => { x with life := .deployed, ak := some [1], rk := some [2], passports := [{ digest := List.replicate 64 0, used := false }] }))

/-- A group 0 of two members, and its three objects. -/
def posting : State :=
  [1, 2, 3].foldl (fun s o => s.modObj o (fun x => { x with live := true, gen := 1, kind := .gradient, size := 16 }))
    ((winged id).modGroup 0 (fun g => { g with live := true, gen := 1, members := [7, 8] }))

theorem test_adapter_commands_complete :
    [ (.adapterLoad first (pay [(2, 0), (1, 1), (1, 0), (4, 1), (4, 1), (2, 0), (1, 0), (1, 0), (8, 0), (8, 0), (2, 0)]) .failed,
        (((hosted (fun h => { h with st := .home }) (fun r => { r with st := .free })).modBase 0 (fun _ => { base0 with dModel := 512 })).modSecure
          (fun x => { x with partyKeys := [(0, some [1])] })))
    , (.roomPin first (pay [(2, 0), (1, 1), (1, 0), (4, 1)]), hosted id id)
    , (.checkout first (pay [(2, 0), (1, 0), (1, 0), (4, 1)]), hosted id id), (.checkout first (pay [(2, 0), (1, 1), (1, 0), (4, 1)]), hosted id (fun r => { r with st := .updating, pinned := true }))
    , (.adapterDelete first (pay [(2, 0), (2, 0), (4, 1)]), hosted id id), (.adapterRead first (pay [(2, 0), (2, 0), (4, 1), (8, 64), (8, 0x100000)]), hosted id id)
    , (.adapterStatus first (pay [(2, 0), (2, 0), (4, 9)]), hosted id id)
    ].all (fun p => goes moduleRules p) = true := by decide +kernel

theorem test_cellar_commands_complete :
    [ (.baseInstall first (pay [(1, 0), (1, 0), (6, 0), (8, 0), (8, 0), (4, 216), (4, 0), (8, 64)]) (.data manifest), cxl on)
    , (.baseInstall first (pay [(1, 0), (1, 0), (6, 0), (8, 0), (8, 0), (4, 216), (4, 0), (8, 64)]) .failed, cxl on)
    , (.installCancel first (pay [(1, 0)]), on.modBase 0 (fun _ => { base0 with st := .installing, install := some default }))
    , (.baseRemove first (pay [(1, 3)]), on), (.baseSelect first (pay [(1, 0), (1, 0), (2, 0), (4, 1)]), readyBase (winged id))
    , (.sweepSet first (pay [(8, 3600000000)]), on), (.cellarStatus first [], on)
    ].all (fun p => goes moduleRules p) = true := by decide +kernel

theorem test_fabric_commands_complete :
    [ (.fabricSet first (pay [(4, 5000), (1, 8), (1, 0), (2, 0), (8, 0), (8, 0)]) .failed, on)
    , (.fabricSet first (pay [(4, 0), (1, 0), (1, 1), (2, 1), (8, 64), (8, 4002)]) (.data (pay [(8, 5)])), cxl on)
    , (.collectivePost first (pay [(4, 0), (4, 1), (1, 0), (1, 0), (1, 1), (1, 0), (4, 1), (4, 1), (4, 1), (4, 1), (4, 2), (4, 1), (4, 3), (4, 1), (4, 0), (8, 4002)]), posting)
    , (.ringStatus first (pay [(4, 5), (4, 1)]), on.modRing 5 (fun r => { r with live := true, gen := 1 })), (.fabricStatus first (pay [(2, 0)]), on)
    , (.portRetrain first (pay [(8, 0)]), on), (.portRetrain first (pay [(8, 1)]), linked9)
    , (.mirrorAreaSet first (pay [(2, 0x8001), (6, 0), (8, 0x10000000)]), cxl on)
    ].all (fun p => goes moduleRules p) = true := by decide +kernel

theorem test_security_commands_complete :
    [ (.passportGet first (pay [(32, 5), (8, 64), (4, 20000)]) (.data []), deployed id), (.passportGet first (pay [(32, 5), (8, 64), (4, 20000)]) .failed, on)
    , (.keyRelease first (wrapped 1), issued (on.modBase 0 (fun _ => base0))), (.partyKeyLoad first (wrapped 2), issued on)
    , (.partyKeyRemove first (pay [(2, 4095)]), on.modSecure (fun x => { x with partyKeys := [(4095, some [1])] }))
    , (.partyBind first (pay [(2, 1), (2, 2), (4, 0), (2, 7), (2, 4095)]), on.modLink (fun l => { l with vfEnable := true, numVfs := 1 }))
    ].all (fun p => goes moduleRules p) = true := by decide +kernel

theorem test_service_commands_complete :
    [ (.faultLogRead first (pay [(4, 0), (2, 56)]), on), (.tileMap first (pay [(2, 127), (1, 1)]), on), (.tileMap first (pay [(2, 127), (1, 0)]), on)
    , (.tileMap first (pay [(2, 0), (1, 0)]), winged id), (.tileMap first (pay [(2, 0), (1, 0)]), (winged id).modTile 0 (fun t => { t with spare := some 33 }))
    , (.pcRetire first (pay [(2, 511)]), on)
    , (.loftEvacuate first (pay [(1, 15), (1, 0)]), cxl on), (.loftEvacuate first (pay [(1, 0), (1, 1)]), (cxl on).modLoft 0 (fun l => { l with st := .evacuated }))
    , (.wingFence first (pay [(1, 0), (1, 1), (2, 0), (4, 1)]), winged id), (.wingFence first (pay [(1, 0), (1, 0), (2, 0), (4, 1)]), winged (fun w => { w with fenced := true }))
    , (.firmwareHandover first (pay [(8, 64), (4, 1)]) (.data [7]), cxl on), (.firmwareHandover first (pay [(8, 64), (4, 1)]) .failed, cxl on)
    , (.domainSet first (pay [(1, 5), (1, 0), (6, 0), (8, 0)]), on.modDomain 5 (fun d => { d with st := .on })), (.domainSet first (pay [(1, 0), (1, 0), (6, 0), (8, 0x3FFFFFFFF)]), on)
    , (.domainSet first (pay [(1, 5), (1, 0), (6, 0), (8, 0)]), on)
    , (.domainSet first (pay [(1, 5), (1, 1), (6, 0), (8, 0)]), on.modDomain 5 (fun d => { d with run := some default }))
    ].all (fun p => goes moduleRules p) = true := by decide +kernel

/-- VF1 exists, in a state changed by `g`. -/
def vf1 (g : Fn → Fn) : State := (on.modLink (fun l => { l with vfEnable := true, numVfs := 1 })).modFn 1 g

theorem test_function_commands_complete :
    [ (.vfSet first (pay [(1, 1), (1, 1)]), vf1 (fun f => { f with st := .disabled })), (.vfSet first (pay [(1, 1), (1, 0)]), vf1 (fun f => { f with st := .disabled }))
    , (.vfSet first (pay [(1, 1), (1, 2)]), vf1 (fun f => { f with st := .enabled })), (.vfSet first (pay [(1, 1), (1, 0)]), vf1 (fun f => { f with vfRun := some default }))
    , (.tallyRead first (pay [(2, 4095), (1, 0)]), { on with led := { on.led with tally := { on.led.tally with period := 1 } } })
    , (.tallyRead first (pay [(2, 0), (1, 1)]), { on with led := { on.led with tally := { on.led.tally with period := 2, last := some (1, 0, 5) } } })
    , (.tallyClose first [], { on with led := { on.led with tally := { on.led.tally with period := 1 } } })
    ].all (fun p => goes moduleRules p) = true := by decide +kernel

/-! ### Messages

The module's identity is a value that the spec leaves to the maker, so these are proved by rewriting. -/

/-- The header of a message from the next identity to this module, by port 0, about number `ref` of generation 1. -/
def hdr (ref offset : Nat) : MsgHdr :=
  { port := 0, hop := 16, length := 0, dst := Config.identity, src := Config.identity + 1, ref := ref, refGen := 1, offset := offset, ok := true }

theorem heardHere_hdr (s : State) (type ref offset : Nat) :
    heardHere s type (hdr ref offset) = heard s type (hdr ref offset) := by simp [heardHere, hdr]

/-- Port 0 UP, with a wing. -/
def netted : State := (winged id).modPort 0 (fun p => { p with st := .up, lanes := 8, peer := some 9 })

/-- Nothing has come yet on it. -/
theorem heard_netted (s : State) (type ref offset : Nat) (hp : inService (s.port 0) = true) (hs : s.fabric.seen = [])
    (hw : s.led.wings = netted.led.wings) : heard s type (hdr ref offset) = true := by
  have hm : portWings s 0 = portWings netted 0 := by simp only [portWings, State.liveWings, State.wing, hw]
  rw [show portWings netted 0 = [] by decide +kernel] at hm
  have h1 : mutedPort s 0 = false := by simp [mutedPort, hm]
  have h2 : sealedPort s 0 = false := by simp [sealedPort, hm]
  simp [heard, arrival, seenBefore, hs, hdr, h1, h2, hp]

theorem test_entry_completes : messageCompletes (.entry (hdr 0 0) default true) netted = true := by
  have h := heard_netted netted 1 0 0 rfl rfl rfl
  have ha : arrival netted 1 (hdr 0 0) = .taken := by simp [heard] at h; exact h.1
  simp only [messageCompletes, ha]
  simp [allowed, hdr, show netted.led.fab.allow = [] by decide +kernel, show netted.fabric.entries = [] by decide +kernel]

theorem test_fabric_events_complete :
    [ (.rollCallClose, (clk (fun c => { c with count := 100 })).modFabric (fun f => { f with round := some 0 }))
    , (.fabricParamsApply, on.modLed (fun l => { l with fab := { l.fab with next := some default } }))
    , (.mirrorAckTimeout 0 0, (clk (fun c => { c with count := 30000 })).modRing 0 (fun r => { r with live := true, awaiting := [(0, some 5)] }))
    , (.collectiveCommit 0, on.modGroup 0 (fun g => { g with live := true, post := some default, complete := true }))
    ].all (fun p => messageCompletes p.1 p.2) = true := by decide +kernel

/-- A ring of two legs: the first held by the next identity, the second here. -/
def ring0 : Ring :=
  { (default : Ring) with
    live := true, gen := 1
    legs := [{ owner := Config.identity + 1, mirrorSet := 1, takeover := 1 }, { owner := Config.identity, mirrorSet := 1, takeover := 1 }] }

/-- With that ring as ring 0, changed by `g`. -/
def ringed (g : Ring → Ring) : State := netted.modRing 0 (fun _ => g ring0)

theorem heard_ringed (g : Ring → Ring) (type ref offset : Nat) : heardHere (ringed g) type (hdr ref offset) = true := by
  rw [heardHere_hdr]; exact heard_netted _ _ _ _ rfl rfl rfl

theorem ring_ringed (g : Ring → Ring) : (ringed g).ring 0 = g ring0 := State.modRing_self netted 0 _

theorem test_ring_block_completes : messageCompletes (.ringBlock (hdr 0 0) 0 0 1 0 []) (ringed id) = true := by
  simp only [messageCompletes, heard_ringed]; decide

theorem test_ring_done_completes : messageCompletes (.ringDone (hdr 0 0) 0 0 1) (ringed id) = true := by
  simp only [messageCompletes, heard_ringed]; simp [show (hdr 0 0).ref = 0 from rfl, ring_ringed, ring0, Ring.owner]

theorem test_mirror_ack_completes :
    messageCompletes (.mirrorAck (hdr 0 0) 1) (ringed (fun r => { r with awaiting := [(1, some 5)] })) = true := by
  simp only [messageCompletes, heard_ringed]
  simp [ring_ringed, ring0, Ring.owner, Ring.holder, Ring.indices, sameRing, hdr, List.range_succ, tget, tgetD, tlook]

theorem test_fabric_messages_complete :
    (messageCompletes (.remoteData (hdr 0 0) 0 []) netted && messageCompletes (.shardRequest (hdr 0 0) 7 0) netted
      && messageCompletes (.bcastAck (hdr 0 0) 0) netted) = true := by
  have h (type : Nat) := heard_netted netted type 0 0 rfl rfl rfl
  simp only [messageCompletes, heardHere_hdr, h]; decide

/-- A KV object of the wing in the Loft's place of the module. -/
def kvd : State := netted.modObj 1 (fun o => { o with live := true, gen := 1, kind := .kv, size := 4096 })

theorem test_remote_read_completes : messageCompletes (.remoteRead (hdr 0 0) 1 0 64) kvd = true := by
  simp only [messageCompletes, heardHere_hdr, kvd, State.modObj_self]; decide +kernel

/-- The module's shard 0 asked for from the next identity. -/
def asking : State :=
  ((netted.modBase 0 (fun _ => base0)).modShard 0 id).modCellar (fun c =>
    { c with requests := [{ (default : Request) with last := some (Config.identity + 1) }] })

theorem heard_asking (type ref offset : Nat) : heardHere asking type (hdr ref offset) = true := by
  rw [heardHere_hdr]; exact heard_netted _ _ _ _ rfl rfl rfl

theorem test_shard_data_completes : messageCompletes (.shardData (hdr 0 0) 0 false 3) asking = true := by
  have hr : requestOf asking 0 false = some { (default : Request) with last := some (Config.identity + 1) } := rfl
  have hw : wantDigest asking 0 = some 3 := by decide +kernel
  simp only [messageCompletes, heard_asking, hr, hw]; simp [hdr]

theorem test_not_held_completes : messageCompletes (.notHeld (hdr 0 0) 0) asking = true := by
  have hr : asking.cellar.requests = [{ (default : Request) with last := some (Config.identity + 1) }] := rfl
  simp only [messageCompletes, heard_asking, hr]; simp [hdr]; rfl

/-- The ring's leg 0 mirrored here in object 1, with party 3's key. -/
def mirroring : State :=
  ((ringed (fun r => { r with mirror := [(0, some 1)] })).modObj 1 (fun o => { o with live := true, gen := 1, kind := .mirror, size := 4096 })).modSecure
    (fun x => { x with partyKeys := [(3, some [1])] })

theorem test_mirror_write_completes : messageCompletes (.mirrorWrite (hdr 0 0) 0 3 [7]) mirroring = true := by
  have hh : heardHere mirroring 0x0020 (hdr 0 0) = true := by rw [heardHere_hdr]; exact heard_netted _ _ _ _ rfl rfl rfl
  have hr : mirroring.ring 0 = { ring0 with mirror := [(0, some 1)] } := ring_ringed (fun r => { r with mirror := [(0, some 1)] })
  have hk : keyAbsent mirroring 3 = false := by decide +kernel
  have hm : (storeMirror (remember mirroring 0x0020 (hdr 0 0)) 0 0 3 0 [7]).isSome = true := by
    have h1 : (remember mirroring 0x0020 (hdr 0 0)).ring 0 = { ring0 with mirror := [(0, some 1)] } := hr
    unfold storeMirror; rw [h1]; rfl
  simp only [messageCompletes, hh, hk, show (hdr 0 0).ref = 0 from rfl, show (hdr 0 0).offset = 0 from rfl, hr, hm]
  simp [ring0, Ring.owner, Ring.holder, Ring.indices, Safety.sameRing, hdr, List.range_succ]; rfl

/-- A collective group of two members, of which this module is the second, posted. -/
def grp0 : Group :=
  { (default : Group) with
    live := true, gen := 1, members := [Config.identity + 1, Config.identity], post := some default, dest := 1, started := true, ticket := some 0 }

/-- It is group 0, for four FP32 elements. -/
def reducing : State := (netted.modGroup 0 (fun _ => grp0)).modObj 1 (fun o => { o with live := true, gen := 1, size := 16 })

theorem test_reduce_data_completes : messageCompletes (.reduceData (hdr 0 0) false (List.replicate 16 0)) reducing = true := by
  have hh : heardHere reducing 0x0040 (hdr 0 0) = true := by rw [heardHere_hdr]; exact heard_netted _ _ _ _ rfl rfl rfl
  have hg : reducing.group 0 = grp0 := State.modGroup_self netted 0 (fun _ => grp0)
  have hi : grp0.index = 1 := by simp [grp0, Group.index, List.findIdx_cons]
  have he : groupElems reducing grp0 = 4 := rfl
  simp only [messageCompletes, hh, show (hdr 0 0).ref = 0 from rfl, hg, blockFrom, blockFits, hi, he]
  simp [grp0, hdr, Group.member, blockElems]; decide

/-- A view of this module and the next identity, which name one another as neighbours. -/
def viewed : State :=
  (netted.modPort 0 (fun p => { p with peer := some (Config.identity + 1) })).modFabric (fun f =>
    { f with view := [Config.identity, Config.identity + 1]
             members := [(Config.identity + 1, { (default : Member) with last := some { (default : EntryBody) with
               neighbours := [{ (default : Neighbour) with identity := Config.identity }] } })] })

theorem linked_viewed : linked viewed (Config.identity + 1) Config.identity = true := by
  have h1 : (viewed.member (Config.identity + 1)).last = some { (default : EntryBody) with
      neighbours := [{ (default : Neighbour) with identity := Config.identity }] } := by
    simp [State.member, viewed, State.modFabric, tget, tgetD, tlook]
  have h2 : servicePorts viewed = [0] := by decide +kernel
  have h3 : (viewed.port 0).peer = some (Config.identity + 1) := rfl
  simp [linked, neighbourIds, h1, h2, h3]

theorem test_bcast_data_completes : messageCompletes (.bcastData (hdr 0 0) 0 true 3) viewed = true := by
  have hh : heardHere viewed 0x0030 (hdr 0 0) = true := by rw [heardHere_hdr]; exact heard_netted _ _ _ _ rfl rfl rfl
  have hl (a b : Nat) : linked (remember viewed 0x0030 (hdr 0 0)) a b = linked viewed a b := rfl
  have hv : (remember viewed 0x0030 (hdr 0 0)).fabric.view = [Config.identity, Config.identity + 1] := rfl
  have hs : linked viewed Config.identity (Config.identity + 1) = true := by
    have := linked_viewed; simp only [linked, Bool.and_comm] at this ⊢; exact this
  simp only [messageCompletes, hh, show (hdr 0 0).src = Config.identity + 1 from rfl, show (hdr 0 0).port = 0 from rfl,
    show (viewed.port 0).peer = some (Config.identity + 1) from rfl]
  simp [parentOf, hopsFrom, hv, reach, hl, hs, linked_viewed, hopsTo]

/-! ### The commands that name this module's identity -/

theorem leNat_leBytes (n v : Nat) : leNat (leBytes n v) = v % 256 ^ n := by
  induction n generalizing v with
  | zero => simp [leBytes, leNat, Nat.mod_one]
  | succ n ih => simp [leBytes, leNat, ih, Nat.pow_succ, Nat.mul_comm, Nat.mod_mul]

theorem length_leBytes (n v : Nat) : (leBytes n v).length = n := by
  induction n generalizing v with
  | zero => rfl
  | succ n ih => simp [leBytes, ih]

theorem identity_bytes : leNat (leBytes 8 Config.identity) = Config.identity := by
  have h : Config.identity < 2 ^ 64 := Config.identityBits.isLt
  rw [leNat_leBytes, show (256 : Nat) ^ 8 = 2 ^ 64 by rfl]; omega

theorem take_identity (l : Bytes) : (leBytes 8 Config.identity ++ l).take 8 = leBytes 8 Config.identity := by
  rw [List.take_append_of_le_length (by simp [length_leBytes])]; exact List.take_of_length_le (by simp [length_leBytes])

/-- Group 0 of this module and identity 5, set anew. -/
def setPay : Bytes := pay [(4, 0), (4, 0), (1, 2), (7, 0)] ++ (leBytes 8 Config.identity ++ leBytes 8 5)

theorem setPay_members : groupMembers setPay = [Config.identity, 5] := by
  have h1 : field setPay 16 8 = Config.identity := by
    show leNat ((leBytes 8 Config.identity ++ leBytes 8 5).take 8) = _; rw [take_identity, identity_bytes]
  have h2 : field setPay 24 8 = 5 := rfl
  have h3 : field setPay 8 1 = 2 := rfl
  simp [groupMembers, h3, List.range_succ, h1, h2]

/-- A view of this module and identity 5, which name one another as neighbours. -/
def paired : State :=
  ((on.modPort 0 (fun p => { p with st := .up, lanes := 8, peer := some 5 })).modFabric (fun f =>
    { f with view := [Config.identity, 5]
             members := [(5, { (default : Member) with last := some { (default : EntryBody) with
               neighbours := [{ (default : Neighbour) with identity := Config.identity }] } })] }))

theorem linked_paired : linked paired Config.identity 5 = true := by
  have h1 : (paired.member 5).last = some { (default : EntryBody) with
      neighbours := [{ (default : Neighbour) with identity := Config.identity }] } := by
    simp [State.member, paired, State.modFabric, tget, tgetD, tlook]
  have h2 : servicePorts paired = [0] := by decide +kernel
  have h3 : (paired.port 0).peer = some 5 := rfl
  by_cases h : (5 : Nat) = Config.identity <;> simp [linked, neighbourIds, h1, h2, h3, h]

theorem test_collective_set_completes : goes moduleRules (.collectiveSet first setPay, paired) = true := by
  have h1 : starts collectiveSetCmd first setPay (asked paired (.collectiveSet first setPay)) = true := by
    have h : isNext collectiveSetCmd first setPay (asked paired (.collectiveSet first setPay)) = true := by
      have : nextPacket (asked paired (.collectiveSet first setPay)) = some { hdr := first, code := 0x0802, payload := setPay, clean := true } := rfl
      simp [isNext, this]; rfl
    simp only [starts, h]; rfl
  have h2 : (taken collectiveSetCmd first (asked paired (.collectiveSet first setPay))).fabric.view = [Config.identity, 5] := rfl
  have h3 (a b : Nat) : linked (taken collectiveSetCmd first (asked paired (.collectiveSet first setPay))) a b = linked paired a b := rfl
  have h4 : ((taken collectiveSetCmd first (asked paired (.collectiveSet first setPay))).group (field setPay 0 4)).post.isNone = true := rfl
  have h5 : moduleRules (.collectiveSet first setPay) (taken collectiveSetCmd first (asked paired (.collectiveSet first setPay))) = true := by
    simp only [moduleRules, setPay_members, h2, chained, h3, linked_paired, h4]; simp
  simp only [goes, commandOf, Option.any_some, h1, h5, Bool.and_self]

/-- Two legs of this module's own, as the host lists them. -/
def legBytes : Bytes := (leBytes 8 Config.identity ++ leBytes 72 0) ++ (leBytes 8 Config.identity ++ leBytes 72 0)

theorem legBytes_owners : (readLegs 2 legBytes).map (·.owner) = [Config.identity, Config.identity] := by
  have h1 : field legBytes 0 8 = Config.identity := by
    show leNat (legBytes.take 8) = _; rw [show legBytes = leBytes 8 Config.identity ++ (leBytes 72 0 ++ (leBytes 8 Config.identity ++ leBytes 72 0)) by
      simp [legBytes]]; rw [take_identity, identity_bytes]
  have h2 : field legBytes 80 8 = Config.identity := by
    show leNat ((leBytes 8 Config.identity ++ leBytes 72 0).take 8) = _; rw [take_identity, identity_bytes]
  simp [readLegs, List.range_succ, h1, h2]

/-- Ring 0 of two legs, of wing 0. -/
def ringPay : Bytes := pay [(4, 0), (4, 0), (1, 0), (1, 2), (2, 0), (4, 1), (8, 0)]

/-- A module that shares a view with itself alone, a wing, and its host's memory. -/
def alone : State := cxl ((winged id).modFabric (fun f => { f with view := [Config.identity] }))

theorem test_ring_set_completes : goes moduleRules (.ringSet first ringPay (.data legBytes), alone) = true := by
  let i : Instr := .ringSet first ringPay (.data legBytes)
  let c : KCmd := ringSetCmd (.data legBytes)
  have h1 : starts c first ringPay (asked alone i) = true := by
    have h : isNext c first ringPay (asked alone i) = true := by
      have : nextPacket (asked alone i) = some { hdr := first, code := 0x0804, payload := ringPay, clean := true } := rfl
      simp [isNext, this]; rfl
    simp only [starts, h]; rfl
  have h2 : (taken c first (asked alone i)).fabric.view = [Config.identity] := rfl
  have h3 : legsRead (taken c first (asked alone i)) first ringPay (.data legBytes) = some (readLegs 2 legBytes) := by
    have hb : hostBytes (taken c first (asked alone i)) first.fn (.data legBytes) = some legBytes := rfl
    have hl : legBytes.length = 160 := by simp [legBytes, length_leBytes]
    have hn : field ringPay 9 1 = 2 := rfl
    simp [legsRead, hb, hl, hn]
  have h4 : ringUsed (taken c first (asked alone i)) (field ringPay 0 4) = false := rfl
  have h5 : moduleRules i (taken c first (asked alone i)) = true := by
    simp only [i, moduleRules, h3, Option.any_some, legBytes_owners]
    simp only [c, i] at h2 h4
    rw [h2, h4]
    simp [ownerCycle, cycleLinked, List.range_succ]
  simp only [goes, commandOf, Option.any_some]
  simp only [c, i] at h1 h5
  simp only [h1, h5, Bool.and_self]

/-- The module goes to SCRAPPED by its identity. -/
def scrapPay : Bytes := pay [(1, 4), (1, 0), (2, 8)] ++ leBytes 8 Config.identity

theorem test_life_cycle_set_completes : goes moduleRules (.lifeCycleSet first scrapPay, deployed id) = true := by
  let i : Instr := .lifeCycleSet first scrapPay
  have h1 : starts lifeCycleSetCmd first scrapPay (asked (deployed id) i) = true := by
    have h : isNext lifeCycleSetCmd first scrapPay (asked (deployed id) i) = true := by
      have : nextPacket (asked (deployed id) i) = some { hdr := first, code := 0x0906, payload := scrapPay, clean := true } := rfl
      simp [isNext, this]; rfl
    simp only [starts, h]; rfl
  have h2 : lifeOf (field scrapPay 0 1) = .scrapped := rfl
  have h3 : Machine.messageOf scrapPay = leBytes 8 Config.identity := rfl
  have h4 : (taken lifeCycleSetCmd first (asked (deployed id) i)).secure.life = .deployed := rfl
  have h5 : (taken lifeCycleSetCmd first (asked (deployed id) i)).liveWings = [] := rfl
  have h6 : (taken lifeCycleSetCmd first (asked (deployed id) i)).cellar.bases = [] := rfl
  have h7 : moduleRules i (taken lifeCycleSetCmd first (asked (deployed id) i)) = true := by
    simp only [i, moduleRules, transitionAllowed, h2, h3]
    simp only [i] at h4 h5 h6
    simp [h4, h5, h6]
  simp only [goes, commandOf, Option.any_some]
  simp only [i] at h1 h7
  simp only [h1, h7, Bool.and_self]

/-! ### The protocol's refusals -/

/-- Whether one general status refuses a command whose turn has come. -/
def refusedWith (st : Status) (i : Instr) (s : State) : Bool :=
  (commandOf i).any (fun k => !k.1.sessionless && arrives k.1.code k.2.1 k.2.2 s && bearsNext k.2.1 s && !s.power.minimal
    && decide ((s.sess (ownKey k.2.1)).st = .opened) && decide (generalRefusal k.1 k.2.1 k.2.2 s (taken k.1 k.2.1 s) = some st))

theorem test_refusal_order :
    [ (Status.expired, Instr.noOp { first with deadline := 4095 } [], on), (.malformed, .noOp first [0], on)
    , (.notPermitted, .timeSeed { first with fn := 1 } (pay [(8, 1000)]), on.modFn 1 (fun f => { f with st := .enabled }))
    , (.staleGeneration, .wingRemove first (pay [(4, 0), (4, 2)]), winged id)
    , (.wingFenced, .contextDestroy first (pay [(1, 0), (1, 0), (2, 0), (4, 1), (4, 1)]), winged (fun w => { w with fenced := true }))
    , (.wingScrubbing, .contextDestroy first (pay [(1, 0), (1, 0), (2, 0), (4, 1), (4, 1)]), winged (fun w => { w with scrub := some default }))
    ].all (fun p => refusedWith p.1 p.2.1
      (let s := asked p.2.2 p.2.1
       s.modSess (sessKey 1 0) (fun x => { x with st := .opened, gen := 1, next := 1 }))) = true := by decide +kernel

/-- Room 3 of handle 0 and wing 0, in a state. -/
def roomIn (st : RoomSt) : State := (winged id).modRoom 3 (fun _ => { (default : Room) with st := st, gen := 1, wing := 0, handle := 0 })

/-- A room-pin of room 3. -/
def pin3 : Bytes := pay [(2, 3), (2, 1), (4, 1)]

theorem test_room_pin_starts :
    (starts roomPinCmd first pin3 (asked (roomIn .ready) (.roomPin first pin3)) && starts roomPinCmd first pin3 (asked (roomIn .leaving) (.roomPin first pin3)))
      = true := by decide +kernel

/-- What a command's own rules find, where no general status refuses it. -/
def ownRes (i : Instr) (s : State) : Option KRes :=
  (commandOf i).bind (fun k =>
    if !k.1.sessionless && arrives k.1.code k.2.1 k.2.2 s && bearsNext k.2.1 s && !s.power.minimal
      && decide ((s.sess (ownKey k.2.1)).st = .opened) && decide (generalRefusal k.1 k.2.1 k.2.2 s (taken k.1 k.2.1 s) = none) then
      some (k.1.body (taken k.1 k.2.1 s) k.2.1 k.2.2)
    else none)

theorem test_own_refusal :
    (match ownRes (.roomPin first pin3) (asked (roomIn .leaving) (.roomPin first pin3)) with
     | some (.refuse st _) => decide (st = .roomLeaving) | _ => false) = true := by decide +kernel

theorem test_session_busy :
    (let i : Instr := .checkout first (pay [(2, 3), (2, 1), (4, 1)])
     let s := (asked (roomIn .ready) i).modSess 0 (fun x => { x with longs := 64 })
     match ownRes i s with
     | some (.long _ _ _ _) => decide (64 ≤ (s.sess (ownKey first)).longs) | _ => false) = true := by decide +kernel

/-- no-op, waiting, with its host session otherwise. -/
def noOpIn (h : CmdHdr) (g : Session → Session) : State := (asked on (.noOp h [])).modSess 0 g

/-- It is the keeper's next, and names a host session and a number. -/
def noOpArrives (h : CmdHdr) (s : State) : Bool :=
  arrives 0x0001 h [] s && !s.power.minimal && decide (h.session ≤ 15 ∧ h.seq ≠ 0)

theorem test_session_refusals :
    [ (Status.sessionUnknown, noOpIn first (fun x => { x with st := .closed })), (.staleGeneration, noOpIn first (fun x => { x with gen := 2 }))
    , (.sessionLapsed, noOpIn first (fun x => { x with st := .lapsed }))
    ].all (fun p => noOpArrives first p.2 && decide (sessionRefusal first p.2 = some p.1)) = true := by decide +kernel

/-- The packet of a no-op. -/
def packetOf (h : CmdHdr) : Packet := { hdr := h, code := 0x0001, payload := [], clean := true }

/-- Header number `n` of the session. -/
def numbered (n : Nat) : CmdHdr := { first with seq := n }

theorem test_ahead_of_turn :
    ([ (65, fun x => x), (64, fun x => x), (64, fun x => { x with held := (List.range 64).map (fun i => (i + 2, some (packetOf first))) })
     , (2, fun x => { x with held := [(2, some (packetOf first))] })
     , (2, fun x => { x with held := [(2, some (packetOf { first with crc := 78 }))] })] : List (Nat × (Session → Session))).map
      (fun p =>
        let h := numbered p.1
        let s := noOpIn h p.2
        let x := (taken noOpCmd h s).sess (ownKey h)
        (noOpArrives h s && decide (sessionRefusal h s = none), decide (x.next + 63 < h.seq), decide (x.next < h.seq ∧ h.seq ≤ x.next + 63)
          , (tget x.held h.seq).map (fun k => decide (k.hdr.crc = h.crc)), decide (64 ≤ x.held.length)))
      = [ (true, true, false, none, false), (true, false, true, none, false), (true, false, true, some true, true)
        , (true, false, true, some true, false), (true, false, true, some false, false)] := by decide +kernel

theorem test_held_full :
    (let h := numbered 64
     let x := (taken noOpCmd h (noOpIn h (fun x => { x with held := (List.range 64).map (fun i => (i + 70, some (packetOf first))) }))).sess (ownKey h)
     decide (x.next < h.seq ∧ h.seq ≤ x.next + 63 ∧ tget x.held h.seq = none ∧ 64 ≤ x.held.length)) = true := by decide +kernel

/-- A session whose next number is 66, with a mark at number 2. -/
def marked (m : Mark) (x : Session) : Session := { x with next := 66, marks := [(2, m)] }

/-- A reply, as the cache keeps one. -/
def reply0 : Reply := mkReply on (refOf first 0x0001) .ok true []

theorem test_behind_turn :
    [ (1, marked .skipped, Mark.absent), (2, marked (.cached 77 reply0), .cached 77 reply0), (2, marked (.cached 78 reply0), .cached 78 reply0)
    , (2, marked (.executing 77 none), .executing 77 none), (2, marked (.executing 78 none), .executing 78 none), (2, marked .skipped, .skipped)
    , (2, marked (.nothing 1 5), .nothing 1 5)
    ].all (fun p =>
      let h := numbered p.1
      let s := noOpIn h p.2.1
      let x := (taken noOpCmd h s).sess (ownKey h)
      noOpArrives h s && isNext noOpCmd h [] s && !late h s && noOpCmd.parse [] && decide (sessionRefusal h s = none ∧ h.seq < x.next)
        && decide (if p.1 = 1 then h.seq + 64 < x.next else x.next ≤ h.seq + 64 ∧ tget x.marks h.seq = p.2.2 ∧ x.st = .opened)) = true := by
  decide +kernel

theorem test_outside_sessions :
    (let t := asked on (.functionStatus first [])
     let u := noOpIn (numbered 0) id
     let v := noOpIn { first with session := 16 } id
     let o := asked (on.modFn 0 (fun f => { f with opens := [{ hostTag := 5, reply := reply0 }] })) (.sessionOpen free [])
     let w := asked on (.functionStatus free [0])
     let x := asked on (.functionStatus { free with deadline := 4095 } [])
     functionStatusCmd.sessionless && arrives 0x0007 first [] t && !outside first && !t.power.minimal
      && arrives 0x0001 (numbered 0) [] u && arrives 0x0001 { first with session := 16 } [] v
      && arrives 0x0002 free [] o && outside free && ((o.fn 0).opens.find? (fun o => decide (o.hostTag = free.hostTag))).isSome
      && arrives 0x0007 free [0] w && outsideSessions functionStatusCmd free w
      && decide (generalRefusal functionStatusCmd free [0] w (takenFrom w) = some .malformed)
      && outsideSessions functionStatusCmd { free with deadline := 4095 } x
      && decide (generalRefusal functionStatusCmd { free with deadline := 4095 } [] x (takenFrom x) = some .expired)) = true := by
  decide +kernel

/-- A packet of an unknown code, waiting. -/
def unknown : State :=
  { noOpIn first id with stamped := [{ packetOf first with code := 0x0008 }] }

/-- no-op with a payload, so MALFORMED, after 15 MALFORMED replies. -/
def malformedIn (st : SessSt) : State :=
  (asked on (.noOp first [0])).modSess 0 (fun x => { x with st := st, malformed := List.replicate 15 4000 })

theorem test_probation :
    (let a := malformedIn .opened
     let b := malformedIn .probation
     let c := (asked on (.timeRead first [])).modSess 0 (fun x => { x with st := .probation })
     let d := noOpIn first (fun x => { x with st := .probation })
     !knownCode 0x0008 && arrives 0x0008 first [] unknown && bearsNext first unknown && !late first unknown
      && refusedWith .malformed (.noOp first [0]) a
      && decide (15 ≤ ((a.sess 0).malformed.filter (fun m => decide (a.clock.count < m + 1000000))).length)
      && arrives 0x0001 first [0] b && bearsNext first b && inProbation 0x0001
      && decide (generalRefusal noOpCmd first [0] b (taken noOpCmd first b) = some .malformed ∧ 15 ≤ (b.sess 0).malformed.length)
      && arrives 0x0102 first [] c && bearsNext first c && !inProbation 0x0102 && !late first c
      && arrives 0x0001 first [] d && bearsNext first d && decide (generalRefusal noOpCmd first [] d (taken noOpCmd first d) = none)) = true := by
  decide +kernel

/-- A module in minimal mode, with a command waiting. -/
def minimal (i : Instr) : State := (asked on i).modPower (fun p => { p with minimal := true, ready := false })

theorem test_minimal_mode :
    (let a := minimal (.noOp first [])
     let b := minimal (.timeRead free [])
     let c := minimal (.timeRead { free with deadline := 4095 } [])
     arrives 0x0001 first [] a && !minimalCode 0x0001 && arrives 0x0102 free [] b && minimalCode 0x0102 && outside free && !late free b
      && isNext timeReadCmd free [] b && timeReadCmd.parse [] && timeReadCmd.perm (takenFrom b) free []
      && arrives 0x0102 { free with deadline := 4095 } [] c && late { free with deadline := 4095 } c) = true := by
  decide +kernel

theorem test_expired :
    (let h := { first with deadline := 4095 }
     let f := { free with deadline := 4095 }
     let s := asked on (.noOp h [])
     let t := asked on (.functionStatus f [])
     arrives 0x0001 h [] s && late h s && bearsNext h s && arrives 0x0007 f [] t && late f t && outsideSessions functionStatusCmd f t
      && arrives 0x0001 { first with deadline := 4000 } [] (asked on (.noOp { first with deadline := 4000 } []))) = true := by
  decide +kernel

theorem test_command_waits : (nextPacket on).isNone = true := by decide +kernel

/-! ### The other statements' hypotheses -/

theorem test_clock_invariant : ClockInv on.clock := by unfold ClockInv; decide

theorem test_count_rises :
    (match step { on with pending := [.localMilepostEdge] } with
     | .next t => decide (t.clock.count = 4097 ∧ t.clock.everLocked = true) | _ => false) = true := by decide +kernel

theorem test_words_fit :
    (tvxFits { (default : TvxArgs) with n := 1 } && tvxFits { (default : TvxArgs) with mb := 7, ml := 7, rm := 3, immUse := 3, n := 8192 }
      && streamFits default) = true := by decide +kernel

theorem test_ordinary_queue : ordinaryQueue { on with pending := [.localMilepostEdge, .noOp first [], .jtagBypass] } = true := by decide +kernel

theorem test_debug_accepted :
    (Instr.wf (.jtagDebug 9) && Instr.wf .slewDone && debugAccepted { on with secure := { on.secure with life := .return_, debug := true } }
      && on.power.alwaysOn && debugAccepted { on with secure := { on.secure with life := .manufacture } }) = true := by decide +kernel

theorem test_scan_not_accepted : (scans .jtagExtest && on.power.alwaysOn && !scanAccepted on) = true := by decide +kernel

/-- A record of event 7 at no place, and a log that holds one, at a milepost. -/
def logged (m count : Nat) : State :=
  { on with keeper := { on.keeper with log := [{ (default : LogRec) with code := 8 }, { (default : LogRec) with code := 7, milepost := m, count := count }] } }

theorem test_log_merges :
    [(3096, 1, 2), (4096, 4294967295, 4294967295), (3095, 1, 1)].all (fun p =>
      ((logEvent (logged p.1 p.2.1) 7 0 {} []).keeper.log.getLast?.map (·.count)) == some p.2.2) = true := by decide +kernel

/-- A message header on port 0, with a hop limit. -/
def hopped (n : Nat) : MsgHdr := { (default : MsgHdr) with hop := n, ok := true }

theorem test_messages_discarded :
    (let s := linked9
     let full := s.modFabric (fun f => { f with malformed := [(9, 15)] })
     let seen := s.modFabric (fun f => { f with seen := [{ (default : SeenMsg) with at_ := 4000, type := 0x0021 }] })
     namesWing (.mirrorAck (hopped 0) 0) && inService (s.port 0) && !mutedPort s 0 && inService (full.port 0) && !mutedPort full 0
      && decide (tget full.fabric.malformed 9 + 1 = 16 ∧ tget s.fabric.malformed 9 + 1 ≠ 16 ∧ (s.port 0).peer = some 9
          ∧ (hopped 0).hop = 0 ∧ 16 < (hopped 17).hop)
      && seenBefore seen 0x0021 (hopped 16) && inService (seen.port 0) && !mutedPort seen 0) = true := by decide +kernel

theorem test_porter_and_mailbox_refuse :
    (let up := on.modLink (fun l => { l with up := true })
     mainOn on && decide (porterOf (.porterWingFence 0x51A7 16) = some (3, 0x51A7, false) ∧ porterOf (.porterSecureWipe 1 0) = some (2, 1, true))
      && ({ on with porter := { on.porter with running := some 1 } } : State).porter.running.isSome
      && tooLong (.passportRequest 262137 []) up && !tooLong (.passportRequest 262136 []) up
      && decide (attestRefusal (.passportRequest 262136 []) up = some 1 ∧ attestRefusal (.debugUnlock (List.replicate 3389 0)) up = some 3)) = true := by
  decide +kernel

/-- One row of every family, none of which may start the module again, answers a next state. -/
theorem test_frames_speak :
    (let l : List Instr :=
        [ .nop 0 default, .blockSwap 0, .slewDone, .rollCall, .switchEdge 0, .updateCommit 0 0, .replacementCommit 0, .shardFetch 0, .arrayParityError 0
        , .trainingRetry 0, .fabricParamsApply, .collectiveCommit 0, .cmdDoorbell 0 0 [], .leaseExpiry 0 0, .noOp first [], .wingStatus first []
        , .watchRead first [], .objectStatus first [], .adapterStatus first [], .cellarStatus first [], .ringStatus first [], .keyRelease first []
        , .tallyRead first [], .linkUp 16 0 true true, .snoop 0, .meshBreak, .doeAbort, .counterSnapshot, .vinHigh, .wakeAlarm, .jtagBypass ]
     l.map familyOf == [.tvx, .array, .clock, .entry, .boundary, .pass, .move, .shard, .error, .link, .message, .exchange, .queue, .timer
      , .sessionCmd, .wingCmd, .passCmd, .objectCmd, .adapterCmd, .cellarCmd, .fabricCmd, .securityCmd, .serviceCmd, .function, .memory, .tamper
      , .mailbox, .keeper, .input, .power, .pin]
      && l.all (fun i => !restarts i && (match exec i on with | .next _ => true | _ => false))) = true := by decide +kernel

/-! ### Ill-formed commands, one for each check of WellFormed -/

theorem test_ill_formed :
    [ Instr.fenceEntry 16, .blockSwap 136, .updateSlice 4, .pointArrival 16384 [], .replacementCommit 65536, .objectFillDone 262144
    , .pcRetireDone 512, .loftEvacuateDone 16, .storeCorrectedError true 4, .storeCorrectedError false 136, .secureStoreKeyError 4107
    , .holderTimeout 8192, .trainingRetry 36, .replyHeadWrite 256 0, .leaseExpiry 0 16, .decoderUncommit 2, .ideIntegrityFailure 4
    , .thermalTrip 24 0, .domainPowerGood 14, .mirrorAck { (default : MsgHdr) with port := 36 } 0
    , .nop 0 { (default : TvxArgs) with n := 0 }, .nop 0 { (default : TvxArgs) with n := 8193 }, .nop 0 { (default : TvxArgs) with n := 1, mb := 8 }
    , .stream 0 { (default : StreamArgs) with vstride := 2 ^ 21 }
    , .noOp { first with fn := 256 } [], .noOp { first with seq := 2 ^ 64 } [], .noOp { first with crc := 2 ^ 32 } []
    , .noOp first (List.replicate 3793 0)
    ].all (fun i => !i.wf) = true := by decide +kernel

theorem test_missing_part_faults :
    (match exec (.blockSwap 136) on with | .fault f => decide (f = .noSuchPart) | _ => false) = true := by decide +kernel

/-! ### The manual's worked examples -/

/-- One element through the two blocks and the outlier term of the worked example of chapter 4. -/
def workedAcc (f : AccFmt) : Nat :=
  (promote f (promote f (promote f 0 (.num 2445 (-7))).bits (.num 4000 16)).bits (.num 5 0)).bits

/-- Worked example of chapter 4: the reference order in WA40 and FP32, and the drain. -/
theorem test_reference_order :
    (decide (workedAcc .wa40 = 0x4D7A000182 ∧ workedAcc .fp32 = 0x4D7A0001)
      && decide ((drainValue .wa40 false (workedAcc .wa40) 0x35800000).bits = 0x437A0002)
      && decide ((drainValue .fp32 false (workedAcc .fp32) 0x35800000).bits = 0x437A0001)) = true := by decide +kernel

/-- Worked example of chapter 5: the FMA of plain descent. -/
theorem test_fma_descent : (fpFma 0x3C000000 0xBC23D70A 0x3F800000).bits = 0x3F7FFAE1 := by decide +kernel

/-- Worked example of chapter 0: logical tile 77 lies in T081 at reset. -/
theorem test_reset_tile_map : physTile State.reset 77 = some 81 := by decide +kernel

/-! ### The adapter lane (R149 to R155) -/

/-- A point of width 2 and rank 8 with exponent bias 1: A[0, 0] is stored as 1.0 and B[0, 1] as 2.0. -/
def lanePoint : LanePoint :=
  { d := 2, r := 8, phi := 0, biases := false, b := 1, k := 0, block := [(0, 0x80), (1, 0x3F), (49, 0x40)] }

/-- R149 and R131 by hand: the weights are 0.5 and 1.0, so 3.0 adds 1.5 to the second element. -/
theorem test_lane_forward : (laneForward lanePoint false [0x40400000, 0x3F800000]).out = [0x40400000, 0x40200000] := by decide +kernel

/-- R151 by hand: a gradient of 4.0 at the second element comes back as 4.0 × 1.0 × 0.5 at the first. -/
theorem test_lane_backward :
    laneBackward lanePoint false (laneForward lanePoint false [0x40400000, 0x3F800000]).z [0, 0x40800000] = [0x40000000, 0x40800000] := by
  decide +kernel

/-- Table 7.5: SILU at 0 gives 0, and half of the gradient. -/
theorem test_lane_silu : phiOf 2 0 = 0 ∧ phiGrad 2 0 0x3F800000 = 0x3F000000 := by decide +kernel

/-- R155: two adapters' three rows on two tiles. -/
theorem test_lane_deal : dealRows [(1, 0), (0, 1), (0, 2)] 2 = [[(0, 1), (0, 2)], [(1, 0)]] := by decide +kernel

end Sys2Proof.Tests
end

/-! The statements of chapter 0: every row whose parts exist answers a next state, and a queue of such rows runs to its end (R6,
R338, R417). -/

namespace Sys2Proof.Machine

open Sys2Proof Sys2Proof.Safety

/-! ### Where a row that names a part stops (Table 0.5) -/

/-- A row on a part that the module has answers that part's effect. -/
theorem onPart_of_partIn {number count : Nat} (h : partIn number count = true) (s : State) (f : State → State) :
    onPart number count s f = .next (f s) :=
  if_pos (of_decide_eq_true h)

theorem onPart_answers {number count : Nat} {s : State} {f : State → State} (h : partIn number count = true) :
    ∃ t, onPart number count s f = .next t :=
  ⟨f s, onPart_of_partIn h s f⟩

/-- The same where the row has further fields to fit. -/
theorem onPart_answers_of_fits {number count : Nat} {fits : Bool} {s : State} {f : State → State}
    (h : (partIn number count && fits) = true) : ∃ t, onPart number count s f = .next t :=
  onPart_answers (Bool.and_elim_left h)

/-- An instruction of a vector engine names the engine's tile (Tables 5.1, 5.2). -/
theorem vecOp_answers {op tile : Nat} {a : TvxArgs} {s : State} (h : (partIn tile 136 && tvxFits a) = true) :
    ∃ t, vecOp op tile a s = .next t := by
  unfold vecOp
  exact onPart_answers_of_fits h

theorem execStream_answers {tile : Nat} {a : StreamArgs} {s : State} (h : (partIn tile 136 && streamFits a) = true) :
    ∃ t, execStream tile a s = .next t := by
  unfold execStream
  exact onPart_answers_of_fits h

/-- A timer names two parts: its function and the host session there. -/
theorem onSession_answers {fn session : Nat} {s : State} {f : Nat → Session → State}
    (h : (partIn fn 256 && partIn session 16) = true) : ∃ t, onSession fn session s f = .next t := by
  unfold onSession
  rw [if_pos (of_decide_eq_true (Bool.and_elim_right h))]
  exact onPart_answers_of_fits h

/-- A store error names one of the 4 quarters or of the 136 tiles. -/
theorem onStore_answers {quarterStore : Bool} {unit : Nat} {s : State} {f g : State → State}
    (h : partIn unit (if quarterStore then 4 else 136) = true) :
    ∃ t, (if quarterStore then onPart unit 4 s f else onPart unit 136 s g) = .next t := by
  cases quarterStore with
  | false => exact onPart_answers h
  | true => exact onPart_answers h

/-! ### The debug instructions of the test access port (R417) -/

theorem exec_jtagDebug_refused {s : State} (code : Nat) (hon : s.power.alwaysOn = true) (hacc : debugAccepted s = true) :
    exec (.jtagDebug code) s = .refused .debugUnit :=
  if_pos (Bool.and_intro hon hacc)

theorem exec_jtagDebug_answers {s : State} (code : Nat) (h : ¬(s.power.alwaysOn = true ∧ debugAccepted s = true)) :
    ∃ t, exec (.jtagDebug code) s = .next t :=
  ⟨_, if_neg (by rwa [Bool.and_eq_true])⟩

theorem ordinary_iff (i : Instr) : ordinary i = true ↔ i.wf = true ∧ ∀ code, i ≠ .jtagDebug code := by
  unfold ordinary
  split <;> simp_all

/-! ### Every ordinary row answers -/

/-- Rows that name a part stop only where it is missing; every row listed in no case names none and always answers. -/
theorem exec_answers {i : Instr} (s : State) (hwf : i.wf = true) (hdebug : ∀ code, i ≠ .jtagDebug code) :
    ∃ t, exec i s = .next t := by
  cases i with
  | fenceEntry | stageEnd | scrub | stageStart | ticketExpiry | arrayRow | shadowLoad | blockSwap | arrayParityError
  | accOpen | promotion | drain | accEccError | updateSlice | passAdmit | forwardPassEnd | backwardPassEnd | stepCommit
  | passEnd | pointArrival | replacementCommit | checkoutMoveCommit | adapterReadDone | objectMoveCommit
  | objectFillDone | objectTransferDone | shardFetch | shardArrival | hbmCorrectedError | hbmUncorrectableError
  | loftCorrectedError | loftUncorrectableError | loftChannelLoss | secureStoreKeyError | shardProgramDone
  | shardReadbackDone | sweepReadDone | shardEraseDone | holderTimeout | switchEdge | parkThreshold | swapOutStart
  | swapInStart | swapCommit | wingRemoveDone | trainingPhaseDone | trainingPhaseOverrun | trainingRetry | hello
  | laneLockLoss | uncorrectableCodeword | dataFrame | retryFrame | idleFrame | ackTimeout | linkRetrainDone
  | relayTimeout | cmdDoorbell | replyHeadWrite | noticeHeadWrite | cmdWindowWrite | replyWindowRead | noticeWindowRead
  | packetArrivalTimeout | configRequest | flr | busMasterEnableClear | functionResetDone | hostCompletion
  | atsInvalidate | fnCtrlApply | decoderCommit | decoderUncommit | ideIntegrityFailure | lowHalfRead | registerWrite
  | scrubDone | spareSwitch | pcRetireDone | loftEvacuateDone | loftReturnDone | thermalWarningCross | thermalTrip
  | sensorFault | domainPowerGood | powerGoodTimeout | domainSequenceDone | busMasterEnableSet =>
    exact onPart_answers hwf
  | nop | endProgram | loop | wait | post | tag | sld | add | sub | mul | fma | min | max | abs | neg | sel
  | cmp | exp2 | log2 | rcp | sqrt | rsqrt | tanh | cvt | quant | iadd | iand | ior | ixor | ishl | ishr | mset | mand
  | mor | mxor | mnot | gseed | rand | drop | rtz | rtacc | rtred | rtout =>
    exact vecOp_answers hwf
  | stream => exact execStream_answers hwf
  | ringBlock | ringDone => exact onPart_answers_of_fits hwf
  | gapNoticeTimeout | gapSkipTimeout | leaseExpiry | lapseHoldExpiry | probationEnd =>
    exact onSession_answers hwf
  | storeCorrectedError | storeEccError => exact onStore_answers hwf
  | jtagDebug code => exact absurd rfl (hdebug code)
  | _ => exact ⟨_, rfl⟩

/-! ### Runs of an ordinary queue -/

/-- An ordinary queue is an invariant: a step answers, and takes the front of the queue and adds nothing to it. -/
theorem step_keeps_ordinaryQueue {s : State} (h : ordinaryQueue s = true) :
    ∃ t, step s = .next t ∧ ordinaryQueue t = true := by
  match hp : s.pending with
  | [] => exact ⟨s, by unfold step; rw [hp], h⟩
  | c :: rest =>
    obtain ⟨hc, hrest⟩ : ordinary c = true ∧ rest.all ordinary = true := by
      simpa [ordinaryQueue, hp] using h
    obtain ⟨hwf, hdebug⟩ := (ordinary_iff c).mp hc
    obtain ⟨t, ht⟩ := exec_answers { s with pending := rest } hwf hdebug
    have hpending : t.pending = rest := exec_pending c _ t ht
    exact ⟨t, by unfold step; rw [hp]; exact ht, by rw [ordinaryQueue, hpending]; exact hrest⟩

theorem runs_of_ordinaryQueue (n : Nat) {s : State} (h : ordinaryQueue s = true) : runs n s := by
  induction n generalizing s with
  | zero => trivial
  | succ n ih =>
    obtain ⟨t, ht, hq⟩ := step_keeps_ordinaryQueue h
    exact ⟨t, ht, ih hq⟩

/-- Settles O41: an ordinary queue is kept by every step, so each of the steps answers. -/
theorem runsGoOn : Obligations.RunsGoOn := fun n _ h => runs_of_ordinaryQueue n h

/-- Settles O42: a debug instruction is accepted, and refused, or answers like every other row. -/
theorem onlyDebugStops : Obligations.OnlyDebugStops := by
  intro i s hwf
  by_cases hd : ∃ code, i = .jtagDebug code
  · obtain ⟨code, rfl⟩ := hd
    by_cases h : s.power.alwaysOn = true ∧ debugAccepted s = true
    · obtain ⟨hon, hacc⟩ := h
      exact .inr ⟨code, rfl, hon, hacc, exec_jtagDebug_refused code hon hacc⟩
    · exact .inl (exec_jtagDebug_answers code h)
  · exact .inl (exec_answers s hwf (not_exists.mp hd))

end Sys2Proof.Machine

/-! What the operations of chapters 2 to 5, 10 and 15 leave alone: a frame for each, in the order of the model's files. -/

namespace Sys2Proof.Machine

open Sys2Proof Sys2Proof.Safety

/-! ### The parts of a state outside a list

What an operation leaves alone is said as an equation: outside the parts that it may change, the state after it is the state
before it. The equations rewrite, so the frame of an operation follows from those of its callees. -/

/-- A part, or a blank where it is listed. -/
def unlisted {α : Type} [Inhabited α] (M : List Component) (c : Component) (a : α) : α := if c ∈ M then default else a

theorem unlisted_of_mem {α : Type} [Inhabited α] {M : List Component} {c : Component} (h : c ∈ M) (a b : α) :
    unlisted M c a = unlisted M c b := by
  unfold unlisted; rw [if_pos h, if_pos h]

theorem of_unlisted {α : Type} [Inhabited α] {M : List Component} {c : Component} {a b : α} (h : c ∉ M)
    (hab : unlisted M c a = unlisted M c b) : a = b := by
  unfold unlisted at hab; rwa [if_neg h, if_neg h] at hab

/-- The ledger with its listed parts blanked. -/
def restLed (M : List Component) (l : Led) : Led where
  version := unlisted M .version l.version
  sessions := unlisted M .sessions l.sessions
  longs := unlisted M .longs l.longs
  wings := unlisted M .wings l.wings
  objects := unlisted M .objects l.objects
  rooms := unlisted M .rooms l.rooms
  handles := unlisted M .handles l.handles
  tileMap := unlisted M .tileMap l.tileMap
  pcs := unlisted M .pcs l.pcs
  lofts := unlisted M .lofts l.lofts
  rings := unlisted M .rings l.rings
  groups := unlisted M .groups l.groups
  binds := unlisted M .binds l.binds
  faultMap := unlisted M .faultMap l.faultMap
  maps := unlisted M .maps l.maps
  tilesOff := unlisted M .tilesOff l.tilesOff
  domainsOff := unlisted M .domainsOff l.domainsOff
  fab := unlisted M .fab l.fab
  tally := unlisted M .tally l.tally
  sweep := unlisted M .sweep l.sweep

/-- The state with its listed parts blanked. -/
def rest (M : List Component) (s : State) : State where
  clock := unlisted M .clock s.clock
  tt := unlisted M .tt s.tt
  led := restLed M s.led
  durable := unlisted M .durable s.durable
  writing := unlisted M .writing s.writing
  fns := unlisted M .fns s.fns
  wingPages := unlisted M .wingPages s.wingPages
  stamped := unlisted M .stamped s.stamped
  tickets := unlisted M .tickets s.tickets
  tiles := unlisted M .tiles s.tiles
  quarters := unlisted M .quarters s.quarters
  qmem := unlisted M .qmem s.qmem
  updEngines := unlisted M .updEngines s.updEngines
  jobs := unlisted M .jobs s.jobs
  runs := unlisted M .runs s.runs
  cellar := unlisted M .cellar s.cellar
  ports := unlisted M .ports s.ports
  fabric := unlisted M .fabric s.fabric
  secure := unlisted M .secure s.secure
  keeper := unlisted M .keeper s.keeper
  power := unlisted M .power s.power
  porter := unlisted M .porter s.porter
  snapshot := unlisted M .snapshot s.snapshot
  mgmt := unlisted M .mgmt s.mgmt
  link := unlisted M .link s.link
  free := unlisted M .free s.free
  pending := s.pending

/-- States that agree outside a list keep every part that it does not name. -/
theorem same_of_rest {M : List Component} {s t : State} (h : rest M t = rest M s) {c : Component} (hc : c ∉ M) : c.same s t := by
  cases c with
  | clock => exact of_unlisted hc (congrArg State.clock h)
  | tt => exact of_unlisted hc (congrArg State.tt h)
  | durable => exact of_unlisted hc (congrArg State.durable h)
  | writing => exact of_unlisted hc (congrArg State.writing h)
  | fns => exact of_unlisted hc (congrArg State.fns h)
  | wingPages => exact of_unlisted hc (congrArg State.wingPages h)
  | stamped => exact of_unlisted hc (congrArg State.stamped h)
  | tickets => exact of_unlisted hc (congrArg State.tickets h)
  | tiles => exact of_unlisted hc (congrArg State.tiles h)
  | quarters => exact of_unlisted hc (congrArg State.quarters h)
  | qmem => exact of_unlisted hc (congrArg State.qmem h)
  | updEngines => exact of_unlisted hc (congrArg State.updEngines h)
  | jobs => exact of_unlisted hc (congrArg State.jobs h)
  | runs => exact of_unlisted hc (congrArg State.runs h)
  | cellar => exact of_unlisted hc (congrArg State.cellar h)
  | ports => exact of_unlisted hc (congrArg State.ports h)
  | fabric => exact of_unlisted hc (congrArg State.fabric h)
  | secure => exact of_unlisted hc (congrArg State.secure h)
  | keeper => exact of_unlisted hc (congrArg State.keeper h)
  | power => exact of_unlisted hc (congrArg State.power h)
  | porter => exact of_unlisted hc (congrArg State.porter h)
  | snapshot => exact of_unlisted hc (congrArg State.snapshot h)
  | mgmt => exact of_unlisted hc (congrArg State.mgmt h)
  | link => exact of_unlisted hc (congrArg State.link h)
  | free => exact of_unlisted hc (congrArg State.free h)
  | version => exact of_unlisted hc (congrArg (fun u => u.led.version) h)
  | sessions => exact of_unlisted hc (congrArg (fun u => u.led.sessions) h)
  | longs => exact of_unlisted hc (congrArg (fun u => u.led.longs) h)
  | wings => exact of_unlisted hc (congrArg (fun u => u.led.wings) h)
  | objects => exact of_unlisted hc (congrArg (fun u => u.led.objects) h)
  | rooms => exact of_unlisted hc (congrArg (fun u => u.led.rooms) h)
  | handles => exact of_unlisted hc (congrArg (fun u => u.led.handles) h)
  | tileMap => exact of_unlisted hc (congrArg (fun u => u.led.tileMap) h)
  | pcs => exact of_unlisted hc (congrArg (fun u => u.led.pcs) h)
  | lofts => exact of_unlisted hc (congrArg (fun u => u.led.lofts) h)
  | rings => exact of_unlisted hc (congrArg (fun u => u.led.rings) h)
  | groups => exact of_unlisted hc (congrArg (fun u => u.led.groups) h)
  | binds => exact of_unlisted hc (congrArg (fun u => u.led.binds) h)
  | faultMap => exact of_unlisted hc (congrArg (fun u => u.led.faultMap) h)
  | maps => exact of_unlisted hc (congrArg (fun u => u.led.maps) h)
  | tilesOff => exact of_unlisted hc (congrArg (fun u => u.led.tilesOff) h)
  | domainsOff => exact of_unlisted hc (congrArg (fun u => u.led.domainsOff) h)
  | fab => exact of_unlisted hc (congrArg (fun u => u.led.fab) h)
  | tally => exact of_unlisted hc (congrArg (fun u => u.led.tally) h)
  | sweep => exact of_unlisted hc (congrArg (fun u => u.led.sweep) h)

@[simp] theorem rest_foldl {α : Type} {M : List Component} (g : State → α → State) (l : List α) (s : State)
    (h : ∀ s x, rest M (g s x) = rest M s) : rest M (l.foldl g s) = rest M s := by
  induction l generalizing s with
  | nil => rfl
  | cons a l ih => rw [List.foldl_cons, ih, h]

@[simp] theorem rest_ite {M : List Component} (c : Prop) [Decidable c] (a b : State) :
    rest M (if c then a else b) = if c then rest M a else rest M b := by split <;> rfl

theorem rest_onPart {M : List Component} {number count : Nat} {s t : State} {f : State → State}
    (h : onPart number count s f = .next t) (hf : ∀ u, rest M (f u) = rest M u) : rest M t = rest M s := by
  rw [(onPart_next h).2, hf]

theorem rest_clock {M : List Component} (h : .clock ∈ M) (s : State) (x) : rest M { s with clock := x } = rest M s := by
  unfold rest; rw [unlisted_of_mem h x s.clock]
theorem rest_tt {M : List Component} (h : .tt ∈ M) (s : State) (x) : rest M { s with tt := x } = rest M s := by
  unfold rest; rw [unlisted_of_mem h x s.tt]
theorem rest_durable {M : List Component} (h : .durable ∈ M) (s : State) (x) : rest M { s with durable := x } = rest M s := by
  unfold rest; rw [unlisted_of_mem h x s.durable]
theorem rest_writing {M : List Component} (h : .writing ∈ M) (s : State) (x) : rest M { s with writing := x } = rest M s := by
  unfold rest; rw [unlisted_of_mem h x s.writing]
theorem rest_fns {M : List Component} (h : .fns ∈ M) (s : State) (x) : rest M { s with fns := x } = rest M s := by
  unfold rest; rw [unlisted_of_mem h x s.fns]
theorem rest_wingPages {M : List Component} (h : .wingPages ∈ M) (s : State) (x) : rest M { s with wingPages := x } = rest M s := by
  unfold rest; rw [unlisted_of_mem h x s.wingPages]
theorem rest_stamped {M : List Component} (h : .stamped ∈ M) (s : State) (x) : rest M { s with stamped := x } = rest M s := by
  unfold rest; rw [unlisted_of_mem h x s.stamped]
theorem rest_tickets {M : List Component} (h : .tickets ∈ M) (s : State) (x) : rest M { s with tickets := x } = rest M s := by
  unfold rest; rw [unlisted_of_mem h x s.tickets]
theorem rest_tiles {M : List Component} (h : .tiles ∈ M) (s : State) (x) : rest M { s with tiles := x } = rest M s := by
  unfold rest; rw [unlisted_of_mem h x s.tiles]
theorem rest_quarters {M : List Component} (h : .quarters ∈ M) (s : State) (x) : rest M { s with quarters := x } = rest M s := by
  unfold rest; rw [unlisted_of_mem h x s.quarters]
theorem rest_qmem {M : List Component} (h : .qmem ∈ M) (s : State) (x) : rest M { s with qmem := x } = rest M s := by
  unfold rest; rw [unlisted_of_mem h x s.qmem]
theorem rest_updEngines {M : List Component} (h : .updEngines ∈ M) (s : State) (x) : rest M { s with updEngines := x } = rest M s := by
  unfold rest; rw [unlisted_of_mem h x s.updEngines]
theorem rest_jobs {M : List Component} (h : .jobs ∈ M) (s : State) (x) : rest M { s with jobs := x } = rest M s := by
  unfold rest; rw [unlisted_of_mem h x s.jobs]
theorem rest_runs {M : List Component} (h : .runs ∈ M) (s : State) (x) : rest M { s with runs := x } = rest M s := by
  unfold rest; rw [unlisted_of_mem h x s.runs]
theorem rest_cellar {M : List Component} (h : .cellar ∈ M) (s : State) (x) : rest M { s with cellar := x } = rest M s := by
  unfold rest; rw [unlisted_of_mem h x s.cellar]
theorem rest_ports {M : List Component} (h : .ports ∈ M) (s : State) (x) : rest M { s with ports := x } = rest M s := by
  unfold rest; rw [unlisted_of_mem h x s.ports]
theorem rest_fabric {M : List Component} (h : .fabric ∈ M) (s : State) (x) : rest M { s with fabric := x } = rest M s := by
  unfold rest; rw [unlisted_of_mem h x s.fabric]
theorem rest_secure {M : List Component} (h : .secure ∈ M) (s : State) (x) : rest M { s with secure := x } = rest M s := by
  unfold rest; rw [unlisted_of_mem h x s.secure]
theorem rest_keeper {M : List Component} (h : .keeper ∈ M) (s : State) (x) : rest M { s with keeper := x } = rest M s := by
  unfold rest; rw [unlisted_of_mem h x s.keeper]
theorem rest_power {M : List Component} (h : .power ∈ M) (s : State) (x) : rest M { s with power := x } = rest M s := by
  unfold rest; rw [unlisted_of_mem h x s.power]
theorem rest_porter {M : List Component} (h : .porter ∈ M) (s : State) (x) : rest M { s with porter := x } = rest M s := by
  unfold rest; rw [unlisted_of_mem h x s.porter]
theorem rest_snapshot {M : List Component} (h : .snapshot ∈ M) (s : State) (x) : rest M { s with snapshot := x } = rest M s := by
  unfold rest; rw [unlisted_of_mem h x s.snapshot]
theorem rest_mgmt {M : List Component} (h : .mgmt ∈ M) (s : State) (x) : rest M { s with mgmt := x } = rest M s := by
  unfold rest; rw [unlisted_of_mem h x s.mgmt]
theorem rest_link {M : List Component} (h : .link ∈ M) (s : State) (x) : rest M { s with link := x } = rest M s := by
  unfold rest; rw [unlisted_of_mem h x s.link]
theorem rest_free {M : List Component} (h : .free ∈ M) (s : State) (x) : rest M { s with free := x } = rest M s := by
  unfold rest; rw [unlisted_of_mem h x s.free]
theorem rest_version {M : List Component} (h : .version ∈ M) (s : State) (x) :
    rest M { s with led := { s.led with version := x } } = rest M s := by
  unfold rest restLed; rw [unlisted_of_mem h x s.led.version]
theorem rest_sessions {M : List Component} (h : .sessions ∈ M) (s : State) (x) :
    rest M { s with led := { s.led with sessions := x } } = rest M s := by
  unfold rest restLed; rw [unlisted_of_mem h x s.led.sessions]
theorem rest_longs {M : List Component} (h : .longs ∈ M) (s : State) (x) :
    rest M { s with led := { s.led with longs := x } } = rest M s := by
  unfold rest restLed; rw [unlisted_of_mem h x s.led.longs]
theorem rest_wings {M : List Component} (h : .wings ∈ M) (s : State) (x) :
    rest M { s with led := { s.led with wings := x } } = rest M s := by
  unfold rest restLed; rw [unlisted_of_mem h x s.led.wings]
theorem rest_objects {M : List Component} (h : .objects ∈ M) (s : State) (x) :
    rest M { s with led := { s.led with objects := x } } = rest M s := by
  unfold rest restLed; rw [unlisted_of_mem h x s.led.objects]
theorem rest_rooms {M : List Component} (h : .rooms ∈ M) (s : State) (x) :
    rest M { s with led := { s.led with rooms := x } } = rest M s := by
  unfold rest restLed; rw [unlisted_of_mem h x s.led.rooms]
theorem rest_handles {M : List Component} (h : .handles ∈ M) (s : State) (x) :
    rest M { s with led := { s.led with handles := x } } = rest M s := by
  unfold rest restLed; rw [unlisted_of_mem h x s.led.handles]
theorem rest_tileMap {M : List Component} (h : .tileMap ∈ M) (s : State) (x) :
    rest M { s with led := { s.led with tileMap := x } } = rest M s := by
  unfold rest restLed; rw [unlisted_of_mem h x s.led.tileMap]
theorem rest_pcs {M : List Component} (h : .pcs ∈ M) (s : State) (x) :
    rest M { s with led := { s.led with pcs := x } } = rest M s := by
  unfold rest restLed; rw [unlisted_of_mem h x s.led.pcs]
theorem rest_lofts {M : List Component} (h : .lofts ∈ M) (s : State) (x) :
    rest M { s with led := { s.led with lofts := x } } = rest M s := by
  unfold rest restLed; rw [unlisted_of_mem h x s.led.lofts]
theorem rest_rings {M : List Component} (h : .rings ∈ M) (s : State) (x) :
    rest M { s with led := { s.led with rings := x } } = rest M s := by
  unfold rest restLed; rw [unlisted_of_mem h x s.led.rings]
theorem rest_groups {M : List Component} (h : .groups ∈ M) (s : State) (x) :
    rest M { s with led := { s.led with groups := x } } = rest M s := by
  unfold rest restLed; rw [unlisted_of_mem h x s.led.groups]
theorem rest_binds {M : List Component} (h : .binds ∈ M) (s : State) (x) :
    rest M { s with led := { s.led with binds := x } } = rest M s := by
  unfold rest restLed; rw [unlisted_of_mem h x s.led.binds]
theorem rest_faultMap {M : List Component} (h : .faultMap ∈ M) (s : State) (x) :
    rest M { s with led := { s.led with faultMap := x } } = rest M s := by
  unfold rest restLed; rw [unlisted_of_mem h x s.led.faultMap]
theorem rest_maps {M : List Component} (h : .maps ∈ M) (s : State) (x) :
    rest M { s with led := { s.led with maps := x } } = rest M s := by
  unfold rest restLed; rw [unlisted_of_mem h x s.led.maps]
theorem rest_tilesOff {M : List Component} (h : .tilesOff ∈ M) (s : State) (x) :
    rest M { s with led := { s.led with tilesOff := x } } = rest M s := by
  unfold rest restLed; rw [unlisted_of_mem h x s.led.tilesOff]
theorem rest_domainsOff {M : List Component} (h : .domainsOff ∈ M) (s : State) (x) :
    rest M { s with led := { s.led with domainsOff := x } } = rest M s := by
  unfold rest restLed; rw [unlisted_of_mem h x s.led.domainsOff]
theorem rest_fab {M : List Component} (h : .fab ∈ M) (s : State) (x) :
    rest M { s with led := { s.led with fab := x } } = rest M s := by
  unfold rest restLed; rw [unlisted_of_mem h x s.led.fab]
theorem rest_tally {M : List Component} (h : .tally ∈ M) (s : State) (x) :
    rest M { s with led := { s.led with tally := x } } = rest M s := by
  unfold rest restLed; rw [unlisted_of_mem h x s.led.tally]
theorem rest_sweep {M : List Component} (h : .sweep ∈ M) (s : State) (x) :
    rest M { s with led := { s.led with sweep := x } } = rest M s := by
  unfold rest restLed; rw [unlisted_of_mem h x s.led.sweep]

@[simp] theorem modLed_tileMap_rest {M : List Component} (h : .tileMap ∈ M) (s : State) (f : Led → Tbl Serves) :
    rest M (s.modLed (fun l => { l with tileMap := f l })) = rest M s := rest_tileMap h s _
@[simp] theorem modLed_faultMap_rest {M : List Component} (h : .faultMap ∈ M) (s : State) (f : Led → Tbl Bool) :
    rest M (s.modLed (fun l => { l with faultMap := f l })) = rest M s := rest_faultMap h s _
@[simp] theorem modLed_maps_rest {M : List Component} (h : .maps ∈ M) (s : State) (f : Led → List MapReq) :
    rest M (s.modLed (fun l => { l with maps := f l })) = rest M s := rest_maps h s _
@[simp] theorem modLed_tally_rest {M : List Component} (h : .tally ∈ M) (s : State) (f : Led → Tally) :
    rest M (s.modLed (fun l => { l with tally := f l })) = rest M s := rest_tally h s _


/-! #### The shared operations (chapter 12, R319, R421, R495) -/

@[simp] theorem State.setFn_rest {M : List Component} (h : .fns ∈ M) (s : State) (i : Nat) (f : Fn) :
    rest M (State.setFn s i f) = rest M s := by
  unfold State.setFn; exact rest_fns h _ _
@[simp] theorem State.modFn_rest {M : List Component} (h : .fns ∈ M) (s : State) (i : Nat) (g : Fn → Fn) :
    rest M (State.modFn s i g) = rest M s :=
  State.setFn_rest h _ _ _
@[simp] theorem State.modSess_rest {M : List Component} (h : .sessions ∈ M) (s : State) (k : Nat) (g : Session → Session) :
    rest M (State.modSess s k g) = rest M s := by
  unfold State.modSess; exact rest_sessions h _ _
@[simp] theorem State.modWing_rest {M : List Component} (h : .wings ∈ M) (s : State) (w : Nat) (g : Wing → Wing) :
    rest M (State.modWing s w g) = rest M s := by
  unfold State.modWing; exact rest_wings h _ _
@[simp] theorem State.modCtx_rest {M : List Component} (h : .wings ∈ M) (s : State) (w c : Nat) (g : Ctx → Ctx) :
    rest M (State.modCtx s w c g) = rest M s :=
  State.modWing_rest h _ _ _
@[simp] theorem State.modObj_rest {M : List Component} (h : .objects ∈ M) (s : State) (i : Nat) (g : Obj → Obj) :
    rest M (State.modObj s i g) = rest M s := by
  unfold State.modObj; exact rest_objects h _ _
@[simp] theorem State.modRoom_rest {M : List Component} (h : .rooms ∈ M) (s : State) (i : Nat) (g : Room → Room) :
    rest M (State.modRoom s i g) = rest M s := by
  unfold State.modRoom; exact rest_rooms h _ _
@[simp] theorem State.modHandle_rest {M : List Component} (h : .handles ∈ M) (s : State) (i : Nat) (g : Handle → Handle) :
    rest M (State.modHandle s i g) = rest M s := by
  unfold State.modHandle; exact rest_handles h _ _
@[simp] theorem State.modRing_rest {M : List Component} (h : .rings ∈ M) (s : State) (i : Nat) (g : Ring → Ring) :
    rest M (State.modRing s i g) = rest M s := by
  unfold State.modRing; exact rest_rings h _ _
@[simp] theorem State.modGroup_rest {M : List Component} (h : .groups ∈ M) (s : State) (i : Nat) (g : Group → Group) :
    rest M (State.modGroup s i g) = rest M s := by
  unfold State.modGroup; exact rest_groups h _ _
@[simp] theorem State.modLoft_rest {M : List Component} (h : .lofts ∈ M) (s : State) (i : Nat) (g : Loft → Loft) :
    rest M (State.modLoft s i g) = rest M s := by
  unfold State.modLoft; exact rest_lofts h _ _
@[simp] theorem State.modTile_rest {M : List Component} (h : .tiles ∈ M) (s : State) (i : Nat) (g : Tile → Tile) :
    rest M (State.modTile s i g) = rest M s := by
  unfold State.modTile; exact rest_tiles h _ _
@[simp] theorem State.modPort_rest {M : List Component} (h : .ports ∈ M) (s : State) (i : Nat) (g : Port → Port) :
    rest M (State.modPort s i g) = rest M s := by
  unfold State.modPort; exact rest_ports h _ _
@[simp] theorem State.modClock_rest {M : List Component} (h : .clock ∈ M) (s : State) (g : Clock → Clock) :
    rest M (State.modClock s g) = rest M s := by
  unfold State.modClock; exact rest_clock h _ _
@[simp] theorem State.modFabric_rest {M : List Component} (h : .fabric ∈ M) (s : State) (g : Fabric → Fabric) :
    rest M (State.modFabric s g) = rest M s := by
  unfold State.modFabric; exact rest_fabric h _ _
@[simp] theorem State.modSecure_rest {M : List Component} (h : .secure ∈ M) (s : State) (g : Secure → Secure) :
    rest M (State.modSecure s g) = rest M s := by
  unfold State.modSecure; exact rest_secure h _ _
@[simp] theorem State.modKeeper_rest {M : List Component} (h : .keeper ∈ M) (s : State) (g : Keeper → Keeper) :
    rest M (State.modKeeper s g) = rest M s := by
  unfold State.modKeeper; exact rest_keeper h _ _
@[simp] theorem State.modMgmt_rest {M : List Component} (h : .mgmt ∈ M) (s : State) (g : Mgmt → Mgmt) :
    rest M (State.modMgmt s g) = rest M s := by
  unfold State.modMgmt; exact rest_mgmt h _ _
@[simp] theorem State.modCellar_rest {M : List Component} (h : .cellar ∈ M) (s : State) (g : Cellar → Cellar) :
    rest M (State.modCellar s g) = rest M s := by
  unfold State.modCellar; exact rest_cellar h _ _
@[simp] theorem State.bump_rest {M : List Component} (h : [.keeper, .version] ⊆ M) (s : State) :
    rest M (State.bump s) = rest M s := by
  simp only [List.cons_subset, List.nil_subset, and_true] at h
  unfold State.bump; split
  · exact rest_version h.2 s _
  · exact rest_keeper h.1 s _
@[simp] theorem State.draw_rest {M : List Component} (h : .free ∈ M) (s : State) :
    rest M (State.draw s) = rest M s := by
  unfold State.draw; exact rest_free h _ _
@[simp] theorem logEvent_rest {M : List Component} (h : .keeper ∈ M) (s : State) (code severity : Nat) (at_ : At) (detail : List Nat) :
    rest M (logEvent s code severity at_ detail) = rest M s := by
  rw [logEvent_frame]; exact rest_keeper h s _
@[simp] theorem logStatus_rest {M : List Component} (h : .keeper ∈ M) (s : State) (st : Status) (at_ : At) :
    rest M (logStatus s st at_) = rest M s := by
  simp [logStatus, h]
@[simp] theorem logOnly_rest {M : List Component} (h : .keeper ∈ M) (s : State) (c : LogCode) (at_ : At) (detail : List Nat) :
    rest M (logOnly s c at_ detail) = rest M s := by
  simp [logOnly, h]
@[simp] theorem pushReply_rest {M : List Component} (h : .fns ∈ M) (s : State) (fn : Nat) (r : Reply) :
    rest M (pushReply s fn r) = rest M s := by
  simp [pushReply, h]
@[simp] theorem sendNotice_rest {M : List Component} (h : .fns ∈ M) (s : State) (every : Bool) (type : Notice) (at_ : At) (body : List Nat) :
    rest M (sendNotice s every type at_ body) = rest M s := by
  unfold sendNotice; exact rest_fns h _ _
@[simp] theorem notify_rest {M : List Component} (h : [.fns, .keeper] ⊆ M) (s : State) (type : Notice) (at_ : At) (body : List Nat) :
    rest M (notify s type at_ body) = rest M s := by
  simp only [List.cons_subset, List.nil_subset, and_true] at h
  simp [notify, h]
@[simp] theorem finishIn_rest {M : List Component} (h : [.fns, .keeper, .sessions, .longs] ⊆ M) (s : State) (ref : CmdRef) (st : Status) (payload : Bytes) :
    rest M (finishIn s ref st payload) = rest M s := by
  simp only [List.cons_subset, List.nil_subset, and_true] at h
  unfold finishIn; dsimp only
  repeat' split
  all_goals simp [h, ↓rest_longs]
@[simp] theorem finish_rest {M : List Component} (h : [.fns, .keeper, .version, .sessions, .longs] ⊆ M) (s : State) (ref : CmdRef) (st : Status) (payload : Bytes) :
    rest M (finish s ref st payload) = rest M s := by
  simp only [List.cons_subset, List.nil_subset, and_true] at h
  simp [finish, h]
@[simp] theorem finishOpt_rest {M : List Component} (h : [.fns, .keeper, .sessions, .longs] ⊆ M) (s : State) (ref : Option CmdRef) (st : Status) (payload : Bytes) :
    rest M (finishOpt s ref st payload) = rest M s := by
  simp only [List.cons_subset, List.nil_subset, and_true] at h
  unfold finishOpt; split <;> simp [h]

/-! #### The next-context register (R248) -/

@[simp] theorem writeRegister_rest {M : List Component} (h : .wings ∈ M) (s : State) (w : Nat) :
    rest M (writeRegister s w) = rest M s := by
  simp [writeRegister, h]

/-! #### The tally (R264, R364) -/

@[simp] theorem charge_rest {M : List Component} (h : .tally ∈ M) (s : State) (party : Nat) (c : Counts) :
    rest M (charge s party c) = rest M s := by
  unfold charge; split <;> simp [h]
@[simp] theorem chargeWing_rest {M : List Component} (h : .tally ∈ M) (n : Nat) (s : State) (w : Nat) :
    rest M (chargeWing n s w) = rest M s := by
  unfold chargeWing; dsimp only; (repeat' split) <;> simp [h]
@[simp] theorem chargeMileposts_rest {M : List Component} (h : .tally ∈ M) (s : State) (n : Nat) :
    rest M (chargeMileposts s n) = rest M s := by
  simp [chargeMileposts, h]
@[simp] theorem chargeRows_rest {M : List Component} (h : .tally ∈ M) (s : State) (rows : List PassRow) :
    rest M (chargeRows s rows) = rest M s := by
  simp [chargeRows, h]

/-! #### Milepost time and the timetable (chapter 2) -/

theorem takeDue_rest {M : List Component} (h : .tt ∈ M) {s t : State} {c : TtClass} {w : Option Nat} {arg : Nat}
    (ht : takeDue s c w arg = some t) : rest M t = rest M s := by
  unfold takeDue at ht; split at ht
  · cases ht
  · dsimp only at ht; split at ht
    · cases ht; exact rest_tt h s _
    · cases ht
@[simp] theorem fireMilepost_rest {M : List Component} (h : .tt ∈ M) (s : State) (m : Nat) :
    rest M (fireMilepost s m) = rest M s := by
  unfold fireMilepost; exact rest_tt h _ _
@[simp] theorem markLate_rest {M : List Component} (h : .tt ∈ M) (s : State) :
    rest M (markLate s) = rest M s := by
  unfold markLate; exact rest_tt h _ _
@[simp] theorem setEntry_rest {M : List Component} (h : .tt ∈ M) (s : State) (e : TtEntry) :
    rest M (setEntry s e) = rest M s := by
  unfold setEntry; exact rest_tt h _ _
@[simp] theorem rewritePages_rest {M : List Component} (h : [.fns, .wingPages] ⊆ M) (s : State) :
    rest M (rewritePages s) = rest M s := by
  simp only [List.cons_subset, List.nil_subset, and_true] at h
  simp only [rewritePages, rest]
  rw [unlisted_of_mem h.1 _ s.fns, unlisted_of_mem h.2 _ s.wingPages]
@[simp] theorem reraise_rest {M : List Component} (h : .fns ∈ M) (s : State) :
    rest M (reraise s) = rest M s := by
  unfold reraise; exact rest_fns h _ _
@[simp] theorem stallWing_rest {M : List Component} (h : [.free, .wings] ⊆ M) (s : State) (w : Nat) :
    rest M (stallWing s w) = rest M s := by
  simp only [List.cons_subset, List.nil_subset, and_true] at h
  unfold stallWing; dsimp only; split
  · rfl
  · rw [rest_free h.1, State.modWing_rest h.2]
@[simp] theorem countStalls_rest {M : List Component} (h : [.free, .wings] ⊆ M) (s : State) :
    rest M (countStalls s) = rest M s := by
  simp only [List.cons_subset, List.nil_subset, and_true] at h
  simp [countStalls, h]
@[simp] theorem enterLocked_rest {M : List Component} (h : [.clock, .fns, .keeper] ⊆ M) (s : State) :
    rest M (enterLocked s) = rest M s := by
  simp only [List.cons_subset, List.nil_subset, and_true] at h
  simp [enterLocked, h]
@[simp] theorem shiftTimes_rest {M : List Component} (h : [.fns, .stamped, .sessions] ⊆ M) (s : State) (d : Int) :
    rest M (shiftTimes s d) = rest M s := by
  simp only [List.cons_subset, List.nil_subset, and_true] at h
  simp only [shiftTimes, rest, restLed]
  rw [unlisted_of_mem h.1 _ s.fns, unlisted_of_mem h.2.1 _ s.stamped, unlisted_of_mem h.2.2 _ s.led.sessions]
@[simp] theorem replaceCount_rest {M : List Component} (h : [.clock, .tt, .fns, .stamped, .keeper, .sessions] ⊆ M) (s : State) (n : Nat) :
    rest M (replaceCount s n) = rest M s := by
  simp only [List.cons_subset, List.nil_subset, and_true] at h
  simp [replaceCount, h]
@[simp] theorem fireRange_rest {M : List Component} (h : .tt ∈ M) (n m : Nat) (s : State) :
    rest M (fireRange n m s) = rest M s := by
  induction n generalizing m s with
  | zero => rfl
  | succ n ih => unfold fireRange; rw [ih, fireMilepost_rest h]
@[simp] theorem advanceCount_rest {M : List Component} (h : [.clock, .tt, .tally] ⊆ M) (s : State) (k : Nat) :
    rest M (advanceCount s k) = rest M s := by
  simp only [List.cons_subset, List.nil_subset, and_true] at h
  simp [advanceCount, h]
@[simp] theorem relockEdge_rest {M : List Component} (h : [.clock, .tt, .fns, .keeper, .tally] ⊆ M) (s : State) (stamp : Nat) :
    rest M (relockEdge s stamp) = rest M s := by
  simp only [List.cons_subset, List.nil_subset, and_true] at h
  simp [relockEdge, h]
@[simp] theorem countEdge_rest {M : List Component} (h : [.clock, .tt, .fns, .stamped, .keeper, .sessions, .tally] ⊆ M) (s : State) :
    rest M (countEdge s) = rest M s := by
  simp only [List.cons_subset, List.nil_subset, and_true] at h
  unfold countEdge; dsimp only; (repeat' split) <;> simp [h]
@[simp] theorem writeRegisters_rest {M : List Component} (h : .wings ∈ M) (s : State) :
    rest M (writeRegisters s) = rest M s := by
  simp [writeRegisters, h]
@[simp] theorem localEdge_rest {M : List Component} (h : [.clock, .tt, .fns, .wingPages, .stamped, .keeper, .free, .sessions, .wings, .tally] ⊆ M) (s : State) :
    rest M (localEdge s) = rest M s := by
  simp only [List.cons_subset, List.nil_subset, and_true] at h
  simp [localEdge, h]
@[simp] theorem mpclkEdge_rest {M : List Component} (h : .clock ∈ M) (dt : Nat) (offset : Int) (s : State) :
    rest M (mpclkEdge dt offset s) = rest M s := by
  simp [mpclkEdge, h]
@[simp] theorem mpclkRequalify_rest {M : List Component} (h : .clock ∈ M) (s : State) :
    rest M (mpclkRequalify s) = rest M s := by
  simp [mpclkRequalify, h]
@[simp] theorem slewDone_rest {M : List Component} (h : .clock ∈ M) (s : State) :
    rest M (slewDone s) = rest M s := by
  simp [slewDone, h]
@[simp] theorem timeUnsetReminder_rest {M : List Component} (h : [.fns, .keeper] ⊆ M) (s : State) :
    rest M (timeUnsetReminder s) = rest M s := by
  simp only [List.cons_subset, List.nil_subset, and_true] at h
  simp [timeUnsetReminder, h]
@[simp] theorem mpCountRead_rest {M : List Component} (h : [.snapshot, .mgmt] ⊆ M) (s : State) :
    rest M (mpCountRead s) = rest M s := by
  simp only [List.cons_subset, List.nil_subset, and_true] at h
  unfold mpCountRead; split
  · rfl
  · rw [State.modMgmt_rest h.2, rest_snapshot h.1]

/-! #### How a pass ends (R157, R350) -/

@[simp] theorem releaseTiles_rest {M : List Component} (h : .tiles ∈ M) (s : State) (w c : Nat) :
    rest M (releaseTiles s w c) = rest M s := by
  unfold releaseTiles; exact rest_tiles h _ _
@[simp] theorem freeRoom_rest {M : List Component} (h : [.fns, .keeper, .sessions, .longs, .rooms] ⊆ M) (s : State) (r : Nat) :
    rest M (freeRoom s r) = rest M s := by
  simp only [List.cons_subset, List.nil_subset, and_true] at h
  simp [freeRoom, h]
@[simp] theorem settleDiscard_rest {M : List Component} (h : [.fns, .keeper, .sessions, .longs, .rooms] ⊆ M) (s : State) (r : Nat) :
    rest M (settleDiscard s r) = rest M s := by
  simp only [List.cons_subset, List.nil_subset, and_true] at h
  simp [settleDiscard, h]
@[simp] theorem unrefObj_rest {M : List Component} (h : .objects ∈ M) (s : State) (o : Nat) :
    rest M (unrefObj s o) = rest M s := by
  simp [unrefObj, h]
@[simp] theorem unrefRoom_rest {M : List Component} (h : [.fns, .keeper, .sessions, .longs, .rooms] ⊆ M) (s : State) (r : Nat) :
    rest M (unrefRoom s r) = rest M s := by
  simp only [List.cons_subset, List.nil_subset, and_true] at h
  simp [unrefRoom, h]
@[simp] theorem releaseRefs_rest {M : List Component} (h : [.fns, .keeper, .sessions, .longs, .objects, .rooms] ⊆ M) (s : State) (p : Pass) :
    rest M (releaseRefs s p) = rest M s := by
  simp only [List.cons_subset, List.nil_subset, and_true] at h
  simp [releaseRefs, h]
@[simp] theorem releaseTable_rest {M : List Component} (h : .objects ∈ M) (s : State) (q : PassCmd) :
    rest M (releaseTable s q) = rest M s := by
  simp [releaseTable, h]
@[simp] theorem discardBanks_rest {M : List Component} (h : .wings ∈ M) (s : State) (w : Nat) :
    rest M (discardBanks s w) = rest M s := by
  simp [discardBanks, h]
@[simp] theorem askSwitch_rest {M : List Component} (h : .wings ∈ M) (s : State) (w : Nat) :
    rest M (askSwitch s w) = rest M s := by
  simp [askSwitch, h]
@[simp] theorem settleContext_rest {M : List Component} (h : .wings ∈ M) (s : State) (w c : Nat) :
    rest M (settleContext s w c) = rest M s := by
  simp [settleContext, h]
@[simp] theorem dropQueued_rest {M : List Component} (h : [.fns, .keeper, .sessions, .longs, .objects] ⊆ M) (s : State) (q : PassCmd) (st : Status) :
    rest M (dropQueued s q st) = rest M s := by
  simp only [List.cons_subset, List.nil_subset, and_true] at h
  simp [dropQueued, h]
@[simp] theorem endPassIn_rest {M : List Component} (h : [.fns, .tiles, .keeper, .sessions, .longs, .wings, .objects, .rooms, .tally] ⊆ M) (s : State) (w c : Nat) (st : Status) :
    rest M (endPassIn s w c st) = rest M s := by
  simp only [List.cons_subset, List.nil_subset, and_true] at h
  unfold endPassIn; split <;> simp [h]
@[simp] theorem failPass_rest {M : List Component} (h : [.fns, .tiles, .keeper, .version, .sessions, .longs, .wings, .objects, .rooms, .tally] ⊆ M) (s : State) (w c : Nat) (st : Status) :
    rest M (failPass s w c st) = rest M s := by
  simp only [List.cons_subset, List.nil_subset, and_true] at h
  simp [failPass, h]
@[simp] theorem failTile_rest {M : List Component} (h : [.fns, .tiles, .keeper, .version, .sessions, .longs, .wings, .objects, .rooms, .tally] ⊆ M) (s : State) (t : Nat) (st : Status) :
    rest M (failTile s t st) = rest M s := by
  simp only [List.cons_subset, List.nil_subset, and_true] at h
  unfold failTile; split <;> simp [h]
@[simp] theorem markChanged_rest {M : List Component} (h : .keeper ∈ M) (s : State) (kind place : Nat) :
    rest M (markChanged s kind place) = rest M s := by
  simp [markChanged, h]

/-! #### The matrix array (chapter 3) -/

@[simp] theorem shadowLoad_rest {M : List Component} (h : .tiles ∈ M) (tile : Nat) (block : WBlock) (s : State) :
    rest M (shadowLoad tile block s) = rest M s := by
  simp [shadowLoad, h]
@[simp] theorem blockSwap_rest {M : List Component} (h : [.fns, .tiles, .keeper, .version, .sessions, .longs, .wings, .objects, .rooms, .tally] ⊆ M) (tile : Nat) (s : State) :
    rest M (blockSwap tile s) = rest M s := by
  simp only [List.cons_subset, List.nil_subset, and_true] at h
  unfold blockSwap; dsimp only; split <;> simp [h]
@[simp] theorem arrayRow_rest {M : List Component} (h : .tiles ∈ M) (tile : Nat) (r : RowData) (s : State) :
    rest M (arrayRow tile r s) = rest M s := by
  unfold arrayRow; dsimp only; split <;> simp [h]

/-! #### Tile mappings and thresholds (R419 to R427) -/

@[simp] theorem snapshotPart_rest {M : List Component} (h : .keeper ∈ M) (s : State) (kind place : Nat) :
    rest M (snapshotPart s kind place) = rest M s := by
  simp [snapshotPart, h]
@[simp] theorem crossing_rest {M : List Component} (h : [.fns, .keeper] ⊆ M) (s : State) (n : Notice) (at_ : At) (body : List Nat) :
    rest M (crossing s n at_ body) = rest M s := by
  simp only [List.cons_subset, List.nil_subset, and_true] at h
  simp [crossing, h]
@[simp] theorem tileSuspect_rest {M : List Component} (h : [.fns, .keeper] ⊆ M) (s : State) (t : Nat) (at_ : At) :
    rest M (tileSuspect s t at_) = rest M s := by
  simp only [List.cons_subset, List.nil_subset, and_true] at h
  simp [tileSuspect, h]
@[simp] theorem tileCorrected_rest {M : List Component} (h : [.fns, .tiles, .keeper] ⊆ M) (s : State) (t : Nat) :
    rest M (tileCorrected s t) = rest M s := by
  simp only [List.cons_subset, List.nil_subset, and_true] at h
  simp [tileCorrected, h]
@[simp] theorem settleGates_rest {M : List Component} (h : .tiles ∈ M) (s : State) :
    rest M (settleGates s) = rest M s := by
  simp [settleGates, h]
@[simp] theorem switchMap_rest {M : List Component} (h : [.tiles, .tileMap, .faultMap] ⊆ M) (s : State) (n : Nat) (old : Option Nat) (spare : Nat) :
    rest M (switchMap s n old spare) = rest M s := by
  simp only [List.cons_subset, List.nil_subset, and_true] at h
  unfold switchMap
  split <;> simp [h]
@[simp] theorem tileMapped_rest {M : List Component} (h : [.fns, .keeper] ⊆ M) (s : State) (n spare : Nat) (old : Option Nat) :
    rest M (tileMapped s n spare old) = rest M s := by
  simp only [List.cons_subset, List.nil_subset, and_true] at h
  simp [tileMapped, h]
@[simp] theorem startMapping_rest {M : List Component} (h : [.fns, .tiles, .keeper, .sessions, .longs, .wings, .tileMap, .faultMap] ⊆ M) (s : State) (n spare : Nat) (ref : Option CmdRef) :
    rest M (startMapping s n spare ref) = rest M s := by
  simp only [List.cons_subset, List.nil_subset, and_true] at h
  unfold startMapping; split <;> simp [h]
@[simp] theorem loseTile_rest {M : List Component} (h : [.fns, .tiles, .keeper, .wings, .tileMap, .faultMap] ⊆ M) (s : State) (n : Nat) :
    rest M (loseTile s n) = rest M s := by
  simp only [List.cons_subset, List.nil_subset, and_true] at h
  unfold loseTile; dsimp only
  split <;> split <;> simp [h]
@[simp] theorem beginMap_rest {M : List Component} (h : [.fns, .tiles, .keeper, .version, .sessions, .longs, .wings, .tileMap, .faultMap] ⊆ M) (s : State) (m : MapReq) :
    rest M (beginMap s m) = rest M s := by
  simp only [List.cons_subset, List.nil_subset, and_true] at h
  unfold beginMap
  (repeat' split) <;> simp [h]
@[simp] theorem settleMaps_rest {M : List Component} (h : [.fns, .tiles, .keeper, .version, .sessions, .longs, .wings, .tileMap, .faultMap, .maps] ⊆ M) (s : State) :
    rest M (settleMaps s) = rest M s := by
  simp only [List.cons_subset, List.nil_subset, and_true] at h
  unfold settleMaps
  rw [rest_foldl]
  · exact rest_maps (by simp [h]) s _
  · intro s m
    split
    · simp [h]
    · exact rest_maps (by simp [h]) s _

/-! #### The accumulator file (chapter 4) -/

@[simp] theorem openLink_rest {M : List Component} (h : [.fns, .tiles, .keeper, .version, .sessions, .longs, .wings, .objects, .rooms, .tally] ⊆ M) (tile : Nat) (a : OpenArgs) (s : State) :
    rest M (openLink tile a s) = rest M s := by
  simp only [List.cons_subset, List.nil_subset, and_true] at h
  simp [openLink, h]
@[simp] theorem openFirst_rest {M : List Component} (h : [.fns, .tiles, .keeper, .version, .sessions, .longs, .wings, .objects, .rooms, .tally] ⊆ M) (tile : Nat) (a : OpenArgs) (s : State) :
    rest M (openFirst tile a s) = rest M s := by
  simp only [List.cons_subset, List.nil_subset, and_true] at h
  simp [openFirst, h]
@[simp] theorem accOpen_rest {M : List Component} (h : [.fns, .tiles, .keeper, .version, .sessions, .longs, .wings, .objects, .rooms, .tally] ⊆ M) (tile : Nat) (a : OpenArgs) (s : State) :
    rest M (accOpen tile a s) = rest M s := by
  simp only [List.cons_subset, List.nil_subset, and_true] at h
  simp [accOpen, h]
@[simp] theorem promotion_rest {M : List Component} (h : [.fns, .tiles, .keeper] ⊆ M) (tile tracker row col : Nat) (corrected : Bool) (s : State) :
    rest M (promotion tile tracker row col corrected s) = rest M s := by
  simp only [List.cons_subset, List.nil_subset, and_true] at h
  unfold promotion; split <;> simp [h]
@[simp] theorem countTag_rest {M : List Component} (h : .wings ∈ M) (s : State) (w tag : Nat) (b : Bank) :
    rest M (countTag s w tag b) = rest M s := by
  simp [countTag, h]
@[simp] theorem retryOpen_rest {M : List Component} (h : [.fns, .tiles, .keeper, .version, .sessions, .longs, .wings, .objects, .rooms, .tally] ⊆ M) (tile : Nat) (s : State) :
    rest M (retryOpen tile s) = rest M s := by
  simp only [List.cons_subset, List.nil_subset, and_true] at h
  unfold retryOpen; split <;> simp [h]
@[simp] theorem drainEnd_rest {M : List Component} (h : [.fns, .tiles, .keeper, .version, .sessions, .longs, .wings, .objects, .rooms, .tally] ⊆ M) (tile tracker : Nat) (flag : Option Nat) (s : State) :
    rest M (drainEnd tile tracker flag s) = rest M s := by
  simp only [List.cons_subset, List.nil_subset, and_true] at h
  simp [drainEnd, h]
@[simp] theorem drain_rest {M : List Component} (h : [.fns, .tiles, .keeper, .version, .sessions, .longs, .wings, .objects, .rooms, .tally] ⊆ M) (tile : Nat) (d : DrainArgs) (s : State) :
    rest M (drain tile d s) = rest M s := by
  simp only [List.cons_subset, List.nil_subset, and_true] at h
  unfold drain; dsimp only; (repeat' split) <;> simp [h]

/-! #### How a context ends (R240, R257) -/

@[simp] theorem freeObj_rest {M : List Component} (h : .objects ∈ M) (s : State) (i : Nat) :
    rest M (freeObj s i) = rest M s := by
  simp [freeObj, h]
@[simp] theorem endServe_rest {M : List Component} (h : .wings ∈ M) (s : State) (w c n : Nat) (st : Status) :
    rest M (endServe s w c n st) = rest M s := by
  simp [endServe, h]
@[simp] theorem endServes_rest {M : List Component} (h : .wings ∈ M) (s : State) (w c : Nat) (st : Status) :
    rest M (endServes s w c st) = rest M s := by
  simp [endServes, h]
@[simp] theorem dropQueue_rest {M : List Component} (h : [.fns, .keeper, .sessions, .longs, .wings, .objects] ⊆ M) (s : State) (w c : Nat) (st : Status) :
    rest M (dropQueue s w c st) = rest M s := by
  simp only [List.cons_subset, List.nil_subset, and_true] at h
  simp [dropQueue, h]
@[simp] theorem spendTickets_rest {M : List Component} (h : .tickets ∈ M) (s : State) (f : Nat → Ticket → Bool) :
    rest M (spendTickets s f) = rest M s := by
  unfold spendTickets; exact rest_tickets h _ _
@[simp] theorem dropTickets_rest {M : List Component} (h : .tickets ∈ M) (s : State) (w c : Nat) :
    rest M (dropTickets s w c) = rest M s := by
  simp [dropTickets, h]
@[simp] theorem endContextIn_rest {M : List Component} (h : [.fns, .tickets, .tiles, .keeper, .sessions, .longs, .wings, .objects, .rooms, .tally] ⊆ M) (s : State) (w c : Nat) (st : Status) :
    rest M (endContextIn s w c st) = rest M s := by
  simp only [List.cons_subset, List.nil_subset, and_true] at h
  simp [endContextIn, h]
@[simp] theorem endContext_rest {M : List Component} (h : [.fns, .tickets, .tiles, .keeper, .version, .sessions, .longs, .wings, .objects, .rooms, .tally] ⊆ M) (s : State) (w c : Nat) (st : Status) (at_ : At) (detail : List Nat) :
    rest M (endContext s w c st at_ detail) = rest M s := by
  simp only [List.cons_subset, List.nil_subset, and_true] at h
  simp [endContext, h]
@[simp] theorem settleRemoval_rest {M : List Component} (h : .tt ∈ M) (s : State) (w : Nat) :
    rest M (settleRemoval s w) = rest M s := by
  simp [settleRemoval, h]

/-! #### Moves of objects (R184, R428 to R433) -/

@[simp] theorem retireStep_rest {M : List Component} (h : [.fns, .keeper, .objects] ⊆ M) (s : State) (pc i : Nat) :
    rest M (retireStep s pc i) = rest M s := by
  simp only [List.cons_subset, List.nil_subset, and_true] at h
  unfold retireStep; dsimp only; split <;> simp [h]
@[simp] theorem retireNext_rest {M : List Component} (h : [.fns, .keeper, .objects] ⊆ M) (pc : Nat) (s : State) :
    rest M (retireNext pc s) = rest M s := by
  simp only [List.cons_subset, List.nil_subset, and_true] at h
  simp [retireNext, h]
@[simp] theorem evacuateNext_rest {M : List Component} (h : .objects ∈ M) (ch : Nat) (s : State) :
    rest M (evacuateNext ch s) = rest M s := by
  unfold evacuateNext
  refine rest_foldl _ _ _ fun s i => ?_
  (repeat' split) <;> simp [h]
@[simp] theorem retireRooms_rest {M : List Component} (h : .rooms ∈ M) (pc : Nat) (s : State) :
    rest M (retireRooms pc s) = rest M s := by
  unfold retireRooms
  refine rest_foldl _ _ _ fun s i => ?_
  dsimp only; split <;> simp [h]
@[simp] theorem evacuateImages_rest {M : List Component} (h : .handles ∈ M) (ch : Nat) (s : State) :
    rest M (evacuateImages ch s) = rest M s := by
  unfold evacuateImages
  refine rest_foldl _ _ _ fun s i => ?_
  split <;> simp [h]
@[simp] theorem endHostWork_rest {M : List Component} (h : [.fns, .keeper, .free, .sessions, .longs, .objects] ⊆ M) (s : State) (i : Nat) :
    rest M (endHostWork s i) = rest M s := by
  simp only [List.cons_subset, List.nil_subset, and_true] at h
  unfold endHostWork; dsimp only; split <;> simp [h]
@[simp] theorem endRemoval_rest {M : List Component} (h : [.fns, .secure, .keeper, .version, .sessions, .longs] ⊆ M) (s : State) (r : KeyRemoval) :
    rest M (endRemoval s r) = rest M s := by
  simp only [List.cons_subset, List.nil_subset, and_true] at h
  simp [endRemoval, h]
@[simp] theorem settleRemovals_rest {M : List Component} (h : [.fns, .secure, .keeper, .version, .sessions, .longs] ⊆ M) (s : State) :
    rest M (settleRemovals s) = rest M s := by
  simp only [List.cons_subset, List.nil_subset, and_true] at h
  simp [settleRemovals, h]
@[simp] theorem carryMoves_rest {M : List Component} (h : [.fns, .secure, .keeper, .version, .sessions, .longs, .objects, .rooms, .handles] ⊆ M) (s : State) :
    rest M (carryMoves s) = rest M s := by
  simp only [List.cons_subset, List.nil_subset, and_true] at h
  simp [carryMoves, h]

/-! #### Rooms and loads (R143, R144, R163) -/

@[simp] theorem failLoad_rest {M : List Component} (h : [.fns, .keeper, .sessions, .longs, .objects, .rooms, .handles] ⊆ M) (s : State) (i : Nat) (st : Status) :
    rest M (failLoad s i st) = rest M s := by
  simp only [List.cons_subset, List.nil_subset, and_true] at h
  unfold failLoad; split <;> simp [h]
@[simp] theorem leaveRoom_rest {M : List Component} (h : [.rooms, .handles] ⊆ M) (s : State) (r : Nat) (l : List Checkout) :
    rest M (leaveRoom s r l) = rest M s := by
  simp only [List.cons_subset, List.nil_subset, and_true] at h
  simp [leaveRoom, h]
@[simp] theorem wakeCheckouts_rest {M : List Component} (h : [.rooms, .handles] ⊆ M) (s : State) (r : Nat) :
    rest M (wakeCheckouts s r) = rest M s := by
  simp only [List.cons_subset, List.nil_subset, and_true] at h
  simp [wakeCheckouts, h]

/-! #### The vector engine (chapter 5) -/

@[simp] theorem settleRan_rest {M : List Component} (h : [.fns, .tickets, .tiles, .keeper, .version, .sessions, .longs, .wings, .objects, .rooms, .tally] ⊆ M) (s : State) (tile w c : Nat) (r : Ran) :
    rest M (settleRan s tile w c r) = rest M s := by
  simp only [List.cons_subset, List.nil_subset, and_true] at h
  unfold settleRan; split <;> simp [h]
@[simp] theorem vecWord_rest {M : List Component} (h : [.fns, .tickets, .tiles, .keeper, .version, .sessions, .longs, .wings, .objects, .rooms, .tally] ⊆ M) (tile : Nat) (word : W64) (run : Engine → List Space → Ran) (s : State) :
    rest M (vecWord tile word run s) = rest M s := by
  simp only [List.cons_subset, List.nil_subset, and_true] at h
  unfold vecWord; dsimp only; split <;> simp [h]

/-! #### Wings (R238, R240) -/

@[simp] theorem retileCtx_rest {M : List Component} (h : .objects ∈ M) (w old new : Nat) (s : State) (c : Nat) :
    rest M (retileCtx w old new s c) = rest M s := by
  simp [retileCtx, h]
@[simp] theorem clearRegions_rest {M : List Component} (h : .tiles ∈ M) (w : Nat) (s : State) (t : Nat) :
    rest M (clearRegions w s t) = rest M s := by
  simp [clearRegions, h]
@[simp] theorem applyChange_rest {M : List Component} (h : [.fns, .tiles, .keeper, .version, .wings, .objects] ⊆ M) (s : State) (w : Nat) :
    rest M (applyChange s w) = rest M s := by
  simp only [List.cons_subset, List.nil_subset, and_true] at h
  unfold applyChange; dsimp only; split <;> simp [h]
@[simp] theorem dropWingTickets_rest {M : List Component} (h : .tickets ∈ M) (s : State) (w : Nat) :
    rest M (dropWingTickets s w) = rest M s := by
  simp [dropWingTickets, h]
@[simp] theorem startRemoval_rest {M : List Component} (h : [.tt, .fns, .tickets, .tiles, .keeper, .version, .sessions, .longs, .wings, .objects, .rooms, .handles, .tally] ⊆ M) (s : State) (w : Nat) :
    rest M (startRemoval s w) = rest M s := by
  simp only [List.cons_subset, List.nil_subset, and_true] at h
  simp [startRemoval, h]
@[simp] theorem releaseWing_rest {M : List Component} (h : [.tt, .fns, .tiles, .keeper, .version, .sessions, .longs, .wings] ⊆ M) (s : State) (w : Nat) :
    rest M (releaseWing s w) = rest M s := by
  simp only [List.cons_subset, List.nil_subset, and_true] at h
  unfold releaseWing; dsimp only; split
  · rfl
  · simp [h, ↓rest_tt]
@[simp] theorem wingRemoveDone_rest {M : List Component} (h : [.tt, .fns, .tiles, .keeper, .version, .sessions, .longs, .wings] ⊆ M) (w : Nat) (s : State) :
    rest M (wingRemoveDone w s) = rest M s := by
  simp only [List.cons_subset, List.nil_subset, and_true] at h
  simp [wingRemoveDone, h]

/-! #### Programs started and contexts noted (R248) -/

@[simp] theorem startProgram_rest {M : List Component} (h : .tiles ∈ M) (s : State) (w c id step : Nat) :
    rest M (startProgram s w c id step) = rest M s := by
  simp [startProgram, h]
@[simp] theorem noteRunnable_rest {M : List Component} (h : .wings ∈ M) (s : State) (w c : Nat) :
    rest M (noteRunnable s w c) = rest M s := by
  simp [noteRunnable, h]

/-! #### Ports (R270, R271) -/

@[simp] theorem pumpPort_rest {M : List Component} (h : .ports ∈ M) (s : State) (p : Nat) :
    rest M (pumpPort s p) = rest M s := by
  simp [pumpPort, h]
@[simp] theorem sendOn_rest {M : List Component} (h : .ports ∈ M) (s : State) (p : Nat) (m : OutMsg) :
    rest M (sendOn s p m) = rest M s := by
  simp [sendOn, h]
@[simp] theorem sendTrunk_rest {M : List Component} (h : .ports ∈ M) (s : State) (allowed peer : Nat) (m : OutMsg) :
    rest M (sendTrunk s allowed peer m) = rest M s := by
  unfold sendTrunk; dsimp only; split <;> simp [h]

/-! #### Tickets and collectives that fail (R255, R290) -/

@[simp] theorem issueTicket_rest {M : List Component} (h : .tickets ∈ M) (s : State) (w c peer : Nat) (object : Option Nat) (offset : Nat) :
    rest M (issueTicket s w c peer object offset) = rest M s := by
  unfold issueTicket; exact rest_tickets h _ _
@[simp] theorem dropTicket_rest {M : List Component} (h : .tickets ∈ M) (s : State) (t : Option Nat) :
    rest M (dropTicket s t) = rest M s := by
  unfold dropTicket; split <;> simp [h]
@[simp] theorem withholdGradient_rest {M : List Component} (h : .wings ∈ M) (s : State) (w c object : Nat) :
    rest M (withholdGradient s w c object) = rest M s := by
  simp [withholdGradient, h]
@[simp] theorem failGroup_rest {M : List Component} (h : [.tt, .fns, .tickets, .keeper, .version, .sessions, .longs, .wings, .objects, .groups] ⊆ M) (s : State) (n : Nat) :
    rest M (failGroup s n) = rest M s := by
  simp only [List.cons_subset, List.nil_subset, and_true] at h
  unfold failGroup; dsimp only; split
  · rfl
  · rw [finishIn_rest (by simp [h]), State.modGroup_rest (by simp [h]), rest_tt h.1]
    simp [h]

/-! #### Collectives (R288, R289) -/

@[simp] theorem sendBlock_rest {M : List Component} (h : .ports ∈ M) (s : State) (n : Nat) (peer offset : Nat) (back : Bool) (data : Bytes) :
    rest M (sendBlock s n peer offset back data) = rest M s := by
  simp [sendBlock, h]
@[simp] theorem awaitBlock_rest {M : List Component} (h : [.tickets, .groups] ⊆ M) (s : State) (n peer : Nat) :
    rest M (awaitBlock s n peer) = rest M s := by
  simp only [List.cons_subset, List.nil_subset, and_true] at h
  simp [awaitBlock, h]
@[simp] theorem sendOwn_rest {M : List Component} (h : .ports ∈ M) (n : Nat) (s : State) (b : Nat) :
    rest M (sendOwn n s b) = rest M s := by
  simp [sendOwn, h]
@[simp] theorem pokeGroup_rest {M : List Component} (h : [.tickets, .ports, .groups] ⊆ M) (s : State) (n : Nat) :
    rest M (pokeGroup s n) = rest M s := by
  simp only [List.cons_subset, List.nil_subset, and_true] at h
  simp [pokeGroup, h]

/-! #### The commit of a serving pass (R350) -/

@[simp] theorem settleTake_rest {M : List Component} (h : [.wings, .tally] ⊆ M) (w c : Nat) (s : State) (k : ServeTake) :
    rest M (settleTake w c s k) = rest M s := by
  simp only [List.cons_subset, List.nil_subset, and_true] at h
  simp [settleTake, h]
@[simp] theorem commitServe_rest {M : List Component} (h : [.fns, .keeper, .version, .sessions, .longs, .wings, .objects, .rooms, .tally] ⊆ M) (w c : Nat) (s : State) (p : Pass) :
    rest M (commitServe w c s p) = rest M s := by
  simp only [List.cons_subset, List.nil_subset, and_true] at h
  simp [commitServe, h]
@[simp] theorem settleMirrors_rest {M : List Component} (h : [.fns, .keeper, .version, .sessions, .longs, .wings, .objects, .rooms, .tally] ⊆ M) (s : State) (w : Nat) :
    rest M (settleMirrors s w) = rest M s := by
  simp only [List.cons_subset, List.nil_subset, and_true] at h
  unfold settleMirrors
  refine rest_foldl _ _ _ fun s c => ?_
  split
  · split <;> simp [h]
  · rfl

/-! #### Pre-emption and resumption (R250 to R257) -/

@[simp] theorem saveTile_rest {M : List Component} (h : [.tiles, .wings] ⊆ M) (w c : Nat) (s : State) (n : Nat) :
    rest M (saveTile w c s n) = rest M s := by
  simp only [List.cons_subset, List.nil_subset, and_true] at h
  unfold saveTile; split <;> simp [h]
@[simp] theorem mapTickets_rest {M : List Component} (h : .tickets ∈ M) (s : State) (w c : Nat) (f : Ticket → Ticket) :
    rest M (mapTickets s w c f) = rest M s := by
  unfold mapTickets; exact rest_tickets h _ _
@[simp] theorem parkTickets_rest {M : List Component} (h : .tickets ∈ M) (s : State) (w c : Nat) :
    rest M (parkTickets s w c) = rest M s := by
  simp [parkTickets, h]
@[simp] theorem preempt_rest {M : List Component} (h : [.tickets, .tiles, .wings] ⊆ M) (s : State) (w : Nat) :
    rest M (preempt s w) = rest M s := by
  simp only [List.cons_subset, List.nil_subset, and_true] at h
  unfold preempt; split <;> simp [h]
@[simp] theorem restoreRecord_rest {M : List Component} (h : .tiles ∈ M) (w c : Nat) (p : Pass) (s : State) (r : SaveRec) :
    rest M (restoreRecord w c p s r) = rest M s := by
  unfold restoreRecord; dsimp only; (repeat' split) <;> simp [h]
@[simp] theorem deliverHeld_rest {M : List Component} (h : [.tickets, .tiles, .wings] ⊆ M) (s : State) (w c : Nat) :
    rest M (deliverHeld s w c) = rest M s := by
  simp only [List.cons_subset, List.nil_subset, and_true] at h
  simp [deliverHeld, h]
@[simp] theorem resume_rest {M : List Component} (h : [.fns, .tickets, .tiles, .keeper, .version, .sessions, .longs, .wings, .objects, .rooms, .tally] ⊆ M) (s : State) (w c : Nat) :
    rest M (resume s w c) = rest M s := by
  simp only [List.cons_subset, List.nil_subset, and_true] at h
  unfold resume; dsimp only; (repeat' split) <;> simp [h]

/-! #### Stages, tickets, fences and swaps (R243 to R261, R443) -/

@[simp] theorem dropShaped_rest {M : List Component} (h : [.fns, .tiles, .keeper, .sessions, .longs, .wings, .objects, .rooms, .tally] ⊆ M) (s : State) (w : Nat) (forced : Bool) :
    rest M (dropShaped s w forced) = rest M s := by
  simp only [List.cons_subset, List.nil_subset, and_true] at h
  simp [dropShaped, h]
@[simp] theorem boundaryTiles_rest {M : List Component} (h : [.fns, .tiles, .keeper, .version, .sessions, .longs, .wings, .objects, .rooms, .tally] ⊆ M) (s : State) (w : Nat) :
    rest M (boundaryTiles s w) = rest M s := by
  simp only [List.cons_subset, List.nil_subset, and_true] at h
  unfold boundaryTiles; split <;> simp [h]
@[simp] theorem stageEnd_rest {M : List Component} (h : [.tt, .fns, .tiles, .keeper, .version, .sessions, .longs, .wings, .objects, .rooms, .tally] ⊆ M) (w : Nat) (s : State) :
    rest M (stageEnd w s) = rest M s := by
  simp only [List.cons_subset, List.nil_subset, and_true] at h
  unfold stageEnd
  split
  · rfl
  · next hd => rw [← takeDue_rest h.1 hd]; simp [h]
@[simp] theorem switchTo_rest {M : List Component} (h : [.fns, .tickets, .tiles, .keeper, .version, .sessions, .longs, .wings, .objects, .rooms, .tally] ⊆ M) (s : State) (w : Nat) (c : Option Nat) :
    rest M (switchTo s w c) = rest M s := by
  simp only [List.cons_subset, List.nil_subset, and_true] at h
  unfold switchTo; dsimp only; (repeat' split) <;> simp [h]
@[simp] theorem stageStart_rest {M : List Component} (h : [.tt, .fns, .tickets, .tiles, .keeper, .version, .sessions, .longs, .wings, .objects, .rooms, .tally] ⊆ M) (w : Nat) (s : State) :
    rest M (stageStart w s) = rest M s := by
  simp only [List.cons_subset, List.nil_subset, and_true] at h
  unfold stageStart
  split
  · rfl
  · next hd =>
    rw [← takeDue_rest h.1 hd]; dsimp only
    (repeat' split) <;> simp [h]
@[simp] theorem switchEdge_rest {M : List Component} (h : [.tt, .fns, .tickets, .tiles, .keeper, .version, .sessions, .longs, .wings, .objects, .rooms, .handles, .tally] ⊆ M) (w : Nat) (s : State) :
    rest M (switchEdge w s) = rest M s := by
  simp only [List.cons_subset, List.nil_subset, and_true] at h
  simp [switchEdge, h]
@[simp] theorem parkThreshold_rest {M : List Component} (h : [.tickets, .keeper, .version, .wings] ⊆ M) (w : Nat) (s : State) :
    rest M (parkThreshold w s) = rest M s := by
  simp only [List.cons_subset, List.nil_subset, and_true] at h
  unfold parkThreshold; split <;> simp [h]
@[simp] theorem unpark_rest {M : List Component} (h : [.keeper, .version, .wings] ⊆ M) (s : State) (w c : Nat) :
    rest M (unpark s w c) = rest M s := by
  simp only [List.cons_subset, List.nil_subset, and_true] at h
  simp [unpark, h]
@[simp] theorem expireTicket_rest {M : List Component} (h : [.tt, .fns, .tickets, .tiles, .keeper, .version, .sessions, .longs, .wings, .objects, .rooms, .groups, .tally] ⊆ M) (s : State) (n : Nat) :
    rest M (expireTicket s n) = rest M s := by
  simp only [List.cons_subset, List.nil_subset, and_true] at h
  unfold expireTicket; simp [h, ↓rest_tickets]
@[simp] theorem ticketExpiry_rest {M : List Component} (h : [.tt, .fns, .tickets, .tiles, .keeper, .version, .sessions, .longs, .wings, .objects, .rooms, .groups, .tally] ⊆ M) (w : Nat) (s : State) :
    rest M (ticketExpiry w s) = rest M s := by
  simp only [List.cons_subset, List.nil_subset, and_true] at h
  unfold ticketExpiry
  split
  · rfl
  · next hd => rw [← takeDue_rest h.1 hd]; simp [h]
@[simp] theorem endTransfers_rest {M : List Component} (h : [.fns, .secure, .keeper, .free, .version, .sessions, .longs, .objects] ⊆ M) (s : State) (w : Nat) :
    rest M (endTransfers s w) = rest M s := by
  simp only [List.cons_subset, List.nil_subset, and_true] at h
  simp [endTransfers, h]
@[simp] theorem endHostLoads_rest {M : List Component} (h : [.fns, .keeper, .sessions, .longs, .objects, .rooms, .handles] ⊆ M) (s : State) (w : Nat) :
    rest M (endHostLoads s w) = rest M s := by
  simp only [List.cons_subset, List.nil_subset, and_true] at h
  simp [endHostLoads, h]
@[simp] theorem fenceWing_rest {M : List Component} (h : [.tt, .fns, .tickets, .tiles, .secure, .keeper, .free, .version, .sessions, .longs, .wings, .objects, .rooms, .handles] ⊆ M) (s : State) (w : Nat) :
    rest M (fenceWing s w) = rest M s := by
  simp only [List.cons_subset, List.nil_subset, and_true] at h
  unfold fenceWing; dsimp only; split
  · rfl
  · rw [notify_rest (by simp [h]), endHostLoads_rest (by simp [h]), endTransfers_rest (by simp [h]), State.bump_rest (by simp [h]), rest_tt h.1]
    simp [h]
@[simp] theorem fenceEntry_rest {M : List Component} (h : [.tt, .fns, .tickets, .tiles, .secure, .keeper, .porter, .free, .version, .sessions, .longs, .wings, .objects, .rooms, .handles] ⊆ M) (w : Nat) (s : State) :
    rest M (fenceEntry w s) = rest M s := by
  simp only [List.cons_subset, List.nil_subset, and_true] at h
  unfold fenceEntry
  split
  · rfl
  · next hd => rw [← takeDue_rest h.1 hd]; simp [h, ↓rest_porter]
@[simp] theorem startSwap_rest {M : List Component} (h : [.keeper, .version, .wings] ⊆ M) (s : State) (w c : Nat) (out : Bool) :
    rest M (startSwap s w c out) = rest M s := by
  simp only [List.cons_subset, List.nil_subset, and_true] at h
  simp [startSwap, h]
@[simp] theorem swapOutStart_rest {M : List Component} (h : [.keeper, .version, .wings] ⊆ M) (w : Nat) (s : State) :
    rest M (swapOutStart w s) = rest M s := by
  simp only [List.cons_subset, List.nil_subset, and_true] at h
  unfold swapOutStart; dsimp only; (repeat' split) <;> simp [h]
@[simp] theorem swapInStart_rest {M : List Component} (h : [.fns, .tickets, .tiles, .keeper, .version, .sessions, .longs, .wings, .objects, .rooms, .tally] ⊆ M) (w : Nat) (s : State) :
    rest M (swapInStart w s) = rest M s := by
  simp only [List.cons_subset, List.nil_subset, and_true] at h
  unfold swapInStart; dsimp only; (repeat' split) <;> simp [h]
@[simp] theorem swappedIn_rest {M : List Component} (h : [.tiles, .qmem] ⊆ M) (s : State) (w : Nat) (x : Ctx) (m : Mem) :
    rest M (swappedIn s w x m) = rest M s := by
  simp only [List.cons_subset, List.nil_subset, and_true] at h
  unfold swappedIn; dsimp only; rw [rest_qmem h.2]
  refine rest_foldl _ _ _ fun s p => ?_
  split <;> simp [h]
@[simp] theorem swapCommit_rest {M : List Component} (h : [.tiles, .qmem, .keeper, .version, .wings, .objects] ⊆ M) (w : Nat) (s : State) :
    rest M (swapCommit w s) = rest M s := by
  simp only [List.cons_subset, List.nil_subset, and_true] at h
  unfold swapCommit; split <;> simp [h]

/-! #### Scrubs (R412 to R416) -/

@[simp] theorem clearTiles_rest {M : List Component} (h : .tiles ∈ M) (s : State) (l : List Nat) :
    rest M (clearTiles s l) = rest M s := by
  simp [clearTiles, h]
@[simp] theorem clearPorts_rest {M : List Component} (h : .ports ∈ M) (s : State) (l : List Nat) :
    rest M (clearPorts s l) = rest M s := by
  simp [clearPorts, h]
@[simp] theorem clearRanges_rest {M : List Component} (h : [.objects, .handles] ⊆ M) (s : State) (x : Wing) :
    rest M (clearRanges s x) = rest M s := by
  simp only [List.cons_subset, List.nil_subset, and_true] at h
  simp only [clearRanges, State.modLed, rest, restLed]
  rw [unlisted_of_mem h.1 _ s.led.objects, unlisted_of_mem h.2 _ s.led.handles]
@[simp] theorem scrubClear_rest {M : List Component} (h : [.tt, .tiles, .qmem, .ports, .wings, .objects, .handles] ⊆ M) (s : State) (w : Nat) :
    rest M (scrubClear s w) = rest M s := by
  simp only [List.cons_subset, List.nil_subset, and_true] at h
  unfold scrubClear; simp [h, ↓rest_tt, ↓rest_qmem]
@[simp] theorem scrub_rest {M : List Component} (h : [.tt, .tiles, .qmem, .ports, .wings, .objects, .handles] ⊆ M) (w : Nat) (s : State) :
    rest M (scrub w s) = rest M s := by
  simp only [List.cons_subset, List.nil_subset, and_true] at h
  unfold scrub
  split
  · rfl
  · next hd =>
    rw [← takeDue_rest h.1 hd]; dsimp only
    (repeat' split) <;> simp [h]
@[simp] theorem dropDeadLofts_rest {M : List Component} (h : [.fns, .keeper, .wings, .lofts] ⊆ M) (s : State) (w : Nat) :
    rest M (dropDeadLofts s w) = rest M s := by
  simp only [List.cons_subset, List.nil_subset, and_true] at h
  simp [dropDeadLofts, h]
@[simp] theorem scrubDone_rest {M : List Component} (h : [.tt, .fns, .tiles, .secure, .keeper, .version, .sessions, .longs, .wings, .objects, .rooms, .handles, .tileMap, .lofts, .faultMap, .maps] ⊆ M) (w : Nat) (s : State) :
    rest M (scrubDone w s) = rest M s := by
  simp only [List.cons_subset, List.nil_subset, and_true] at h
  unfold scrubDone; split <;> simp [h]

/-! #### The Cellar on the timetable (R224, R225) -/

@[simp] theorem cellarSlot_rest {M : List Component} (h : [.tt, .cellar, .wings] ⊆ M) (s : State) :
    rest M (cellarSlot s) = rest M s := by
  simp only [List.cons_subset, List.nil_subset, and_true] at h
  unfold cellarSlot
  split
  · rfl
  · next hd => rw [← takeDue_rest h.1 hd]; simp [h]
@[simp] theorem digestSweep_rest {M : List Component} (h : [.tt, .cellar] ⊆ M) (s : State) :
    rest M (digestSweep s) = rest M s := by
  simp only [List.cons_subset, List.nil_subset, and_true] at h
  unfold digestSweep
  split
  · rfl
  · next hd =>
    rw [← takeDue_rest h.1 hd]; dsimp only
    (repeat' split) <;> simp [h]

/-! #### The COLLECTIVE entry (R289) -/

@[simp] theorem collective_rest {M : List Component} (h : [.tt, .tickets, .ports, .groups] ⊆ M) (n : Nat) (s : State) :
    rest M (collective n s) = rest M s := by
  simp only [List.cons_subset, List.nil_subset, and_true] at h
  unfold collective
  split
  · rfl
  · next hd =>
    rw [← takeDue_rest h.1 hd]
    (repeat' split) <;> simp [h]

/-! #### Rings of legs (R291 to R298) -/

@[simp] theorem sendMirror_rest {M : List Component} (h : [.ports, .rings] ⊆ M) (s : State) (n i o off : Nat) :
    rest M (sendMirror s n i o off) = rest M s := by
  simp only [List.cons_subset, List.nil_subset, and_true] at h
  unfold sendMirror; dsimp only; split <;> simp [h]
@[simp] theorem remirrorDone_rest {M : List Component} (h : [.fns, .keeper, .rings] ⊆ M) (s : State) (n i : Nat) :
    rest M (remirrorDone s n i) = rest M s := by
  simp only [List.cons_subset, List.nil_subset, and_true] at h
  simp [remirrorDone, h]
@[simp] theorem startRemirror_rest {M : List Component} (h : [.fns, .ports, .keeper, .rings] ⊆ M) (n : Nat) (s : State) (i : Nat) :
    rest M (startRemirror n s i) = rest M s := by
  simp only [List.cons_subset, List.nil_subset, and_true] at h
  unfold startRemirror; dsimp only; (repeat' split) <;> simp [h]
@[simp] theorem startRemirrors_rest {M : List Component} (h : [.fns, .ports, .keeper, .rings] ⊆ M) (s : State) (n : Nat) :
    rest M (startRemirrors s n) = rest M s := by
  simp only [List.cons_subset, List.nil_subset, and_true] at h
  simp [startRemirrors, h]
@[simp] theorem unmirror_rest {M : List Component} (h : [.fns, .keeper, .version, .sessions, .longs, .wings, .objects, .rooms, .rings, .tally] ⊆ M) (s : State) (n i : Nat) :
    rest M (unmirror s n i) = rest M s := by
  simp only [List.cons_subset, List.nil_subset, and_true] at h
  simp [unmirror, h]
@[simp] theorem endWingServes_rest {M : List Component} (h : .wings ∈ M) (s : State) (w : Nat) (st : Status) :
    rest M (endWingServes s w st) = rest M s := by
  simp [endWingServes, h]
@[simp] theorem freeLegObj_rest {M : List Component} (h : .objects ∈ M) (s : State) (o : Nat) :
    rest M (freeLegObj s o) = rest M s := by
  simp [freeLegObj, h]
@[simp] theorem discardRing_rest {M : List Component} (h : [.fns, .tiles, .keeper, .version, .sessions, .longs, .wings, .objects, .rooms, .rings, .tally] ⊆ M) (s : State) (n : Nat) (st : Status) :
    rest M (discardRing s n st) = rest M s := by
  simp only [List.cons_subset, List.nil_subset, and_true] at h
  simp [discardRing, h]
@[simp] theorem takeLeg_rest {M : List Component} (h : [.fns, .keeper, .objects, .rings] ⊆ M) (n : Nat) (s : State) (i : Nat) :
    rest M (takeLeg n s i) = rest M s := by
  simp only [List.cons_subset, List.nil_subset, and_true] at h
  unfold takeLeg; dsimp only; (repeat' split) <;> simp [h]
@[simp] theorem failoverRing_rest {M : List Component} (h : [.fns, .tiles, .ports, .keeper, .version, .sessions, .longs, .wings, .objects, .rooms, .rings, .tally] ⊆ M) (gone : List Nat) (s : State) (n : Nat) :
    rest M (failoverRing gone s n) = rest M s := by
  simp only [List.cons_subset, List.nil_subset, and_true] at h
  simp [failoverRing, h]

/-! #### Roll call and withdrawal (R277 to R284, R296) -/

@[simp] theorem withdraw_rest {M : List Component} (h : [.tt, .fns, .tickets, .tiles, .fabric, .keeper, .version, .sessions, .longs, .wings, .objects, .rooms, .rings, .groups, .tally] ⊆ M) (s : State) :
    rest M (withdraw s) = rest M s := by
  simp only [List.cons_subset, List.nil_subset, and_true] at h
  simp [withdraw, h]
@[simp] theorem refreshBody_rest {M : List Component} (h : [.tt, .fns, .tickets, .tiles, .fabric, .keeper, .version, .sessions, .longs, .wings, .objects, .rooms, .rings, .groups, .tally] ⊆ M) (s : State) :
    rest M (refreshBody s) = rest M s := by
  simp only [List.cons_subset, List.nil_subset, and_true] at h
  simp [refreshBody, h]
@[simp] theorem sendEntry_rest {M : List Component} (h : [.ports, .fabric] ⊆ M) (s : State) (c : Nat) :
    rest M (sendEntry s c) = rest M s := by
  simp only [List.cons_subset, List.nil_subset, and_true] at h
  simp [sendEntry, h]
@[simp] theorem rollCall_rest {M : List Component} (h : [.tt, .fns, .tickets, .tiles, .ports, .fabric, .keeper, .version, .sessions, .longs, .wings, .objects, .rooms, .rings, .groups, .tally] ⊆ M) (s : State) :
    rest M (rollCall s) = rest M s := by
  simp only [List.cons_subset, List.nil_subset, and_true] at h
  unfold rollCall; split
  · next hd => rw [← takeDue_rest h.1 hd]; simp [h]
  · rfl
@[simp] theorem failTickets_rest {M : List Component} (h : [.fns, .tickets, .tiles, .keeper, .version, .sessions, .longs, .wings, .objects, .rooms, .tally] ⊆ M) (gone : List Nat) (s : State) :
    rest M (failTickets gone s) = rest M s := by
  simp only [List.cons_subset, List.nil_subset, and_true] at h
  simp [failTickets, h]
@[simp] theorem failover_rest {M : List Component} (h : [.tt, .fns, .tickets, .tiles, .ports, .fabric, .keeper, .version, .sessions, .longs, .wings, .objects, .rooms, .rings, .groups, .tally] ⊆ M) (s : State) :
    rest M (failover s) = rest M s := by
  simp only [List.cons_subset, List.nil_subset, and_true] at h
  unfold failover
  split
  · rfl
  · next hd => rw [← takeDue_rest h.1 hd]; simp [h]
@[simp] theorem enterAdrift_rest {M : List Component} (h : [.clock, .tt, .fns, .tickets, .tiles, .fabric, .keeper, .version, .sessions, .longs, .wings, .objects, .rooms, .rings, .groups, .tally] ⊆ M) (s : State) :
    rest M (enterAdrift s) = rest M s := by
  simp only [List.cons_subset, List.nil_subset, and_true] at h
  simp [enterAdrift, h]
@[simp] theorem mpclkLoss_rest {M : List Component} (h : [.clock, .tt, .fns, .tickets, .tiles, .fabric, .keeper, .version, .sessions, .longs, .wings, .objects, .rooms, .rings, .groups, .tally] ⊆ M) (missing : Nat) (s : State) :
    rest M (mpclkLoss missing s) = rest M s := by
  simp only [List.cons_subset, List.nil_subset, and_true] at h
  unfold mpclkLoss; dsimp only; (repeat' split) <;> simp [h]
@[simp] theorem holdoverLimit_rest {M : List Component} (h : [.clock, .tt, .fns, .tickets, .tiles, .fabric, .keeper, .version, .sessions, .longs, .wings, .objects, .rooms, .rings, .groups, .tally] ⊆ M) (s : State) :
    rest M (holdoverLimit s) = rest M s := by
  simp only [List.cons_subset, List.nil_subset, and_true] at h
  simp [holdoverLimit, h]

/-! #### Drains outside the wing (R116) -/

@[simp] theorem boundsFault_rest {M : List Component} (h : [.fns, .tickets, .tiles, .keeper, .version, .sessions, .longs, .wings, .objects, .rooms, .tally] ⊆ M) (s : State) (tile w c : Nat) :
    rest M (boundsFault s tile w c) = rest M s := by
  simp only [List.cons_subset, List.nil_subset, and_true] at h
  simp [boundsFault, h]
@[simp] theorem drainWithin_rest {M : List Component} (h : [.fns, .tickets, .tiles, .keeper, .version, .sessions, .longs, .wings, .objects, .rooms, .tally] ⊆ M) (tile : Nat) (d : DrainArgs) (s : State) :
    rest M (drainWithin tile d s) = rest M s := by
  simp only [List.cons_subset, List.nil_subset, and_true] at h
  unfold drainWithin; split <;> simp [h]

end Sys2Proof.Machine

/-! ### What the rows of chapters 2 to 5, 10 and 15 may change -/

namespace Sys2Proof.Machine

open Sys2Proof Sys2Proof.Safety

theorem keepsRest_of_rest {i : Instr} (M : List Component) (hM : mayChange i = M) {s t : State} (h : rest M t = rest M s) :
    keepsRest i s t :=
  fun _ hc => same_of_rest h (hM ▸ hc)

theorem vecOp_rest {M : List Component}
    (h : [.fns, .tickets, .tiles, .keeper, .version, .sessions, .longs, .wings, .objects, .rooms, .tally] ⊆ M) {op tile : Nat}
    {a : TvxArgs} {s t : State} (ht : vecOp op tile a s = .next t) : rest M t = rest M s := by
  unfold vecOp at ht
  refine rest_onPart ht fun u => ?_
  split
  · exact vecWord_rest h _ _ _ _
  · rfl

theorem execStream_rest {M : List Component}
    (h : [.fns, .tickets, .tiles, .keeper, .version, .sessions, .longs, .wings, .objects, .rooms, .tally] ⊆ M) {tile : Nat}
    {a : StreamArgs} {s t : State} (ht : execStream tile a s = .next t) : rest M t = rest M s := by
  unfold execStream at ht
  refine rest_onPart ht fun u => ?_
  split
  · exact vecWord_rest h _ _ _ _
  · rfl

theorem exec_keepsRest_tvx {i : Instr} {s t : State} (hf : familyOf i = .tvx) (h : exec i s = .next t) : keepsRest i s t := by
  cases i with
  | stream tile a => exact keepsRest_of_rest (familyParts .tvx) rfl (execStream_rest (by decide) h)
  | nop | endProgram | loop | wait | post | tag | sld | add | sub | mul | fma | min | max | abs | neg | sel | cmp | exp2 | log2 | rcp
  | sqrt | rsqrt | tanh | cvt | quant | iadd | iand | ior | ixor | ishl | ishr | mset | mand | mor | mxor | mnot | gseed | rand | drop
  | rtz | rtacc | rtred | rtout => exact keepsRest_of_rest (familyParts .tvx) rfl (vecOp_rest (by decide) h)
  | _ => cases hf

theorem exec_keepsRest_array {i : Instr} {s t : State} (hf : familyOf i = .array) (h : exec i s = .next t) : keepsRest i s t := by
  cases i with
  | arrayRow tile r => exact keepsRest_of_rest (familyParts .array) rfl (rest_onPart h fun u => arrayRow_rest (by decide) _ _ _)
  | shadowLoad tile b => exact keepsRest_of_rest (familyParts .array) rfl (rest_onPart h fun u => shadowLoad_rest (by decide) _ _ _)
  | blockSwap tile => exact keepsRest_of_rest (familyParts .array) rfl (rest_onPart h fun u => blockSwap_rest (by decide) _ _)
  | accOpen tile a => exact keepsRest_of_rest (familyParts .array) rfl (rest_onPart h fun u => accOpen_rest (by decide) _ _ _)
  | promotion tile tracker row col corrected => exact keepsRest_of_rest (familyParts .array) rfl (rest_onPart h fun u => promotion_rest (by decide) _ _ _ _ _ _)
  | drain tile d => exact keepsRest_of_rest (familyParts .array) rfl (rest_onPart h fun u => drainWithin_rest (by decide) _ _ _)
  | _ => cases hf

/-- A row that always answers. -/
theorem rest_of_next {M : List Component} {s t u : State} (h : (.next u : Host.Outcome State Fault Refusal) = .next t)
    (hu : rest M u = rest M s) : rest M t = rest M s := by
  cases h; exact hu

theorem exec_keepsRest_clock {i : Instr} {s t : State} (hf : familyOf i = .clock) (h : exec i s = .next t) : keepsRest i s t := by
  cases i with
  | mpclkEdge dt offset => exact keepsRest_of_rest (familyParts .clock) rfl (rest_of_next h (mpclkEdge_rest (by decide) _ _ _))
  | localMilepostEdge => exact keepsRest_of_rest (familyParts .clock) rfl (rest_of_next h (localEdge_rest (by decide) _))
  | countAdopt => exact keepsRest_of_rest (familyParts .clock) rfl (rest_of_next h (by split; exacts [localEdge_rest (by decide) _, rfl]))
  | mpclkLoss missing => exact keepsRest_of_rest (familyParts .clock) rfl (rest_of_next h (mpclkLoss_rest (by decide) _ _))
  | mpclkRequalify => exact keepsRest_of_rest (familyParts .clock) rfl (rest_of_next h (mpclkRequalify_rest (by decide) _))
  | slewDone => exact keepsRest_of_rest (familyParts .clock) rfl (rest_of_next h (slewDone_rest (by decide) _))
  | holdoverLimit => exact keepsRest_of_rest (familyParts .clock) rfl (rest_of_next h (holdoverLimit_rest (by decide) _))
  | timeUnsetReminder => exact keepsRest_of_rest (familyParts .clock) rfl (rest_of_next h (timeUnsetReminder_rest (by decide) _))
  | mpCountRead => exact keepsRest_of_rest _ rfl (rest_of_next h (mpCountRead_rest (List.Subset.refl _) _))
  | _ => cases hf

theorem exec_keepsRest_entry {i : Instr} {s t : State} (hf : familyOf i = .entry) (h : exec i s = .next t) : keepsRest i s t := by
  cases i with
  | rollCall => exact keepsRest_of_rest (familyParts .entry) rfl (rest_of_next h (rollCall_rest (by decide) _))
  | failover => exact keepsRest_of_rest (familyParts .entry) rfl (rest_of_next h (failover_rest (by decide) _))
  | fenceEntry w => exact keepsRest_of_rest _ rfl (rest_onPart h fun u => fenceEntry_rest (List.Subset.refl _) _ _)
  | stageEnd w => exact keepsRest_of_rest (familyParts .entry) rfl (rest_onPart h fun u => stageEnd_rest (by decide) _ _)
  | scrub w => exact keepsRest_of_rest _ rfl (rest_onPart h fun u => scrub_rest (List.Subset.refl _) _ _)
  | stageStart w => exact keepsRest_of_rest (familyParts .entry) rfl (rest_onPart h fun u => stageStart_rest (by decide) _ _)
  | cellarSlot => exact keepsRest_of_rest (familyParts .entry) rfl (rest_of_next h (cellarSlot_rest (by decide) _))
  | collective n => exact keepsRest_of_rest (familyParts .entry) rfl (rest_of_next h (collective_rest (by decide) _ _))
  | ticketExpiry w => exact keepsRest_of_rest (familyParts .entry) rfl (rest_onPart h fun u => ticketExpiry_rest (by decide) _ _)
  | digestSweep => exact keepsRest_of_rest (familyParts .entry) rfl (rest_of_next h (digestSweep_rest (by decide) _))
  | _ => cases hf

theorem exec_keepsRest_boundary {i : Instr} {s t : State} (hf : familyOf i = .boundary) (h : exec i s = .next t) : keepsRest i s t := by
  cases i with
  | switchEdge w => exact keepsRest_of_rest (familyParts .boundary) rfl (rest_onPart h fun u => switchEdge_rest (by decide) _ _)
  | parkThreshold w => exact keepsRest_of_rest (familyParts .boundary) rfl (rest_onPart h fun u => parkThreshold_rest (by decide) _ _)
  | swapOutStart w => exact keepsRest_of_rest (familyParts .boundary) rfl (rest_onPart h fun u => swapOutStart_rest (by decide) _ _)
  | swapInStart w => exact keepsRest_of_rest (familyParts .boundary) rfl (rest_onPart h fun u => swapInStart_rest (by decide) _ _)
  | swapCommit w => exact keepsRest_of_rest (familyParts .boundary) rfl (rest_onPart h fun u => swapCommit_rest (by decide) _ _)
  | wingRemoveDone w => exact keepsRest_of_rest (familyParts .boundary) rfl (rest_onPart h fun u => wingRemoveDone_rest (by decide) _ _)
  | scrubDone w => exact keepsRest_of_rest _ rfl (rest_onPart h fun u => scrubDone_rest (List.Subset.refl _) _ _)
  | _ => cases hf

/-- Settles O56. -/
theorem frameCompute : Obligations.FrameCompute := by
  intro i s t hf _ h
  simp only [List.mem_cons, List.not_mem_nil, or_false] at hf
  obtain hf | hf | hf | hf | hf := hf
  · exact exec_keepsRest_tvx hf h
  · exact exec_keepsRest_array hf h
  · exact exec_keepsRest_clock hf h
  · exact exec_keepsRest_entry hf h
  · exact exec_keepsRest_boundary hf h

end Sys2Proof.Machine
/-! ### The clock (chapter 2) -/

namespace Sys2Proof.Machine

open Sys2Proof Sys2Proof.Safety

/-! #### What the clock's own operations make of it -/

theorem clock_of_rest {M : List Component} {s t : State} (h : rest M t = rest M s) (hM : Component.clock ∉ M) : t.clock = s.clock :=
  same_of_rest (c := .clock) h hM

@[simp] theorem notify_clock (s : State) (n : Notice) (a : At) (b : List Nat) : (notify s n a b).clock = s.clock :=
  clock_of_rest (notify_rest (List.Subset.refl _) s n a b) (by decide)

/-- The clock of LOCKED entered at a count (R20, R21, R28). -/
def lockedClock (c : Clock) : Clock :=
  { c with st := .locked, holdoverFlag := false, everLocked := true, lastGood := c.count, slewed := false, holdFor := 0, lockNext := false
           seed := none, fromAdrift := false }

@[simp] theorem enterLocked_clock (s : State) : (enterLocked s).clock = lockedClock s.clock := notify_clock _ _ _ _

/-- An edge counts one milepost, and those it steps over (R15, R29). -/
@[simp] theorem advanceCount_clock (s : State) (k : Nat) :
    (advanceCount s k).clock = { s.clock with count := s.clock.count + 1 + k } :=
  clock_of_rest (M := [.tt, .tally]) ((fireRange_rest (by decide) _ _ _).trans (chargeMileposts_rest (by decide) _ _)) (by decide)

@[simp] theorem replaceCount_clock (s : State) (n : Nat) : (replaceCount s n).clock = lockedClock { s.clock with count := n } := by
  unfold replaceCount
  exact enterLocked_clock _

@[simp] theorem markLate_clock (s : State) : (markLate s).clock = s.clock := rfl

@[simp] theorem writeRegisters_clock (s : State) : (writeRegisters s).clock = s.clock :=
  clock_of_rest (writeRegisters_rest (M := [.wings]) (by decide) s) (by decide)

/-- What a local edge does after the count's own edge (R15, R17, R248). -/
def edgeMarks (c : Clock) : Clock :=
  { c with heard := [], echo := true, offset := if c.edgeSeen then disciplined c else 0, edgeSeen := false }

theorem localEdge_on {s : State} (hon : s.power.alwaysOn = true) :
    localEdge s = rewritePages (reraise (countStalls ((writeRegisters (countEdge (markLate s))).modClock edgeMarks))) := by
  unfold localEdge
  rw [if_neg (by simp [hon])]
  rfl

theorem localEdge_off {s : State} (hon : s.power.alwaysOn = false) : localEdge s = s := by
  unfold localEdge
  rw [if_pos (by simp [hon])]

theorem localEdge_clock {s : State} (hon : s.power.alwaysOn = true) :
    (localEdge s).clock = edgeMarks (countEdge (markLate s)).clock := by
  rw [localEdge_on hon, clock_of_rest (M := [.fns, .wingPages, .free, .wings]) (s := (writeRegisters _).modClock edgeMarks)]
  · exact congrArg edgeMarks (writeRegisters_clock _)
  · simp
  · decide

@[simp] theorem withdraw_clock (s : State) : (withdraw s).clock = s.clock :=
  clock_of_rest (withdraw_rest (List.Subset.refl _) s) (by decide)

/-- ADRIFT entered (R25, R26). -/
@[simp] theorem enterAdrift_clock (s : State) : (enterAdrift s).clock = { s.clock with st := .adrift, holdoverFlag := true } := by
  unfold enterAdrift
  simp [State.modClock]

/-! #### What the count does at a local edge, case by case (R15, R20, R21, R28) -/

section
variable {s : State}

theorem countEdge_running (h : s.clock.st = .locked ∨ s.clock.st = .holdover ∨ s.clock.st = .adrift) :
    countEdge s = advanceCount s 0 := by
  unfold countEdge
  rcases h with h | h | h <;> simp only [h]

theorem countEdge_unqualified (h : s.clock.st = .unset) (hq : s.clock.qualified = false) :
    countEdge s = advanceCount (s.modClock (fun c => { c with seed := none })) 0 := by
  unfold countEdge; simp [h, hq]

theorem countEdge_seeded {n : Nat} (h : s.clock.st = .unset) (hq : s.clock.qualified = true) (hs : s.clock.seed = some n) :
    countEdge s = replaceCount s n := by
  unfold countEdge; simp [h, hq, hs]

theorem countEdge_adopts {m : Nat} (h : s.clock.st = .unset) (hq : s.clock.qualified = true) (hs : s.clock.seed = none)
    (hm : adoptedStamp s.clock.heard = some m) : countEdge s = replaceCount s (m + 1) := by
  unfold countEdge; simp [h, hq, hs, hm]

theorem countEdge_held (h : s.clock.st = .relock) (hf : 1 < s.clock.holdFor) :
    countEdge s = s.modClock (fun c => { c with holdFor := c.holdFor - 1 }) := by
  unfold countEdge; simp [h, hf]

theorem countEdge_holdEnds (h : s.clock.st = .relock) (hf : s.clock.holdFor = 1) :
    countEdge s = enterLocked (s.modClock (fun c => { c with holdFor := 0 })) := by
  unfold countEdge; simp [h, hf]

theorem countEdge_relocks {m : Nat} (h : s.clock.st = .relock) (hf : s.clock.holdFor = 0) (hl : s.clock.lockNext = false)
    (hs : s.clock.slewed = true) (hm : adoptedStamp s.clock.heard = some m) : countEdge s = relockEdge s m := by
  unfold countEdge; simp [h, hf, hl, hs, hm]

end

/-! #### The clock's invariant (R20 to R29) -/

/-- What every step does to the clock: its invariant holds again, and a count that was LOCKED and still has been does not fall. -/
def ClockGoesOn (c d : Clock) : Prop :=
  ClockInv d ∧ (c.everLocked = true → d.everLocked = true → c.count ≤ d.count)

/-- A row outside the clock's own leaves everything the invariant speaks of. -/
theorem clockGoesOn_of_kept {s t : State} (h : kept t = kept s) (hs : ClockInv s.clock) : ClockGoesOn s.clock t.clock := by
  simp only [kept, Prod.mk.injEq] at h
  obtain ⟨-, hst, hq, hflag, hever, hgood, hcount⟩ := h
  exact ⟨by simpa only [ClockInv, hst, hq, hflag, hever, hgood] using hs, fun _ _ => hcount.ge⟩

theorem clockGoesOn_refl {c : Clock} (h : ClockInv c) : ClockGoesOn c c := ⟨h, fun _ _ => le_rfl⟩

/-- The clock of a module whose always-on domain has just lost its power, or has just come up (R16). -/
theorem clockInv_default : ClockInv default := by unfold ClockInv; decide

theorem clockGoesOn_default {s : State} (c : Clock) (h : s.clock = default) : ClockGoesOn c s.clock := by
  rw [h]; exact ⟨clockInv_default, fun _ h => by cases h⟩

/-- A count that only rises keeps the invariant. -/
theorem clockGoesOn_rise {c : Clock} (h : ClockInv c) {n : Nat} (hn : c.count ≤ n) : ClockGoesOn c { c with count := n } :=
  ⟨h, fun _ _ => hn⟩

/-- LOCKED entered with a qualified MPCLK, at a count not below the one a LOCKED module had (R20, R21, R28, R29). -/
theorem clockGoesOn_locked {c : Clock} (h : ClockInv c) (hq : c.qualified = true) {n : Nat} (hn : c.st = .unset ∨ c.count ≤ n) :
    ClockGoesOn c (lockedClock { c with count := n }) := by
  obtain ⟨-, -, -, hever, hgood⟩ := h
  refine ⟨⟨fun _ => hq, by simp [lockedClock], by simp [lockedClock], by simp [lockedClock], hgood⟩, fun hc _ => ?_⟩
  exact hn.resolve_left (hever.mp hc)

theorem relockEdge_goesOn {s : State} (h : ClockInv s.clock) (hst : s.clock.st = .relock) (m : Nat) :
    ClockGoesOn s.clock (relockEdge s m).clock := by
  have hq : s.clock.qualified = true := h.1 (.inr hst)
  unfold relockEdge; dsimp only
  split
  · rw [enterLocked_clock, advanceCount_clock]
    exact clockGoesOn_locked h hq (.inr (by omega))
  · split
    · rw [enterLocked_clock]
      exact clockGoesOn_locked h hq (.inr le_rfl)
    · exact clockGoesOn_refl h

theorem countEdge_goesOn {s : State} (h : ClockInv s.clock) : ClockGoesOn s.clock (countEdge s).clock := by
  have hrise : ClockGoesOn s.clock (advanceCount s 0).clock := by
    rw [advanceCount_clock]; exact clockGoesOn_rise h (by omega)
  unfold countEdge; dsimp only
  split
  next hst =>
    split
    · rw [advanceCount_clock]; exact clockGoesOn_rise h (Nat.le_succ _)
    next hq =>
      have hq : s.clock.qualified = true := by simpa using hq
      split
      · rw [replaceCount_clock]; exact clockGoesOn_locked h hq (.inl hst)
      · rw [replaceCount_clock]; exact clockGoesOn_locked h hq (.inl hst)
      · exact hrise
  next hst =>
    have hq : s.clock.qualified = true := h.1 (.inr hst)
    split
    · exact clockGoesOn_refl h
    split
    · rw [enterLocked_clock]; exact clockGoesOn_locked h hq (.inr le_rfl)
    split
    · rw [enterLocked_clock, advanceCount_clock]; exact clockGoesOn_locked h hq (.inr (by omega))
    split
    · split
      · exact relockEdge_goesOn h hst _
      · exact hrise
    · exact hrise
  · exact hrise

theorem localEdge_goesOn {s : State} (h : ClockInv s.clock) : ClockGoesOn s.clock (localEdge s).clock := by
  cases hon : s.power.alwaysOn with
  | false => rw [localEdge_off hon]; exact clockGoesOn_refl h
  | true => rw [localEdge_clock hon]; exact countEdge_goesOn (s := markLate s) h

theorem mpclkEdge_goesOn {s : State} (h : ClockInv s.clock) (dt : Nat) (offset : Int) :
    ClockGoesOn s.clock (mpclkEdge dt offset s).clock := by
  obtain ⟨hlocked, hfree, hflag, hever, hgood⟩ := h
  unfold mpclkEdge
  split
  · exact ⟨⟨hlocked, hfree, hflag, hever, hgood⟩, fun _ _ => le_rfl⟩
  · unfold State.modClock; dsimp only
    split
    · exact ⟨⟨hlocked, hfree, hflag, hever, hgood⟩, fun _ _ => le_rfl⟩
    · refine ⟨⟨hlocked, hfree, hflag, hever, ?_⟩, fun _ _ => le_rfl⟩
      dsimp only; split
      · exact Nat.min_le_right _ _
      · exact Nat.zero_le _

theorem mpclkRequalify_goesOn {s : State} (h : ClockInv s.clock) : ClockGoesOn s.clock (mpclkRequalify s).clock := by
  unfold mpclkRequalify
  split
  · obtain ⟨-, hfree, hflag, hever, hgood⟩ := h
    unfold State.modClock; dsimp only
    refine ⟨?_, ?_⟩
    · cases hst : s.clock.st <;> simp_all [ClockInv]
    · cases hst : s.clock.st <;> simp
  · exact clockGoesOn_refl h

theorem enterAdrift_goesOn {s : State} {c : Clock} (hq : s.clock.qualified = false) (hever : s.clock.everLocked = true)
    (hgood : s.clock.goodRun ≤ 64) (hcount : s.clock.count = c.count) : ClockGoesOn c (enterAdrift s).clock := by
  rw [enterAdrift_clock]
  exact ⟨⟨by simp, fun _ => hq, by simp, by simpa using hever, hgood⟩, fun _ _ => hcount.ge⟩

/-- HOLDOVER entered: no qualified MPCLK, and TIME_HOLDOVER set (R23, R24). -/
theorem goesOn_holdover {s : State} {c : Clock} (hq : s.clock.qualified = false) (hever : s.clock.everLocked = true)
    (hgood : s.clock.goodRun ≤ 64) (hcount : s.clock.count = c.count) :
    ClockGoesOn c (notify (s.modClock (fun c => { c with st := .holdover, holdoverFlag := true })) .timeHoldover {} []).clock := by
  rw [notify_clock]
  exact ⟨⟨by simp [State.modClock], fun _ => hq, by simp [State.modClock], by simpa [State.modClock] using hever, hgood⟩, fun _ _ => hcount.ge⟩

theorem mpclkLoss_goesOn {s : State} (h : ClockInv s.clock) (missing : Nat) : ClockGoesOn s.clock (mpclkLoss missing s).clock := by
  obtain ⟨hlocked, hfree, hflag, hever, hgood⟩ := h
  unfold mpclkLoss
  split
  · exact ⟨⟨hlocked, hfree, hflag, hever, hgood⟩, fun _ _ => le_rfl⟩
  · dsimp only
    split
    next hst =>
      replace hst : s.clock.st = .locked := hst
      exact goesOn_holdover rfl (hever.mpr (by simp [hst])) (Nat.zero_le _) rfl
    next hst =>
      replace hst : s.clock.st = .relock := hst
      split
      · exact enterAdrift_goesOn rfl (hever.mpr (by simp [hst])) (Nat.zero_le _) rfl
      · exact goesOn_holdover rfl (hever.mpr (by simp [hst])) (Nat.zero_le _) rfl
    next hnl hnr =>
      exact ⟨⟨fun h => (h.elim hnl hnr).elim, fun _ => rfl, hflag, hever, Nat.zero_le _⟩, fun _ _ => le_rfl⟩

theorem holdoverLimit_goesOn {s : State} (h : ClockInv s.clock) : ClockGoesOn s.clock (holdoverLimit s).clock := by
  have ⟨_, hfree, _, hever, hgood⟩ := h
  unfold holdoverLimit
  split
  next hst => exact enterAdrift_goesOn (hfree (.inl hst.1)) (hever.mpr (by simp [hst.1])) hgood rfl
  · exact clockGoesOn_refl h

/-- The always-on domain comes up with a clock of its own, in UNSET (R16, R460). -/
theorem alwaysOnUp_goesOn {s : State} (h : ClockInv s.clock) (maddr : Nat) : ClockGoesOn s.clock (alwaysOnUp maddr s).clock := by
  unfold alwaysOnUp
  split
  · exact clockGoesOn_refl h
  · have hkept := tryStart_kept
      (({ s with clock := default }.modMgmt (fun m => { m with maddr := maddr % 8 })).modPower
        (fun p => { p with alwaysOn := true, stat := .waiting, faultN := false }))
    refine ⟨(clockGoesOn_of_kept hkept clockInv_default).1, fun _ hever => ?_⟩
    simp only [kept, Prod.mk.injEq] at hkept
    obtain ⟨-, -, -, -, hreset, -⟩ := hkept
    cases hever.symm.trans hreset

theorem exec_goesOn {i : Instr} {s t : State} (h : ClockInv s.clock) (hx : exec i s = .next t) : ClockGoesOn s.clock t.clock := by
  cases hi : clockRow i with
  | false => exact clockGoesOn_of_kept (exec_kept i hi s t hx) h
  | true =>
    cases i with
    | mpclkEdge dt offset => cases hx; exact mpclkEdge_goesOn h dt offset
    | localMilepostEdge => cases hx; exact localEdge_goesOn h
    | countAdopt =>
      cases hx
      split
      · exact localEdge_goesOn h
      · exact clockGoesOn_refl h
    | mpclkRequalify => cases hx; exact mpclkRequalify_goesOn h
    | mpclkLoss missing => cases hx; exact mpclkLoss_goesOn h missing
    | holdoverLimit => cases hx; exact holdoverLimit_goesOn h
    | alwaysOnUp maddr => cases hx; exact alwaysOnUp_goesOn h maddr
    | vinFallAlwaysOff => cases hx; exact clockGoesOn_default _ rfl
    | _ => cases hi

theorem step_goesOn {s t : State} (h : ClockInv s.clock) (hx : step s = .next t) : ClockGoesOn s.clock t.clock := by
  unfold step at hx
  split at hx
  · cases hx; exact clockGoesOn_refl h
  next _ rest _ => exact exec_goesOn (s := { s with pending := rest }) h hx

/-- Settles O36. -/
theorem clockInvariantKept : Obligations.ClockInvariantKept := fun _ _ h hx => (step_goesOn h hx).1

/-- Settles O38. -/
theorem countNeverDecreases : Obligations.CountNeverDecreases := fun _ _ h hever hx hever' => (step_goesOn h hx).2 hever hever'

/-- Settles O37. -/
theorem clockInvariantAtReset : Obligations.ClockInvariantAtReset := clockInv_default

/-- Settles O40. -/
theorem resetState : Obligations.ResetState :=
  ⟨rfl, rfl, rfl, rfl, rfl, rfl, rfl, rfl, rfl, rfl, rfl, rfl, fun _ => rfl, fun _ => rfl, fun _ => rfl, fun _ => rfl, fun _ => rfl, rfl, rfl⟩

end Sys2Proof.Machine
/-! ### What the clock's events leave (chapter 2) -/

namespace Sys2Proof.Machine

open Sys2Proof Sys2Proof.Safety

/-! #### The stamp that is taken (R20) -/

/-- One heard stamp against the best so far. -/
def betterStamp (l : List Heard) (best : Option (Nat × Nat)) (h : Heard) : Option (Nat × Nat) :=
  match best with
  | none => some (reports l h.stamp, h.stamp)
  | some (n, m) =>
    if n < reports l h.stamp ∨ (n = reports l h.stamp ∧ m < h.stamp) then some (reports l h.stamp, h.stamp) else some (n, m)

theorem adoptedStamp_eq (l : List Heard) : adoptedStamp l = (l.foldl (betterStamp l) none).map (·.2) := rfl

/-- `best` is the stamp R20 takes among those seen, with its reports in the whole list. -/
def BestOf (l seen : List Heard) : Option (Nat × Nat) → Prop
  | none => seen = []
  | some (n, m) => n = reports l m ∧ (∃ h ∈ seen, h.stamp = m)
      ∧ ∀ h ∈ seen, reports l h.stamp < n ∨ (reports l h.stamp = n ∧ h.stamp ≤ m)

theorem bestOf_betterStamp {l seen : List Heard} {best : Option (Nat × Nat)} (hb : BestOf l seen best) (h : Heard) :
    BestOf l (h :: seen) (betterStamp l best h) := by
  match best, hb with
  | none, hb =>
    cases hb
    exact ⟨rfl, ⟨h, by simp, rfl⟩, fun g hg => by cases List.mem_singleton.mp hg; exact .inr ⟨rfl, le_rfl⟩⟩
  | some (n, m), ⟨hn, ⟨g, hg, hgm⟩, hmax⟩ =>
    unfold betterStamp; dsimp only
    split
    next hlt =>
      refine ⟨rfl, ⟨h, by simp, rfl⟩, fun x hx => ?_⟩
      rcases List.mem_cons.mp hx with rfl | hx
      · exact .inr ⟨rfl, le_rfl⟩
      · have := hmax x hx
        omega
    next hge =>
      refine ⟨hn, ⟨g, List.mem_cons_of_mem _ hg, hgm⟩, fun x hx => ?_⟩
      rcases List.mem_cons.mp hx with rfl | hx
      · omega
      · exact hmax x hx

theorem bestOf_foldl {l : List Heard} (xs seen : List Heard) {best : Option (Nat × Nat)} (hb : BestOf l seen best) :
    BestOf l (xs.reverse ++ seen) (xs.foldl (betterStamp l) best) := by
  induction xs generalizing seen best with
  | nil => exact hb
  | cons x xs ih => simpa using ih (x :: seen) (bestOf_betterStamp hb x)

theorem bestOf_all (l : List Heard) : BestOf l l (l.foldl (betterStamp l) none) := by
  have h := bestOf_foldl (l := l) l [] (best := none) rfl
  cases hb : l.foldl (betterStamp l) none with
  | none => simpa [hb, BestOf] using h
  | some p => simpa [hb, BestOf] using h

theorem stampTaken_of_adoptedStamp {l : List Heard} {m : Nat} (h : adoptedStamp l = some m) : stampTaken l m := by
  have hb := bestOf_all l
  rw [adoptedStamp_eq] at h
  cases hf : l.foldl (betterStamp l) none with
  | none => rw [hf] at h; cases h
  | some p =>
    rw [hf] at h hb
    cases h
    obtain ⟨hn, hin, hmax⟩ := hb
    exact ⟨hin, hn ▸ hmax⟩

theorem adoptedStamp_isSome {l : List Heard} (h : l ≠ []) : ∃ m, adoptedStamp l = some m := by
  have hb := bestOf_all l
  rw [adoptedStamp_eq]
  cases hf : l.foldl (betterStamp l) none with
  | none => rw [hf] at hb; exact (h hb).elim
  | some p => exact ⟨p.2, rfl⟩

theorem stampTaken_unique {l : List Heard} {m n : Nat} (hm : stampTaken l m) (hn : stampTaken l n) : m = n := by
  obtain ⟨⟨g, hg, rfl⟩, hmax⟩ := hm
  obtain ⟨⟨h, hh, rfl⟩, hmax'⟩ := hn
  have := hmax h hh
  have := hmax' g hg
  omega

theorem adoptedStamp_of_stampTaken {l : List Heard} {m : Nat} (hm : stampTaken l m) : adoptedStamp l = some m := by
  obtain ⟨n, hn⟩ := adoptedStamp_isSome (l := l) (by obtain ⟨⟨h, hh, -⟩, -⟩ := hm; exact List.ne_nil_of_mem hh)
  rw [hn, stampTaken_unique hm (stampTaken_of_adoptedStamp hn)]

/-! #### The local edge (R15, R17, R20, R21, R25, R28) -/

/-- The count's edge leaves the phase offset and whether an MPCLK edge came. -/
theorem countEdge_phase (s : State) : (countEdge s).clock.offset = s.clock.offset ∧ (countEdge s).clock.edgeSeen = s.clock.edgeSeen := by
  unfold countEdge; dsimp only
  split
  · split
    · simp [State.modClock]
    · split <;> simp [lockedClock]
  · split
    · simp [State.modClock]
    split
    · simp [State.modClock, lockedClock]
    split
    · simp [lockedClock]
    split
    · split
      · unfold relockEdge; dsimp only
        split
        · simp [lockedClock]
        · split <;> simp [State.modClock, lockedClock]
      · simp
    · simp
  · simp

theorem relockEdge_count (s : State) (m : Nat) (hst : s.clock.st = .relock) :
    (s.clock.count ≤ m → (relockEdge s m).clock.count = m + 1 ∧ (relockEdge s m).clock.st = .locked)
      ∧ (m + 1 < s.clock.count → (relockEdge s m).clock.count = s.clock.count ∧ (relockEdge s m).clock.st = .relock
          ∧ (relockEdge s m).clock.holdFor = s.clock.count - m - 1)
      ∧ (m + 1 = s.clock.count → (relockEdge s m).clock.count = s.clock.count ∧ (relockEdge s m).clock.st = .locked) := by
  refine ⟨fun h => ?_, fun h => ?_, fun h => ?_⟩
  · have hc : relockEdge s m = enterLocked (advanceCount s (m - s.clock.count)) := by unfold relockEdge; simp [h]
    rw [hc, enterLocked_clock, advanceCount_clock]
    exact ⟨by simp only [lockedClock]; omega, rfl⟩
  · have hc : relockEdge s m = s.modClock (fun c => { c with holdFor := s.clock.count - m - 1 }) := by
      unfold relockEdge; simp [show ¬ s.clock.count ≤ m by omega, show s.clock.count - m ≠ 1 by omega]
    rw [hc]
    exact ⟨rfl, hst, rfl⟩
  · have hc : relockEdge s m = enterLocked s := by
      unfold relockEdge; simp [show ¬ s.clock.count ≤ m by omega, show s.clock.count - m = 1 by omega]
    rw [hc, enterLocked_clock]
    exact ⟨rfl, rfl⟩

theorem countEdge_count (s : State) : edgeCount s.clock (countEdge s).clock := by
  refine ⟨fun h => ?_, fun h hf => ?_, fun h hf => ?_, fun h hf hl hs m hm => ?_, fun h hq => ?_, fun h hq n hn => ?_, fun h hq hn m hm => ?_⟩
  · rw [countEdge_running h, advanceCount_clock]; exact ⟨rfl, rfl⟩
  · rw [countEdge_held h hf]; exact ⟨rfl, h, rfl⟩
  · rw [countEdge_holdEnds h hf, enterLocked_clock]; exact ⟨rfl, rfl⟩
  · rw [countEdge_relocks h hf hl hs (adoptedStamp_of_stampTaken hm)]; exact relockEdge_count s m h
  · rw [countEdge_unqualified h hq, advanceCount_clock]; exact ⟨rfl, h⟩
  · rw [countEdge_seeded h hq hn, replaceCount_clock]; exact ⟨rfl, rfl⟩
  · rw [countEdge_adopts h hq hn (adoptedStamp_of_stampTaken hm), replaceCount_clock]; exact ⟨rfl, rfl⟩

theorem localEdge_count {s : State} (hon : s.power.alwaysOn = true) : edgeCount s.clock (localEdge s).clock := by
  rw [localEdge_clock hon]
  exact countEdge_count (markLate s)

theorem localEdge_offset {s : State} (hon : s.power.alwaysOn = true) : edgeOffset s.clock (localEdge s).clock := by
  have ⟨hoff, hseen⟩ := countEdge_phase (markLate s)
  rw [localEdge_clock hon]
  simp only [edgeOffset, edgeMarks, hseen, markLate_clock]
  refine ⟨fun h => by simp [h], fun h hq hst => ?_, fun h hst hq => ?_⟩
  · simp [h, disciplined, countEdge_running (s := markLate s) (.inl hst), hq, hst]
  · simp [h, disciplined, countEdge_running (s := markLate s) (.inr hst), hq]

/-! #### The entries that fall due at an edge (R29, R30) -/

theorem mem_insertFirst {α : Type} {lt : α → α → Bool} {x a : α} {l : List α} :
    a ∈ sortBy.insertFirst lt x l ↔ a = x ∨ a ∈ l := by
  induction l with
  | nil => simp [sortBy.insertFirst]
  | cons y ys ih =>
    unfold sortBy.insertFirst
    split
    · simp only [List.mem_cons, ih]; tauto
    · simp

@[simp] theorem mem_sortBy {α : Type} {lt : α → α → Bool} {a : α} {l : List α} : a ∈ sortBy lt l ↔ a ∈ l := by
  induction l with
  | nil => rfl
  | cons x xs ih => unfold sortBy; simp [mem_insertFirst, ih]

/-- A set entry that acts at a milepost is due; every other stays set. -/
theorem fireMilepost_entry {s : State} {m : Nat} {e : TtEntry} (he : e ∈ s.tt.entries) :
    if actsAt s m e = true then e ∈ (fireMilepost s m).tt.due ∧ e ∉ (fireMilepost s m).tt.entries
    else e ∈ (fireMilepost s m).tt.entries := by
  split
  next h => exact ⟨by simp [fireMilepost, dueAt, he, h], by simp [fireMilepost, h]⟩
  next h => simp [fireMilepost, he, h]

/-- At an edge that counts one milepost, the set entries fall due as they stood before it. -/
theorem advanceCount_entry {s : State} {e : TtEntry} (he : e ∈ s.tt.entries) :
    if actsAt s (s.clock.count + 1) e = true then e ∈ (advanceCount s 0).tt.due ∧ e ∉ (advanceCount s 0).tt.entries
    else e ∈ (advanceCount s 0).tt.entries := by
  let u := chargeMileposts (s.modClock (fun c => { c with count := s.clock.count + 1 + 0 })) (0 + 1)
  have hu : advanceCount s 0 = fireMilepost u (s.clock.count + 1) := rfl
  have hrest : rest [.tally] u = rest [.tally] (s.modClock (fun c => { c with count := s.clock.count + 1 + 0 })) :=
    chargeMileposts_rest (by decide) _ _
  have htt : u.tt = s.tt := same_of_rest (c := .tt) hrest (by decide)
  have hclock : u.clock = { s.clock with count := s.clock.count + 1 + 0 } := same_of_rest (c := .clock) hrest (by decide)
  have hwings : u.led.wings = s.led.wings := same_of_rest (c := .wings) hrest (by decide)
  have hacts : actsAt u (s.clock.count + 1) e = actsAt s (s.clock.count + 1) e := by
    simp only [actsAt, classActs, crossActs, fenceHolds, State.wing, hclock, hwings]
  rw [hu, ← hacts]
  exact fireMilepost_entry (s := u) (by rw [htt]; exact he)

theorem localEdge_tt {s : State} (hon : s.power.alwaysOn = true) : (localEdge s).tt = (countEdge (markLate s)).tt := by
  rw [localEdge_on hon]
  exact same_of_rest (c := .tt) (M := [.fns, .wingPages, .free, .wings, .clock]) (by simp) (by decide)

theorem localEdge_entries {s : State} (hon : s.power.alwaysOn = true)
    (hst : s.clock.st = .locked ∨ s.clock.st = .holdover ∨ s.clock.st = .adrift) : edgeEntries s (localEdge s) := by
  intro e he
  have hdue := advanceCount_entry (s := markLate s) he
  rw [localEdge_tt hon, countEdge_running (s := markLate s) hst]
  have hlate : actsAt (markLate s) (s.clock.count + 1) e = actsAt s (s.clock.count + 1) e := rfl
  have hacts : actsAt s (s.clock.count + 1) e = true ↔
      e.mp ≤ s.clock.count + 1 ∧ classActs s e.cls = true ∧ fenceHolds s e = false := by
    simp only [actsAt, Bool.and_eq_true, decide_eq_true_eq, Bool.not_eq_true', and_assoc]
  simpa only [markLate_clock, hlate, hacts] using hdue

/-! #### The rows -/

theorem mpclkEdge_done {s : State} (hon : s.power.alwaysOn = true) (dt : Nat) (offset : Int) :
    clockDone (.mpclkEdge dt offset) s (mpclkEdge dt offset s) := by
  unfold mpclkEdge
  rw [if_neg (by simp [hon])]
  unfold State.modClock; dsimp only
  by_cases hg : dt < 900
  · rw [if_pos hg]
    exact ⟨rfl, rfl, rfl, rfl, fun _ => ⟨rfl, rfl, rfl⟩, fun _ _ => by omega, fun _ _ => by omega⟩
  · rw [if_neg hg]
    by_cases hin : 980 ≤ dt ∧ dt ≤ 1020
    · simp only [decide_eq_true hin, if_true]
      exact ⟨rfl, rfl, rfl, rfl, fun _ => by omega, fun _ _ => ⟨rfl, rfl, rfl⟩, fun _ _ => by omega⟩
    · simp only [decide_eq_false hin]
      exact ⟨rfl, rfl, rfl, rfl, fun _ => by omega, fun _ _ => by omega, fun _ _ => ⟨rfl, rfl, rfl⟩⟩

theorem localEdge_done {s : State} (hon : s.power.alwaysOn = true) : clockDone .localMilepostEdge s (localEdge s) := by
  refine ⟨localEdge_count hon, localEdge_offset hon, ?_, ?_, localEdge_entries hon⟩
  · rw [localEdge_clock hon]; rfl
  · rw [localEdge_clock hon]; rfl

theorem countAdopt_done {s : State} (h : adoptionPending s = true) : clockDone .countAdopt s (localEdge s) := by
  simp only [adoptionPending, Bool.and_eq_true, decide_eq_true_eq, Option.isNone_iff_eq_none] at h
  obtain ⟨⟨⟨⟨hon, hst⟩, hq⟩, hseed⟩, hheard⟩ := h
  obtain ⟨m, hm⟩ := adoptedStamp_isSome hheard
  refine ⟨m, stampTaken_of_adoptedStamp hm, ?_⟩
  rw [localEdge_clock hon, countEdge_adopts (s := markLate s) hst hq hseed hm, replaceCount_clock]
  exact ⟨rfl, rfl, rfl⟩

theorem mpclkLoss_done {s : State} {missing : Nat} (hon : s.power.alwaysOn = true) (hq : s.clock.qualified = true)
    (hlost : 2 ≤ missing ∨ 4 ≤ s.clock.badRun) : clockDone (.mpclkLoss missing) s (mpclkLoss missing s) := by
  unfold mpclkLoss
  rw [if_neg (by simp [hon, hq]; omega)]
  simp only [clockDone]
  cases hst : s.clock.st with
  | locked => simp [State.modClock, hst]
  | relock =>
    simp only [State.modClock, hst, holdoverSpent]
    split
    · simp_all
    · simp_all
  | unset | holdover | adrift => simp [State.modClock, hst, onlyClock]

theorem mpclkRequalify_done {s : State} (h : clockCompletes .mpclkRequalify s = true) :
    clockDone .mpclkRequalify s (mpclkRequalify s) := by
  have hc : (s.power.alwaysOn && !s.clock.qualified && decide (64 ≤ s.clock.goodRun)) = true := h
  unfold mpclkRequalify
  rw [if_pos hc]
  unfold State.modClock clockDone onlyClock; dsimp only
  cases hst : s.clock.st <;> simp

theorem withdraw_withdrawn (s : State) : (withdraw s).fabric.withdrawn = true := by
  unfold withdraw
  rw [same_of_rest (c := .fabric) (notify_rest (List.Subset.refl _) _ _ _ _) (by decide)]
  rfl

theorem holdoverLimit_done {s : State} (h : s.clock.st = .holdover ∧ s.clock.lastGood + 1000000 ≤ s.clock.count) :
    clockDone .holdoverLimit s (holdoverLimit s) := by
  unfold holdoverLimit holdoverSpent
  rw [if_pos (by simpa using h)]
  refine ⟨?_, ?_, ?_, ?_⟩
  · rw [enterAdrift_clock]
  · rw [enterAdrift_clock]
  · rw [enterAdrift_clock]
  · unfold enterAdrift State.modFabric; dsimp only
    rw [withdraw_withdrawn]

/-- Settles O6. -/
theorem clockRows : Obligations.ClockRows := by
  intro i s hi h
  cases i with
  | mpclkEdge dt offset => exact ⟨_, rfl, mpclkEdge_done h dt offset⟩
  | localMilepostEdge => exact ⟨_, rfl, localEdge_done h⟩
  | countAdopt => exact ⟨localEdge s, congrArg Host.Outcome.next (if_pos h), countAdopt_done h⟩
  | mpclkLoss missing =>
    simp only [clockCompletes, Bool.and_eq_true, Bool.or_eq_true, decide_eq_true_eq] at h
    obtain ⟨⟨hon, hq⟩, hlost⟩ := h
    exact ⟨_, rfl, mpclkLoss_done hon hq hlost⟩
  | mpclkRequalify => exact ⟨_, rfl, mpclkRequalify_done h⟩
  | slewDone => exact ⟨_, rfl, if_pos (by simpa [clockCompletes] using h)⟩
  | holdoverLimit => exact ⟨_, rfl, holdoverLimit_done (of_decide_eq_true h)⟩
  | timeUnsetReminder => exact ⟨_, rfl, if_pos (by simpa [clockCompletes] using h)⟩
  | mpCountRead =>
    refine ⟨_, rfl, ?_⟩
    unfold mpCountRead
    rw [if_neg (by simpa [clockCompletes] using h)]
    rfl
  | _ => cases hi

end Sys2Proof.Machine
/-! ### What a due timetable entry leaves (chapters 2, 10, 11 and 15) -/

namespace Sys2Proof.Machine

open Sys2Proof Sys2Proof.Safety

/-! #### Reading a part that an operation leaves alone -/

section
variable {M : List Component} {s t : State}

theorem wing_of_rest (h : rest M t = rest M s) (hM : Component.wings ∉ M) (w : Nat) : t.wing w = s.wing w :=
  congrArg (tget · w) (same_of_rest (c := .wings) h hM)

theorem ctx_of_rest (h : rest M t = rest M s) (hM : Component.wings ∉ M) (w c : Nat) : t.ctx w c = s.ctx w c :=
  congrArg (fun x : Wing => tget x.contexts c) (wing_of_rest h hM w)

theorem version_of_rest (h : rest M t = rest M s) (hM : Component.version ∉ M) : t.led.version = s.led.version :=
  same_of_rest (c := .version) h hM

theorem tickets_of_rest (h : rest M t = rest M s) (hM : Component.tickets ∉ M) : t.tickets = s.tickets :=
  same_of_rest (c := .tickets) h hM

theorem keeper_of_rest (h : rest M t = rest M s) (hM : Component.keeper ∉ M) : t.keeper = s.keeper :=
  same_of_rest (c := .keeper) h hM

theorem fabric_of_rest (h : rest M t = rest M s) (hM : Component.fabric ∉ M) : t.fabric = s.fabric :=
  same_of_rest (c := .fabric) h hM

theorem group_of_rest (h : rest M t = rest M s) (hM : Component.groups ∉ M) (n : Nat) : t.group n = s.group n :=
  congrArg (tget · n) (same_of_rest (c := .groups) h hM)

end

/-- What each step of a fold leaves, the fold leaves. -/
theorem foldl_keeps {α β : Type} (f : State → β) {g : State → α → State} (h : ∀ s x, f (g s x) = f s) (l : List α) (s : State) :
    f (l.foldl g s) = f s := by
  induction l generalizing s with
  | nil => rfl
  | cons x l ih => exact (ih _).trans (h s x)

/-- A due entry whose turn it is leaves the list of entries that act, and nothing else changes (R31). -/
theorem takeDue_of_isTurn {s : State} {c : TtClass} {w : Option Nat} {arg : Nat} (h : isTurn s c w arg = true) :
    ∃ tt, takeDue s c w arg = some { s with tt := tt } := by
  obtain ⟨u, hu⟩ := Option.isSome_iff_exists.mp h
  refine ⟨u.tt, hu.trans ?_⟩
  unfold takeDue at hu
  split at hu
  · cases hu
  · dsimp only at hu
    split at hu
    · cases hu; rfl
    · cases hu

/-! #### A wing but for its contexts -/

/-- A wing with its contexts left out. -/
def outerWing (x : Wing) : Wing := { x with contexts := [] }

/-- Nothing of a wing has changed but one of its contexts, and nothing of any other wing. -/
def OnlyCtx (w c : Nat) (s t : State) : Prop :=
  (∀ v, outerWing (t.wing v) = outerWing (s.wing v)) ∧ ∀ v d, v ≠ w ∨ d ≠ c → t.ctx v d = s.ctx v d

section
variable {w c : Nat} {s t u : State}

theorem onlyCtx_refl (w c : Nat) (s : State) : OnlyCtx w c s s := ⟨fun _ => rfl, fun _ _ _ => rfl⟩

theorem onlyCtx_of_rest {M : List Component} (h : OnlyCtx w c s t) (hr : rest M u = rest M t) (hM : Component.wings ∉ M) :
    OnlyCtx w c s u :=
  ⟨fun v => (congrArg outerWing (wing_of_rest hr hM v)).trans (h.1 v), fun v d hvd => (ctx_of_rest hr hM v d).trans (h.2 v d hvd)⟩

theorem onlyCtx_modCtx (h : OnlyCtx w c s t) (g : Ctx → Ctx) : OnlyCtx w c s (t.modCtx w c g) := by
  refine ⟨fun v => .trans ?_ (h.1 v), fun v d hvd => (State.modCtx_ne _ _ hvd).trans (h.2 v d hvd)⟩
  unfold State.modCtx
  by_cases hv : v = w
  · subst hv; rw [State.modWing_self]; rfl
  · rw [State.modWing_ne _ _ hv]

theorem onlyCtx_foldl {α : Type} {g : State → α → State} (hg : ∀ t x, OnlyCtx w c s t → OnlyCtx w c s (g t x)) (l : List α)
    (h : OnlyCtx w c s t) : OnlyCtx w c s (l.foldl g t) := by
  induction l generalizing t with
  | nil => exact h
  | cons x l ih => exact ih (hg t x h)

theorem onlyCtx_saveTile (h : OnlyCtx w c s t) (n : Nat) : OnlyCtx w c s (saveTile w c t n) := by
  unfold saveTile
  split
  · exact h
  · dsimp only
    split
    · exact h
    · exact onlyCtx_modCtx (onlyCtx_of_rest (M := [.tiles]) h (State.modTile_rest (by decide) _ _ _) (by decide)) _

end

/-- A wing pre-empted runs none of its contexts, and only the one that ran has changed (R250). -/
theorem preempt_running {s : State} {w r : Nat} (h : (s.wing w).running = some r) :
    ∃ u, OnlyCtx w r s u ∧ preempt s w = u.modWing w (fun x => { x with running := none }) := by
  have hstart := onlyCtx_modCtx (onlyCtx_refl w r s) (fun x => { x with saves := [] })
  unfold preempt
  rw [h]
  refine ⟨_, onlyCtx_modCtx (onlyCtx_of_rest (M := [.tickets]) ?_ (parkTickets_rest (by decide) _ _ _) (by decide)) _, rfl⟩
  split
  · exact onlyCtx_foldl (fun _ n ht => onlyCtx_saveTile ht n) _ hstart
  · exact onlyCtx_of_rest (M := [.tiles]) hstart (releaseTiles_rest (by decide) _ _ _) (by decide)

theorem preempt_outer (s : State) (w : Nat) : outerWing ((preempt s w).wing w) = { outerWing (s.wing w) with running := none } := by
  cases h : (s.wing w).running with
  | none =>
    unfold preempt
    rw [h]
    exact congrArg (fun r => { outerWing (s.wing w) with running := r }) h
  | some r =>
    obtain ⟨u, hu, hp⟩ := preempt_running h
    rw [hp, State.modWing_self]
    exact congrArg (fun x : Wing => { x with running := none }) (hu.1 w)

theorem preempt_fields (s : State) (w : Nat) : ((preempt s w).wing w).running = none
    ∧ ((preempt s w).wing w).gen = (s.wing w).gen ∧ ((preempt s w).wing w).nextFresh = (s.wing w).nextFresh := by
  have hrunning := congrArg Wing.running (preempt_outer s w)
  have hgen := congrArg Wing.gen (preempt_outer s w)
  have hfresh := congrArg Wing.nextFresh (preempt_outer s w)
  exact ⟨hrunning, hgen, hfresh⟩

theorem preempt_ctx {s : State} {w d : Nat} (h : (s.wing w).running ≠ some d) : (preempt s w).ctx w d = s.ctx w d := by
  cases hr : (s.wing w).running with
  | none => unfold preempt; rw [hr]
  | some r =>
    obtain ⟨u, hu, hp⟩ := preempt_running hr
    rw [hp]
    unfold State.ctx
    rw [State.modWing_self]
    exact hu.2 w d (.inr fun hd => h (by rw [hr, hd]))

/-- A context runs in a wing that is else as it was, and no record is made. -/
def Resumed (w c : Nat) (s t : State) : Prop :=
  OnlyCtx w c (s.modWing w (fun x => { x with running := some c, clean := false })) t ∧ (t.ctx w c).st = .running
    ∧ t.led.version = s.led.version ∧ t.keeper = s.keeper

section
variable {w c : Nat} {s t u : State}

theorem resumed_fields (h : Resumed w c s t) : (t.wing w).running = some c ∧ (t.wing w).nextFresh = (s.wing w).nextFresh := by
  obtain ⟨⟨houter, -⟩, -⟩ := h
  have houter := houter w
  rw [State.modWing_self] at houter
  have hrunning := congrArg Wing.running houter
  have hfresh := congrArg Wing.nextFresh houter
  exact ⟨hrunning, hfresh⟩

theorem resumed_of_rest {M : List Component} (h : Resumed w c s t) (hr : rest M u = rest M t) (hw : Component.wings ∉ M)
    (hv : Component.version ∉ M) (hk : Component.keeper ∉ M) : Resumed w c s u := by
  obtain ⟨honly, hst, hversion, hkeeper⟩ := h
  exact ⟨onlyCtx_of_rest honly hr hw, by rw [ctx_of_rest hr hw]; exact hst, by rw [version_of_rest hr hv]; exact hversion,
    by rw [keeper_of_rest hr hk]; exact hkeeper⟩

theorem resumed_modCtx (h : Resumed w c s t) {g : Ctx → Ctx} (hg : ∀ x, (g x).st = x.st) : Resumed w c s (t.modCtx w c g) := by
  obtain ⟨honly, hst, hversion, hkeeper⟩ := h
  exact ⟨onlyCtx_modCtx honly g, by rw [State.modCtx_self, hg]; exact hst, hversion, hkeeper⟩

theorem resumed_deliverHeld (h : Resumed w c s t) : Resumed w c s (deliverHeld t w c) := by
  unfold deliverHeld
  refine resumed_of_rest (M := [.tickets]) (resumed_modCtx (resumed_of_rest (M := [.tiles]) h ?_ ?_ ?_ ?_) ?_)
    (spendTickets_rest ?_ _ _) ?_ ?_ ?_
  · simp
  · decide
  · decide
  · decide
  · exact fun _ => rfl
  all_goals decide

end

/-- A context made to run, its tickets open again, before its program starts (R254, R256). -/
def started (s : State) (w c : Nat) : State :=
  mapTickets ((s.modWing w (fun x => { x with running := some c, clean := false })).modCtx w c
      (fun x => { x with st := .running, blocked := .none, stagesRun := 0 })) w c
    (fun t => { t with st := if t.st = .parked then .open_ else t.st })

theorem started_ctx (s : State) (w c : Nat) :
    (started s w c).ctx w c = { s.ctx w c with st := .running, blocked := .none, stagesRun := 0 } := by
  unfold started
  rw [ctx_of_rest (M := [.tickets]) (mapTickets_rest (by decide) _ _ _ _) (by decide), State.modCtx_self]
  unfold State.ctx
  rw [State.modWing_self]

theorem resumed_started (s : State) (w c : Nat) : Resumed w c s (started s w c) :=
  ⟨onlyCtx_of_rest (M := [.tickets]) (onlyCtx_modCtx (onlyCtx_refl _ _ _) _) (mapTickets_rest (by decide) _ _ _ _) (by decide),
    by rw [started_ctx], rfl, rfl⟩

/-- A context that has no pass, or one to run from its start, resumes and runs (R250, R254). -/
theorem resume_resumed {s : State} {w c : Nat}
    (h : (s.ctx w c).pass = none ∨ ((s.ctx w c).ending = none ∧ (s.ctx w c).saves = [])) : Resumed w c s (resume s w c) := by
  have hstart := resumed_started s w c
  have hctx := started_ctx s w c
  unfold started at hstart hctx
  unfold resume
  dsimp only
  rw [hctx]
  dsimp only
  split
  · exact resumed_deliverHeld hstart
  next p hp =>
    obtain ⟨hending, hsaves⟩ := h.resolve_left (by rw [hp]; simp)
    rw [hending, hsaves]
    dsimp only [List.findSome?_nil]
    rw [if_pos rfl]
    refine resumed_deliverHeld (resumed_modCtx ?_ (fun _ => rfl))
    exact resumed_of_rest (M := [.tiles]) hstart (startProgram_rest (by decide) _ _ _ _ _) (by decide) (by decide) (by decide)

/-! #### Roll call (R225) -/

theorem find_rollCall_of_takeDue {s u : State} (h : takeDue s .rollCall none 0 = some u) :
    ∃ e, s.tt.due.find? (fun e => decide (e.cls = TtClass.rollCall)) = some e := by
  unfold takeDue at h
  split at h
  · cases h
  next e he =>
    have hcls := List.find?_some he
    simp only [decide_eq_true_eq] at hcls
    exact Option.isSome_iff_exists.mp (List.find?_isSome.mpr ⟨e, List.mem_of_find?_eq_some he, by simpa using hcls.1⟩)

theorem refreshBody_running {s : State} (hup : s.keeper.up = true) (hstop : s.fabric.stopped = false) :
    refreshBody s = { s with fabric := { s.fabric with heartbeat := (s.fabric.heartbeat + 1) % 2 ^ 32, staleRounds := 0 } } := by
  unfold refreshBody
  simp [State.modFabric, hup, hstop]

theorem sendEntry_fabric (s : State) (m : Nat) :
    (sendEntry s m).fabric = { s.fabric with sent := some (bodyToSend s m), unsent := 0
                                             joined := if s.fabric.withdrawn then s.fabric.joined + 1 else s.fabric.joined } :=
  fabric_of_rest (M := [.ports]) (rest_foldl _ _ _ (fun _ _ => sendOn_rest (by decide) _ _ _)) (by decide)

theorem sendEntry_clock (s : State) (m : Nat) : (sendEntry s m).clock = s.clock :=
  clock_of_rest (sendEntry_rest (List.Subset.refl _) s m) (by decide)

theorem bodyToSend_running {s : State} (hup : s.keeper.up = true) (m : Nat) : bodyToSend s m = prepareBody s m := if_pos hup

theorem rollCall_done {s : State} (h : stageCompletes .rollCall s = true) : stageDone .rollCall s (rollCall s) := by
  simp only [stageCompletes, Bool.and_eq_true, Bool.not_eq_true'] at h
  obtain ⟨⟨hturn, hup⟩, hstop⟩ := h
  obtain ⟨tt, ht⟩ := takeDue_of_isTurn hturn
  obtain ⟨e, he⟩ := find_rollCall_of_takeDue ht
  unfold rollCall
  rw [he, ht]
  dsimp only
  have hbody := refreshBody_running (s := { s with tt := tt }.modFabric (fun f => { f with round := some e.mp })) hup hstop
  rw [hbody]
  by_cases hlate : e.mp = s.clock.count
  · rw [if_neg (by simp [State.modFabric, hstop, hlate])]
    refine ⟨⟨e, he, ?_, fun _ => ⟨_, by rw [sendEntry_fabric], ?_⟩⟩, ?_, ?_, ?_⟩
    · rw [sendEntry_fabric]; rfl
    · rw [bodyToSend_running (by exact hup)]
      exact ⟨rfl, rfl, rfl⟩
    · rw [sendEntry_fabric]; rfl
    · rw [sendEntry_fabric]; rfl
    · rw [sendEntry_clock]; rfl
  · rw [if_pos (.inr hlate)]
    exact ⟨⟨e, he, rfl, fun h => absurd h hlate⟩, rfl, rfl, rfl⟩

/-! #### Tickets spent (R257, R277) -/

theorem tlook_mem {α : Type} {t : Tbl α} {n : Nat} {x : α} (h : tlook t n = some x) : (n, x) ∈ t := by
  induction t with
  | nil => cases h
  | cons p t ih =>
    obtain ⟨k, y⟩ := p
    unfold tlook at h
    split at h
    next hk => cases h; cases hk; exact List.mem_cons_self
    · exact List.mem_cons_of_mem _ (ih h)

theorem tget_mem {α : Type} [Inhabited α] {t : Tbl α} {n : Nat} (h : tget t n ≠ default) : (n, tget t n) ∈ t := by
  unfold tget tgetD at h ⊢
  cases hl : tlook t n with
  | none => rw [hl] at h; exact absurd rfl h
  | some x => exact tlook_mem hl

/-- One ticket of a table spent where it is live and meets a test. -/
def spendOne (f : Nat → Ticket → Bool) (u : Tbl Ticket) (p : Nat × Ticket) : Tbl Ticket :=
  if p.2.live && f p.1 p.2 then tput u p.1 { (default : Ticket) with wing := p.2.wing } else u

theorem spendTickets_eq (s : State) (f : Nat → Ticket → Bool) :
    spendTickets s f = { s with tickets := s.tickets.foldl (spendOne f) s.tickets } := rfl

/-- Of the tickets gone through, one that is still live is as it was, and none of its entries met the test. -/
theorem tget_foldl_spendOne {f : Nat → Ticket → Bool} (l : List (Nat × Ticket)) {u : Tbl Ticket} {n : Nat}
    (h : (tget (l.foldl (spendOne f) u) n).live = true) :
    tget (l.foldl (spendOne f) u) n = tget u n ∧ ∀ x, (n, x) ∈ l → (x.live && f n x) = false := by
  induction l generalizing u with
  | nil => exact ⟨rfl, fun x hx => nomatch hx⟩
  | cons p l ih =>
    obtain ⟨k, y⟩ := p
    rw [List.foldl_cons] at h ⊢
    obtain ⟨hsame, hrest⟩ := ih h
    rw [hsame] at h ⊢
    by_cases htest : (y.live && f k y) = true
    · have hone : spendOne f u (k, y) = tput u k { (default : Ticket) with wing := y.wing } := if_pos htest
      rw [hone] at h ⊢
      by_cases hk : n = k
      · subst hk; rw [tget_tput_self] at h; cases h
      · exact ⟨tget_tput_ne _ _ hk, fun x hx => (List.mem_cons.mp hx).elim (fun hx => absurd (congrArg Prod.fst hx) hk) (hrest x)⟩
    · have hone : spendOne f u (k, y) = u := if_neg htest
      rw [hone]
      exact ⟨rfl, fun x hx => (List.mem_cons.mp hx).elim (fun hx => by cases hx; simpa using htest) (hrest x)⟩

/-- After tickets are spent, one that is live was so, and does not meet the test. -/
theorem spendTickets_live {s : State} {f : Nat → Ticket → Bool} {n : Nat} (h : (tget (spendTickets s f).tickets n).live = true) :
    tget (spendTickets s f).tickets n = tget s.tickets n ∧ f n (tget s.tickets n) = false := by
  rw [spendTickets_eq] at h ⊢
  obtain ⟨hsame, hnone⟩ := tget_foldl_spendOne _ h
  dsimp only at h
  rw [hsame] at h
  have hin := tget_mem (t := s.tickets) (n := n) (fun hd => by rw [hd] at h; cases h)
  exact ⟨hsame, by simpa [h] using hnone _ hin⟩

/-! #### Failover (R277) -/

theorem failTickets_tickets (gone : List Nat) (s : State) :
    (failTickets gone s).tickets = (spendTickets s (fun _ t => gone.contains t.peer)).tickets :=
  tickets_of_rest (rest_foldl _ _ _ (fun _ _ => failPass_rest (List.Subset.refl _) _ _ _ _)) (by decide)

theorem failover_done {s : State} (h : stageCompletes .failover s = true) : stageDone .failover s (failover s) := by
  obtain ⟨tt, ht⟩ := takeDue_of_isTurn h
  have hrings (l : List Nat) (u : State) := rest_foldl (failoverRing s.fabric.departed) l u
    (fun _ _ => failoverRing_rest (List.Subset.refl _) _ _ _)
  unfold failover
  rw [ht]
  dsimp only
  constructor
  · rw [fabric_of_rest (hrings _ _) (by decide), fabric_of_rest (failTickets_rest (List.Subset.refl _) _ _) (by decide),
      fabric_of_rest (rest_foldl _ _ _ (fun _ _ => failGroup_rest (List.Subset.refl _) _ _)) (by decide)]
    rfl
  · intro n hn
    rw [tickets_of_rest (hrings _ _) (by decide), failTickets_tickets] at hn ⊢
    obtain ⟨hsame, hpeer⟩ := spendTickets_live hn
    rw [hsame]
    simpa using hpeer

/-! #### Ticket expiry (R257) -/

/-- Ticket `n` does not wait for its completion. -/
def Spent (n : Nat) (s : State) : Prop := ¬waits (tget s.tickets n)

theorem spent_spendTickets {s : State} {n : Nat} (h : Spent n s) (f : Nat → Ticket → Bool) : Spent n (spendTickets s f) := by
  intro hw
  rw [Spent, ← (spendTickets_live hw.1).1] at h
  exact h hw

theorem spent_of_rest {M : List Component} {n : Nat} {s t : State} (h : Spent n s) (hr : rest M t = rest M s)
    (hM : Component.tickets ∉ M) : Spent n t := by
  unfold Spent; rw [tickets_of_rest hr hM]; exact h

theorem failGroup_tickets (s : State) (n : Nat) : (failGroup s n).tickets = s.tickets
    ∨ (failGroup s n).tickets = (dropTicket s.bump (s.group n).ticket).tickets := by
  unfold failGroup
  dsimp only
  split
  · exact .inl rfl
  · refine .inr ?_
    rw [tickets_of_rest (M := [.fns, .keeper, .sessions, .longs]) (finishIn_rest (by decide) _ _ _ _) (by decide)]
    rfl

theorem spent_failGroup {s : State} {n : Nat} (h : Spent n s) (g : Nat) : Spent n (failGroup s g) := by
  have hbump : Spent n s.bump := spent_of_rest h (State.bump_rest (List.Subset.refl _) s) (by decide)
  unfold Spent
  rcases failGroup_tickets s g with hsame | hdrop
  · rw [hsame]; exact h
  · rw [hdrop]
    cases (s.group g).ticket with
    | none => exact hbump
    | some m => exact spent_spendTickets hbump _

theorem spent_foldl {α : Type} {n : Nat} {g : State → α → State} (hg : ∀ s x, Spent n s → Spent n (g s x)) (l : List α) {s : State}
    (h : Spent n s) : Spent n (l.foldl g s) := by
  induction l generalizing s with
  | nil => exact h
  | cons x l ih => exact ih (hg s x h)

/-- A ticket expired waits no more, nor does one that did not wait before. -/
theorem spent_expireTicket {s : State} {n m : Nat} (h : n = m ∨ Spent n s) : Spent n (expireTicket s m) := by
  have hput : Spent n { s with tickets := tput s.tickets m { tget s.tickets m with st := .expired } } := by
    unfold Spent
    by_cases hnm : n = m
    · subst hnm; dsimp only; rw [tget_tput_self]; simp [waits]
    · dsimp only; rw [tget_tput_ne _ _ hnm]; exact h.resolve_left hnm
  unfold expireTicket
  dsimp only
  have hgroups (l : List Nat) := spent_foldl (fun _ g hs => spent_failGroup hs g) l hput
  split
  · exact hgroups _
  split
  · exact spent_of_rest (hgroups _) (failPass_rest (List.Subset.refl _) _ _ _ _) (by decide)
  · exact spent_of_rest (hgroups _) ((unpark_rest (List.Subset.refl _) _ _ _).trans (State.modCtx_rest (by decide) _ _ _ _)) (by decide)

theorem spent_expired (l : List Nat) {s : State} {n : Nat} (h : n ∈ l) : Spent n (l.foldl expireTicket s) := by
  induction l generalizing s with
  | nil => cases h
  | cons m l ih =>
    by_cases hl : n ∈ l
    · exact ih hl
    · exact spent_foldl (fun _ _ hs => spent_expireTicket (.inr hs)) l (spent_expireTicket (.inl ((List.mem_cons.mp h).resolve_right hl)))

theorem ticketExpiry_done {s : State} {w : Nat} (h : stageCompletes (.ticketExpiry w) s = true) :
    stageDone (.ticketExpiry w) s (ticketExpiry w s) := by
  simp only [stageCompletes, Bool.and_eq_true] at h
  obtain ⟨tt, ht⟩ := takeDue_of_isTurn h.2
  unfold ticketExpiry
  rw [ht]
  intro n hwait hwing hdeadline
  refine spent_expired _ (List.mem_map.mpr ⟨(n, tget s.tickets n), ?_, rfl⟩)
  obtain ⟨hlive, hst⟩ := hwait
  have hin := tget_mem (t := s.tickets) (n := n) (fun hd => by rw [hd] at hlive; cases hlive)
  simp [openTickets, hin, hlive, hst, hwing, hdeadline]

/-! #### Fences (R443) -/

theorem fenceWing_wing {s : State} {w : Nat} (hlive : (s.wing w).live = true) : (fenceWing s w).wing w =
    { (preempt s w).wing w with fenced := true
                                wantSwitch := ((preempt s w).wing w).wantSwitch && ((preempt s w).wing w).removing.isSome } := by
  unfold fenceWing
  rw [if_neg (by simp [hlive])]
  dsimp only
  rw [wing_of_rest (notify_rest (List.Subset.refl _) _ _ _ _) (by decide), wing_of_rest (endHostLoads_rest (List.Subset.refl _) _ _) (by decide),
    wing_of_rest (endTransfers_rest (List.Subset.refl _) _ _) (by decide), wing_of_rest (State.bump_rest (List.Subset.refl _) _) (by decide)]
  exact State.modWing_self _ _ _

theorem fenceWing_done {s : State} {w : Nat} (hlive : (s.wing w).live = true) :
    ((fenceWing s w).wing w).fenced = true ∧ ((fenceWing s w).wing w).running = none ∧ ((fenceWing s w).wing w).gen = (s.wing w).gen := by
  obtain ⟨hrunning, hgen, -⟩ := preempt_fields s w
  rw [fenceWing_wing hlive]
  exact ⟨rfl, hrunning, hgen⟩

theorem fenceEntry_done {s : State} {w : Nat} (h : stageCompletes (.fenceEntry w) s = true) :
    stageDone (.fenceEntry w) s (fenceEntry w s) := by
  simp only [stageCompletes, Bool.and_eq_true] at h
  obtain ⟨⟨-, hturn⟩, hlive⟩ := h
  obtain ⟨tt, ht⟩ := takeDue_of_isTurn hturn
  unfold fenceEntry
  rw [ht]
  exact fenceWing_done (s := { s with tt := tt, porter := _ }) hlive

/-! #### Cellar slots (R412) and the digest sweep (R289, R296) -/

theorem foldl_modWing (g : Wing → Wing) {l : List Nat} (hl : l.Nodup) (s : State) (w : Nat) :
    (l.foldl (fun s v => s.modWing v g) s).wing w = if w ∈ l then g (s.wing w) else s.wing w := by
  induction l generalizing s with
  | nil => rfl
  | cons v l ih =>
    obtain ⟨hv, hl⟩ := List.nodup_cons.mp hl
    rw [List.foldl_cons, ih hl]
    by_cases hw : w = v
    · subst hw; simp [hv]
    · simp [hw, State.modWing_ne]

theorem nodup_liveWings (s : State) : s.liveWings.Nodup := List.nodup_range.filter _

theorem mem_liveWings {s : State} {w : Nat} : w ∈ s.liveWings ↔ w < 16 ∧ (s.wing w).live = true := by
  simp [State.liveWings, upTo]

theorem cellarSlot_done {s : State} (h : stageCompletes .cellarSlot s = true) : stageDone .cellarSlot s (cellarSlot s) := by
  obtain ⟨tt, ht⟩ := takeDue_of_isTurn h
  unfold cellarSlot
  rw [ht]
  dsimp only
  refine ⟨?_, fun w hw hlive => ?_, fun w hlive => ?_⟩
  · exact congrArg Cellar.frame (foldl_keeps (·.cellar) (g := fun s w => State.modWing s w _) (fun _ _ => rfl) _ _)
  · exact (foldl_modWing _ (nodup_liveWings _) _ w).trans (if_pos (mem_liveWings.mpr ⟨hw, hlive⟩))
  · exact (foldl_modWing _ (nodup_liveWings _) _ w).trans (if_neg fun hin => by cases (mem_liveWings.mp hin).2.symm.trans hlive)

theorem digestSweep_done {s : State} (h : stageCompletes .digestSweep s = true) : stageDone .digestSweep s (digestSweep s) := by
  obtain ⟨tt, ht⟩ := takeDue_of_isTurn h
  unfold digestSweep
  rw [ht]
  dsimp only
  cases hv : s.cellar.visiting with
  | some k => simp [State.modCellar, hv, stageDone]
  | none =>
    simp only [State.modCellar, hv]
    by_cases hvalid : (s.shard s.cellar.nextShard).st = .valid ∧ cellarOn s = true
    · refine (congrArg (stageDone .digestSweep s) (if_pos hvalid)).mpr ?_
      exact ⟨rfl, fun k hk => (nomatch hv.symm.trans hk), fun _ => ⟨rfl, fun _ _ => rfl, fun hne => absurd hvalid.1 hne⟩⟩
    · refine (congrArg (stageDone .digestSweep s) (if_neg hvalid)).mpr ?_
      exact ⟨rfl, fun k hk => (nomatch hv.symm.trans hk),
        fun _ => ⟨rfl, fun hst hon => absurd ⟨hst, hon⟩ hvalid, fun _ => ⟨rfl, rfl⟩⟩⟩

/-! #### Stage starts (R248) -/

theorem bump_version (s : State) : s.bump.led.version = if s.keeper.up then s.led.version + 1 else s.led.version := by
  cases hup : s.keeper.up with
  | true => rw [bump_up hup]; rfl
  | false => rw [bump_down hup]; rfl

/-- What a switch leaves of a wing (R254): the context named runs, and a record is made where another ran. -/
structure Switched (s t : State) (w : Nat) (c : Option Nat) : Prop where
  running : (t.wing w).running = c
  nextFresh : (t.wing w).nextFresh = (s.wing w).nextFresh
  runs : ∀ d, c = some d → (s.wing w).running ≠ some d → (t.ctx w d).st = .running
  same : c = (s.wing w).running → t.led.version = s.led.version
  recorded : c ≠ (s.wing w).running → s.keeper.up = true → t.led.version = s.led.version + 1

/-- A switch to another context that keeps its pass, before its record. -/
theorem resume_preempt {s : State} {w d : Nat} (hr : (s.wing w).running ≠ some d) (hc : plainResume s w d = true) :
    Resumed w d (preempt s w) (resume (preempt s w) w d) := by
  refine resume_resumed ?_
  rw [preempt_ctx hr]
  simpa [plainResume] using hc

theorem switchTo_switched {s : State} {w : Nat} {c : Option Nat} (hc : plainTarget s w c = true) : Switched s (switchTo s w c) w c := by
  have hprerest : rest [.tickets, .tiles, .wings] (preempt s w) = rest [.tickets, .tiles, .wings] s := preempt_rest (by decide) s w
  have hkeeper : (preempt s w).keeper = s.keeper := keeper_of_rest hprerest (by decide)
  have hversion : (preempt s w).led.version = s.led.version := version_of_rest hprerest (by decide)
  have hbump (u : State) : rest [.keeper, .version] u.bump = rest [.keeper, .version] u := State.bump_rest (by decide) u
  obtain ⟨hnone, -, hfresh⟩ := preempt_fields s w
  unfold switchTo
  split
  next hr => exact ⟨hr, rfl, fun d hd hne => absurd (hr.trans hd) hne, fun _ => rfl, fun hne => absurd hr.symm hne⟩
  next hr =>
    cases c with
    | none =>
      refine ⟨?_, ?_, fun d hd => (nomatch hd), fun h => absurd h.symm hr, fun _ hup => ?_⟩
      · rw [wing_of_rest (hbump _) (by decide), hnone]
      · rw [wing_of_rest (hbump _) (by decide), hfresh]
      · rw [bump_version, hkeeper, if_pos hup, hversion]
    | some d =>
      have hplain : plainResume s w d = true := by
        simpa [plainTarget, hr] using hc
      have hres := resume_preempt hr hplain
      obtain ⟨hrunning, hkept⟩ := resumed_fields hres
      obtain ⟨-, hst, hv, hk⟩ := hres
      refine ⟨?_, ?_, fun e he _ => ?_, fun h => absurd h.symm hr, fun _ hup => ?_⟩
      · rw [wing_of_rest (hbump _) (by decide), hrunning]
      · rw [wing_of_rest (hbump _) (by decide), hkept, hfresh]
      · cases he; rw [ctx_of_rest (hbump _) (by decide), hst]
      · rw [bump_version, hk, hkeeper, if_pos hup, hv, hversion]

theorem switchTo_clock (s : State) (w : Nat) (c : Option Nat) : (switchTo s w c).clock = s.clock :=
  clock_of_rest (switchTo_rest (List.Subset.refl _) s w c) (by decide)

/-- Neither the register's freshness nor the timetable bears on whether a target keeps its pass. -/
theorem plainTarget_fresh (s : State) (tt : Timetable) (w : Nat) (c : Option Nat) :
    plainTarget ({ s with tt := tt }.modWing w (fun x => { x with nextFresh := false })) w c = plainTarget s w c := by
  unfold plainTarget plainResume State.ctx
  rw [State.modWing_self]
  rfl

theorem stageStart_done {s : State} {w : Nat} (h : stageCompletes (.stageStart w) s = true) :
    stageDone (.stageStart w) s (stageStart w s) := by
  simp only [stageCompletes, Bool.and_eq_true] at h
  obtain ⟨⟨⟨-, hturn⟩, hmay⟩, htarget⟩ := h
  obtain ⟨tt, ht⟩ := takeDue_of_isTurn hturn
  rw [← plainTarget_fresh s tt] at htarget
  obtain ⟨hrunning, hfresh, hruns, hsame, hrecorded⟩ := switchTo_switched htarget
  rw [State.modWing_self] at hfresh hruns hsame hrecorded
  have hgo : ¬(!mayStage s (s.wing w)) = true := by simp [hmay]
  unfold stageStart
  rw [ht]
  refine (congrArg (stageDone (.stageStart w) s) (if_neg hgo)).mpr ?_
  refine ⟨?_, ?_, ?_, fun c hc hne => ?_, hsame, hrecorded⟩
  · rw [State.modWing_self]; exact hrunning
  · rw [State.modWing_self, switchTo_clock]; rfl
  · rw [State.modWing_self]; exact hfresh
  · unfold State.ctx
    rw [State.modWing_self]
    exact hruns c hc hne

/-! #### Stage ends (R243, R247) -/

theorem boundaryStage_stage (m : Nat) (x : Wing) : (boundaryStage m x).stage = x.nextStage := by
  unfold boundaryStage
  dsimp only
  split <;> split <;> simp_all

theorem boundaryStage_keeps (m : Nat) (x : Wing) :
    (boundaryStage m x).contexts = x.contexts ∧ (boundaryStage m x).change = x.change := by
  unfold boundaryStage
  dsimp only
  split <;> split <;> exact ⟨rfl, rfl⟩

theorem stage_modWing {s : State} {w : Nat} {g : Wing → Wing} (hg : ∀ x, (g x).stage = x.stage) (v : Nat) :
    ((s.modWing w g).wing v).stage = (s.wing v).stage := by
  by_cases hv : v = w
  · subst hv; rw [State.modWing_self, hg]
  · rw [State.modWing_ne _ _ hv]

theorem stage_of_rest {M : List Component} {s t : State} (h : rest M t = rest M s) (hM : Component.wings ∉ M) (v : Nat) :
    (t.wing v).stage = (s.wing v).stage :=
  congrArg Wing.stage (wing_of_rest h hM v)

theorem modCtx_stage (s : State) (w c : Nat) (g : Ctx → Ctx) (v : Nat) : ((s.modCtx w c g).wing v).stage = (s.wing v).stage := by
  unfold State.modCtx
  rw [stage_modWing]
  exact fun _ => rfl

theorem discardBanks_stage (s : State) (w v : Nat) : ((discardBanks s w).wing v).stage = (s.wing v).stage := by
  unfold discardBanks
  rw [stage_modWing]
  exact fun _ => rfl

theorem settleContext_stage (s : State) (w c v : Nat) : ((settleContext s w c).wing v).stage = (s.wing v).stage := by
  unfold settleContext
  dsimp only
  split
  · split
    · exact (stage_modWing (g := fun x => { x with wantSwitch := true }) (fun _ => rfl) v).trans (modCtx_stage _ _ _ _ v)
    · exact modCtx_stage _ _ _ _ v
  · rfl

theorem endPassIn_stage (s : State) (w c : Nat) (st : Status) (v : Nat) : ((endPassIn s w c st).wing v).stage = (s.wing v).stage := by
  unfold endPassIn
  split
  · rfl
  next p _ =>
    have hrefs : ((releaseRefs (releaseTiles (chargeRows s p.rows) w c) p).wing v).stage = (s.wing v).stage := by
      rw [stage_of_rest (releaseRefs_rest (List.Subset.refl _) _ _) (by decide),
        stage_of_rest (M := [.tiles]) (releaseTiles_rest (by decide) _ _ _) (by decide),
        stage_of_rest (M := [.tally]) (chargeRows_rest (by decide) _ _) (by decide)]
    dsimp only
    rw [settleContext_stage, stage_of_rest (finishIn_rest (List.Subset.refl _) _ _ _ _) (by decide),
      stage_of_rest (M := [.objects]) (releaseTable_rest (by decide) _ _) (by decide)]
    split
    · rw [discardBanks_stage, modCtx_stage, hrefs]
    · rw [modCtx_stage, hrefs]

theorem dropQueue_stage (s : State) (w c : Nat) (st : Status) (v : Nat) : ((dropQueue s w c st).wing v).stage = (s.wing v).stage := by
  unfold dropQueue
  rw [stage_of_rest (rest_foldl _ _ _ (fun _ _ => dropQueued_rest (List.Subset.refl _) _ _ _)) (by decide)]
  exact modCtx_stage _ _ _ _ v

theorem dropShaped_stage (s : State) (w : Nat) (forced : Bool) (v : Nat) : ((dropShaped s w forced).wing v).stage = (s.wing v).stage := by
  unfold dropShaped
  split
  · rfl
  · exact foldl_keeps (fun s => (s.wing v).stage) (fun s c => (dropQueue_stage _ _ _ _ _).trans (endPassIn_stage _ _ _ _ _)) _ _

theorem applyChange_stage (s : State) (w v : Nat) : ((applyChange s w).wing v).stage = (s.wing v).stage := by
  unfold applyChange
  dsimp only
  split
  · rfl
  split
  · rfl
  · rw [stage_of_rest (notify_rest (List.Subset.refl _) _ _ _ _) (by decide),
      stage_of_rest (M := [.tiles]) (settleGates_rest (by decide) _) (by decide), stage_modWing]
    · exact stage_of_rest (M := [.keeper, .version, .tiles, .objects]) (by simp) (by decide) v
    · exact fun _ => rfl

theorem boundaryTiles_stage (s : State) (w v : Nat) : ((boundaryTiles s w).wing v).stage = (s.wing v).stage := by
  unfold boundaryTiles
  split
  · rfl
  · split
    · exact (applyChange_stage _ _ _).trans (dropShaped_stage _ _ _ _)
    · rfl

theorem boundaryTiles_unchanged {s : State} {w : Nat} (h : (s.wing w).change = none) : boundaryTiles s w = s := by
  unfold boundaryTiles; rw [h]

theorem tlook_of_trising {α : Type} {b k : Nat} {l : Tbl α} (hl : trising b l = true) (hk : k < b) : tlook l k = none := by
  induction l generalizing b with
  | nil => rfl
  | cons p l ih =>
    obtain ⟨j, x⟩ := p
    simp only [trising, Bool.and_eq_true, decide_eq_true_eq] at hl
    have hj : j ≠ k := by omega
    simp only [tlook, hj, if_false]
    exact ih hl.2 (by omega)

/-- A table's own numbers written with values of its own entries. -/
theorem tget_foldl_tput {α : Type} [DecidableEq α] [Inhabited α] (f : Nat × α → α) {b : Nat} {l : Tbl α} (hl : trising b l = true)
    (t : Tbl α) (k : Nat) :
    tget (l.foldl (fun t c => tput t c.1 (f c)) t) k = ((tlook l k).map (fun x => f (k, x))).getD (tget t k) := by
  induction l generalizing b t with
  | nil => rfl
  | cons p l ih =>
    obtain ⟨j, x⟩ := p
    simp only [trising, Bool.and_eq_true] at hl
    rw [List.foldl_cons, ih hl.2]
    by_cases hk : j = k
    · subst hk
      simp [tlook, tlook_of_trising hl.2 (Nat.lt_succ_self j)]
    · rw [tget_tput_ne _ _ (Ne.symm hk)]
      simp [tlook, hk]

/-- A canonical table's values changed, where a blank value has the same reading before and after. -/
theorem tget_foldl_tput_reads {α β : Type} [DecidableEq α] [Inhabited α] {f : Nat × α → α} {l : Tbl α} (hl : twf default l = true)
    {read read' : α → β} (hf : ∀ p, read (f p) = read' p.2) (hd : read default = read' default) (k : Nat) :
    read (tget (l.foldl (fun t c => tput t c.1 (f c)) l) k) = read' (tget l k) := by
  rw [tget_foldl_tput f (Bool.and_elim_left hl)]
  unfold tget tgetD
  cases hk : tlook l k with
  | none => exact hd
  | some x => exact hf (k, x)

theorem stageEnd_done {s : State} {w : Nat} (h : stageCompletes (.stageEnd w) s = true) :
    stageDone (.stageEnd w) s (stageEnd w s) := by
  simp only [stageCompletes, Bool.and_eq_true] at h
  obtain ⟨tt, ht⟩ := takeDue_of_isTurn h.2
  unfold stageEnd
  rw [ht]
  dsimp only
  refine ⟨?_, fun hchange hwf c => ?_, fun hchange v hv => ?_⟩
  · rw [boundaryTiles_stage, State.modWing_self, boundaryStage_stage]; rfl
  · rw [boundaryTiles_unchanged]
    · unfold State.ctx
      rw [State.modWing_self, (boundaryStage_keeps _ _).1]
      refine ⟨?_, ?_, ?_, ?_⟩
      · exact tget_foldl_tput_reads (read := (·.latency)) (read' := (·.nextLatency)) hwf (fun p => by split <;> rfl) rfl c
      · exact tget_foldl_tput_reads (read := (·.runLen)) (read' := (·.nextRunLen)) hwf (fun p => by split <;> rfl) rfl c
      · exact tget_foldl_tput_reads (read := (·.idleHint)) (read' := (·.nextIdleHint)) hwf (fun p => by split <;> rfl) rfl c
      · exact tget_foldl_tput_reads (read := (·.st)) (read' := (·.st)) hwf (fun p => by split <;> rfl) rfl c
    · rw [State.modWing_self, (boundaryStage_keeps _ _).2]; exact hchange
  · rw [boundaryTiles_unchanged]
    · exact State.modWing_ne _ _ hv
    · rw [State.modWing_self, (boundaryStage_keeps _ _).2]; exact hchange

/-! #### Scrubs (R245) -/

/-- What each step of a fold over parts makes hold of its own part, and leaves of the others, holds of every part gone through. -/
theorem foldl_reaches {P : Nat → State → Prop} {g : State → Nat → State} (hself : ∀ s p, P p (g s p))
    (hkeep : ∀ s p q, P q s → P q (g s p)) {l : List Nat} {q : Nat} (hq : q ∈ l) (s : State) : P q (l.foldl g s) := by
  have hafter (l : List Nat) (s : State) (h : P q s) : P q (l.foldl g s) := by
    induction l generalizing s with
    | nil => exact h
    | cons p l ih => exact ih _ (hkeep s p q h)
  induction l generalizing s with
  | nil => cases hq
  | cons p l ih =>
    rcases List.mem_cons.mp hq with rfl | hq
    · exact hafter l _ (hself s q)
    · exact ih hq _

/-- A tile whose stores are cleared and whose engine is idle (R245). -/
def TileClear (p : Nat) (s : State) : Prop := (s.tile p).store = [] ∧ (s.tile p).accs = [] ∧ (s.tile p).engine = default

theorem clearTiles_clear {l : List Nat} {q : Nat} (hq : q ∈ l) (s : State) : TileClear q (clearTiles s l) := by
  refine foldl_reaches (P := TileClear) (fun s p => ?_) (fun s p q h => ?_) hq s
  · unfold TileClear; rw [State.modTile_self]; exact ⟨rfl, rfl, rfl⟩
  · by_cases hpq : q = p
    · subst hpq; unfold TileClear; rw [State.modTile_self]; exact ⟨rfl, rfl, rfl⟩
    · unfold TileClear; rw [State.modTile_ne _ _ hpq]; exact h

/-- A port that holds no frame to send again and none received in part (R245). -/
def PortClear (p : Nat) (s : State) : Prop := (s.port p).replay = [] ∧ (s.port p).rx = []

theorem clearPorts_clear {l : List Nat} {q : Nat} (hq : q ∈ l) (s : State) : PortClear q (clearPorts s l) := by
  refine foldl_reaches (P := PortClear) (fun s p => ?_) (fun s p q h => ?_) hq s
  · unfold PortClear; rw [State.modPort_self]; exact ⟨rfl, rfl⟩
  · by_cases hpq : q = p
    · subst hpq; unfold PortClear; rw [State.modPort_self]; exact ⟨rfl, rfl⟩
    · unfold PortClear; rw [State.modPort_ne _ _ hpq]; exact h

theorem tlook_filter {α : Type} (q : Nat → Bool) (l : Tbl α) (k : Nat) :
    tlook (l.filter (fun p => q p.1)) k = if q k then tlook l k else none := by
  induction l with
  | nil => simp [tlook]
  | cons p l ih =>
    obtain ⟨j, x⟩ := p
    by_cases hj : j = k
    · subst hj
      cases hq : q j <;> simp [tlook, hq, ih]
    · cases hq : q j <;> simp [tlook, hq, ih, hj]

theorem mread_mclear (m : Mem) (a n b : Nat) : mread (mclear m a n) b = if a ≤ b ∧ b < a + n then 0 else mread m b := by
  unfold mread tgetD mclear
  rw [tlook_filter (fun i => decide (i < a) || decide (a + n ≤ i))]
  by_cases h : a ≤ b ∧ b < a + n
  · rw [if_pos h, if_neg (by simp; omega)]; rfl
  · rw [if_neg h, if_pos (by simp; omega)]

/-- Every byte of a slice that is cleared reads 0. -/
theorem mread_clearSlices {m : Mem} {l : List Nat} {k b : Nat} (h : k ∈ l ∨ mread m (k * 2 ^ 20 + b) = 0) (hb : b < 2 ^ 20) :
    mread (l.foldl (fun q i => mclear q (i * 2 ^ 20) (2 ^ 20)) m) (k * 2 ^ 20 + b) = 0 := by
  induction l generalizing m with
  | nil => exact h.resolve_left (by simp)
  | cons i l ih =>
    refine ih ?_
    rw [mread_mclear]
    by_cases hi : k = i
    · subst hi; exact .inr (if_pos ⟨by omega, by omega⟩)
    · refine h.imp (fun h => (List.mem_cons.mp h).resolve_left hi) (fun h => ?_)
      rw [h]; split <;> rfl

theorem mem_maskList {n m i : Nat} : i ∈ maskList n m ↔ i < n ∧ m.testBit i = true := by
  simp [maskList]

section
variable (s : State) (w : Nat)

theorem scrubClear_tile {p : Nat} (hp : p ∈ wingTiles s w) : TileClear p (scrubClear s w) := by
  have hports (u : State) (l : List Nat) : (clearPorts u l).tile p = u.tile p :=
    congrArg (tget · p) (same_of_rest (c := .tiles) (clearPorts_rest (M := [.ports]) (by decide) u l) (by decide))
  have hclear := clearTiles_clear hp (clearRanges s (s.wing w))
  unfold TileClear at hclear
  rw [← hports _ (maskList 36 (s.wing w).ports)] at hclear
  exact hclear

theorem scrubClear_port {p : Nat} (hp : p ∈ maskList 36 (s.wing w).ports) : PortClear p (scrubClear s w) :=
  clearPorts_clear hp _

theorem scrubClear_wing : ((scrubClear s w).wing w).programs = [] ∧ ((scrubClear s w).wing w).watch = [] := by
  have hwing : (scrubClear s w).wing w = _ := State.modWing_self _ _ _
  rw [hwing]
  exact ⟨rfl, rfl⟩

theorem scrubClear_qmem {k b : Nat} (hk : k ∈ maskList 256 (s.wing w).slices) (hb : b < 2 ^ 20) :
    mread (scrubClear s w).qmem (k * 2 ^ 20 + b) = 0 :=
  mread_clearSlices (.inl hk) hb

end

theorem scrub_done {s : State} {w : Nat} (h : stageCompletes (.scrub w) s = true) :
    stageDone (.scrub w) s (scrub w s) := by
  simp only [stageCompletes, Bool.and_eq_true, Option.isNone_iff_eq_none] at h
  obtain ⟨⟨⟨⟨-, hturn⟩, hlive⟩, hsealed⟩, hscrub⟩ := h
  obtain ⟨tt, ht⟩ := takeDue_of_isTurn hturn
  have hgo : ¬(!(s.wing w).live || !(s.wing w).sealed || (s.wing w).scrub.isSome) = true := by simp [hlive, hsealed, hscrub]
  let u : State := { s with tt := tt }
  unfold scrub
  rw [ht]
  refine (congrArg (stageDone (.scrub w) s) (if_neg hgo)).mpr ?_
  refine ⟨⟨_, by rw [State.modWing_self], rfl, rfl⟩, fun p hp => scrubClear_tile u w hp,
    fun k b hk hlt hb => scrubClear_qmem u w (mem_maskList.mpr ⟨hlt, hk⟩) hb, ?_, ?_,
    fun p hp hlt => scrubClear_port u w (mem_maskList.mpr ⟨hlt, hp⟩)⟩
  · rw [State.modWing_self]; exact (scrubClear_wing u w).1
  · rw [State.modWing_self]; exact (scrubClear_wing u w).2

/-! #### Collectives (R289) -/

theorem awaitBlock_post (s : State) (n m peer : Nat) :
    ((awaitBlock s n peer).group m).post = (s.group m).post ∧ ((awaitBlock s n peer).group m).started = (s.group m).started := by
  unfold awaitBlock
  dsimp only
  split
  · by_cases hm : m = n
    · subst hm; rw [State.modGroup_self]; exact ⟨rfl, rfl⟩
    · rw [State.modGroup_ne _ _ hm]; exact ⟨rfl, rfl⟩
  · exact ⟨rfl, rfl⟩

/-- A group poked keeps its post, and one that had started goes on (R290). -/
theorem pokeGroup_post (s : State) (n : Nat) :
    ((pokeGroup s n).group n).post = (s.group n).post ∧ ((pokeGroup s n).group n).started = (s.group n).started := by
  have hsent (l : List Nat) : (l.foldl (sendOwn n) s).group n = s.group n :=
    group_of_rest (rest_foldl _ _ _ (fun _ _ => sendOwn_rest (M := [.ports]) (by decide) _ _ _)) (by decide) n
  unfold pokeGroup
  dsimp only
  split
  · exact ⟨rfl, rfl⟩
  split
  · split
    · rw [(awaitBlock_post _ _ _ _).1, (awaitBlock_post _ _ _ _).2, State.modGroup_self, hsent]
      exact ⟨rfl, rfl⟩
    · rw [State.modGroup_self, hsent]
      exact ⟨rfl, rfl⟩
  split
  · exact awaitBlock_post _ _ _ _
  split
  · exact awaitBlock_post _ _ _ _
  · exact ⟨rfl, rfl⟩

theorem collective_done {s : State} {n : Nat} (h : stageCompletes (.collective n) s = true) :
    stageDone (.collective n) s (collective n s) := by
  simp only [stageCompletes, Bool.and_eq_true] at h
  obtain ⟨hturn, hpost⟩ := h
  obtain ⟨tt, ht⟩ := takeDue_of_isTurn hturn
  unfold collective
  rw [ht]
  refine (congrArg (stageDone (.collective n) s) (if_pos hpost)).mpr ?_
  refine ⟨?_, ?_⟩
  · rw [(pokeGroup_post _ n).2, State.modGroup_self]
  · rw [(pokeGroup_post _ n).1, State.modGroup_self]; rfl

/-- Settles O7. -/
theorem timetableRows : Obligations.TimetableRows := by
  intro i s hi h
  cases i with
  | rollCall => exact ⟨_, rfl, rollCall_done h⟩
  | failover => exact ⟨_, rfl, failover_done h⟩
  | cellarSlot => exact ⟨_, rfl, cellarSlot_done h⟩
  | collective n => exact ⟨_, rfl, collective_done h⟩
  | digestSweep => exact ⟨_, rfl, digestSweep_done h⟩
  | fenceEntry w => exact ⟨_, onPart_of_partIn (by simp_all [stageCompletes, partIn]) _ _, fenceEntry_done h⟩
  | stageEnd w => exact ⟨_, onPart_of_partIn (by simp_all [stageCompletes, partIn]) _ _, stageEnd_done h⟩
  | scrub w => exact ⟨_, onPart_of_partIn (by simp_all [stageCompletes, partIn]) _ _, scrub_done h⟩
  | stageStart w => exact ⟨_, onPart_of_partIn (by simp_all [stageCompletes, partIn]) _ _, stageStart_done h⟩
  | ticketExpiry w => exact ⟨_, onPart_of_partIn (by simp_all [stageCompletes, partIn]) _ _, ticketExpiry_done h⟩
  | _ => cases hi

end Sys2Proof.Machine
/-! ### How a command is carried out (chapters 12 and 13) -/

namespace Sys2Proof.Machine

open Sys2Proof Sys2Proof.Safety

/-! #### The next command is taken (R308, R318, R342) -/

/-- A packet is command `c` with header `h` and payload `p`, taken in a state in which nothing but its own rules can refuse it. -/
structure Ready (c : KCmd) (h : CmdHdr) (p : Bytes) (k : Packet) (u : State) : Prop where
  hdr : k.hdr = h
  payload : k.payload = p
  code : k.code = c.code
  up : u.keeper.up = true
  inTime : ¬(k.hdr.deadline ≠ 0 ∧ k.hdr.deadline < u.clock.count)
  eval : kEval c k u = c.body u h p

/-- A command bears the next number of its OPEN host session, past whose window nothing is marked (R322, R325). -/
structure Numbered (h : CmdHdr) (u : State) : Prop where
  opened : (u.sess (ownKey h)).st = .opened
  gen : (u.sess (ownKey h)).gen = h.sgen
  next : (u.sess (ownKey h)).next = h.seq
  ahead : tget (u.sess (ownKey h)).marks (h.seq + 64) ≠ .skipped
  positive : h.seq ≠ 0

theorem next_of_isNext {c : KCmd} {h : CmdHdr} {p : Bytes} {s : State} (hn : isNext c h p s = true) :
    ∃ k, nextPacket s = some k ∧ k.hdr = h ∧ k.payload = p ∧ k.code = c.code ∧ k.clean = true := by
  unfold isNext at hn
  cases hk : nextPacket s with
  | none => rw [hk] at hn; cases hn
  | some k =>
    rw [hk] at hn
    simp only [Option.any_some, Bool.and_eq_true, decide_eq_true_eq] at hn
    obtain ⟨⟨hh, hp, hc⟩, hclean⟩ := hn
    exact ⟨k, rfl, hh, hp, hc, hclean⟩

theorem up_of_nextPacket {s : State} {k : Packet} (hk : nextPacket s = some k) : s.keeper.up = true := by
  unfold nextPacket at hk
  split at hk
  next h =>
    simp only [takesCommands, Bool.and_eq_true] at h
    exact h.1.1
  · cases hk

section
variable {c : KCmd} {h : CmdHdr} {p : Bytes} {k : Packet} {s : State}

theorem takenFrom_eq (hk : nextPacket s = some k) : takenFrom s = { s with stamped := s.stamped.erase k } := by
  unfold takenFrom; rw [hk]

theorem kcp_eq_kTake (hk : nextPacket s = some k) (hh : k.hdr = h) (hp : k.payload = p) (hc : k.code = c.code) :
    kcp c h p s = kTake c k (takenFrom s) := by
  unfold kcp; rw [hk, takenFrom_eq hk]; exact if_pos ⟨hh, hp, hc⟩

theorem kcpNoOp_eq_kTake (hk : nextPacket s = some k) (hh : k.hdr = h) (hp : k.payload = p) (hc : k.code = c.code) :
    kcpNoOp c h p s = kTake c k (takenFrom s) := by
  unfold kcpNoOp; rw [hk, takenFrom_eq hk]; exact if_pos ⟨hh, hp, .inl hc⟩

theorem taken_power (c : KCmd) (h : CmdHdr) (s : State) : (taken c h s).power = s.power := by
  unfold taken takenFrom; split <;> split <;> rfl

theorem taken_keeper (c : KCmd) (h : CmdHdr) (s : State) : (taken c h s).keeper = s.keeper := by
  unfold taken takenFrom; split <;> split <;> rfl

theorem taken_clock (c : KCmd) (h : CmdHdr) (s : State) : (taken c h s).clock = s.clock := by
  unfold taken takenFrom; split <;> split <;> rfl

/-- A command that starts is the next packet, and only its own rules decide (R342). -/
theorem ready_of_starts (hst : starts c h p s = true) :
    ∃ k, Ready c h p k (taken c h s) ∧ kcp c h p s = kTake c k (takenFrom s) ∧ kcpNoOp c h p s = kTake c k (takenFrom s) := by
  simp only [starts, Bool.and_eq_true, Bool.not_eq_true', decide_eq_true_eq] at hst
  obtain ⟨⟨⟨⟨⟨⟨⟨⟨hn, hmin⟩, htime⟩, hturn⟩, hparse⟩, hperm⟩, hgens⟩, hfence⟩, hscrub⟩ := hst
  obtain ⟨k, hk, hh, hp, hc, hclean⟩ := next_of_isNext hn
  refine ⟨k, ⟨hh, hp, hc, ?_, ?_, ?_⟩, kcp_eq_kTake hk hh hp hc, kcpNoOp_eq_kTake hk hh hp hc⟩
  · rw [taken_keeper]; exact up_of_nextPacket hk
  · rw [taken_clock, hh]; omega
  · unfold kEval
    simp [hh, hp, hc, hclean, hparse, hperm, hgens, hfence, hscrub]

theorem not_minimal_of_starts (hst : starts c h p s = true) : s.power.minimal = false := by
  simp only [starts, Bool.and_eq_true, Bool.not_eq_true', decide_eq_true_eq] at hst
  obtain ⟨⟨⟨⟨⟨⟨⟨⟨-, hmin⟩, -⟩, -⟩, -⟩, -⟩, -⟩, -⟩, -⟩ := hst
  exact hmin

theorem turn_of_starts (hst : starts c h p s = true) :
    (if c.sessionless then outsideSessions c h s else inTurn c h s) = true := by
  simp only [starts, Bool.and_eq_true, Bool.not_eq_true', decide_eq_true_eq] at hst
  obtain ⟨⟨⟨⟨⟨⟨⟨⟨-, -⟩, -⟩, hturn⟩, -⟩, -⟩, -⟩, -⟩, -⟩ := hst
  exact hturn

/-- A command of a host session that starts is executed under its number (R329, Table 12.9). -/
theorem kcp_of_starts (hst : starts c h p s = true) (hs : c.sessionless = false) :
    ∃ k, Ready c h p k (taken c h s) ∧ Numbered h (taken c h s)
      ∧ (c.cls = .long → ((taken c h s).sess (ownKey h)).longs < 64)
      ∧ kcp c h p s = kExecute c k true (taken c h s) ∧ kcpNoOp c h p s = kExecute c k true (taken c h s) := by
  obtain ⟨k, hready, hkcp, hnoop⟩ := ready_of_starts hst
  have hmin := not_minimal_of_starts hst
  have hturn := turn_of_starts hst
  rw [hs, if_neg (by simp)] at hturn
  simp only [inTurn, Bool.and_eq_true, Bool.or_eq_true, decide_eq_true_eq] at hturn
  obtain ⟨⟨hsession, hseq, hopen, hgen, hnext, hahead⟩, hlong⟩ := hturn
  have hsess : (takenFrom s).sess (ownKey h) = s.sess (ownKey h) := by
    unfold takenFrom; split <;> rfl
  have htaken : taken c h s = (takenFrom s).modSess (ownKey h) (fun x => { x with leaseEnd := h.stamp + x.lease }) := by
    unfold taken; rw [hs]; rfl
  have hu : (taken c h s).sess (ownKey h) = { s.sess (ownKey h) with leaseEnd := h.stamp + (s.sess (ownKey h)).lease } := by
    rw [htaken, State.modSess_self, hsess]
  have hexec : kTake c k (takenFrom s) = kExecute c k true (taken c h s) := by
    have hpow : (takenFrom s).power.minimal = false := by
      have := congrArg (·.minimal) (taken_power c h s)
      rw [htaken] at this
      exact this.trans hmin
    have hkey : sessKey k.hdr.fn k.hdr.session = ownKey h := by rw [hready.hdr]; rfl
    unfold kTake kSession kSequence
    rw [if_neg (by simp [hpow]), if_neg (by simp [hs]), if_neg (by rw [hready.hdr]; omega)]
    dsimp only
    rw [hkey, hsess, if_neg (by simp [hopen]), if_neg (by rw [hready.hdr]; simp [hgen]), if_neg (by simp [hopen]), hready.hdr, ← htaken, hu,
      if_pos (by exact hnext.symm)]
  refine ⟨k, hready, ⟨?_, ?_, ?_, ?_, hseq⟩, fun hc => ?_, hkcp.trans hexec, hnoop.trans hexec⟩
  · rw [hu]; exact hopen
  · rw [hu]; exact hgen
  · rw [hu]; exact hnext
  · rw [hu]; exact hahead
  · rw [hu]; exact hlong.resolve_left (fun h => h hc)

end

/-! #### Numbers passed, and marks (R322, R325, R326) -/

/-- A host session whose E stands just past a number, with that number's mark. -/
structure Marked (h : CmdHdr) (x : Session) (m : Mark) : Prop where
  gen : x.gen = h.sgen
  live : x.st ≠ .closed
  next : x.next = h.seq + 1
  ahead : tget x.marks (h.seq + 64) ≠ .skipped
  mark : tget x.marks h.seq = m

theorem tget_terase_ne {α : Type} [Inhabited α] (t : Tbl α) {i k : Nat} (hk : k ≠ i) : tget (terase t i) k = tget t k := by
  unfold tget tgetD; rw [tlook_terase_ne _ hk]

theorem passNumber_sess (s : State) (k seq : Nat) (m : Mark) : (passNumber s k seq m).sess k =
    { s.sess k with next := seq + 1, marks := tput (terase (s.sess k).marks (seq - 64)) seq m, held := terase (s.sess k).held seq } :=
  State.modSess_self _ _ _

/-- The window's numbers above one that E has passed by fewer than 64 keep their marks. -/
theorem passNumber_marks {s : State} {k seq n : Nat} (hn : n < seq) (hw : seq < n + 64) (hpos : n ≠ 0) (m : Mark) :
    tget ((passNumber s k seq m).sess k).marks n = tget (s.sess k).marks n
      ∧ tget ((passNumber s k seq m).sess k).marks (n + 64) = tget (s.sess k).marks (n + 64) := by
  rw [passNumber_sess]
  dsimp only
  rw [tget_tput_ne _ _ (by omega), tget_tput_ne _ _ (by omega), tget_terase_ne _ (by omega), tget_terase_ne _ (by omega)]
  exact ⟨rfl, rfl⟩

/-- Passing skipped numbers stops within the window of a number past which nothing is skipped (R326). -/
theorem passSkipped_mark {n : Nat} (hpos : n ≠ 0) (fuel k : Nat) {s : State} (hlt : n < (s.sess k).next) (hle : (s.sess k).next ≤ n + 64)
    (hahead : tget (s.sess k).marks (n + 64) ≠ .skipped) :
    tget ((passSkipped fuel k s).sess k).marks n = tget (s.sess k).marks n ∧ n < ((passSkipped fuel k s).sess k).next := by
  induction fuel generalizing s with
  | zero => exact ⟨rfl, hlt⟩
  | succ fuel ih =>
    unfold passSkipped
    dsimp only
    split
    next hskip =>
      have hne : (s.sess k).next ≠ n + 64 := fun h => hahead (h ▸ hskip)
      obtain ⟨hmark, hmark'⟩ := passNumber_marks (s := s) (k := k) hlt (by omega) hpos .skipped
      have hnext : ((passNumber s k (s.sess k).next .skipped).sess k).next = (s.sess k).next + 1 := by rw [passNumber_sess]
      obtain ⟨hm, hl⟩ := ih (s := passNumber s k (s.sess k).next .skipped) (by omega) (by omega) (by rw [hmark']; exact hahead)
      exact ⟨hm.trans hmark, hl⟩
    · exact ⟨rfl, hlt⟩

/-- A host session with its window left out. -/
def outsideWindow (x : Session) : Session := { x with next := 0, marks := [], held := [] }

theorem modSess_outside {s : State} {k : Nat} {g : Session → Session} (hg : ∀ x, outsideWindow (g x) = outsideWindow x) (j : Nat) :
    outsideWindow ((s.modSess k g).sess j) = outsideWindow (s.sess j) := by
  by_cases hj : j = k
  · subst hj; rw [State.modSess_self, hg]
  · rw [State.modSess_ne _ _ hj]

theorem passSkipped_outside (n k : Nat) (s : State) (j : Nat) :
    outsideWindow ((passSkipped n k s).sess j) = outsideWindow (s.sess j) := by
  induction n generalizing s with
  | zero => rfl
  | succ n ih =>
    unfold passSkipped
    dsimp only
    split
    · refine (ih _).trans ?_
      unfold passNumber
      refine modSess_outside ?_ j
      exact fun _ => rfl
    · rfl

/-- Releasing held commands leaves a host session but for those commands (R325). -/
theorem releaseHeld_sess (n k seq : Nat) (s : State) (j : Nat) :
    { (releaseHeld n k seq s).sess j with held := [] } = { s.sess j with held := [] } := by
  induction n generalizing seq s with
  | zero => rfl
  | succ n ih =>
    unfold releaseHeld
    split
    · refine (ih _ _).trans ?_
      by_cases hj : j = k
      · subst hj
        exact congrArg (fun x : Session => { x with held := [] }) (State.modSess_self s j _)
      · exact congrArg (fun x : Session => { x with held := [] }) (State.modSess_ne s _ hj)
    · rfl

theorem afterNumber_outside (s : State) (k j : Nat) : outsideWindow ((afterNumber s k).sess j) = outsideWindow (s.sess j) :=
  (congrArg outsideWindow (releaseHeld_sess 64 k _ (passSkipped 64 k s) j)).trans (passSkipped_outside 64 k s j)

theorem afterNumber_mark {h : CmdHdr} {s : State} {m : Mark} (hpos : h.seq ≠ 0) (hm : Marked h (s.sess (ownKey h)) m) :
    h.seq < ((afterNumber s (ownKey h)).sess (ownKey h)).next ∧ tget ((afterNumber s (ownKey h)).sess (ownKey h)).marks h.seq = m := by
  obtain ⟨-, -, hnext, hahead, hmark⟩ := hm
  obtain ⟨hkeep, hlt⟩ := passSkipped_mark hpos 64 (ownKey h) (by omega) (by omega) hahead
  have hheld := releaseHeld_sess 64 (ownKey h) ((passSkipped 64 (ownKey h) s).sess (ownKey h)).next (passSkipped 64 (ownKey h) s) (ownKey h)
  have hn := congrArg Session.next hheld
  have hk := congrArg Session.marks hheld
  unfold afterNumber
  exact ⟨lt_of_lt_of_eq hlt hn.symm, (congrArg (tget · h.seq) hk).trans (hkeep.trans hmark)⟩

theorem afterNumber_rest {M : List Component} (hM : .sessions ∈ M ∧ .stamped ∈ M) (s : State) (k : Nat) :
    rest M (afterNumber s k) = rest M s := by
  have hsess := rest_sessions hM.1 s (afterNumber s k).led.sessions
  have hstamped := rest_stamped hM.2 { s with led := { s.led with sessions := (afterNumber s k).led.sessions } } (afterNumber s k).stamped
  rw [afterNumber_frame]
  exact hstamped.trans hsess

/-! #### What the execution of a number comes to (R319, R332, R340) -/

section
variable (c : KCmd) (h : CmdHdr) (u : State) (st : Status) (b : Bytes)

/-- The state whose record and passed number a committing command's effect follows. -/
def committing : State :=
  pushReply (passNumber u.bump (ownKey h) h.seq (.nothing c.code h.hostTag)) h.fn (mkReply u.bump (refOf h c.code) st true b)

/-- The state whose record and passed number, marked as executing, a long command's acceptance follows. -/
def executing : State :=
  (passNumber u.bump (ownKey h) h.seq (.nothing c.code h.hostTag)).modSess (ownKey h) (fun x =>
    { x with longs := x.longs + 1, marks := tput x.marks h.seq (.executing h.crc (some (mkReply u.bump (refOf h c.code) st false b))) })

/-- The state that a long command's effect follows: it is outstanding, and its interim reply is sent. -/
def accepting : State :=
  pushReply { executing c h u st b with led := { (executing c h u st b).led with longs := (executing c h u st b).led.longs ++ [refOf h c.code] } }
    h.fn (mkReply u.bump (refOf h c.code) st false b)

/-- A final reply cached in a host session that is still the command's (R322). -/
def cacheReply (h : CmdHdr) (r : Reply) (s : State) : State :=
  let x := s.sess (ownKey h)
  if decide (x.gen = h.sgen) && decide (x.st ≠ .closed) then
    s.modSess (ownKey h) (fun x => { x with marks := tput x.marks h.seq (.cached h.crc r) })
  else s

end

section
variable {c : KCmd} {h : CmdHdr} {p : Bytes} {k : Packet} {u : State} {st : Status} {b : Bytes} {f g : State → State}

theorem not_probation (hn : Numbered h u) (hr : Ready c h p k u) (codes : Prop) :
    ¬((u.sess (sessKey k.hdr.fn k.hdr.session)).st = .probation ∧ codes) := by
  rw [hr.hdr]
  exact fun hp => by cases hn.opened.symm.trans hp.1

theorem kExecute_query (hr : Ready c h p k u) (hn : Numbered h u) (hb : c.body u h p = .query b) :
    kExecute c k true u = concludeNumber u k true false .ok b := by
  unfold kExecute
  dsimp only
  rw [if_neg hr.inTime, if_neg (not_probation hn hr _), hr.eval, hb]

theorem kExecute_commit (hr : Ready c h p k u) (hn : Numbered h u) (hb : c.body u h p = .commit f st b)
    (hf : c.follow = fun _ _ s => s) :
    kExecute c k true u =
      afterNumber (cacheReply h (mkReply u.bump (refOf h c.code) st true b) (f (committing c h u st b))) (ownKey h) := by
  unfold kExecute
  dsimp only
  rw [if_neg hr.inTime, if_neg (not_probation hn hr _), hr.eval, hb, hf, hr.hdr, hr.code]
  rfl

theorem kExecute_long (hr : Ready c h p k u) (hn : Numbered h u) (hl : (u.sess (ownKey h)).longs < 64)
    (hb : c.body u h p = .long f st b none) :
    kExecute c k true u = afterNumber (f (accepting c h u st b)) (ownKey h) := by
  unfold kExecute
  dsimp only
  rw [if_neg hr.inTime, if_neg (not_probation hn hr _), hr.eval, hb, hr.hdr, hr.code]
  dsimp only
  rw [if_neg (by have : (u.sess (sessKey h.fn h.session)).longs < 64 := hl; omega)]
  rfl

theorem kExecute_long_done (hr : Ready c h p k u) (hn : Numbered h u) (hl : (u.sess (ownKey h)).longs < 64)
    (hb : c.body u h p = .long f st b (some g)) :
    kExecute c k true u = afterNumber (g (f (accepting c h u st b))) (ownKey h) := by
  unfold kExecute
  dsimp only
  rw [if_neg hr.inTime, if_neg (not_probation hn hr _), hr.eval, hb, hr.hdr, hr.code]
  dsimp only
  rw [if_neg (by have : (u.sess (sessKey h.fn h.session)).longs < 64 := hl; omega)]
  rfl

/-! #### Queries (R340) -/

theorem concludeNumber_ok (hr : Ready c h p k u) : concludeNumber u k true false .ok b =
    afterNumber (pushReply (passNumber u (ownKey h) h.seq (.nothing c.code h.hostTag)) h.fn (mkReply u (refOf h c.code) .ok true b))
      (ownKey h) := by
  unfold concludeNumber
  rw [hr.hdr, hr.code]
  rfl

theorem answered_of_query (hr : Ready c h p k u) (hn : Numbered h u) (hb : c.body u h p = .query b) :
    answered c h u (kExecute c k true u) b := by
  rw [kExecute_query hr hn hb, concludeNumber_ok hr, answered, afterNumber_frame]
  exact ⟨rfl, rfl⟩

/-! #### Committing commands (R319, R340) -/

theorem marked_committing (hn : Numbered h u) :
    Marked h ((committing c h u st b).sess (ownKey h)) (.nothing c.code h.hostTag) := by
  obtain ⟨hopen, hgen, hnext, hahead, hpos⟩ := hn
  have hsess : (committing c h u st b).sess (ownKey h) = (passNumber u.bump (ownKey h) h.seq (.nothing c.code h.hostTag)).sess (ownKey h) := rfl
  have hbump : u.bump.sess (ownKey h) = u.sess (ownKey h) :=
    congrArg (tget · (ownKey h)) (same_of_rest (c := .sessions) (State.bump_rest (M := [.keeper, .version]) (by decide) u) (by decide))
  rw [hsess, passNumber_sess, hbump]
  refine ⟨hgen, by simp [hopen], rfl, ?_, by simp⟩
  dsimp only
  rw [tget_tput_ne _ _ (by omega), tget_terase_ne _ (by omega)]
  exact hahead

/-- A session that has kept its state, its generation, its E and its marks is as far as it was. -/
structure SameWindow (x y : Session) : Prop where
  st : y.st = x.st
  gen : y.gen = x.gen
  next : y.next = x.next
  marks : y.marks = x.marks

theorem marked_of_sameWindow {x y : Session} {m : Mark} (hm : Marked h x m) (hs : SameWindow x y) : Marked h y m := by
  obtain ⟨hgen, hlive, hnext, hahead, hmark⟩ := hm
  exact ⟨hs.gen.trans hgen, by rw [hs.st]; exact hlive, hs.next.trans hnext, by rw [hs.marks]; exact hahead, by rw [hs.marks]; exact hmark⟩

theorem marked_cacheReply {s : State} {m : Mark} {r : Reply} (hm : Marked h (s.sess (ownKey h)) m) :
    Marked h ((cacheReply h r s).sess (ownKey h)) (.cached h.crc r) := by
  obtain ⟨hgen, hlive, hnext, hahead, -⟩ := hm
  unfold cacheReply
  dsimp only
  rw [if_pos (by simp [hgen, hlive]), State.modSess_self]
  refine ⟨hgen, hlive, hnext, ?_, by simp⟩
  dsimp only
  rw [tget_tput_ne _ _ (by omega)]
  exact hahead

theorem cacheReply_rest {M : List Component} (hM : .sessions ∈ M) (r : Reply) (s : State) : rest M (cacheReply h r s) = rest M s := by
  unfold cacheReply
  dsimp only
  split
  · exact State.modSess_rest hM _ _ _
  · rfl

/-- A commit whose effect leaves its own number alone is concluded by its cached reply. -/
theorem concluded_of_commit (hr : Ready c h p k u) (hn : Numbered h u) (hb : c.body u h p = .commit f st b)
    (hf : c.follow = fun _ _ s => s) (hsame : SameWindow ((committing c h u st b).sess (ownKey h)) ((f (committing c h u st b)).sess (ownKey h))) :
    concluded c h u (kExecute c k true u) st b := by
  rw [kExecute_commit hr hn hb hf]
  obtain ⟨hlt, hmark⟩ := afterNumber_mark hn.positive
    (marked_cacheReply (r := mkReply u.bump (refOf h c.code) st true b) (marked_of_sameWindow (marked_committing hn) hsame))
  exact ⟨hlt, _, hmark, rfl⟩

/-- What a commit leaves outside its host session and the commands that wait is what its effect leaves. -/
theorem kExecute_commit_rest {M : List Component} (hr : Ready c h p k u) (hn : Numbered h u) (hb : c.body u h p = .commit f st b)
    (hf : c.follow = fun _ _ s => s) (hM : .sessions ∈ M ∧ .stamped ∈ M) :
    rest M (kExecute c k true u) = rest M (f (committing c h u st b)) := by
  rw [kExecute_commit hr hn hb hf]
  exact (afterNumber_rest hM _ _).trans (cacheReply_rest hM.1 _ _)

theorem committing_version (hr : Ready c h p k u) : (committing c h u st b).led.version = u.led.version + 1 := by
  have hv : (committing c h u st b).led.version = u.bump.led.version := rfl
  rw [hv, bump_version, if_pos hr.up]

theorem committed_of_commit (hr : Ready c h p k u) (hn : Numbered h u) (hb : c.body u h p = .commit f st b)
    (hf : c.follow = fun _ _ s => s) (hsame : SameWindow ((committing c h u st b).sess (ownKey h)) ((f (committing c h u st b)).sess (ownKey h)))
    (hv : (f (committing c h u st b)).led.version = (committing c h u st b).led.version) :
    committed c h u (kExecute c k true u) st b := by
  refine ⟨?_, concluded_of_commit hr hn hb hf hsame⟩
  rw [version_of_rest (M := [.sessions, .stamped]) (kExecute_commit_rest hr hn hb hf (by decide)) (by decide), hv, committing_version hr]

/-! #### Long commands (R332, R340) -/

theorem marked_accepting (hn : Numbered h u) : Marked h ((accepting c h u st b).sess (ownKey h))
    (.executing h.crc (some (mkReply u.bump (refOf h c.code) st false b))) := by
  obtain ⟨hgen, hlive, hnext, hahead, -⟩ := marked_committing (c := c) (st := st) (b := b) hn
  have hsess : (accepting c h u st b).sess (ownKey h) = (executing c h u st b).sess (ownKey h) := rfl
  rw [hsess, executing, State.modSess_self]
  refine ⟨hgen, hlive, hnext, ?_, by simp⟩
  dsimp only
  rw [tget_tput_ne _ _ (by omega)]
  exact hahead

theorem accepting_version (hr : Ready c h p k u) : (accepting c h u st b).led.version = u.led.version + 1 := by
  have hv : (accepting c h u st b).led.version = u.bump.led.version := rfl
  rw [hv, bump_version, if_pos hr.up]

theorem accepting_longs : refOf h c.code ∈ (accepting c h u st b).led.longs := List.mem_append_right _ (List.mem_singleton.mpr rfl)

theorem committing_rest {M : List Component} (hr : Ready c h p k u) (hM : [.version, .sessions, .fns] ⊆ M) :
    rest M (committing c h u st b) = rest M u := by
  simp only [List.cons_subset, List.nil_subset, and_true] at hM
  obtain ⟨hv, hs, hf⟩ := hM
  unfold committing passNumber
  rw [pushReply_rest hf, State.modSess_rest hs, bump_up hr.up]
  exact rest_version hv _ _

theorem accepting_rest {M : List Component} (hr : Ready c h p k u) (hM : [.version, .sessions, .longs, .fns] ⊆ M) :
    rest M (accepting c h u st b) = rest M u := by
  simp only [List.cons_subset, List.nil_subset, and_true] at hM
  obtain ⟨hv, hs, hl, hf⟩ := hM
  unfold accepting
  rw [pushReply_rest hf, rest_longs hl]
  unfold executing passNumber
  rw [State.modSess_rest hs, State.modSess_rest hs, bump_up hr.up]
  exact rest_version hv _ _

theorem longs_of_rest {M : List Component} {s t : State} (hr : rest M t = rest M s) (hM : Component.longs ∉ M) : t.led.longs = s.led.longs :=
  same_of_rest (c := .longs) hr hM

/-- A long command whose effect leaves its own number alone is accepted. -/
theorem acceptedLong_of_long (hr : Ready c h p k u) (hn : Numbered h u) (hl : (u.sess (ownKey h)).longs < 64)
    (hb : c.body u h p = .long f st b none)
    (hsame : SameWindow ((accepting c h u st b).sess (ownKey h)) ((f (accepting c h u st b)).sess (ownKey h)))
    (hlongs : refOf h c.code ∈ (f (accepting c h u st b)).led.longs) : acceptedLong c h u (kExecute c k true u) st b := by
  rw [kExecute_long hr hn hl hb]
  obtain ⟨hlt, hmark⟩ := afterNumber_mark hn.positive (marked_of_sameWindow (marked_accepting hn) hsame)
  refine ⟨?_, hlt, _, hmark, rfl⟩
  rw [longs_of_rest (M := [.sessions, .stamped]) (afterNumber_rest (by decide) _ _) (by decide)]
  exact hlongs

/-- The same where a completion that does not end the command follows at once. -/
theorem acceptedLong_of_long_done (hr : Ready c h p k u) (hn : Numbered h u) (hl : (u.sess (ownKey h)).longs < 64)
    (hb : c.body u h p = .long f st b (some g))
    (hsame : SameWindow ((accepting c h u st b).sess (ownKey h)) ((g (f (accepting c h u st b))).sess (ownKey h)))
    (hlongs : refOf h c.code ∈ (g (f (accepting c h u st b))).led.longs) : acceptedLong c h u (kExecute c k true u) st b := by
  rw [kExecute_long_done hr hn hl hb]
  obtain ⟨hlt, hmark⟩ := afterNumber_mark hn.positive (marked_of_sameWindow (marked_accepting hn) hsame)
  refine ⟨?_, hlt, _, hmark, rfl⟩
  rw [longs_of_rest (M := [.sessions, .stamped]) (afterNumber_rest (by decide) _ _) (by decide)]
  exact hlongs

/-- A session's record of a final reply (R332). -/
def finalMark (ref : CmdRef) (r : Reply) (x : Session) : Session :=
  { x with longs := x.longs - 1
           marks := if tget x.marks ref.seq = .absent then x.marks else tput x.marks ref.seq (.cached ref.crc r) }

theorem finishIn_sess {w : State} {ref : CmdRef} (st : Status) (b : Bytes)
    (hlive : (w.sess (sessKey ref.fn ref.session)).gen = ref.sgen ∧ (w.sess (sessKey ref.fn ref.session)).st ≠ .closed) :
    (finishIn w ref st b).sess (sessKey ref.fn ref.session) =
      finalMark ref (mkReply w ref st true b) (w.sess (sessKey ref.fn ref.session)) := by
  have hlog (v : State) : (if st.value / 256 ≠ 0 then logStatus v st {} else v).sess = v.sess := by
    split
    · funext k
      exact congrArg (tget · k) (same_of_rest (c := .sessions) (logStatus_rest (M := [.keeper]) (by decide) v st {}) (by decide))
    · rfl
  unfold finishIn
  dsimp only
  rw [if_pos hlive]
  split
  · rw [State.modSess_self, hlog]; rfl
  · refine Eq.trans (b := (State.modSess _ _ _).sess (sessKey ref.fn ref.session)) rfl ?_
    rw [State.modSess_self, hlog]; rfl

theorem finishIn_longs (w : State) (ref : CmdRef) (st : Status) (b : Bytes) :
    (finishIn w ref st b).led.longs = w.led.longs.filter (fun l => decide (l ≠ ref)) := by
  have hlog (v : State) : (if st.value / 256 ≠ 0 then logStatus v st {} else v).led.longs = v.led.longs := by
    split
    · exact longs_of_rest (logStatus_rest (M := [.keeper]) (by decide) v st {}) (by decide)
    · rfl
  unfold finishIn
  dsimp only
  split
  · split
    · exact hlog _
    · exact hlog _
  · exact hlog _

/-- The final reply of a command takes the place of its mark, and it is outstanding no more (R332). -/
theorem finishIn_marked {w : State} {m : Mark} (code : Nat) (st : Status) (b : Bytes) (hm : Marked h (w.sess (ownKey h)) m)
    (hne : m ≠ .absent) :
    Marked h ((finishIn w (refOf h code) st b).sess (ownKey h)) (.cached h.crc (mkReply w (refOf h code) st true b)) := by
  obtain ⟨hgen, hlive, hnext, hahead, hmark⟩ := hm
  have hsess : (finishIn w (refOf h code) st b).sess (ownKey h) = _ := finishIn_sess (ref := refOf h code) st b ⟨hgen, hlive⟩
  rw [hsess]
  have hmarks : (finalMark (refOf h code) (mkReply w (refOf h code) st true b) (w.sess (ownKey h))).marks =
      tput (w.sess (ownKey h)).marks h.seq (.cached h.crc (mkReply w (refOf h code) st true b)) :=
    if_neg (by rw [show (refOf h code).seq = h.seq from rfl, hmark]; exact hne)
  refine ⟨hgen, hlive, hnext, ?_, ?_⟩
  · exact (congrArg (tget · (h.seq + 64)) hmarks).trans_ne (by rw [tget_tput_ne _ _ (by omega)]; exact hahead)
  · exact (congrArg (tget · h.seq) hmarks).trans (tget_tput_self _ _ _)

/-- A long command whose completion follows at once is finished (R332). -/
theorem finished_of_long (hr : Ready c h p k u) (hn : Numbered h u) (hl : (u.sess (ownKey h)).longs < 64)
    (hb : c.body u h p = .long f st b (some g)) {w : State} {st' : Status} {b' : Bytes}
    (hg : g (f (accepting c h u st b)) = finishIn w (refOf h c.code) st' b')
    (hsame : SameWindow ((accepting c h u st b).sess (ownKey h)) (w.sess (ownKey h))) :
    finished c h (kExecute c k true u) st' b' := by
  rw [kExecute_long_done hr hn hl hb, hg]
  have hdone := finishIn_marked c.code st' b' (marked_of_sameWindow (marked_accepting hn) hsame) (by simp)
  obtain ⟨hlt, hmark⟩ := afterNumber_mark hn.positive hdone
  refine ⟨?_, hlt, _, hmark, rfl, rfl, rfl, rfl⟩
  rw [longs_of_rest (M := [.sessions, .stamped]) (afterNumber_rest (by decide) _ _) (by decide), finishIn_longs]
  simp

/-- What a long command leaves outside its host session and the commands that wait is what its effect leaves. -/
theorem kExecute_long_rest {M : List Component} (hr : Ready c h p k u) (hn : Numbered h u) (hl : (u.sess (ownKey h)).longs < 64)
    (hb : c.body u h p = .long f st b none) (hM : .sessions ∈ M ∧ .stamped ∈ M) :
    rest M (kExecute c k true u) = rest M (f (accepting c h u st b)) := by
  rw [kExecute_long hr hn hl hb]
  exact afterNumber_rest hM _ _

theorem kExecute_long_done_rest {M : List Component} (hr : Ready c h p k u) (hn : Numbered h u) (hl : (u.sess (ownKey h)).longs < 64)
    (hb : c.body u h p = .long f st b (some g)) (hM : .sessions ∈ M ∧ .stamped ∈ M) :
    rest M (kExecute c k true u) = rest M (g (f (accepting c h u st b))) := by
  rw [kExecute_long_done hr hn hl hb]
  exact afterNumber_rest hM _ _

end

theorem sameWindow_refl (x : Session) : SameWindow x x := ⟨rfl, rfl, rfl, rfl⟩

theorem sess_of_rest {M : List Component} {s t : State} (hr : rest M t = rest M s) (hM : Component.sessions ∉ M) (k : Nat) :
    t.sess k = s.sess k :=
  congrArg (tget · k) (same_of_rest (c := .sessions) hr hM)

theorem sameWindow_of_rest {M : List Component} {s t : State} (hr : rest M t = rest M s) (hM : Component.sessions ∉ M) (k : Nat) :
    SameWindow (s.sess k) (t.sess k) := by
  rw [sess_of_rest hr hM]; exact sameWindow_refl _

/-! #### Commands outside host sessions (R323) -/

section
variable {c : KCmd} {h : CmdHdr} {p : Bytes} {k : Packet} {s u : State} {st : Status} {b : Bytes} {f : State → State}

/-- No repeat of a session-open waits to be answered by its own reply (R323). -/
def NoRepeat (c : KCmd) (h : CmdHdr) (u : State) : Prop := c.code = 0x0002 → ∀ o, o ∈ (u.fn h.fn).opens → o.hostTag ≠ h.hostTag

theorem kcp_of_starts_sessionless (hst : starts c h p s = true) (hs : c.sessionless = true) :
    ∃ k, Ready c h p k (taken c h s) ∧ NoRepeat c h (taken c h s) ∧ kcp c h p s = kSessionless c k (taken c h s) := by
  obtain ⟨k, hready, hkcp, -⟩ := ready_of_starts hst
  have hmin := not_minimal_of_starts hst
  have hturn := turn_of_starts hst
  rw [hs, if_pos rfl] at hturn
  simp only [outsideSessions, Bool.and_eq_true, Bool.or_eq_true, decide_eq_true_eq, List.all_eq_true] at hturn
  obtain ⟨⟨hsession, hsgen, hseq⟩, hopens⟩ := hturn
  have htaken : taken c h s = takenFrom s := by unfold taken; rw [hs]; rfl
  have hpow : (takenFrom s).power.minimal = false := by
    rw [← htaken, taken_power]; exact hmin
  have hfns : (takenFrom s).fn h.fn = s.fn h.fn := by
    unfold takenFrom; split <;> rfl
  refine ⟨k, hready, fun hc o ho => ?_, ?_⟩
  · rw [htaken, hfns] at ho
    exact hopens.resolve_left (fun hne => hne hc) o ho
  · rw [hkcp, htaken]
    unfold kTake
    rw [if_neg (by simp [hpow]), if_pos hs, hready.hdr, if_pos ⟨hsession, hsgen, hseq⟩]

theorem no_reply_replayed (hr : Ready c h p k u) (hn : NoRepeat c h u) :
    (if c.code = 0x0002 then (u.fn k.hdr.fn).opens.find? (fun o => decide (o.hostTag = k.hdr.hostTag)) else none) = none := by
  rw [hr.hdr]
  split
  next hc => exact List.find?_eq_none.mpr (fun o ho => by simpa using hn hc o ho)
  · rfl

theorem kSessionless_query (hr : Ready c h p k u) (hn : NoRepeat c h u) (hb : c.body u h p = .query b) :
    kSessionless c k u = pushReply u h.fn (mkReply u (refOf h c.code) .ok true b) := by
  unfold kSessionless
  dsimp only
  rw [no_reply_replayed hr hn]
  dsimp only
  rw [if_neg hr.inTime, hr.eval, hb]
  unfold answer
  rw [hr.hdr, hr.code]

theorem answered_of_sessionless (hr : Ready c h p k u) (hn : NoRepeat c h u) (hb : c.body u h p = .query b) :
    answered c h u (kSessionless c k u) b := by
  rw [kSessionless_query hr hn hb]
  exact ⟨rfl, rfl⟩

theorem kSessionless_commit (hr : Ready c h p k u) (hn : NoRepeat c h u) (hb : c.body u h p = .commit f st b) (hc : c.code ≠ 0x0002) :
    kSessionless c k u = c.follow h p (pushReply (f u.bump) h.fn (mkReply (f u.bump) (refOf h c.code) st true b)) := by
  unfold kSessionless
  dsimp only
  rw [no_reply_replayed hr hn]
  dsimp only
  rw [if_neg hr.inTime, hr.eval, hb, hr.hdr, hr.code, hr.payload]
  dsimp only
  rw [if_neg hc]

/-- A function that remembers the reply to a session-open (R323). -/
def rememberReply (h : CmdHdr) (r : Reply) (x : Fn) : Fn :=
  { x with opens := (({ hostTag := h.hostTag, reply := r } : OpenReply) :: x.opens).take 16 }

theorem kSessionless_open (hr : Ready c h p k u) (hn : NoRepeat c h u) (hb : c.body u h p = .commit f st b) (hc : c.code = 0x0002) :
    kSessionless c k u = c.follow h p (pushReply
      ((f u.bump).modFn h.fn (rememberReply h (mkReply (f u.bump) (refOf h c.code) st true b))) h.fn
      (mkReply (f u.bump) (refOf h c.code) st true b)) := by
  unfold kSessionless
  dsimp only
  rw [no_reply_replayed hr hn]
  dsimp only
  rw [if_neg hr.inTime, hr.eval, hb, hr.hdr, hr.code, hr.payload]
  dsimp only
  rw [if_pos hc]
  rfl

end

end Sys2Proof.Machine
/-! ### The commands of host sessions, functions and time (Table 13.1, chapter 2) -/

namespace Sys2Proof.Machine

open Sys2Proof Sys2Proof.Safety

/-! #### Functions but for their queues -/

/-- A function with its queues and their interrupts left out. -/
def outsideQueues (f : Fn) : Fn :=
  { f with replyWords := [], replyTail := 0, replyWait := [], noticeSeq := 0, noticeWords := [], noticeTail := 0
           raised := 0, again := 0, msixPending := 0 }

theorem raiseVector_outside (f : Fn) (v : Nat) : outsideQueues (raiseVector f v) = outsideQueues f := by
  unfold raiseVector; split <;> rfl

theorem flushReplies_outside (l : List Reply) (f : Fn) : outsideQueues (flushReplies l f) = outsideQueues f := by
  induction l generalizing f with
  | nil => rfl
  | cons r l ih =>
    unfold flushReplies
    split
    · exact (ih _).trans (raiseVector_outside _ _)
    · rfl

theorem pushReply_outside (s : State) (fn : Nat) (r : Reply) (i : Nat) :
    outsideQueues ((pushReply s fn r).fn i) = outsideQueues (s.fn i) := by
  unfold pushReply
  by_cases hi : i = fn
  · subst hi
    rw [State.modFn_self]
    split
    · exact flushReplies_outside _ _
    · rfl
  · rw [State.modFn_ne _ _ hi]

theorem pushReply_opens (s : State) (fn : Nat) (r : Reply) (i : Nat) : ((pushReply s fn r).fn i).opens = (s.fn i).opens := by
  have h := congrArg Fn.opens (pushReply_outside s fn r i)
  exact h

/-! #### Host sessions left by a command -/

section
variable {c : KCmd} {h : CmdHdr} {p : Bytes} {k : Packet} {s u : State} {st : Status} {b : Bytes} {f : State → State}

/-- A host session's window apart, it is as the effect of the commit leaves it. -/
theorem kExecute_commit_outside (hr : Ready c h p k u) (hn : Numbered h u) (hb : c.body u h p = .commit f st b)
    (hf : c.follow = fun _ _ s => s) (j : Nat) :
    outsideWindow ((kExecute c k true u).sess j) = outsideWindow ((f (committing c h u st b)).sess j) := by
  rw [kExecute_commit hr hn hb hf, afterNumber_outside]
  unfold cacheReply
  dsimp only
  split
  · refine modSess_outside ?_ j
    exact fun _ => rfl
  · rfl

theorem bump_sess (u : State) (j : Nat) : u.bump.sess j = u.sess j :=
  sess_of_rest (State.bump_rest (M := [.keeper, .version]) (by decide) u) (by decide) j

theorem committing_outside (c : KCmd) (h : CmdHdr) (u : State) (st : Status) (b : Bytes) (j : Nat) :
    outsideWindow ((committing c h u st b).sess j) = outsideWindow (u.sess j) := by
  rw [← bump_sess u j]
  refine modSess_outside (s := u.bump) (k := ownKey h) ?_ j
  exact fun _ => rfl

theorem committing_sess_ne (c : KCmd) (h : CmdHdr) (u : State) (st : Status) (b : Bytes) {j : Nat} (hj : j ≠ ownKey h) :
    (committing c h u st b).sess j = u.sess j := by
  rw [← bump_sess u j]
  exact State.modSess_ne u.bump _ hj

/-- A session without marks or held commands is left as it is. -/
theorem afterNumber_empty {key : Nat} (hmarks : (s.sess key).marks = []) (hheld : (s.sess key).held = []) : afterNumber s key = s := by
  have hskip : passSkipped 64 key s = s := by
    unfold passSkipped
    dsimp only
    rw [hmarks]
    exact if_neg (fun h => nomatch h)
  unfold afterNumber
  dsimp only
  rw [hskip]
  unfold releaseHeld
  rw [hheld]
  rfl

/-! #### The commands -/

theorem noOp_done (hst : starts noOpCmd h p s = true) : wingDone noOpCmd (.noOp h p) (taken noOpCmd h s) (kcpNoOp noOpCmd h p s) := by
  obtain ⟨k, hr, hn, -, -, hx⟩ := kcp_of_starts hst rfl
  rw [hx]
  exact answered_of_query hr hn rfl

theorem sessionStatus_done (hst : starts sessionStatusCmd h p s = true) :
    wingDone sessionStatusCmd (.sessionStatus h p) (taken sessionStatusCmd h s) (kcp sessionStatusCmd h p s) := by
  obtain ⟨k, hr, hn, -, hx, -⟩ := kcp_of_starts hst rfl
  rw [hx]
  exact answered_of_query hr hn rfl

theorem timeRead_done (hst : starts timeReadCmd h p s = true) :
    wingDone timeReadCmd (.timeRead h p) (taken timeReadCmd h s) (kcp timeReadCmd h p s) := by
  obtain ⟨k, hr, hn, -, hx, -⟩ := kcp_of_starts hst rfl
  rw [hx]
  exact answered_of_query hr hn rfl

theorem functionStatus_done (hst : starts functionStatusCmd h p s = true) :
    wingDone functionStatusCmd (.functionStatus h p) (taken functionStatusCmd h s) (kcp functionStatusCmd h p s) := by
  obtain ⟨k, hr, hn, hx⟩ := kcp_of_starts_sessionless hst rfl
  rw [hx]
  refine answered_of_sessionless hr hn ?_
  have hmin : (taken functionStatusCmd h s).power.minimal = false := by rw [taken_power]; exact not_minimal_of_starts hst
  generalize taken functionStatusCmd h s = v at hmin ⊢
  unfold functionStatusCmd
  dsimp only
  rw [hmin]
  rfl

theorem timeSeed_done (hst : starts timeSeedCmd h p s = true) (hrules : wingRules (.timeSeed h p) (taken timeSeedCmd h s) = true) :
    wingDone timeSeedCmd (.timeSeed h p) (taken timeSeedCmd h s) (kcp timeSeedCmd h p s) := by
  obtain ⟨k, hr, hn, -, hx, -⟩ := kcp_of_starts hst rfl
  have hb : timeSeedCmd.body (taken timeSeedCmd h s) h p = .commit (fun s => s.modClock (fun c => { c with seed := some (field p 0 8) })) .ok [] :=
    if_pos (by simpa [wingRules, and_assoc] using hrules)
  rw [hx]
  refine ⟨committed_of_commit hr hn hb rfl (sameWindow_refl _) rfl, ?_⟩
  rw [clock_of_rest (M := [.sessions, .stamped]) (kExecute_commit_rest hr hn hb rfl (by decide)) (by decide)]
  have hclock : (committing timeSeedCmd h (taken timeSeedCmd h s) .ok []).clock = (taken timeSeedCmd h s).clock :=
    clock_of_rest (committing_rest hr (List.Subset.refl _)) (by decide)
  exact congrArg (fun c : Clock => { c with seed := some (field p 0 8) }) hclock

/-- The parameters of Table 12.7 that a session-set changes. -/
def withParams (p : Bytes) (x : Session) : Session :=
  { x with lease := orElse (field p 0 4) x.lease, lapseHold := orElse (field p 4 4) x.lapseHold, gap := orElse (field p 8 4) x.gap }

theorem sessionSet_done (hst : starts sessionSetCmd h p s = true) :
    wingDone sessionSetCmd (.sessionSet h p) (taken sessionSetCmd h s) (kcp sessionSetCmd h p s) := by
  obtain ⟨k, hr, hn, -, hx, -⟩ := kcp_of_starts hst rfl
  have hb : sessionSetCmd.body (taken sessionSetCmd h s) h p = .commit (fun s => s.modSess (ownKey h) (withParams p)) .ok [] := rfl
  have hbefore := committing_outside sessionSetCmd h (taken sessionSetCmd h s) .ok [] (ownKey h)
  have hafter := kExecute_commit_outside hr hn hb rfl (ownKey h)
  rw [State.modSess_self] at hafter
  have hlease := congrArg Session.lease hafter
  have hhold := congrArg Session.lapseHold hafter
  have hgap := congrArg Session.gap hafter
  have hlease' := congrArg Session.lease hbefore
  have hhold' := congrArg Session.lapseHold hbefore
  have hgap' := congrArg Session.gap hbefore
  rw [hx]
  refine ⟨committed_of_commit hr hn hb rfl ?_ rfl, ?_, ?_, ?_⟩
  · rw [State.modSess_self]; exact ⟨rfl, rfl, rfl, rfl⟩
  · exact hlease.trans (congrArg (orElse (field p 0 4)) hlease')
  · exact hhold.trans (congrArg (orElse (field p 4 4)) hhold')
  · exact hgap.trans (congrArg (orElse (field p 8 4)) hgap')

theorem closeSession_sess (s : State) (k : Nat) :
    (closeSession s k).sess k = { s.sess k with st := .closed, marks := [], held := [], malformed := [] } := State.modSess_self _ _ _

/-- A session closed in a record that caches nothing in it (Table 12.10). -/
theorem kExecute_close (hr : Ready sessionCloseCmd h p k u) (hn : Numbered h u) (hlongs : (u.sess (ownKey h)).longs = 0) :
    kExecute sessionCloseCmd k true u = closeSession (committing sessionCloseCmd h u .ok []) (ownKey h) := by
  have hb : sessionCloseCmd.body u h p = .commit (fun s => closeSession s (ownKey h)) .ok [] :=
    if_neg (by have : (u.sess (sessKey h.fn h.session)).longs = 0 := hlongs; omega)
  have hclosed := closeSession_sess (committing sessionCloseCmd h u .ok []) (ownKey h)
  rw [kExecute_commit hr hn hb rfl]
  unfold cacheReply
  dsimp only
  rw [if_neg (by rw [hclosed]; simp)]
  exact afterNumber_empty (by rw [hclosed]) (by rw [hclosed])

theorem sessionClose_done (hst : starts sessionCloseCmd h p s = true)
    (hrules : wingRules (.sessionClose h p) (taken sessionCloseCmd h s) = true) :
    wingDone sessionCloseCmd (.sessionClose h p) (taken sessionCloseCmd h s) (kcp sessionCloseCmd h p s) := by
  obtain ⟨k, hr, hn, -, hx, -⟩ := kcp_of_starts hst rfl
  have hgen := congrArg Session.gen (committing_outside sessionCloseCmd h (taken sessionCloseCmd h s) .ok [] (ownKey h))
  rw [hx, kExecute_close hr hn (of_decide_eq_true hrules)]
  refine ⟨committing_version (st := .ok) (b := []) hr, ?_, ?_, ?_, ?_, fun j hj => ?_⟩
  · rw [closeSession_sess]
  · rw [closeSession_sess]
  · rw [closeSession_sess]
  · rw [closeSession_sess]; exact hgen
  · exact (State.modSess_ne _ _ hj).trans (committing_sess_ne _ _ _ _ _ hj)

/-- The host session that a session-open opens (R322, R324). -/
def openedSession (h : CmdHdr) (p : Bytes) (gen : Nat) : Session :=
  { (default : Session) with
    st := .opened, gen := gen, next := 1, lease := orElse (field p 0 4) 10000000
    lapseHold := orElse (field p 4 4) 300000000, gap := orElse (field p 8 4) 10000
    leaseEnd := h.stamp + orElse (field p 0 4) 10000000 }

theorem sessionOpen_body {n : Nat} (hn : lowest 16 (fun n => decide ((u.sess (sessKey h.fn n)).st = .closed)) = some n)
    (hroom : allSessions u < 1024) : sessionOpenCmd.body u h p =
      .commit (fun s => s.modSess (sessKey h.fn n) (fun _ => openedSession h p ((u.sess (sessKey h.fn n)).gen + 1))) .ok
        (leBytes 4 n ++ leBytes 4 ((u.sess (sessKey h.fn n)).gen + 1)) := by
  unfold sessionOpenCmd
  dsimp only
  rw [hn]
  exact if_neg (by omega)

theorem reply_remembered (v : State) (h : CmdHdr) (r : Reply) :
    ∃ o, o ∈ ((pushReply (v.modFn h.fn (rememberReply h r)) h.fn r).fn h.fn).opens ∧ o.hostTag = h.hostTag ∧ o.reply = r := by
  rw [pushReply_opens, State.modFn_self]
  exact ⟨{ hostTag := h.hostTag, reply := r }, by simp [rememberReply], rfl, rfl⟩

/-- A session-open changes its host session alone, in one record, and its function, which remembers the reply (R322, R323). -/
theorem sessionOpen_kcp (hst : starts sessionOpenCmd h p s = true) {n : Nat}
    (hfree : lowest 16 (fun n => decide (((taken sessionOpenCmd h s).sess (sessKey h.fn n)).st = .closed)) = some n)
    (hroom : allSessions (taken sessionOpenCmd h s) < 1024) :
    ∃ r, r.payload = leBytes 4 n ++ leBytes 4 (((taken sessionOpenCmd h s).sess (sessKey h.fn n)).gen + 1)
      ∧ kcp sessionOpenCmd h p s = pushReply (((taken sessionOpenCmd h s).bump.modSess (sessKey h.fn n)
          (fun _ => openedSession h p (((taken sessionOpenCmd h s).sess (sessKey h.fn n)).gen + 1))).modFn h.fn (rememberReply h r)) h.fn r := by
  obtain ⟨k, hr, hn, hx⟩ := kcp_of_starts_sessionless hst rfl
  exact ⟨_, rfl, hx.trans (kSessionless_open hr hn (sessionOpen_body hfree hroom) rfl)⟩

theorem sessionOpen_done (hst : starts sessionOpenCmd h p s = true)
    (hrules : wingRules (.sessionOpen h p) (taken sessionOpenCmd h s) = true) :
    wingDone sessionOpenCmd (.sessionOpen h p) (taken sessionOpenCmd h s) (kcp sessionOpenCmd h p s) := by
  obtain ⟨k, hr, -, -⟩ := kcp_of_starts_sessionless hst rfl
  simp only [wingRules, Bool.and_eq_true, decide_eq_true_eq] at hrules
  obtain ⟨hfree, hroom⟩ := hrules
  obtain ⟨n, hfree⟩ := Option.isSome_iff_exists.mp hfree
  obtain ⟨r, hpayload, hx⟩ := sessionOpen_kcp hst hfree hroom
  generalize taken sessionOpenCmd h s = u at *
  obtain ⟨v, hv⟩ : ∃ v, v = u.bump.modSess (sessKey h.fn n) (fun _ => openedSession h p ((u.sess (sessKey h.fn n)).gen + 1)) := ⟨_, rfl⟩
  have hown : v.sess (sessKey h.fn n) = openedSession h p ((u.sess (sessKey h.fn n)).gen + 1) := by rw [hv, State.modSess_self]
  have hother {j : Nat} (hj : j ≠ sessKey h.fn n) : v.sess j = u.sess j := by rw [hv, State.modSess_ne _ _ hj, bump_sess]
  have hversion : v.led.version = u.led.version + 1 := by rw [hv]; exact (bump_version u).trans (if_pos hr.up)
  rw [← hv] at hx
  rw [hx]
  refine ⟨n, hfree, hversion, ?_, ?_, ?_, ?_, ?_, ?_, ?_, ?_, fun j hj => ?_, ?_⟩
  · exact congrArg Session.st hown
  · exact congrArg Session.gen hown
  · exact congrArg Session.next hown
  · exact congrArg Session.lease hown
  · exact congrArg Session.lapseHold hown
  · exact congrArg Session.gap hown
  · exact congrArg Session.leaseEnd hown
  · exact congrArg Session.marks hown
  · exact hother hj
  · obtain ⟨o, ho, htag, hreply⟩ := reply_remembered v h r
    exact ⟨o, ho, htag, (congrArg Reply.payload hreply).trans hpayload⟩

theorem resumeReplays_rest {M : List Component} (hM : .fns ∈ M) (h : CmdHdr) (p : Bytes) (s : State) :
    rest M (resumeReplays h p s) = rest M s := by
  unfold resumeReplays
  refine rest_foldl _ _ _ (fun s q => ?_)
  split
  · split
    · exact pushReply_rest hM _ _ _
    · rfl
  · rfl

/-- A host session resumed (R324, R333). -/
def resumedSession (h : CmdHdr) (now : Nat) (x : Session) : Session := { x with st := stateBefore x now, leaseEnd := h.stamp + x.lease }

theorem sessionResume_body (hrules : wingRules (.sessionResume h p) u = true) : sessionResumeCmd.body u h p =
    .commit (fun s => s.modSess (sessKey h.fn (field p 0 4)) (resumedSession h s.clock.count)) .ok
      (leBytes 8 (u.sess (sessKey h.fn (field p 0 4))).next ++ leBytes 8 (u.led.version + 1) ++ leBytes 8 u.durable.version) := by
  obtain ⟨hzero, hgen, hopen⟩ := of_decide_eq_true hrules
  unfold sessionResumeCmd
  dsimp only
  rw [if_neg hzero, if_neg (fun hne => hne hgen), if_neg hopen]
  rfl

/-- A session-resume changes its host session alone, in one record, and the replies of its function (R333). -/
theorem sessionResume_kcp (hst : starts sessionResumeCmd h p s = true)
    (hrules : wingRules (.sessionResume h p) (taken sessionResumeCmd h s) = true) :
    rest [.fns] (kcp sessionResumeCmd h p s) = rest [.fns] ((taken sessionResumeCmd h s).bump.modSess (sessKey h.fn (field p 0 4))
      (resumedSession h (taken sessionResumeCmd h s).bump.clock.count)) := by
  obtain ⟨k, hr, hn, hx⟩ := kcp_of_starts_sessionless hst rfl
  have hfollow : sessionResumeCmd.follow = resumeReplays := rfl
  have hcode : sessionResumeCmd.code ≠ 0x0002 := by unfold sessionResumeCmd; decide
  have hcommit := kSessionless_commit hr hn (sessionResume_body hrules) hcode
  rw [hfollow] at hcommit
  rw [hx, hcommit, resumeReplays_rest (by decide), pushReply_rest (by decide)]

theorem sessionResume_done (hst : starts sessionResumeCmd h p s = true)
    (hrules : wingRules (.sessionResume h p) (taken sessionResumeCmd h s) = true) :
    wingDone sessionResumeCmd (.sessionResume h p) (taken sessionResumeCmd h s) (kcp sessionResumeCmd h p s) := by
  obtain ⟨k, hr, -, -⟩ := kcp_of_starts_sessionless hst rfl
  have hrest := sessionResume_kcp hst hrules
  generalize taken sessionResumeCmd h s = u at *
  have hclock : u.bump.clock = u.clock := clock_of_rest (State.bump_rest (M := [.keeper, .version]) (by decide) u) (by decide)
  have hown : (kcp sessionResumeCmd h p s).sess (sessKey h.fn (field p 0 4)) =
      resumedSession h u.clock.count (u.sess (sessKey h.fn (field p 0 4))) := by
    rw [sess_of_rest hrest (by decide), State.modSess_self, bump_sess, hclock]
  refine ⟨?_, ?_, ?_, ?_, ?_, fun j hj => ?_⟩
  · exact (version_of_rest hrest (by decide)).trans ((bump_version u).trans (if_pos hr.up))
  · rw [hown]; rfl
  · rw [hown]; rfl
  · rw [hown]; rfl
  · rw [hown]; rfl
  · rw [sess_of_rest hrest (by decide), State.modSess_ne _ _ hj, bump_sess]

end

/-- Settles O18. -/
theorem sessionCommands : Obligations.SessionCommands := by
  intro i c h p s hi hc hst hrules
  cases i with
  | noOp => cases hc; exact ⟨_, rfl, noOp_done hst⟩
  | sessionOpen => cases hc; exact ⟨_, rfl, sessionOpen_done hst hrules⟩
  | sessionResume => cases hc; exact ⟨_, rfl, sessionResume_done hst hrules⟩
  | sessionStatus => cases hc; exact ⟨_, rfl, sessionStatus_done hst⟩
  | sessionSet => cases hc; exact ⟨_, rfl, sessionSet_done hst⟩
  | sessionClose => cases hc; exact ⟨_, rfl, sessionClose_done hst hrules⟩
  | functionStatus => cases hc; exact ⟨_, rfl, functionStatus_done hst⟩
  | timeSeed => cases hc; exact ⟨_, rfl, timeSeed_done hst hrules⟩
  | timeRead => cases hc; exact ⟨_, rfl, timeRead_done hst⟩
  | _ => cases hi

end Sys2Proof.Machine
/-! ### The service, power, function and tally commands (Tables 13.15 and 13.16) -/

namespace Sys2Proof.Machine

open Sys2Proof Sys2Proof.Safety

/-! #### Reading a part that a command's record leaves alone -/

section
variable {M : List Component} {s t : State}

theorem physTile_of_rest (h : rest M t = rest M s) (hM : Component.tileMap ∉ M) (n : Nat) : physTile t n = physTile s n := by
  unfold physTile; rw [same_of_rest (c := .tileMap) h hM]

theorem tile_of_rest (h : rest M t = rest M s) (hM : Component.tiles ∉ M) (p : Nat) : t.tile p = s.tile p :=
  congrArg (tget · p) (same_of_rest (c := .tiles) h hM)

theorem wingOfTile_of_rest (h : rest M t = rest M s) (hM : Component.wings ∉ M) (n : Nat) : wingOfTile t n = wingOfTile s n := by
  unfold wingOfTile; simp only [wing_of_rest h hM]

theorem domain_of_rest (h : rest M t = rest M s) (hM : Component.power ∉ M) (d : Nat) : t.domain d = s.domain d :=
  congrArg (fun x : Power => tget x.domains d) (same_of_rest (c := .power) h hM)

end

section
variable {h : CmdHdr} {p : Bytes} {s : State}

theorem parse_of_starts {c : KCmd} (hst : starts c h p s = true) : c.parse p = true := by
  simp only [starts, Bool.and_eq_true] at hst
  obtain ⟨⟨⟨⟨⟨-, hparse⟩, -⟩, -⟩, -⟩, -⟩ := hst
  exact hparse

/-! #### Queries (Tables 13.15, 13.16) -/

theorem faultLogRead_done (hst : starts faultLogReadCmd h p s = true) :
    moduleDone faultLogReadCmd (.faultLogRead h p) (taken faultLogReadCmd h s) (kcp faultLogReadCmd h p s) := by
  obtain ⟨k, hr, hn, -, hx, -⟩ := kcp_of_starts hst rfl
  rw [hx]
  exact answered_of_query hr hn rfl

theorem tallyRead_done (hst : starts tallyReadCmd h p s = true) (hrules : moduleRules (.tallyRead h p) (taken tallyReadCmd h s) = true) :
    moduleDone tallyReadCmd (.tallyRead h p) (taken tallyReadCmd h s) (kcp tallyReadCmd h p s) := by
  obtain ⟨k, hr, hn, -, hx, -⟩ := kcp_of_starts hst rfl
  rw [hx]
  refine ⟨fun hnow => answered_of_query hr hn ?_, fun hlast l hl => answered_of_query hr hn ?_⟩
  · have hperiod : (taken tallyReadCmd h s).led.tally.period ≠ 0 := by simpa [moduleRules, hnow] using hrules
    generalize taken tallyReadCmd h s = u at *
    unfold tallyReadCmd
    dsimp only
    rw [if_neg (fun hne => hperiod hne.2), if_pos hnow]
  · generalize taken tallyReadCmd h s = u at *
    unfold tallyReadCmd
    dsimp only
    rw [if_neg (fun hne => hlast hne.1), if_neg hlast, hl]

/-! #### Tally periods (R364) -/

/-- The tally with a new period started after the record just committed (R364). -/
def closePeriod (s : State) : State :=
  s.modLed (fun l =>
    { l with tally := { period := l.tally.period + 1, start := l.version + 1, cur := []
                        last := some (l.tally.period, l.tally.start, l.version), lastCounts := l.tally.cur } })

theorem tallyClose_done (hst : starts tallyCloseCmd h p s = true) (hrules : moduleRules (.tallyClose h p) (taken tallyCloseCmd h s) = true) :
    moduleDone tallyCloseCmd (.tallyClose h p) (taken tallyCloseCmd h s) (kcp tallyCloseCmd h p s) := by
  obtain ⟨k, hr, hn, -, hx, -⟩ := kcp_of_starts hst rfl
  rw [hx]
  have hperiod : (taken tallyCloseCmd h s).led.tally.period ≠ 0 := of_decide_eq_true hrules
  generalize taken tallyCloseCmd h s = u at *
  have hb : tallyCloseCmd.body u h p = .commit closePeriod .ok (leBytes 8 u.led.tally.period) := if_neg hperiod
  have htally : (committing tallyCloseCmd h u .ok (leBytes 8 u.led.tally.period)).led.tally = u.led.tally :=
    same_of_rest (c := .tally) (committing_rest hr (List.Subset.refl _)) (by decide)
  refine ⟨committed_of_commit hr hn hb rfl (sameWindow_refl _) rfl, ?_⟩
  refine (same_of_rest (c := .tally) (kExecute_commit_rest (M := [.sessions, .stamped]) hr hn hb rfl (by decide)) (by decide)).trans ?_
  unfold closePeriod State.modLed
  dsimp only
  rw [htally, committing_version hr]

/-! #### Fences (R443) -/

theorem releaseFence_rest {M : List Component} (hM : [.wings, .ports] ⊆ M) (w : Nat) (s : State) : rest M (releaseFence w s) = rest M s := by
  simp only [List.cons_subset, List.nil_subset, and_true] at hM
  unfold releaseFence
  rw [rest_foldl _ _ _ (fun s q => pumpPort_rest hM.2 s q), State.modWing_rest hM.1]

theorem releaseFence_fenced (w : Nat) (s : State) : ((releaseFence w s).wing w).fenced = false := by
  have hports : rest [.ports] (releaseFence w s) = rest [.ports] (s.modWing w (fun x => { x with fenced := false })) :=
    rest_foldl _ _ _ (fun s q => pumpPort_rest (by decide) s q)
  rw [wing_of_rest hports (by decide), State.modWing_self]

/-- The entry that fences a wing in the next milepost (R443). -/
def fenceNext (w : Nat) (s : State) : State :=
  setEntry s { mp := s.clock.count + 1, cls := .fence, wing := some w, arg := 0, late := false }

section
variable {k : Packet} {u : State}

theorem wingFence_released (hr : Ready wingFenceCmd h p k u) (hn : Numbered h u) (ha : field p 1 1 = 0) :
    moduleDone wingFenceCmd (.wingFence h p) u (kExecute wingFenceCmd k true u) := by
  have hb : wingFenceCmd.body u h p = .commit (releaseFence (field p 0 1)) .ok [] := if_pos ha
  have hkept := releaseFence_rest (List.Subset.refl _) (field p 0 1) (committing wingFenceCmd h u .ok [])
  have hrest := kExecute_commit_rest (M := [.sessions, .stamped]) hr hn hb rfl (by decide)
  refine ⟨committed_of_commit hr hn hb rfl (sameWindow_of_rest hkept (by decide) _) (version_of_rest hkept (by decide)), fun _ => ⟨?_, ?_⟩,
    fun hone => absurd (ha.symm.trans hone) (by decide)⟩
  · rw [wing_of_rest hrest (by decide)]; exact releaseFence_fenced _ _
  · have hcommit : rest [.version, .sessions, .fns] (committing wingFenceCmd h u .ok []) = rest _ u := committing_rest hr (List.Subset.refl _)
    exact (same_of_rest (c := .tt) hrest (by decide)).trans
      ((same_of_rest (c := .tt) hkept (by decide)).trans (same_of_rest (c := .tt) hcommit (by decide)))

theorem wingFence_fenced (hr : Ready wingFenceCmd h p k u) (hn : Numbered h u) (ha : field p 1 1 = 1)
    (hf : (u.wing (field p 0 1)).fenced = true) : moduleDone wingFenceCmd (.wingFence h p) u (kExecute wingFenceCmd k true u) := by
  have hb : wingFenceCmd.body u h p = .commit id .ok [] := (if_neg (by omega)).trans (if_pos hf)
  refine ⟨committed_of_commit hr hn hb rfl (sameWindow_refl _) rfl, fun hz => absurd (ha.symm.trans hz) (by decide),
    fun _ => ⟨?_, fun hno => absurd (hf.symm.trans hno) (by decide)⟩⟩
  have hrest := kExecute_commit_rest (M := [.sessions, .stamped]) hr hn hb rfl (by decide)
  have hcommit : rest [.version, .sessions, .fns] (committing wingFenceCmd h u .ok []) = rest _ u := committing_rest hr (List.Subset.refl _)
  exact (same_of_rest (c := .wings) hrest (by decide)).trans (same_of_rest (c := .wings) hcommit (by decide))

theorem wingFence_entered (hr : Ready wingFenceCmd h p k u) (hn : Numbered h u) (ha : field p 1 1 = 1)
    (hf : (u.wing (field p 0 1)).fenced ≠ true) : moduleDone wingFenceCmd (.wingFence h p) u (kExecute wingFenceCmd k true u) := by
  have hb : wingFenceCmd.body u h p = .commit (fenceNext (field p 0 1)) .ok [] := (if_neg (by omega)).trans (if_neg hf)
  have hrest := kExecute_commit_rest (M := [.sessions, .stamped]) hr hn hb rfl (by decide)
  have hcommit : rest [.version, .sessions, .fns] (committing wingFenceCmd h u .ok []) = rest _ u := committing_rest hr (List.Subset.refl _)
  refine ⟨committed_of_commit hr hn hb rfl (sameWindow_refl _) rfl, fun hz => absurd (ha.symm.trans hz) (by decide),
    fun _ => ⟨?_, fun _ => ?_⟩⟩
  · exact (same_of_rest (c := .wings) hrest (by decide)).trans (same_of_rest (c := .wings) hcommit (by decide))
  · have htt : (kExecute wingFenceCmd k true u).tt = (fenceNext (field p 0 1) (committing wingFenceCmd h u .ok [])).tt :=
      same_of_rest (c := .tt) hrest (by decide)
    have hcount := congrArg Clock.count (clock_of_rest hcommit (by decide))
    rw [htt]
    exact ⟨_, List.mem_append_right _ (List.mem_singleton.mpr rfl), rfl, rfl, congrArg (· + 1) hcount⟩

end

theorem wingFence_done (hst : starts wingFenceCmd h p s = true) :
    moduleDone wingFenceCmd (.wingFence h p) (taken wingFenceCmd h s) (kcp wingFenceCmd h p s) := by
  obtain ⟨k, hr, hn, -, hx, -⟩ := kcp_of_starts hst rfl
  have hlayout : (fixedLayout 8 [(2, 2)] p && decide (field p 0 1 < 16 ∧ field p 1 1 < 2)) = true := parse_of_starts hst
  have hone : field p 1 1 < 2 := (of_decide_eq_true (Bool.and_eq_true_iff.mp hlayout).2).2
  rw [hx]
  by_cases ha : field p 1 1 = 0
  · exact wingFence_released hr hn ha
  · by_cases hf : ((taken wingFenceCmd h s).wing (field p 0 1)).fenced = true
    · exact wingFence_fenced hr hn (by omega) hf
    · exact wingFence_entered hr hn (by omega) hf

end

end Sys2Proof.Machine
/-! ### Tiles mapped to spares, and the image of a firmware handover (R424 to R427, R439) -/

namespace Sys2Proof.Machine

open Sys2Proof Sys2Proof.Safety

/-! #### Long commands whose effect leaves their number alone -/

section
variable {c : KCmd} {h : CmdHdr} {p : Bytes} {k : Packet} {u : State} {b : Bytes} {f g : State → State} {M : List Component}

/-- The parts by which a long command's acceptance is told. -/
def acceptanceParts : List Component := [.version, .sessions, .longs]

theorem accepted1_of_long (hr : Ready c h p k u) (hn : Numbered h u) (hl : (u.sess (ownKey h)).longs < 64)
    (hb : c.body u h p = .long f .accepted b none) (hf : rest M (f (accepting c h u .accepted b)) = rest M (accepting c h u .accepted b))
    (hM : ∀ x, x ∈ acceptanceParts → x ∉ M) : accepted1 c h u (kExecute c k true u) b := by
  have hversion : Component.version ∉ M := hM _ (by decide)
  have hsessions : Component.sessions ∉ M := hM _ (by decide)
  have hlongs : Component.longs ∉ M := hM _ (by decide)
  refine ⟨?_, acceptedLong_of_long hr hn hl hb (sameWindow_of_rest hf hsessions _) ?_⟩
  · rw [version_of_rest (M := [.sessions, .stamped]) (kExecute_long_rest hr hn hl hb (by decide)) (by decide), version_of_rest hf hversion,
      accepting_version hr]
  · rw [longs_of_rest hf hlongs]; exact accepting_longs

theorem accepted1_of_long_done (hr : Ready c h p k u) (hn : Numbered h u) (hl : (u.sess (ownKey h)).longs < 64)
    (hb : c.body u h p = .long f .accepted b (some g))
    (hg : rest M (g (f (accepting c h u .accepted b))) = rest M (accepting c h u .accepted b))
    (hM : ∀ x, x ∈ acceptanceParts → x ∉ M) : accepted1 c h u (kExecute c k true u) b := by
  have hversion : Component.version ∉ M := hM _ (by decide)
  have hsessions : Component.sessions ∉ M := hM _ (by decide)
  have hlongs : Component.longs ∉ M := hM _ (by decide)
  refine ⟨?_, acceptedLong_of_long_done hr hn hl hb (sameWindow_of_rest hg hsessions _) ?_⟩
  · rw [version_of_rest (M := [.sessions, .stamped]) (kExecute_long_done_rest hr hn hl hb (by decide)) (by decide), version_of_rest hg hversion,
      accepting_version hr]
  · rw [longs_of_rest hg hlongs]; exact accepting_longs

/-- What a final reply may change. -/
def replyParts : List Component := [.fns, .keeper, .sessions, .longs, .stamped]

/-- What a long command finished at once leaves, its final reply apart. -/
theorem kExecute_finished_rest (hr : Ready c h p k u) (hn : Numbered h u) (hl : (u.sess (ownKey h)).longs < 64) {st st' : Status} {b' : Bytes}
    (hb : c.body u h p = .long id st b (some g)) {w : State} (hg : g (accepting c h u st b) = finishIn w (refOf h c.code) st' b') :
    rest replyParts (kExecute c k true u) = rest replyParts w := by
  rw [kExecute_long_done_rest hr hn hl hb (by decide), id, hg]
  exact finishIn_rest (by decide) _ _ _ _

end

/-! #### Tiles (R424 to R427) -/

section
variable {s : State} {n : Nat}

/-- Gating the tiles' clocks changes only what a gated tile loses. -/
theorem settleGates_tile {α : Type} (f : Tile → α) (hf : ∀ t o, f { idleTile t with store := [], gate := o } = f t) (s : State) (q : Nat) :
    f ((settleGates s).tile q) = f (s.tile q) := by
  unfold settleGates
  refine foldl_keeps (fun v : State => f (v.tile q)) (fun v j => ?_) _ _
  dsimp only
  split
  · rfl
  · by_cases hj : q = j
    · subst hj; rw [State.modTile_self]; exact hf _ _
    · rw [State.modTile_ne _ _ hj]

theorem physTile_of_unavailable (hm : tget s.led.tileMap n = .unavailable) : physTile s n = none := by unfold physTile; rw [hm]

theorem physTile_of_phys {q : Nat} (hm : tget s.led.tileMap n = .phys q) : physTile s n = some q := by unfold physTile; rw [hm]

theorem settleGates_tileMap (s : State) : (settleGates s).led.tileMap = s.led.tileMap :=
  same_of_rest (c := .tileMap) (settleGates_rest (M := [.tiles]) (by decide) s) (by decide)

theorem unavailable_tileMap (s : State) (n : Nat) :
    tget (settleGates (s.modLed (fun l => { l with tileMap := tput l.tileMap n .unavailable }))).led.tileMap n = .unavailable := by
  rw [settleGates_tileMap]
  exact tget_tput_self s.led.tileMap n .unavailable

theorem notify_tileMap (s : State) (type : Notice) (at_ : At) (body : List Nat) : (notify s type at_ body).led.tileMap = s.led.tileMap :=
  same_of_rest (c := .tileMap) (notify_rest (M := [.fns, .keeper]) (by decide) s type at_ body) (by decide)

theorem modWing_tileMap (s : State) (w : Nat) (g : Wing → Wing) : (s.modWing w g).led.tileMap = s.led.tileMap := rfl

theorem loseTile_physTile (s : State) (n : Nat) : physTile (loseTile s n) n = none := by
  refine physTile_of_unavailable ?_
  unfold loseTile
  dsimp only
  split
  · rw [notify_tileMap]; exact unavailable_tileMap _ n
  · rw [notify_tileMap, modWing_tileMap]; exact unavailable_tileMap _ n

theorem switchMap_tileMap (s : State) (old : Option Nat) (sp : Nat) : tget (switchMap s n old sp).led.tileMap n = .phys sp := by
  cases old with
  | none => exact tget_tput_self s.led.tileMap n (.phys sp)
  | some q => exact tget_tput_self s.led.tileMap n (.phys sp)

theorem switchMap_faultMap (s : State) (q sp : Nat) : tget (switchMap s n (some q) sp).led.faultMap q = true :=
  tget_tput_self s.led.faultMap q true

/-- A mapping that no wing's stages hold up is made at once (R425). -/
def mappedNow (s : State) (n sp : Nat) : State := tileMapped (settleGates (switchMap s n (physTile s n) sp)) n sp (physTile s n)

theorem startMapping_now {sp : Nat} (hfree : wingOfTile s n = none ∨ physTile s n = none) (ref : CmdRef) :
    startMapping s n sp (some ref) = finishIn (mappedNow s n sp) ref .ok (leBytes 2 sp) := by
  unfold startMapping
  split
  next hw hq => rcases hfree with h | h <;> simp_all
  · rfl

theorem startMapping_later {w q sp : Nat} (hw : wingOfTile s n = some w) (hq : physTile s n = some q) (ref : Option CmdRef) :
    startMapping s n sp ref = askSwitch (settleGates (s.modTile q (fun t => { t with spare := some sp, mapRef := ref }))) w := by
  unfold startMapping; rw [hw, hq]

/-- What a mapping made at once may change. -/
theorem mappedNow_switch (s : State) (n sp : Nat) : rest [.fns, .keeper, .tiles] (mappedNow s n sp) =
    rest [.fns, .keeper, .tiles] (switchMap s n (physTile s n) sp) :=
  (tileMapped_rest (by decide) _ _ _ _).trans (settleGates_rest (by decide) _)

theorem mappedNow_rest (s : State) (n sp : Nat) : rest [.fns, .keeper, .tiles, .tileMap, .faultMap] (mappedNow s n sp) =
    rest [.fns, .keeper, .tiles, .tileMap, .faultMap] s :=
  (tileMapped_rest (by decide) _ _ _ _).trans ((settleGates_rest (by decide) _).trans (switchMap_rest (by decide) _ _ _ _))

theorem mappedNow_physTile (s : State) (n sp : Nat) : physTile (mappedNow s n sp) n = some sp :=
  physTile_of_phys ((congrArg (tget · n) (same_of_rest (c := .tileMap) (mappedNow_switch s n sp) (by decide))).trans (switchMap_tileMap _ _ _))

theorem mappedNow_faultMap {q : Nat} (hq : physTile s n = some q) (sp : Nat) : tget (mappedNow s n sp).led.faultMap q = true := by
  refine (congrArg (tget · q) (same_of_rest (c := .faultMap) (mappedNow_switch s n sp) (by decide))).trans ?_
  rw [hq]; exact switchMap_faultMap _ _ _

end

/-! #### The command tile-map -/

section
variable {h : CmdHdr} {p : Bytes} {k : Packet} {u : State} {b : Bytes}

/-- The request of a tile-map. -/
def mapAsked (h : CmdHdr) (p : Bytes) : MapReq := { tile := field p 0 2, out := decide (field p 2 1 = 1), ref := some (refOf h tileMapCmd.code) }

/-- What a tile-map's acceptance leaves apart from its own host session, replies and record. -/
theorem tileMap_accepting (hr : Ready tileMapCmd h p k u) (b : Bytes) :
    rest [.version, .sessions, .longs, .fns] (accepting tileMapCmd h u .accepted b) = rest [.version, .sessions, .longs, .fns] u :=
  accepting_rest hr (List.Subset.refl _)

/-- A mapping whose tile is not ready waits (R427). -/
theorem tileMap_waits (hr : Ready tileMapCmd h p k u) (hn : Numbered h u) (hl : (u.sess (ownKey h)).longs < 64)
    (hready : mapReady u (field p 0 2) = false) :
    accepted1 tileMapCmd h u (kExecute tileMapCmd k true u) []
      ∧ (kExecute tileMapCmd k true u).led.maps = u.led.maps ++ [mapAsked h p] := by
  have hb : tileMapCmd.body u h p = .long (fun s => s.modLed (fun l => { l with maps := l.maps ++ [mapAsked h p] })) .accepted [] none :=
    if_pos (by rw [hready]; rfl)
  have hmaps : (accepting tileMapCmd h u .accepted []).led.maps = u.led.maps :=
    same_of_rest (c := .maps) (tileMap_accepting hr []) (by decide)
  refine ⟨accepted1_of_long (M := [.maps]) hr hn hl hb (modLed_maps_rest (by decide) _ _) (by decide), ?_⟩
  refine (same_of_rest (c := .maps) (kExecute_long_rest (M := [.sessions, .stamped]) hr hn hl hb (by decide)) (by decide)).trans ?_
  exact congrArg (· ++ [mapAsked h p]) hmaps

/-- The state at a tile's going out of use, before its command's final reply (R424). -/
def mappedOut (s : State) (n : Nat) : State := if (physTile s n).isNone then s.bump else loseTile s.bump n

theorem mappedOut_rest (s : State) (n : Nat) : rest [.fns, .tiles, .keeper, .version, .wings, .tileMap, .faultMap] (mappedOut s n) =
    rest [.fns, .tiles, .keeper, .version, .wings, .tileMap, .faultMap] s := by
  unfold mappedOut
  split
  · exact State.bump_rest (by decide) s
  · exact (loseTile_rest (by decide) _ _).trans (State.bump_rest (by decide) s)

theorem mappedOut_physTile (s : State) (n : Nat) : physTile (mappedOut s n) n = none := by
  unfold mappedOut
  split
  next hnone =>
    rw [physTile_of_rest (State.bump_rest (M := [.keeper, .version]) (by decide) s) (by decide)]
    exact Option.isNone_iff_eq_none.mp hnone
  · exact loseTile_physTile _ _

/-- What a tile-map that maps a tile out does after its interim reply. -/
def mapOut (h : CmdHdr) (p : Bytes) (s : State) : State :=
  if (physTile s (field p 0 2)).isNone then finish s (refOf h tileMapCmd.code) .ok (leBytes 2 0xFFFF) else beginMap s (mapAsked h p)

theorem mapOut_eq (hout : field p 2 1 = 1) (s : State) :
    mapOut h p s = finishIn (mappedOut s (field p 0 2)) (refOf h tileMapCmd.code) .ok (leBytes 2 0xFFFF) := by
  unfold mapOut mappedOut
  split
  · rfl
  · exact if_pos (decide_eq_true hout)

theorem tileMap_out (hr : Ready tileMapCmd h p k u) (hn : Numbered h u) (hl : (u.sess (ownKey h)).longs < 64)
    (hready : mapReady u (field p 0 2) = true) (hout : field p 2 1 = 1) :
    finished tileMapCmd h (kExecute tileMapCmd k true u) .ok (leBytes 2 0xFFFF)
      ∧ physTile (kExecute tileMapCmd k true u) (field p 0 2) = none := by
  have hb : tileMapCmd.body u h p = .long id .accepted [] (some (mapOut h p)) :=
    (if_neg (by rw [hready]; simp)).trans (if_pos (decide_eq_true hout))
  have heq := mapOut_eq (h := h) hout (accepting tileMapCmd h u .accepted [])
  refine ⟨finished_of_long hr hn hl hb heq (sameWindow_of_rest (mappedOut_rest _ _) (by decide) _), ?_⟩
  rw [physTile_of_rest (kExecute_finished_rest hr hn hl hb heq) (by decide), mappedOut_physTile]

/-- What a tile-map that maps a tile to a spare does after its interim reply, where no wing's stages hold it up. -/
def mapIn (h : CmdHdr) (p : Bytes) (sp : Nat) (s : State) : State := startMapping s.bump (field p 0 2) sp (some (refOf h tileMapCmd.code))

theorem tileMap_in_body (hready : mapReady u (field p 0 2) = true) (hin : field p 2 1 = 0) {sp : Nat} (hsp : spareFor u (field p 0 2) = some sp)
    (hfree : wingOfTile u (field p 0 2) = none ∨ physTile u (field p 0 2) = none) :
    tileMapCmd.body u h p = .long id .accepted [] (some (mapIn h p sp)) := by
  unfold tileMapCmd
  dsimp only
  rw [if_neg (by rw [hready]; simp), if_neg (by simp [hin]), hsp]
  dsimp only
  split
  next hw hq => rcases hfree with h | h <;> simp_all
  · rfl

theorem tileMap_in_now (hr : Ready tileMapCmd h p k u) (hn : Numbered h u) (hl : (u.sess (ownKey h)).longs < 64)
    (hready : mapReady u (field p 0 2) = true) (hin : field p 2 1 = 0) {sp : Nat} (hsp : spareFor u (field p 0 2) = some sp)
    (hfree : wingOfTile u (field p 0 2) = none ∨ physTile u (field p 0 2) = none) :
    finished tileMapCmd h (kExecute tileMapCmd k true u) .ok (leBytes 2 sp)
      ∧ physTile (kExecute tileMapCmd k true u) (field p 0 2) = some sp
      ∧ (∀ q, physTile u (field p 0 2) = some q → tget (kExecute tileMapCmd k true u).led.faultMap q = true) := by
  have hb := tileMap_in_body (h := h) hready hin hsp hfree
  have hbefore : rest [.version, .sessions, .longs, .fns, .keeper] (accepting tileMapCmd h u .accepted []).bump =
      rest [.version, .sessions, .longs, .fns, .keeper] u := (State.bump_rest (by decide) _).trans (accepting_rest hr (by decide))
  have heq : mapIn h p sp (accepting tileMapCmd h u .accepted []) =
      finishIn (mappedNow (accepting tileMapCmd h u .accepted []).bump (field p 0 2) sp) (refOf h tileMapCmd.code) .ok (leBytes 2 sp) :=
    startMapping_now (by rw [wingOfTile_of_rest hbefore (by decide), physTile_of_rest hbefore (by decide)]; exact hfree) _
  have hwindow : SameWindow ((accepting tileMapCmd h u .accepted []).sess (ownKey h))
      ((mappedNow (accepting tileMapCmd h u .accepted []).bump (field p 0 2) sp).sess (ownKey h)) := by
    rw [sess_of_rest (mappedNow_rest _ _ _) (by decide), bump_sess]; exact sameWindow_refl _
  have hrest := kExecute_finished_rest hr hn hl hb heq
  refine ⟨finished_of_long hr hn hl hb heq hwindow, ?_, fun q hq => ?_⟩
  · rw [physTile_of_rest hrest (by decide), mappedNow_physTile]
  · refine (congrArg (tget · q) (same_of_rest (c := .faultMap) hrest (by decide))).trans (mappedNow_faultMap ?_ sp)
    rw [physTile_of_rest hbefore (by decide)]; exact hq

theorem tileMap_in_later (hr : Ready tileMapCmd h p k u) (hn : Numbered h u) (hl : (u.sess (ownKey h)).longs < 64)
    (hready : mapReady u (field p 0 2) = true) (hin : field p 2 1 = 0) {sp w q : Nat} (hsp : spareFor u (field p 0 2) = some sp)
    (hw : wingOfTile u (field p 0 2) = some w) (hq : physTile u (field p 0 2) = some q) :
    accepted1 tileMapCmd h u (kExecute tileMapCmd k true u) []
      ∧ ((kExecute tileMapCmd k true u).tile q).spare = some sp
      ∧ ((kExecute tileMapCmd k true u).tile q).mapRef = some (refOf h tileMapCmd.code)
      ∧ physTile (kExecute tileMapCmd k true u) (field p 0 2) = some q := by
  have hb : tileMapCmd.body u h p =
      .long (fun s => startMapping s (field p 0 2) sp (some (refOf h tileMapCmd.code))) .accepted [] none := by
    unfold tileMapCmd
    dsimp only
    rw [if_neg (by rw [hready]; simp), if_neg (by simp [hin]), hsp]
    dsimp only
    rw [hw, hq]
  have hbefore := tileMap_accepting hr []
  generalize hA : accepting tileMapCmd h u .accepted [] = A at *
  have heq : startMapping A (field p 0 2) sp (some (refOf h tileMapCmd.code)) = _ :=
    startMapping_later (by rw [wingOfTile_of_rest hbefore (by decide)]; exact hw) (by rw [physTile_of_rest hbefore (by decide)]; exact hq) _
  have hkept : rest [.tiles, .wings] (startMapping A (field p 0 2) sp (some (refOf h tileMapCmd.code))) = rest [.tiles, .wings] A := by
    rw [heq, askSwitch_rest (by decide), settleGates_rest (by decide), State.modTile_rest (by decide)]
  have htile : ((startMapping A (field p 0 2) sp (some (refOf h tileMapCmd.code))).tile q).spare = some sp
      ∧ ((startMapping A (field p 0 2) sp (some (refOf h tileMapCmd.code))).tile q).mapRef = some (refOf h tileMapCmd.code) := by
    rw [heq, tile_of_rest (askSwitch_rest (M := [.wings]) (by decide) _ _) (by decide), settleGates_tile Tile.spare (fun _ _ => rfl),
      settleGates_tile Tile.mapRef (fun _ _ => rfl), State.modTile_self]
    exact ⟨rfl, rfl⟩
  have hrest := kExecute_long_rest (M := [.sessions, .stamped]) hr hn hl hb (by decide)
  rw [hA] at hrest
  refine ⟨accepted1_of_long (M := [.tiles, .wings]) hr hn hl hb (by rw [hA]; exact hkept) (by decide), ?_, ?_, ?_⟩
  · rw [tile_of_rest hrest (by decide)]; exact htile.1
  · rw [tile_of_rest hrest (by decide)]; exact htile.2
  · rw [physTile_of_rest hrest (by decide), physTile_of_rest hkept (by decide), physTile_of_rest hbefore (by decide)]; exact hq

theorem tileMap_done {s : State} (hst : starts tileMapCmd h p s = true) :
    moduleDone tileMapCmd (.tileMap h p) (taken tileMapCmd h s) (kcp tileMapCmd h p s) := by
  obtain ⟨k, hr, hn, hl, hx, -⟩ := kcp_of_starts hst rfl
  rw [hx]
  exact ⟨tileMap_waits hr hn (hl rfl), tileMap_out hr hn (hl rfl), fun hready hin sp hsp =>
    ⟨fun w q hw hq => tileMap_in_later hr hn (hl rfl) hready hin hsp hw hq, tileMap_in_now hr hn (hl rfl) hready hin hsp⟩⟩

/-! #### The command firmware-handover (R439) -/

theorem bump_fns (u : State) : u.bump.fns = u.fns := same_of_rest (c := .fns) (State.bump_rest (M := [.keeper, .version]) (by decide) u) (by decide)

/-- Accepting a long command changes no function but for its queues. -/
theorem accepting_outside (c : KCmd) (h : CmdHdr) (u : State) (st : Status) (b : Bytes) (i : Nat) :
    outsideQueues ((accepting c h u st b).fn i) = outsideQueues (u.fn i) :=
  (pushReply_outside _ _ _ i).trans (congrArg (fun t => outsideQueues (tgetD Fn.blank t i)) (bump_fns u))

theorem accepting_link {c : KCmd} (hr : Ready c h p k u) (st : Status) (b : Bytes) : (accepting c h u st b).link = u.link :=
  same_of_rest (c := .link) (accepting_rest hr (List.Subset.refl _)) (by decide)

/-- What a host has answered is read alike where the link and the function but for its queues are the same. -/
theorem hostBytes_congr {s t : State} {fn : Nat} (hlink : t.link = s.link) (hfn : outsideQueues (t.fn fn) = outsideQueues (s.fn fn))
    (host : HostRead) :
    hostBytes t fn host = hostBytes s fn host := by
  cases host with
  | failed => rfl
  | data l =>
    have hst : (t.fn fn).st = (s.fn fn).st := by have h := congrArg Fn.st hfn; exact h
    have hbme : (t.fn fn).bme = (s.fn fn).bme := by have h := congrArg Fn.bme hfn; exact h
    unfold hostBytes
    rw [hlink, hst, hbme]

/-- The check of the image that a firmware-handover names. -/
def imageCheck (h : CmdHdr) (p : Bytes) (host : HostRead) : State → State :=
  checkImage (refOf h (firmwareHandoverCmd host).code) h.fn (field p 8 4) host

theorem firmwareHandover_accepted {host : HostRead} (hr : Ready (firmwareHandoverCmd host) h p k u) (hn : Numbered h u)
    (hl : (u.sess (ownKey h)).longs < 64) (hb : hostBytes u h.fn host = some b) (hsize : field p 8 4 ≤ 2 ^ 24)
    (hlength : b.length = field p 8 4) (himage : Config.imageAccepted b = true) (hnone : u.keeper.handover = .none) :
    accepted1 (firmwareHandoverCmd host) h u (kExecute (firmwareHandoverCmd host) k true u) []
      ∧ (kExecute (firmwareHandoverCmd host) k true u).keeper.handover = .checked b (refOf h (firmwareHandoverCmd host).code) := by
  have hbody : (firmwareHandoverCmd host).body u h p = .long id .accepted [] (some (imageCheck h p host)) := rfl
  have hread := (hostBytes_congr (accepting_link hr .accepted []) (accepting_outside (firmwareHandoverCmd host) h u .accepted [] h.fn) host).trans hb
  have hkeeper : (accepting (firmwareHandoverCmd host) h u .accepted []).keeper = u.keeper :=
    keeper_of_rest (accepting_rest hr (List.Subset.refl _)) (by decide)
  have heq : imageCheck h p host (accepting (firmwareHandoverCmd host) h u .accepted []) =
      (accepting (firmwareHandoverCmd host) h u .accepted []).modKeeper (fun k =>
        { k with handover := .checked b (refOf h (firmwareHandoverCmd host).code) }) := by
    unfold imageCheck checkImage
    rw [hread]
    dsimp only
    rw [if_neg (by rw [hkeeper, hnone]; simp [hlength, himage]; omega)]
  have hkept : rest [.keeper] (imageCheck h p host (accepting (firmwareHandoverCmd host) h u .accepted [])) =
      rest [.keeper] (accepting (firmwareHandoverCmd host) h u .accepted []) := by rw [heq, State.modKeeper_rest (by decide)]
  have hrest := kExecute_long_done_rest (M := [.sessions, .stamped]) hr hn hl hbody (by decide)
  refine ⟨accepted1_of_long_done (M := [.keeper]) hr hn hl hbody hkept (by decide), ?_⟩
  rw [keeper_of_rest hrest (by decide), id, heq]
  rfl

theorem logEvent_handover (s : State) (code severity : Nat) (at_ : At) (detail : List Nat) :
    (logEvent s code severity at_ detail).keeper.handover = s.keeper.handover := by
  unfold logEvent
  dsimp only
  split
  · rfl
  · split
    · rfl
    · split <;> rfl

theorem bump_handover (s : State) : s.bump.keeper.handover = s.keeper.handover := by
  unfold State.bump; split <;> rfl

theorem finishIn_handover (w : State) (ref : CmdRef) (st : Status) (b : Bytes) : (finishIn w ref st b).keeper.handover = w.keeper.handover := by
  have hlog (v : State) : (if st.value / 256 ≠ 0 then logStatus v st {} else v).keeper.handover = v.keeper.handover := by
    split
    · exact logEvent_handover _ _ _ _ _
    · rfl
  unfold finishIn
  dsimp only
  split
  · split
    · exact hlog _
    · exact hlog _
  · exact hlog _

theorem firmwareHandover_unread {host : HostRead} (hr : Ready (firmwareHandoverCmd host) h p k u) (hn : Numbered h u)
    (hl : (u.sess (ownKey h)).longs < 64) (hb : hostBytes u h.fn host = none) :
    finished (firmwareHandoverCmd host) h (kExecute (firmwareHandoverCmd host) k true u) .firmwareBad []
      ∧ (kExecute (firmwareHandoverCmd host) k true u).keeper.handover = u.keeper.handover := by
  have hbody : (firmwareHandoverCmd host).body u h p = .long id .accepted [] (some (imageCheck h p host)) := rfl
  have hread := (hostBytes_congr (accepting_link hr .accepted []) (accepting_outside (firmwareHandoverCmd host) h u .accepted [] h.fn) host).trans hb
  have heq : imageCheck h p host (accepting (firmwareHandoverCmd host) h u .accepted []) =
      finishIn (accepting (firmwareHandoverCmd host) h u .accepted []).bump (refOf h (firmwareHandoverCmd host).code) .firmwareBad [] := by
    unfold imageCheck checkImage
    rw [hread]
    rfl
  have hkeeper : (accepting (firmwareHandoverCmd host) h u .accepted []).keeper = u.keeper :=
    keeper_of_rest (accepting_rest hr (List.Subset.refl _)) (by decide)
  refine ⟨finished_of_long hr hn hl hbody heq (by rw [bump_sess]; exact sameWindow_refl _), ?_⟩
  rw [keeper_of_rest (kExecute_long_done_rest (M := [.sessions, .stamped]) hr hn hl hbody (by decide)) (by decide), id, heq,
    finishIn_handover, bump_handover, hkeeper]

theorem firmwareHandover_done {s : State} {host : HostRead} (hst : starts (firmwareHandoverCmd host) h p s = true) :
    moduleDone (firmwareHandoverCmd host) (.firmwareHandover h p host) (taken (firmwareHandoverCmd host) h s)
      (kcp (firmwareHandoverCmd host) h p s) := by
  obtain ⟨k, hr, hn, hl, hx, -⟩ := kcp_of_starts hst rfl
  rw [hx]
  exact ⟨fun b hb hsize hlength himage hnone => firmwareHandover_accepted hr hn (hl rfl) hb hsize hlength himage hnone,
    firmwareHandover_unread hr hn (hl rfl)⟩

end

end Sys2Proof.Machine
/-! ### The command domain-set (R362, R363) -/

namespace Sys2Proof.Machine

open Sys2Proof Sys2Proof.Safety

section
variable {h : CmdHdr} {p : Bytes} {k : Packet} {s u : State}

theorem setSupplies_rest {M : List Component} (hM : .tiles ∈ M) (off : Bool) (tiles : List Nat) (s : State) :
    rest M (setSupplies off tiles s) = rest M s := by
  unfold setSupplies
  rw [settleGates_rest hM]
  exact rest_foldl _ _ _ (fun s q => State.modTile_rest hM _ _ _)

theorem modDomain_rest {M : List Component} (hM : .power ∈ M) (s : State) (d : Nat) (g : Domain → Domain) :
    rest M (s.modDomain d g) = rest M s := rest_power hM _ _

/-- A domain whose request starts to be carried out. -/
def beginRequest (r : DomReq) (x : Domain) : Domain :=
  { x with run := some r, ended := false
           st := if r.mask ≠ 0 then x.st else if !r.on then .falling else if x.st = .off then .rising else x.st }

theorem startDomain_begins (d : Nat) (r : DomReq) (s : State) :
    rest [.tiles] (startDomain d r s) = rest [.tiles] (s.modDomain d (beginRequest r)) := by
  unfold startDomain
  dsimp only
  split
  · exact setSupplies_rest (by decide) _ _ _
  · rfl

theorem startDomain_domain (d : Nat) (r : DomReq) (s : State) : (startDomain d r s).domain d = beginRequest r (s.domain d) := by
  rw [domain_of_rest (startDomain_begins d r s) (by decide), State.modDomain_self]

/-- A request that waits behind the one under way, in the place of an earlier one (R362). -/
def queueDomain (d : Nat) (r : DomReq) (s : State) : State :=
  match (s.domain d).queue with
  | some q => finishIn (s.modDomain d (fun x => { x with queue := some r })) q.ref .superseded []
  | none => s.modDomain d (fun x => { x with queue := some r })

theorem queueDomain_domain (d : Nat) (r : DomReq) (s : State) : (queueDomain d r s).domain d = { s.domain d with queue := some r } := by
  unfold queueDomain
  split
  · rw [domain_of_rest (finishIn_rest (List.Subset.refl _) _ _ _ _) (by decide), State.modDomain_self]
  · exact State.modDomain_self _ _ _

theorem queueDomain_superseded {d : Nat} {q : DomReq} (hq : (s.domain d).queue = some q) (r : DomReq) :
    q.ref ∉ (queueDomain d r s).led.longs := by
  unfold queueDomain
  rw [hq]
  dsimp only
  rw [finishIn_longs]
  simp

/-- The request of a domain-set. -/
def domainAsked (h : CmdHdr) (p : Bytes) : DomReq :=
  { on := decide (field p 1 1 = 1), mask := field p 8 8, ref := refOf h domainSetCmd.code }

theorem domainSet_permitted (hrules : moduleRules (.domainSet h p) u = true) :
    ¬(!(domainAsked h p).on && domainBusy u (field p 0 1) (domainAsked h p).mask) = true := by
  have hor : (decide (field p 1 1 = 1) || !domainBusy u (field p 0 1) (field p 8 8)) = true := hrules
  simp only [domainAsked, Bool.and_eq_true, Bool.not_eq_true', decide_eq_false_iff_not, not_and, Bool.or_eq_true, decide_eq_true_eq] at hor ⊢
  exact fun hoff => by rw [hor.resolve_left hoff]; simp

theorem accepting_domain (hr : Ready domainSetCmd h p k u) (st : Status) (d : Nat) :
    (accepting domainSetCmd h u st []).domain d = u.domain d :=
  domain_of_rest (accepting_rest hr (List.Subset.refl _)) (by decide) d

theorem domainSet_queued (hr : Ready domainSetCmd h p k u) (hn : Numbered h u) (hl : (u.sess (ownKey h)).longs < 64)
    (hrules : moduleRules (.domainSet h p) u = true) (hrun : (u.domain (field p 0 1)).run.isSome = true) :
    ((kExecute domainSetCmd k true u).domain (field p 0 1)).queue = some (domainAsked h p)
      ∧ ((kExecute domainSetCmd k true u).domain (field p 0 1)).run = (u.domain (field p 0 1)).run
      ∧ (∀ q, (u.domain (field p 0 1)).queue = some q →
          q.ref ∉ (kExecute domainSetCmd k true u).led.longs ∨ q.ref = refOf h domainSetCmd.code)
      ∧ ((u.domain (field p 0 1)).queue = none → acceptedLong domainSetCmd h u (kExecute domainSetCmd k true u) .deferred []) := by
  have hb : domainSetCmd.body u h p = .long (queueDomain (field p 0 1) (domainAsked h p)) .deferred [] none :=
    (if_neg (domainSet_permitted hrules)).trans (if_pos hrun)
  have hrest := kExecute_long_rest (M := [.sessions, .stamped]) hr hn hl hb (by decide)
  have hdomain : (kExecute domainSetCmd k true u).domain (field p 0 1) = { u.domain (field p 0 1) with queue := some (domainAsked h p) } := by
    rw [domain_of_rest hrest (by decide), queueDomain_domain, accepting_domain hr]
  refine ⟨by rw [hdomain], by rw [hdomain], fun q hq => .inl ?_, fun hq => ?_⟩
  · rw [longs_of_rest hrest (by decide)]
    exact queueDomain_superseded (by rw [accepting_domain hr]; exact hq) _
  · have heq : queueDomain (field p 0 1) (domainAsked h p) (accepting domainSetCmd h u .deferred []) =
        (accepting domainSetCmd h u .deferred []).modDomain (field p 0 1) (fun x => { x with queue := some (domainAsked h p) }) := by
      unfold queueDomain
      rw [accepting_domain hr, hq]
    have hkept := (congrArg (rest [.power]) heq).trans (modDomain_rest (by decide) _ _ _)
    refine acceptedLong_of_long hr hn hl hb (sameWindow_of_rest hkept (by decide) _) ?_
    rw [longs_of_rest hkept (by decide)]
    exact accepting_longs

theorem domainSet_already (hr : Ready domainSetCmd h p k u) (hn : Numbered h u) (hl : (u.sess (ownKey h)).longs < 64)
    (hrules : moduleRules (.domainSet h p) u = true) (hrun : (u.domain (field p 0 1)).run = none)
    (halready : domainAlready u (field p 0 1) (domainAsked h p) = true) :
    finished domainSetCmd h (kExecute domainSetCmd k true u) .complete [] ∧ (kExecute domainSetCmd k true u).power = u.power := by
  have hb : domainSetCmd.body u h p = .long id .accepted [] (some (fun s => finish s (refOf h domainSetCmd.code) .complete [])) :=
    (if_neg (domainSet_permitted hrules)).trans ((if_neg (by rw [hrun]; simp)).trans (if_pos halready))
  refine ⟨finished_of_long hr hn hl hb rfl (by rw [bump_sess]; exact sameWindow_refl _), ?_⟩
  have hbefore : rest [.version, .sessions, .longs, .fns, .keeper] (accepting domainSetCmd h u .accepted []).bump =
      rest [.version, .sessions, .longs, .fns, .keeper] u := (State.bump_rest (by decide) _).trans (accepting_rest hr (by decide))
  exact (same_of_rest (c := .power) (kExecute_finished_rest hr hn hl hb rfl) (by decide)).trans (same_of_rest (c := .power) hbefore (by decide))

theorem domainSet_started (hr : Ready domainSetCmd h p k u) (hn : Numbered h u) (hl : (u.sess (ownKey h)).longs < 64)
    (hrules : moduleRules (.domainSet h p) u = true) (hrun : (u.domain (field p 0 1)).run = none)
    (halready : domainAlready u (field p 0 1) (domainAsked h p) = false) :
    accepted1 domainSetCmd h u (kExecute domainSetCmd k true u) []
      ∧ (kExecute domainSetCmd k true u).domain (field p 0 1) = beginRequest (domainAsked h p) (u.domain (field p 0 1)) := by
  have hb : domainSetCmd.body u h p = .long (startDomain (field p 0 1) (domainAsked h p)) .accepted [] none :=
    (if_neg (domainSet_permitted hrules)).trans ((if_neg (by rw [hrun]; simp)).trans
      (if_neg (fun hyes => absurd (halready.symm.trans hyes) (by decide))))
  have hkept : rest [.tiles, .power] (startDomain (field p 0 1) (domainAsked h p) (accepting domainSetCmd h u .accepted [])) =
      rest [.tiles, .power] (accepting domainSetCmd h u .accepted []) := by
    unfold startDomain
    dsimp only
    split
    · exact (setSupplies_rest (by decide) _ _ _).trans (modDomain_rest (by decide) _ _ _)
    · exact modDomain_rest (by decide) _ _ _
  refine ⟨accepted1_of_long (M := [.tiles, .power]) hr hn hl hb hkept (by decide), ?_⟩
  rw [domain_of_rest (kExecute_long_rest (M := [.sessions, .stamped]) hr hn hl hb (by decide)) (by decide), startDomain_domain,
    accepting_domain hr]

theorem lt_of_domainSet (hst : starts domainSetCmd h p s = true) : field p 1 1 < 2 := by
  have hparse : domainSetParse p = true := parse_of_starts hst
  simp only [domainSetParse, Bool.and_eq_true, decide_eq_true_eq] at hparse
  obtain ⟨⟨-, -, hlt, -⟩, -⟩ := hparse
  exact hlt

theorem beginRequest_st (hlt : field p 1 1 < 2) (x : Domain) : (beginRequest (domainAsked h p) x).st =
    if field p 8 8 ≠ 0 then x.st else if field p 1 1 = 0 then .falling else if x.st = .off then .rising else x.st := by
  by_cases hoff : field p 1 1 = 0
  · simp [beginRequest, domainAsked, hoff]
  · simp [beginRequest, domainAsked, show field p 1 1 = 1 by omega]

theorem domainSet_done (hst : starts domainSetCmd h p s = true) (hrules : moduleRules (.domainSet h p) (taken domainSetCmd h s) = true) :
    moduleDone domainSetCmd (.domainSet h p) (taken domainSetCmd h s) (kcp domainSetCmd h p s) := by
  obtain ⟨k, hr, hn, hl, hx, -⟩ := kcp_of_starts hst rfl
  rw [hx]
  refine ⟨domainSet_queued hr hn (hl rfl) hrules, domainSet_already hr hn (hl rfl) hrules, fun hrun halready => ?_⟩
  obtain ⟨haccepted, hdomain⟩ := domainSet_started hr hn (hl rfl) hrules hrun halready
  refine ⟨haccepted, by rw [hdomain]; rfl, ?_⟩
  rw [hdomain]
  exact beginRequest_st (lt_of_domainSet hst) _

end

end Sys2Proof.Machine
/-! ### The commands pc-retire and loft-evacuate (R428, R432 to R434) -/

namespace Sys2Proof.Machine

open Sys2Proof Sys2Proof.Safety

/-! #### Moves carried on where no key's removal waits -/

/-- What carrying moves on changes where no key's removal waits. -/
def moveParts : List Component := [.fns, .keeper, .objects, .rooms, .handles]

section
variable {s : State} {M : List Component}

theorem carryMoves_settled (hM : moveParts ⊆ M) (s : State) : rest M (carryMoves s) = rest M (settleRemovals s) := by
  simp only [moveParts, List.cons_subset, List.nil_subset, and_true] at hM
  unfold carryMoves
  dsimp only
  rw [rest_foldl _ _ _ (fun s c => (evacuateImages_rest (by simp [hM]) c _).trans (evacuateNext_rest (by simp [hM]) c s))]
  exact rest_foldl _ _ _ (fun s q => (retireRooms_rest (by simp [hM]) q _).trans (retireNext_rest (by simp [hM]) q s))

theorem settleRemovals_quiet (hs : s.secure.removals = []) : settleRemovals s = s := by
  unfold settleRemovals
  split
  · rfl
  · rw [hs]; rfl

theorem carryMoves_quiet (hM : moveParts ⊆ M) (hs : s.secure.removals = []) : rest M (carryMoves s) = rest M s := by
  rw [carryMoves_settled hM, settleRemovals_quiet hs]

theorem retryBlocked_quiet (hM : moveParts ⊆ M) (hs : s.secure.removals = []) (w : Nat) : rest M (retryBlocked s w) = rest M s := by
  have hobjects : Component.objects ∈ M := hM (by decide)
  unfold retryBlocked
  refine (carryMoves_quiet hM ?_).trans ?_
  · exact hs
  · exact rest_objects hobjects _ _

theorem windowDrops_quiet (hM : moveParts ⊆ M) (hw : .wings ∈ M) (hs : s.secure.removals = []) (pc w : Nat) :
    rest M (windowDrops pc s w) = rest M s := by
  unfold windowDrops
  dsimp only
  split
  · rfl
  · refine (retryBlocked_quiet hM ?_ w).trans (State.modWing_rest hw _ _ _)
    exact hs

theorem removals_of_rest {t : State} (h : rest M t = rest M s) (hM : Component.secure ∉ M) : t.secure.removals = s.secure.removals :=
  congrArg Secure.removals (same_of_rest (c := .secure) h hM)

/-- Steps that leave the keys alone where no removal waits, one after the other. -/
theorem foldl_quiet {α : Type} {g : State → α → State} (hsec : Component.secure ∉ M)
    (hg : ∀ s x, s.secure.removals = [] → rest M (g s x) = rest M s) (l : List α) (hs : s.secure.removals = []) :
    rest M (l.foldl g s) = rest M s := by
  induction l generalizing s with
  | nil => rfl
  | cons x l ih =>
    have hx := hg s x hs
    exact (ih ((removals_of_rest hx hsec).trans hs)).trans hx

/-! #### The version only rises -/

theorem le_bump_version (s : State) : s.led.version ≤ s.bump.led.version := by
  rw [bump_version]; split <;> omega

theorem le_foldl_version {α : Type} {g : State → α → State} (hg : ∀ s x, s.led.version ≤ (g s x).led.version) (l : List α) (s : State) :
    s.led.version ≤ (l.foldl g s).led.version := by
  induction l generalizing s with
  | nil => exact le_refl _
  | cons x l ih => exact (hg s x).trans (ih _)

theorem le_endRemoval_version (s : State) (r : KeyRemoval) : s.led.version ≤ (endRemoval s r).led.version := by
  unfold endRemoval finish
  rw [version_of_rest (finishIn_rest (List.Subset.refl _) _ _ _ _) (by decide)]
  exact le_bump_version (s.modSecure _)

theorem le_carryMoves_version (s : State) : s.led.version ≤ (carryMoves s).led.version := by
  rw [version_of_rest (carryMoves_settled (List.Subset.refl _) s) (by decide)]
  unfold settleRemovals
  split
  · exact le_refl _
  · exact le_foldl_version le_endRemoval_version _ _

theorem le_windowDrops_version (pc : Nat) (s : State) (w : Nat) : s.led.version ≤ (windowDrops pc s w).led.version := by
  unfold windowDrops retryBlocked
  dsimp only
  split
  · exact le_refl _
  · refine le_trans ?_ (le_carryMoves_version _)
    exact le_refl _

end

/-! #### The command pc-retire (R428) -/

section
variable {h : CmdHdr} {p : Bytes} {k : Packet} {s u : State} {st : Status}

theorem pc_of_rest {M : List Component} {t : State} (hr : rest M t = rest M s) (hM : Component.pcs ∉ M) (n : Nat) : t.pc n = s.pc n :=
  congrArg (tget · n) (same_of_rest (c := .pcs) hr hM)

theorem loft_of_rest {M : List Component} {t : State} (hr : rest M t = rest M s) (hM : Component.lofts ∉ M) (n : Nat) : t.loft n = s.loft n :=
  congrArg (tget · n) (same_of_rest (c := .lofts) hr hM)

theorem windowDrops_rest {M : List Component}
    (hM : [.fns, .secure, .keeper, .version, .sessions, .longs, .wings, .objects, .rooms, .handles] ⊆ M) (pc w : Nat) (s : State) :
    rest M (windowDrops pc s w) = rest M s := by
  simp only [List.cons_subset, List.nil_subset, and_true] at hM
  unfold windowDrops retryBlocked
  dsimp only
  split
  · rfl
  · exact (carryMoves_rest (by simp [hM]) _).trans ((rest_objects (by simp [hM]) _ _).trans (State.modWing_rest (by simp [hM]) _ _ _))

/-- A pseudo-channel that a pc-retire retires. -/
def retiringPc (ref : Option CmdRef) (x : Pc) : Pc := { x with retiring := true, ref := ref }

theorem startRetirement_pc (n : Nat) (ref : Option CmdRef) (s : State) : (startRetirement n ref s).pc n = retiringPc ref (s.pc n) := by
  have hmoved := carryMoves_rest
    (M := [.fns, .secure, .keeper, .version, .sessions, .longs, .wings, .objects, .rooms, .handles]) (by decide)
    ((s.modPc n (retiringPc ref)).liveWings.foldl (windowDrops n) (s.modPc n (retiringPc ref)))
  have hdrops := rest_foldl (windowDrops n) (s.modPc n (retiringPc ref)).liveWings (s.modPc n (retiringPc ref))
    (fun v w => windowDrops_rest (List.Subset.refl _) n w v)
  have hpc : (startRetirement n ref s).pc n = (s.modPc n (retiringPc ref)).pc n := pc_of_rest (hmoved.trans hdrops) (by decide) n
  rw [hpc, State.modPc_self]

theorem le_startRetirement_version (n : Nat) (ref : Option CmdRef) (s : State) : s.led.version ≤ (startRetirement n ref s).led.version := by
  refine le_trans ?_ (le_carryMoves_version _)
  exact le_foldl_version (le_windowDrops_version n) _ (s.modPc n (retiringPc ref))

theorem startRetirement_quiet (hs : s.secure.removals = []) (n : Nat) (ref : Option CmdRef) :
    rest (.wings :: .pcs :: moveParts) (startRetirement n ref s) = rest (.wings :: .pcs :: moveParts) s := by
  have hdrops := foldl_quiet (M := .wings :: .pcs :: moveParts) (g := windowDrops n) (s := s.modPc n (retiringPc ref)) (by decide)
    (fun v w hv => windowDrops_quiet (by decide) (by decide) hv n w) (s.modPc n (retiringPc ref)).liveWings hs
  have hmoved := carryMoves_quiet (M := .wings :: .pcs :: moveParts) (by decide) ((removals_of_rest hdrops (by decide)).trans hs)
  exact hmoved.trans (hdrops.trans (rest_pcs (by decide) _ _))

theorem removals_of_noMovesWaiting (hq : noMovesWaiting u = true) : u.secure.removals = [] := by
  simp only [noMovesWaiting, Bool.and_eq_true, decide_eq_true_eq] at hq
  obtain ⟨⟨hremovals, -⟩, -⟩ := hq
  exact hremovals

theorem pcRetire_done (hst : starts pcRetireCmd h p s = true) (hrules : moduleRules (.pcRetire h p) (taken pcRetireCmd h s) = true) :
    moduleDone pcRetireCmd (.pcRetire h p) (taken pcRetireCmd h s) (kcp pcRetireCmd h p s) := by
  obtain ⟨k, hr, hn, hl, hx, -⟩ := kcp_of_starts hst rfl
  rw [hx]
  generalize taken pcRetireCmd h s = u at *
  have hin : (u.pc (field p 0 2)).retired = false ∧ (u.pc (field p 0 2)).retiring = false := by
    simpa [moduleRules] using hrules
  have hb : pcRetireCmd.body u h p = .long (startRetirement (field p 0 2) (some (refOf h pcRetireCmd.code))) .accepted [] none :=
    if_neg (by simp [hin])
  have hbefore : rest [.version, .sessions, .longs, .fns] (accepting pcRetireCmd h u .accepted []) = rest _ u :=
    accepting_rest hr (List.Subset.refl _)
  have hversion := accepting_version (h := h) (st := .accepted) (b := []) hr
  have hrest := kExecute_long_rest (M := [.sessions, .stamped]) hr hn (hl rfl) hb (by decide)
  have hpc : (kExecute pcRetireCmd k true u).pc (field p 0 2) =
      retiringPc (some (refOf h pcRetireCmd.code)) (u.pc (field p 0 2)) := by
    rw [pc_of_rest hrest (by decide), startRetirement_pc, pc_of_rest hbefore (by decide)]
  refine ⟨by rw [hpc]; rfl, by rw [hpc]; exact hin.1, by rw [hpc]; rfl, ?_, fun hq => ?_⟩
  · rw [version_of_rest hrest (by decide), ← hversion]
    exact le_startRetirement_version _ _ _
  · have hquiet := startRetirement_quiet ((removals_of_rest hbefore (by decide)).trans (removals_of_noMovesWaiting hq)) (field p 0 2)
      (some (refOf h pcRetireCmd.code))
    refine acceptedLong_of_long hr hn (hl rfl) hb (sameWindow_of_rest hquiet (by decide) _) ?_
    rw [longs_of_rest hquiet (by decide)]
    exact accepting_longs

/-! #### The command loft-evacuate (R432 to R434) -/

theorem discardMirror_rest {M : List Component} (hM : [.fns, .keeper, .objects, .rings] ⊆ M) (s : State) (i : Nat) :
    rest M (discardMirror s i) = rest M s := by
  simp only [List.cons_subset, List.nil_subset, and_true] at hM
  unfold discardMirror dropMirrors
  refine (freeObj_rest (by simp [hM]) _ _).trans ((rest_rings (by simp [hM]) _ _).trans ?_)
  exact (notify_rest (by simp [hM]) _ _ _ _).trans (rest_rings (by simp [hM]) _ _)

/-- The state in which an evacuation's moves begin. -/
def evacuationBegun (n : Nat) (ref : CmdRef) (s : State) : State :=
  let s := redirect n (s.modLoft n (fun x => { x with st := .evacuating, ref := some ref }))
  if otherArea s n then s else (mirrorsOn s n).foldl discardMirror s

theorem startEvacuation_eq (n : Nat) (ref : CmdRef) (s : State) : startEvacuation n ref s = carryMoves (evacuationBegun n ref s) := rfl

theorem evacuationBegun_mirrors (n : Nat) (ref : CmdRef) (s : State) :
    rest [.fns, .keeper, .objects, .rings] (evacuationBegun n ref s) = rest [.fns, .keeper, .objects, .rings]
      (redirect n (s.modLoft n (fun x => { x with st := .evacuating, ref := some ref }))) := by
  unfold evacuationBegun
  dsimp only
  split
  · rfl
  · exact rest_foldl _ _ _ (fun s i => discardMirror_rest (List.Subset.refl _) s i)

theorem evacuationBegun_rest (n : Nat) (ref : CmdRef) (s : State) :
    rest (.lofts :: .rings :: moveParts) (evacuationBegun n ref s) = rest (.lofts :: .rings :: moveParts) s := by
  unfold evacuationBegun redirect
  dsimp only
  split
  · exact (State.modLoft_rest (by decide) _ _ _).trans (State.modLoft_rest (by decide) _ _ _)
  · refine (rest_foldl _ _ _ (fun s i => discardMirror_rest (by decide) s i)).trans ?_
    exact (State.modLoft_rest (by decide) _ _ _).trans (State.modLoft_rest (by decide) _ _ _)

theorem startEvacuation_loft (n : Nat) (ref : CmdRef) (s : State) :
    ((startEvacuation n ref s).loft n).st = .evacuating ∧ ((startEvacuation n ref s).loft n).ref = some ref := by
  have hmoved := carryMoves_rest (M := [.fns, .secure, .keeper, .version, .sessions, .longs, .objects, .rooms, .handles]) (by decide)
    (evacuationBegun n ref s)
  rw [startEvacuation_eq, loft_of_rest hmoved (by decide), loft_of_rest (evacuationBegun_mirrors n ref s) (by decide)]
  unfold redirect
  rw [State.modLoft_self, State.modLoft_self]
  exact ⟨rfl, rfl⟩

theorem le_startEvacuation_version (n : Nat) (ref : CmdRef) (s : State) : s.led.version ≤ (startEvacuation n ref s).led.version := by
  rw [startEvacuation_eq, ← version_of_rest (evacuationBegun_rest n ref s) (by decide)]
  exact le_carryMoves_version _

theorem startEvacuation_quiet (hs : s.secure.removals = []) (n : Nat) (ref : CmdRef) :
    rest (.lofts :: .rings :: moveParts) (startEvacuation n ref s) = rest (.lofts :: .rings :: moveParts) s := by
  have hbegun := evacuationBegun_rest n ref s
  exact (carryMoves_quiet (by decide) ((removals_of_rest hbegun (by decide)).trans hs)).trans hbegun

theorem loftEvacuate_started (hr : Ready loftEvacuateCmd h p k u) (hn : Numbered h u) (hl : (u.sess (ownKey h)).longs < 64)
    (hrules : moduleRules (.loftEvacuate h p) u = true) (hout : field p 1 1 = 0) :
    moduleDone loftEvacuateCmd (.loftEvacuate h p) u (kExecute loftEvacuateCmd k true u) := by
  have hfit : (u.loft (field p 0 1)).st = .inService ∧ evacuationFits u (field p 0 1) = true := by
    simpa [moduleRules, hout] using hrules
  have hb : loftEvacuateCmd.body u h p = .long (startEvacuation (field p 0 1) (refOf h loftEvacuateCmd.code)) .accepted [] none :=
    (if_pos hout).trans ((if_neg (by simp [hfit])).trans (if_neg (by simp [hfit])))
  have hbefore : rest [.version, .sessions, .longs, .fns] (accepting loftEvacuateCmd h u .accepted []) = rest _ u :=
    accepting_rest hr (List.Subset.refl _)
  have hversion := accepting_version (h := h) (st := .accepted) (b := []) hr
  have hrest := kExecute_long_rest (M := [.sessions, .stamped]) hr hn hl hb (by decide)
  obtain ⟨hst, href⟩ := startEvacuation_loft (field p 0 1) (refOf h loftEvacuateCmd.code) (accepting loftEvacuateCmd h u .accepted [])
  refine ⟨?_, ?_, ?_, fun hq => ?_⟩
  · rw [loft_of_rest hrest (by decide), hst, if_pos hout]
  · rw [loft_of_rest hrest (by decide), href]
  · rw [version_of_rest hrest (by decide), ← hversion]
    exact le_startEvacuation_version _ _ _
  · have hquiet := startEvacuation_quiet ((removals_of_rest hbefore (by decide)).trans (removals_of_noMovesWaiting hq)) (field p 0 1)
      (refOf h loftEvacuateCmd.code)
    refine acceptedLong_of_long hr hn hl hb (sameWindow_of_rest hquiet (by decide) _) ?_
    rw [longs_of_rest hquiet (by decide)]
    exact accepting_longs

/-- A Loft channel that a loft-evacuate returns to service. -/
def returnLoft (n : Nat) (ref : CmdRef) (s : State) : State := s.modLoft n (fun x => { x with st := .returning, ref := some ref })

theorem loftEvacuate_returned (hr : Ready loftEvacuateCmd h p k u) (hn : Numbered h u) (hl : (u.sess (ownKey h)).longs < 64)
    (hrules : moduleRules (.loftEvacuate h p) u = true) (hback : field p 1 1 ≠ 0) :
    moduleDone loftEvacuateCmd (.loftEvacuate h p) u (kExecute loftEvacuateCmd k true u) := by
  have hst : (u.loft (field p 0 1)).st = .evacuated ∨ (u.loft (field p 0 1)).st = .down := by
    simpa [moduleRules, hback] using hrules
  have hb : loftEvacuateCmd.body u h p = .long (returnLoft (field p 0 1) (refOf h loftEvacuateCmd.code)) .accepted [] none :=
    (if_neg hback).trans (if_pos hst)
  have hkept : rest [.lofts] (returnLoft (field p 0 1) (refOf h loftEvacuateCmd.code) (accepting loftEvacuateCmd h u .accepted [])) =
      rest [.lofts] (accepting loftEvacuateCmd h u .accepted []) := State.modLoft_rest (by decide) _ _ _
  have hrest := kExecute_long_rest (M := [.sessions, .stamped]) hr hn hl hb (by decide)
  obtain ⟨hversion, hlong⟩ := accepted1_of_long hr hn hl hb hkept (by decide)
  have hloft : (kExecute loftEvacuateCmd k true u).loft (field p 0 1) = _ := (loft_of_rest hrest (by decide) _).trans (State.modLoft_self _ _ _)
  exact ⟨by rw [hloft, if_neg hback], by rw [hloft], hversion.ge, fun _ => hlong⟩

theorem loftEvacuate_done (hst : starts loftEvacuateCmd h p s = true)
    (hrules : moduleRules (.loftEvacuate h p) (taken loftEvacuateCmd h s) = true) :
    moduleDone loftEvacuateCmd (.loftEvacuate h p) (taken loftEvacuateCmd h s) (kcp loftEvacuateCmd h p s) := by
  obtain ⟨k, hr, hn, hl, hx, -⟩ := kcp_of_starts hst rfl
  rw [hx]
  by_cases hout : field p 1 1 = 0
  · exact loftEvacuate_started hr hn (hl rfl) hrules hout
  · exact loftEvacuate_returned hr hn (hl rfl) hrules hout

end

end Sys2Proof.Machine
/-! ### The command vf-set (R362, R372, R373) -/

namespace Sys2Proof.Machine

open Sys2Proof Sys2Proof.Safety

/-! #### A function is as it was but for its queues -/

theorem key_ne_of_mem_terase {α : Type} {t : Tbl α} {i : Nat} {q : Nat × α} (hq : q ∈ terase t i) : q.1 ≠ i := by
  induction t with
  | nil => cases hq
  | cons a t ih =>
    unfold terase at hq
    split at hq
    · exact ih hq
    next hne =>
      rcases List.mem_cons.mp hq with rfl | hmem
      · exact hne
      · exact ih hmem

/-- What is written at a number is all that a table holds there. -/
theorem eq_of_mem_tputD {α : Type} [DecidableEq α] {d : α} {t : Tbl α} {i : Nat} {v : α} {q : Nat × α} (hq : q ∈ tputD d t i v)
    (hi : q.1 = i) : q.2 = v := by
  unfold tputD at hq
  split at hq
  · exact absurd hi (key_ne_of_mem_terase hq)
  · rcases mem_tinsert q hq with rfl | hmem
    · rfl
    · exact absurd hi (key_ne_of_mem_terase hmem)

theorem mem_of_mem_tputD {α : Type} [DecidableEq α] {d : α} {t : Tbl α} {i : Nat} {v : α} {q : Nat × α} (hq : q ∈ tputD d t i v)
    (hi : q.1 ≠ i) : q ∈ t := by
  unfold tputD at hq
  split at hq
  · exact terase_sub _ _ _ hq
  · rcases mem_tinsert q hq with rfl | hmem
    · exact absurd rfl hi
    · exact terase_sub _ _ _ hmem

/-- A table of functions holds function `n` as `x` but for its queues, wherever it stands in it. -/
structure HoldsFn (n : Nat) (x : Fn) (t : Tbl Fn) : Prop where
  read : outsideQueues (tgetD Fn.blank t n) = x
  entry : ∀ q, q ∈ t → q.1 = n → outsideQueues q.2 = x

theorem holdsFn_tputD_self (n : Nat) (t : Tbl Fn) (f : Fn) : HoldsFn n (outsideQueues f) (tputD Fn.blank t n f) :=
  ⟨congrArg outsideQueues (tgetD_tputD_self _ _ _ _), fun _ hq hn => congrArg outsideQueues (eq_of_mem_tputD hq hn)⟩

theorem holdsFn_tputD {n i : Nat} {x f : Fn} {t : Tbl Fn} (ht : HoldsFn n x t) (hf : i = n → outsideQueues f = x) :
    HoldsFn n x (tputD Fn.blank t i f) := by
  by_cases hi : i = n
  · subst hi; exact hf rfl ▸ holdsFn_tputD_self i t f
  · exact ⟨(congrArg outsideQueues (tgetD_tputD_ne _ _ _ (Ne.symm hi))).trans ht.read,
      fun q hq hn => ht.entry q (mem_of_mem_tputD hq (hn ▸ Ne.symm hi)) hn⟩

section
variable {n : Nat} {x : Fn} {s : State}

theorem holdsFn_of_rest {M : List Component} {t : State} (hs : HoldsFn n x s.fns) (hr : rest M t = rest M s) (hM : Component.fns ∉ M) :
    HoldsFn n x t.fns := by
  have hfns : t.fns = s.fns := same_of_rest (c := .fns) hr hM
  rw [hfns]; exact hs

theorem holdsFn_foldl {α : Type} {g : State → α → State} (hg : ∀ s a, HoldsFn n x s.fns → HoldsFn n x (g s a).fns) (l : List α)
    (hs : HoldsFn n x s.fns) : HoldsFn n x (l.foldl g s).fns :=
  List.foldlRecOn l g hs (fun s h a _ => hg s a h)

theorem holdsFn_setFn_self (n : Nat) (s : State) (f : Fn) : HoldsFn n (outsideQueues f) (s.setFn n f).fns := holdsFn_tputD_self n s.fns f

theorem holdsFn_modFn (hs : HoldsFn n x s.fns) (i : Nat) {g : Fn → Fn} (hg : ∀ f, outsideQueues (g f) = outsideQueues f) :
    HoldsFn n x (s.modFn i g).fns :=
  holdsFn_tputD hs (fun hi => by subst hi; exact (hg _).trans hs.read)

theorem holdsFn_bump (hs : HoldsFn n x s.fns) : HoldsFn n x s.bump.fns := by rw [bump_fns]; exact hs

theorem holdsFn_pushReply (hs : HoldsFn n x s.fns) (i : Nat) (r : Reply) : HoldsFn n x (pushReply s i r).fns := by
  refine holdsFn_modFn hs i (fun f => ?_)
  split
  · exact flushReplies_outside _ _
  · rfl

theorem pushNotice_outside (f : Fn) (m : NoticeMsg) : outsideQueues (pushNotice f m) = outsideQueues f := by
  unfold pushNotice
  dsimp only
  split
  · exact raiseVector_outside _ _
  · rfl

theorem holdsFn_sendNotice (hs : HoldsFn n x s.fns) (every : Bool) (type : Notice) (at_ : At) (body : List Nat) :
    HoldsFn n x (sendNotice s every type at_ body).fns := by
  refine List.foldlRecOn (motive := HoldsFn n x) s.fns _ hs (fun t ht q hq => ?_)
  split
  · exact holdsFn_tputD ht (fun hn => (pushNotice_outside _ _).trans (hs.entry q hq hn))
  · exact ht

theorem holdsFn_notify (hs : HoldsFn n x s.fns) (type : Notice) (at_ : At) (body : List Nat) : HoldsFn n x (notify s type at_ body).fns :=
  holdsFn_of_rest (holdsFn_sendNotice hs false type at_ body) (logEvent_rest (M := [.keeper]) (by decide) _ _ _ _ _) (by decide)

theorem logStatus_fns (s : State) (st : Status) : (if st.value / 256 ≠ 0 then logStatus s st {} else s).fns = s.fns := by
  split
  · exact same_of_rest (c := .fns) (logStatus_rest (M := [.keeper]) (by decide) s st {}) (by decide)
  · rfl

/-- A final reply changes functions by the reply alone, if it is sent. -/
theorem finishIn_fns (s : State) (ref : CmdRef) (st : Status) (b : Bytes) : (finishIn s ref st b).fns = s.fns
    ∨ (finishIn s ref st b).fns = (pushReply s ref.fn (mkReply s ref st true b)).fns := by
  have hlog := logStatus_fns { s with led := { s.led with longs := s.led.longs.filter (fun l => decide (l ≠ ref)) } } st
  unfold finishIn
  dsimp only
  split
  · split
    · exact .inl hlog
    · refine .inr ?_
      exact congrArg (fun t => tputD Fn.blank t ref.fn (if (tgetD Fn.blank t ref.fn).st = .enabled ∧ !(tgetD Fn.blank t ref.fn).faulted
        then flushReplies ((tgetD Fn.blank t ref.fn).replyWait ++ [mkReply s ref st true b]) (tgetD Fn.blank t ref.fn)
        else tgetD Fn.blank t ref.fn)) hlog
  · exact .inl hlog

theorem finishIn_outside (s : State) (ref : CmdRef) (st : Status) (b : Bytes) (i : Nat) :
    outsideQueues ((finishIn s ref st b).fn i) = outsideQueues (s.fn i) := by
  rcases finishIn_fns s ref st b with h | h
  · exact congrArg (fun t => outsideQueues (tgetD Fn.blank t i)) h
  · exact (congrArg (fun t => outsideQueues (tgetD Fn.blank t i)) h).trans (pushReply_outside _ _ _ i)

theorem holdsFn_finishIn (hs : HoldsFn n x s.fns) (ref : CmdRef) (st : Status) (b : Bytes) : HoldsFn n x (finishIn s ref st b).fns := by
  rcases finishIn_fns s ref st b with h | h
  · rw [h]; exact hs
  · rw [h]; exact holdsFn_pushReply hs _ _

theorem holdsFn_finish (hs : HoldsFn n x s.fns) (ref : CmdRef) (st : Status) (b : Bytes) : HoldsFn n x (finish s ref st b).fns :=
  holdsFn_finishIn (holdsFn_bump hs) ref st b

theorem holdsFn_finishOpt (hs : HoldsFn n x s.fns) (ref : Option CmdRef) (st : Status) (b : Bytes) :
    HoldsFn n x (finishOpt s ref st b).fns := by
  cases ref with
  | none => exact hs
  | some r => exact holdsFn_finishIn hs r st b

/-! #### What ending a function's sessions and host accesses leaves of functions (R373) -/

theorem holdsFn_lapseSession (hs : HoldsFn n x s.fns) (k : Nat) : HoldsFn n x (lapseSession s k).fns := by
  unfold lapseSession
  dsimp only
  split
  · refine holdsFn_notify ?_ _ _ _; exact hs
  · exact hs

theorem holdsFn_lapseFunction (hs : HoldsFn n x s.fns) (i : Nat) : HoldsFn n x (lapseFunction s i).fns :=
  holdsFn_foldl (fun _ _ h => holdsFn_lapseSession h _) _ hs

theorem holdsFn_endHostWork (hs : HoldsFn n x s.fns) (i : Nat) : HoldsFn n x (endHostWork s i).fns := by
  unfold endHostWork
  dsimp only
  refine holdsFn_finishOpt ?_ _ _ _
  split
  · exact hs
  · exact hs
  · exact hs

theorem holdsFn_freeRoom (hs : HoldsFn n x s.fns) (r : Nat) : HoldsFn n x (freeRoom s r).fns := by
  unfold freeRoom
  refine holdsFn_foldl (fun _ _ h => holdsFn_finishIn h _ _ _) _ ?_
  exact hs

theorem holdsFn_failLoad (hs : HoldsFn n x s.fns) (i : Nat) (st : Status) : HoldsFn n x (failLoad s i st).fns := by
  unfold failLoad
  split
  · exact hs
  next l _ =>
    dsimp only
    refine holdsFn_finishOpt ?_ _ _ _
    split
    · exact holdsFn_freeRoom hs l.room
    · exact holdsFn_freeRoom hs l.room

theorem holdsFn_endReload (hs : HoldsFn n x s.fns) (i : Nat) (st : Status) : HoldsFn n x (endReload s i st).fns := by
  unfold endReload
  split
  · exact hs
  · refine holdsFn_failLoad (holdsFn_foldl (fun v a h => ?_) _ hs) i st
    split
    · exact h
    · exact h

theorem holdsFn_endHostLoad (hs : HoldsFn n x s.fns) (i : Nat) : HoldsFn n x (endHostLoad s i).fns := by
  unfold endHostLoad
  split
  · split
    · exact holdsFn_endReload hs i _
    · exact holdsFn_failLoad hs i _
  · exact hs

theorem holdsFn_endHostReads (hs : HoldsFn n x s.fns) (fn i : Nat) : HoldsFn n x (endHostReads fn s i).fns := by
  unfold endHostReads
  refine holdsFn_foldl (fun _ _ h => holdsFn_finish h _ _ _) _ ?_
  exact hs

theorem holdsFn_cutInstall (hs : HoldsFn n x s.fns) (b : Nat) (st : Status) : HoldsFn n x (cutInstall s b st).fns := by
  unfold cutInstall
  split
  · exact hs
  · dsimp only
    refine holdsFn_finishIn ?_ _ _ _
    exact hs

theorem holdsFn_settleRemovals (hs : HoldsFn n x s.fns) : HoldsFn n x (settleRemovals s).fns := by
  unfold settleRemovals
  split
  · exact hs
  · refine holdsFn_foldl (fun v r h => ?_) _ hs
    unfold endRemoval
    refine holdsFn_finish ?_ _ _ _
    exact h

theorem holdsFn_retireStep (hs : HoldsFn n x s.fns) (pc i : Nat) : HoldsFn n x (retireStep s pc i).fns := by
  unfold retireStep
  dsimp only
  split
  · exact hs
  · refine holdsFn_notify ?_ _ _ _
    exact hs

theorem holdsFn_retireNext (hs : HoldsFn n x s.fns) (pc : Nat) : HoldsFn n x (retireNext pc s).fns := by
  unfold retireNext
  refine holdsFn_foldl (fun v i h => ?_) _ hs
  split
  · exact h
  · exact holdsFn_retireStep h pc i

theorem holdsFn_carryMoves (hs : HoldsFn n x s.fns) : HoldsFn n x (carryMoves s).fns := by
  unfold carryMoves
  dsimp only
  refine holdsFn_foldl (fun v c h => ?_) _ (holdsFn_foldl (fun v p h => ?_) _ (holdsFn_settleRemovals hs))
  · exact holdsFn_of_rest h ((evacuateImages_rest (M := [.objects, .handles]) (by decide) c _).trans (evacuateNext_rest (by decide) c v)) (by decide)
  · exact holdsFn_of_rest (holdsFn_retireNext h p) (retireRooms_rest (M := [.rooms]) (by decide) p _) (by decide)

theorem holdsFn_stopHostAccesses (hs : HoldsFn n x s.fns) (fn : Nat) : HoldsFn n x (stopHostAccesses fn s).fns := by
  unfold stopHostAccesses
  dsimp only
  refine holdsFn_carryMoves (holdsFn_foldl (fun _ b h => holdsFn_cutInstall (holdsFn_bump h) b _) _ ?_)
  refine holdsFn_foldl (fun _ i h => holdsFn_endHostReads h fn i) _ (holdsFn_foldl (fun _ i h => holdsFn_endHostLoad (holdsFn_bump h) i) _ ?_)
  exact holdsFn_foldl (fun _ i h => holdsFn_endHostWork (holdsFn_bump h) i) _ hs

theorem holdsFn_tellFunction (hs : HoldsFn n x s.fns) (fn : Nat) : HoldsFn n x (tellFunction s fn).fns := by
  unfold tellFunction
  split
  · exact hs
  · exact holdsFn_notify hs _ _ _

/-- A function as a reset leaves it, its host sessions and host accesses apart (R373). -/
def resetFn (to_ : FnSt) (keepBme : Bool) (f : Fn) : Fn :=
  { (countersOnly f) with st := to_, before := if f.st = .resetting then f.before else f.st, gen := leavingGen f
                          bme := f.bme && keepBme, ats := f.ats && keepBme, opens := f.opens, vfRun := f.vfRun, vfQueue := f.vfQueue
                          page := f.page }

theorem resetSteps_eq (n : Nat) (to_ : FnSt) (keepBme : Bool) (s : State) :
    resetSteps n to_ keepBme s = stopHostAccesses n (lapseFunction (s.setFn n (resetFn to_ keepBme (s.fn n))) n) := rfl

theorem holdsFn_resetSteps (n : Nat) (to_ : FnSt) (keepBme : Bool) (s : State) :
    HoldsFn n (outsideQueues (resetFn to_ keepBme (s.fn n))) (resetSteps n to_ keepBme s).fns := by
  rw [resetSteps_eq]
  exact holdsFn_stopHostAccesses (holdsFn_lapseFunction (holdsFn_setFn_self n s _) n) n

end

/-! #### The command vf-set (R362, R372) -/

section
variable {h : CmdHdr} {p : Bytes} {k : Packet} {s u : State}

/-- The request of a vf-set. -/
def vfAsked (h : CmdHdr) (p : Bytes) : VfReq := { act := vfActOf (field p 1 1), ref := refOf h vfSetCmd.code }

/-- A request that waits behind the one under way, in the place of an earlier one (R362). -/
def queueVf (fn : Nat) (q : VfReq) (s : State) : State :=
  match (s.fn fn).vfQueue with
  | some o => finishIn (s.modFn fn (fun f => { f with vfQueue := some q })) o.ref .superseded []
  | none => s.modFn fn (fun f => { f with vfQueue := some q })

theorem queueVf_fn (fn : Nat) (q : VfReq) (s : State) :
    outsideQueues ((queueVf fn q s).fn fn) = outsideQueues { s.fn fn with vfQueue := some q } := by
  unfold queueVf
  split
  · rw [finishIn_outside, State.modFn_self]
  · rw [State.modFn_self]

theorem vfSet_present (hrules : moduleRules (.vfSet h p) u = true) : ¬(!vfExists u (field p 0 1)) = true := by
  have hexists : vfExists u (field p 0 1) = true := hrules
  simp [hexists]

/-- What a function but for its queues tells of its requests, its state and its generation. -/
theorem fn_of_outside {f g : Fn} (hfg : outsideQueues f = outsideQueues g) :
    f.st = g.st ∧ f.vfRun = g.vfRun ∧ f.vfQueue = g.vfQueue ∧ f.gen = g.gen := by
  have hst := congrArg Fn.st hfg
  have hrun := congrArg Fn.vfRun hfg
  have hqueue := congrArg Fn.vfQueue hfg
  have hgen := congrArg Fn.gen hfg
  exact ⟨hst, hrun, hqueue, hgen⟩

theorem fn_of_rest {M : List Component} {t : State} (hr : rest M t = rest M s) (hM : Component.fns ∉ M) (n : Nat) : t.fn n = s.fn n :=
  congrArg (tgetD Fn.blank · n) (same_of_rest (c := .fns) hr hM)

theorem vfSet_queued (hr : Ready vfSetCmd h p k u) (hn : Numbered h u) (hl : (u.sess (ownKey h)).longs < 64)
    (hrules : moduleRules (.vfSet h p) u = true) (hrun : (u.fn (field p 0 1)).vfRun.isSome = true) :
    ((kExecute vfSetCmd k true u).fn (field p 0 1)).vfQueue = some (vfAsked h p)
      ∧ ((kExecute vfSetCmd k true u).fn (field p 0 1)).vfRun = (u.fn (field p 0 1)).vfRun
      ∧ ((u.fn (field p 0 1)).vfQueue = none → acceptedLong vfSetCmd h u (kExecute vfSetCmd k true u) .deferred []) := by
  have hb : vfSetCmd.body u h p = .long (queueVf (field p 0 1) (vfAsked h p)) .deferred [] none :=
    (if_neg (vfSet_present hrules)).trans (if_pos hrun)
  obtain ⟨-, hrunA, hqueueA, -⟩ := fn_of_outside (accepting_outside vfSetCmd h u .deferred [] (field p 0 1))
  obtain ⟨-, hrunT, hqueueT, -⟩ := fn_of_outside (queueVf_fn (field p 0 1) (vfAsked h p) (accepting vfSetCmd h u .deferred []))
  have hfn : (kExecute vfSetCmd k true u).fn (field p 0 1) = _ :=
    fn_of_rest (kExecute_long_rest (M := [.sessions, .stamped]) hr hn hl hb (by decide)) (by decide) _
  refine ⟨?_, ?_, fun hq => ?_⟩
  · rw [hfn, hqueueT]
  · rw [hfn, hrunT]; exact hrunA
  · have heq : queueVf (field p 0 1) (vfAsked h p) (accepting vfSetCmd h u .deferred []) =
        (accepting vfSetCmd h u .deferred []).modFn (field p 0 1) (fun f => { f with vfQueue := some (vfAsked h p) }) := by
      unfold queueVf
      rw [hqueueA, hq]
    have hkept := (congrArg (rest [.fns]) heq).trans (State.modFn_rest (by decide) _ _ _)
    refine acceptedLong_of_long hr hn hl hb (sameWindow_of_rest hkept (by decide) _) ?_
    rw [longs_of_rest hkept (by decide)]
    exact accepting_longs

/-- A vf-set for a function that carries no request out starts at once. -/
theorem vfSet_body (hrules : moduleRules (.vfSet h p) u = true) (hrun : (u.fn (field p 0 1)).vfRun = none) :
    vfSetCmd.body u h p = .long id .accepted [] (some (startVf (field p 0 1) (vfAsked h p))) :=
  (if_neg (vfSet_present hrules)).trans (if_neg (by rw [hrun]; simp))

theorem startVf_same {n : Nat} {q : VfReq} (hsame : (q.act = .disable ∧ (s.fn n).st = .disabled) ∨ (q.act = .enable ∧ (s.fn n).st = .enabled)) :
    startVf n q s = finishIn s.bump q.ref .complete [] := by
  unfold startVf
  rcases hsame with ⟨hact, hst⟩ | ⟨hact, hst⟩
  · rw [hact]
    dsimp only
    rw [hst]
    rfl
  · rw [hact]
    dsimp only
    rw [hst]
    rfl

/-- The state in which an enabled function's request is finished. -/
def enabledFn (n : Nat) (s : State) : State := (tellFunction (s.modFn n (fun f => { f with st := .enabled })) n).bump

theorem startVf_enable {n : Nat} {q : VfReq} (hact : q.act = .enable) (hen : (s.fn n).st ≠ .enabled) (hres : (s.fn n).st ≠ .resetting) :
    startVf n q s = finishIn (enabledFn n s) q.ref .complete [] := by
  unfold startVf
  rw [hact]
  dsimp only
  rw [if_neg (by simp [hen]), if_neg hres]
  rfl

theorem startVf_reset {n : Nat} {q : VfReq} (hact : q.act ≠ .enable) (hst : (s.fn n).st = .enabled) :
    startVf n q s = tellFunction (resetSteps n .resetting true (s.modFn n (fun f => { f with vfRun := some q }))) n := by
  unfold startVf
  dsimp only
  rw [hst]
  cases hq : q.act with
  | enable => exact absurd hq hact
  | disable => rfl
  | reset => rfl

theorem vfSet_disabled (hr : Ready vfSetCmd h p k u) (hn : Numbered h u) (hl : (u.sess (ownKey h)).longs < 64)
    (hrules : moduleRules (.vfSet h p) u = true) (hrun : (u.fn (field p 0 1)).vfRun = none)
    (hst : (u.fn (field p 0 1)).st = .disabled) (hact : field p 1 1 = 0) :
    finished vfSetCmd h (kExecute vfSetCmd k true u) .complete [] := by
  obtain ⟨hstA, -, -, -⟩ := fn_of_outside (accepting_outside vfSetCmd h u .accepted [] (field p 0 1))
  have heq : startVf (field p 0 1) (vfAsked h p) (accepting vfSetCmd h u .accepted []) =
      finishIn (accepting vfSetCmd h u .accepted []).bump (refOf h vfSetCmd.code) .complete [] :=
    startVf_same (.inl ⟨if_pos hact, hstA.trans hst⟩)
  exact finished_of_long hr hn hl (vfSet_body hrules hrun) heq (by rw [bump_sess]; exact sameWindow_refl _)

theorem enabledFn_rest (n : Nat) (s : State) : rest [.fns, .keeper, .version] (enabledFn n s) = rest [.fns, .keeper, .version] s := by
  unfold enabledFn tellFunction
  refine (State.bump_rest (by decide) _).trans ?_
  split
  · exact State.modFn_rest (by decide) _ _ _
  · exact (notify_rest (by decide) _ _ _ _).trans (State.modFn_rest (by decide) _ _ _)

theorem enabledFn_st (n : Nat) (s : State) : ((enabledFn n s).fn n).st = .enabled := by
  have hself : HoldsFn n (outsideQueues { s.fn n with st := .enabled }) (s.modFn n (fun f => { f with st := .enabled })).fns :=
    holdsFn_setFn_self n s _
  obtain ⟨hst, -, -, -⟩ := fn_of_outside (holdsFn_bump (holdsFn_tellFunction hself n)).read
  exact hst

theorem vfSet_enabled (hr : Ready vfSetCmd h p k u) (hn : Numbered h u) (hl : (u.sess (ownKey h)).longs < 64)
    (hrules : moduleRules (.vfSet h p) u = true) (hrun : (u.fn (field p 0 1)).vfRun = none)
    (hres : (u.fn (field p 0 1)).st ≠ .resetting) (hact : field p 1 1 = 1) :
    finished vfSetCmd h (kExecute vfSetCmd k true u) .complete [] ∧ ((kExecute vfSetCmd k true u).fn (field p 0 1)).st = .enabled := by
  obtain ⟨hstA, -, -, -⟩ := fn_of_outside (accepting_outside vfSetCmd h u .accepted [] (field p 0 1))
  have hb := vfSet_body hrules hrun
  have henable : (vfAsked h p).act = .enable := (if_neg (by omega)).trans (if_pos hact)
  obtain ⟨w, heq, hwindow, hst⟩ : ∃ w, startVf (field p 0 1) (vfAsked h p) (accepting vfSetCmd h u .accepted []) =
      finishIn w (refOf h vfSetCmd.code) .complete []
        ∧ SameWindow ((accepting vfSetCmd h u .accepted []).sess (ownKey h)) (w.sess (ownKey h)) ∧ (w.fn (field p 0 1)).st = .enabled := by
    by_cases hen : ((accepting vfSetCmd h u .accepted []).fn (field p 0 1)).st = .enabled
    · exact ⟨_, startVf_same (.inr ⟨henable, hen⟩),
        sameWindow_of_rest (State.bump_rest (M := [.keeper, .version]) (by decide) _) (by decide) _,
        (congrArg (fun t => (tgetD Fn.blank t (field p 0 1)).st) (bump_fns _)).trans hen⟩
    · exact ⟨_, startVf_enable henable hen (by rw [hstA]; exact hres), sameWindow_of_rest (enabledFn_rest _ _) (by decide) _, enabledFn_st _ _⟩
  refine ⟨finished_of_long hr hn hl hb heq hwindow, ?_⟩
  rw [fn_of_rest (kExecute_long_done_rest (M := [.sessions, .stamped]) hr hn hl hb (by decide)) (by decide), id, heq]
  exact (fn_of_outside (finishIn_outside w _ _ _ _)).1.trans hst

theorem vfSet_reset (hr : Ready vfSetCmd h p k u) (hn : Numbered h u) (hl : (u.sess (ownKey h)).longs < 64)
    (hrules : moduleRules (.vfSet h p) u = true) (hrun : (u.fn (field p 0 1)).vfRun = none)
    (hst : (u.fn (field p 0 1)).st = .enabled) (hact : field p 1 1 ≠ 1) :
    ((kExecute vfSetCmd k true u).fn (field p 0 1)).st = .resetting
      ∧ ((kExecute vfSetCmd k true u).fn (field p 0 1)).vfRun = some (vfAsked h p)
      ∧ ((kExecute vfSetCmd k true u).fn (field p 0 1)).gen = ((u.fn (field p 0 1)).gen + 1) % 2 ^ 32 := by
  obtain ⟨hstA, -, -, hgenA⟩ := fn_of_outside (accepting_outside vfSetCmd h u .accepted [] (field p 0 1))
  have hother : (vfAsked h p).act ≠ .enable := by
    unfold vfAsked vfActOf
    dsimp only
    rw [if_neg hact]
    split <;> simp
  obtain ⟨htst, htrun, -, htgen⟩ := fn_of_outside (holdsFn_tellFunction (holdsFn_resetSteps (field p 0 1) .resetting true
    ((accepting vfSetCmd h u .accepted []).modFn (field p 0 1) (fun f => { f with vfRun := some (vfAsked h p) }))) (field p 0 1)).read
  rw [State.modFn_self] at htst htrun htgen
  have hfn := fn_of_rest (kExecute_long_done_rest (M := [.sessions, .stamped]) hr hn hl (vfSet_body hrules hrun) (by decide)) (by decide)
    (field p 0 1)
  rw [id, startVf_reset hother (hstA.trans hst)] at hfn
  refine ⟨(congrArg Fn.st hfn).trans htst, (congrArg Fn.vfRun hfn).trans htrun, (congrArg Fn.gen hfn).trans (htgen.trans ?_)⟩
  refine (if_pos (hstA.trans hst)).trans ?_
  exact congrArg (fun g => (g + 1) % 2 ^ 32) hgenA

theorem vfSet_done (hst : starts vfSetCmd h p s = true) (hrules : moduleRules (.vfSet h p) (taken vfSetCmd h s) = true) :
    moduleDone vfSetCmd (.vfSet h p) (taken vfSetCmd h s) (kcp vfSetCmd h p s) := by
  obtain ⟨k, hr, hn, hl, hx, -⟩ := kcp_of_starts hst rfl
  rw [hx]
  exact ⟨vfSet_queued hr hn (hl rfl) hrules, vfSet_disabled hr hn (hl rfl) hrules, vfSet_enabled hr hn (hl rfl) hrules,
    vfSet_reset hr hn (hl rfl) hrules⟩

end

/-- Settles O26. -/
theorem serviceCommands : Obligations.ServiceCommands := by
  intro i c h p s hi hc hst hrules
  cases i with
  | faultLogRead => cases hc; exact ⟨_, rfl, faultLogRead_done hst⟩
  | tileMap => cases hc; exact ⟨_, rfl, tileMap_done hst⟩
  | pcRetire => cases hc; exact ⟨_, rfl, pcRetire_done hst hrules⟩
  | loftEvacuate => cases hc; exact ⟨_, rfl, loftEvacuate_done hst hrules⟩
  | wingFence => cases hc; exact ⟨_, rfl, wingFence_done hst⟩
  | firmwareHandover => cases hc; exact ⟨_, rfl, firmwareHandover_done hst⟩
  | domainSet => cases hc; exact ⟨_, rfl, domainSet_done hst hrules⟩
  | vfSet => cases hc; exact ⟨_, rfl, vfSet_done hst hrules⟩
  | tallyRead => cases hc; exact ⟨_, rfl, tallyRead_done hst hrules⟩
  | tallyClose => cases hc; exact ⟨_, rfl, tallyClose_done hst hrules⟩
  | _ => cases hi

end Sys2Proof.Machine
/-! ### The weight-load path and the rows of the array (chapter 3) -/

namespace Sys2Proof.Machine

open Sys2Proof Sys2Proof.Safety

theorem onlyTileChanged_modTile (s : State) (p : Nat) (g : Tile → Tile) : onlyTileChanged p s (s.modTile p g) :=
  ⟨rfl, fun _ hj => State.modTile_ne s g hj⟩

/-! #### The block in the shadow (R36, R40, R41, R50) -/

/-- What stands in a column's list of values is what the column gives. -/
theorem at2_byColumn {α : Type} [Inhabited α] (f : Nat → Nat → α) {m n k : Nat} (hn : n < 128) (hk : k < m) :
    at2 (byColumn fun n => (List.range m).map (f n)) n k = f n k := by
  simp [at2, byColumn, hn, hk]

theorem shadowLoad_eq {tile : Nat} {b : WBlock} {s : State} (h : loadCompletes tile b s = true) :
    shadowLoad tile b s = s.modTile tile (fun t => { t with shadow := some (loadCells b) }) := by
  simp only [loadCompletes, Bool.and_eq_true] at h
  obtain ⟨⟨⟨-, hblock⟩, howner⟩, hrun⟩ := h
  exact if_pos (by rw [hblock, howner, hrun]; rfl)

theorem loadCells_shape (b : WBlock) : (loadCells b).mode = b.mode ∧ (loadCells b).size = b.size
    ∧ (loadCells b).block = b.block ∧ (loadCells b).kDim = b.kDim := by
  unfold loadCells
  split <;> exact ⟨rfl, rfl, rfl, rfl⟩

theorem loadCells_w4 {b : WBlock} (h : b.mode = .w4a8 ∨ b.mode = .w4bf) : loadCells b = loadW4 b := by
  unfold loadCells
  obtain h | h := h <;> rw [h]

theorem loadCells_i8 {b : WBlock} (h : b.mode = .i8) : loadCells b = loadI8 b := by
  unfold loadCells
  rw [h]

theorem loadW4_cols (b : WBlock) {n k : Nat} (hn : n < 128) (hk : k < 128) : at2 (loadW4 b).cols n k = w4Cell b n k :=
  at2_byColumn (fun n k => w4Cell b n k) hn hk

theorem loadW4_scales (b : WBlock) {n j : Nat} (hn : n < 128) (hj : j < 128 / b.size) :
    at2 (loadW4 b).scales n j = w4Scale b.bytes b.size n j :=
  at2_byColumn (w4Scale b.bytes b.size) hn hj

theorem loadW4_bad (b : WBlock) {n j : Nat} (hn : n < 128) (hj : j < 128 / b.size) :
    at2 (loadW4 b).bad n j = fpNonFinite 7 (w4Scale b.bytes b.size n j).toNat :=
  at2_byColumn (fun n j => fpNonFinite 7 (w4Scale b.bytes b.size n j).toNat) hn hj

theorem loadI8_cols (b : WBlock) {n k : Nat} (hn : n < 128) (hk : k < 128) : at2 (loadI8 b).cols n k = i8Cell b n k :=
  at2_byColumn (fun n k => i8Cell b n k) hn hk

theorem shadowLoad_done {tile : Nat} {b : WBlock} {s : State} (h : loadCompletes tile b s = true) :
    loadDone tile b s (shadowLoad tile b s) := by
  rw [shadowLoad_eq h]
  unfold loadDone
  rw [State.modTile_self]
  obtain ⟨hmode, hsize, hblock, hk⟩ := loadCells_shape b
  refine ⟨onlyTileChanged_modTile _ _ _, rfl, loadCells b, rfl, hmode, hsize, hblock, hk, fun hw4 n k hn hk => ?_,
    fun hi8 n k hn hk => ?_, fun hw4 n j hn hj => ?_⟩
  · rw [loadCells_w4 hw4, loadW4_cols b hn hk]
  · rw [loadCells_i8 hi8, loadI8_cols b hn hk]
  · rw [loadCells_w4 hw4]
    exact ⟨loadW4_scales b hn hj, loadW4_bad b hn hj⟩

/-! #### The swap (R36, R39) -/

theorem blockSwap_eq {tile : Nat} {s : State} {c : Cells} (h : swapCompletes tile s = true) (hc : (s.tile tile).shadow = some c) :
    blockSwap tile s = s.modTile tile (fun x => { x with active := some c, shadow := none }) := by
  simp only [swapCompletes, hc, Bool.and_eq_true, Bool.not_eq_true'] at h
  obtain ⟨⟨-, hrun⟩, hallowed⟩ := h
  simp only [blockSwap, hc, hrun, hallowed, if_true]
  rfl

/-! #### The terms of a row (R44, R59, R61) -/

theorem mem_rowTerms {c : Cells} {r : RowData} {n0 : Nat} {x : Term} :
    x ∈ rowTerms c r n0 ↔ ∃ n < 128, ∃ y ∈ columnTerms c (rowFeed c r) r.scales n ++ outlierTerms c r (n0 + n),
      { tracker := r.tracker, row := r.row, col := n, block := c.block, sub := y.1, part := y.2.1, value := y.2.2 } = x := by
  simp only [rowTerms, List.mem_flatMap, List.mem_range, List.mem_map]

theorem mem_groupsInK {c : Cells} {n j : Nat} : j ∈ groupsInK c n ↔ j < 128 / n ∧ 128 * c.block + n * j < c.kDim := by
  simp only [groupsInK, List.mem_filter, List.mem_range, decide_eq_true_eq]

/-- The value of group `j` of column `n` in W4A8 (R44, R59). -/
def w4a8Value (c : Cells) (r : RowData) (n j : Nat) : Exact :=
  if at2 c.bad n j then Exact.nan
  else Exact.num ((scaleParts (at2 c.scales n j)).1
      * dot (((c.cols[n]?.getD []).drop (c.size * j)).take c.size)
          (((feedI8 r.values (c.outliers.map (·.1))).ints.drop (c.size * j)).take c.size))
    (scaleParts (at2 c.scales n j)).2

theorem columnTerms_w4a8 {c : Cells} (h : c.mode = .w4a8) (r : RowData) (n : Nat) :
    columnTerms c (rowFeed c r) r.scales n = (groupsInK c c.size).map (fun j => (j, .whole, w4a8Value c r n j)) := by
  unfold columnTerms rowFeed
  rw [h]
  rfl

theorem arrayRow_done {tile : Nat} {r : RowData} {s : State} (h : rowCompletes tile r s = true) :
    rowDone tile r s (arrayRow tile r s) := by
  simp only [rowCompletes, Bool.and_eq_true] at h
  obtain ⟨-, h⟩ := h
  split at h
  next c hc =>
    have heq : arrayRow tile r s = s.modTile tile
        (fun t => { t with terms := t.terms ++ rowTerms c r (tget t.accs r.tracker).tile0 }) := by
      simp only [arrayRow, hc, h, if_true]
    rw [heq]
    refine ⟨onlyTileChanged_modTile _ _ _, c, _, hc, State.modTile_self _ _ _, fun x hx => ?_, fun hmode n j hn hj hk => ?_⟩
    · obtain ⟨n, hn, y, -, rfl⟩ := mem_rowTerms.mp hx
      exact ⟨rfl, rfl, rfl, hn⟩
    · refine ⟨_, mem_rowTerms.mpr ⟨n, hn, (j, .whole, w4a8Value c r n j), ?_, rfl⟩, rfl, rfl, rfl, rfl⟩
      rw [columnTerms_w4a8 hmode]
      exact List.mem_append_left _ (List.mem_map_of_mem (mem_groupsInK.mpr ⟨hj, hk⟩))
  next => cases h

/-- Settles O3. -/
theorem weightPath : Obligations.WeightPath := by
  refine ⟨fun tile b s h => ?_, fun tile s c h hc => ?_, fun tile r s h => ?_⟩
  · have hpart : tile < 136 := by simp_all [loadCompletes]
    exact ⟨_, if_pos hpart, shadowLoad_done h⟩
  · have hpart : tile < 136 := by simp_all [swapCompletes]
    exact (if_pos hpart).trans (congrArg _ (blockSwap_eq h hc))
  · have hpart : tile < 136 := by simp_all [rowCompletes]
    exact ⟨_, if_pos hpart, arrayRow_done h⟩

end Sys2Proof.Machine
/-! ### Errors of the parts (chapters 8 and 16) -/

namespace Sys2Proof.Machine

open Sys2Proof Sys2Proof.Safety

/-- A running module at milepost 4,096 whose pseudo-channel 0 met an uncorrectable error at milepost 4,000. Wing 0 owns pseudo-channels 0
and 1, and its object 0 lies on both. -/
def faultyChannel : State :=
  ((({ State.reset with
        clock := { (default : Clock) with count := 4096, st := .locked, qualified := true, everLocked := true }
        keeper := { State.reset.keeper with up := true }
        power := { State.reset.power with vin := .good, perst := false, stat := .ready, ready := true } } : State).modWing 0
      (fun w => { w with live := true, gen := 1, pcs := 3 })).modObj 0
      (fun o => { o with live := true, gen := 1, kind := .gradient, size := 8192
                         place := { (default : Place) with tier := .hbm, set := 3, starts := [0, 0], len := 4096 } })).modPc 0
      (fun p => { p with uncorrected := 1, uncorrectedAt := [4000] })

/-- The second error of the channel within 1,000,000,000 mp starts its retirement, and object 0 begins to move off it (R428, R429). -/
theorem faultyChannel_moves : ((hbmUncorrectable 0 0 .empty faultyChannel).obj 0).st = .moving := by decide +kernel

theorem exec_hbmUncorrectableError {u : Nat} (hu : u < 512) (a : Nat) (p : ErrPlace) (s : State) :
    exec (.hbmUncorrectableError u a p) s = .next (hbmUncorrectable u a p s) :=
  if_pos hu

/-- Refutes O12: an uncorrectable error that falls in no object may be its pseudo-channel's second, whose retirement moves the
objects that lie there (R429), where errorDone has every object as it was. -/
theorem not_errorRows : ¬ Obligations.ErrorRows := by
  intro h
  obtain ⟨t, hnext, hdone⟩ := h (.hbmUncorrectableError 0 0 .empty) faultyChannel rfl rfl
  rw [exec_hbmUncorrectableError (by decide)] at hnext
  obtain ⟨-, -, hkept, -⟩ := hdone
  have hst : (t.obj 0).st = (faultyChannel.obj 0).st := congrArg Obj.st (hkept 0)
  rw [← Host.Outcome.next.inj hnext, faultyChannel_moves] at hst
  exact absurd hst (by decide)

end Sys2Proof.Machine
/-! ### The accumulator file (chapter 4) -/

namespace Sys2Proof.Machine

open Sys2Proof Sys2Proof.Safety

/-! #### Opens and chain links (R65, R74, R75) -/

/-- A canonical table's values changed by a function that keeps a reading: the table reads as it did. -/
theorem tget_tmap_reads {α β : Type} [DecidableEq α] [Inhabited α] {f : Nat → α → α} {l : Tbl α} (hl : twf default l = true)
    {read : α → β} (hf : ∀ k x, read (f k x) = read x) (k : Nat) : read (tget (tmap f l) k) = read (tget l k) := by
  unfold tmap
  rw [tget_foldl_tput (fun c => f c.1 c.2) (Bool.and_elim_left hl)]
  unfold tget tgetD
  cases tlook l k with
  | none => rfl
  | some x => exact hf k x

/-- The accumulation of a later link: its predecessor's elements in place, their blocks counted anew (R74). -/
def linkAcc (a : OpenArgs) (p : Acc) : Acc :=
  { freshAcc a with link := p.link + 1, chained := true, sat := p.sat, elems := tmap (fun _ e => { e with block := 0 }) p.elems }

theorem linkAcc_bits (a : OpenArgs) {p : Acc} (h : twf default p.elems = true) (k : Nat) :
    (tget (linkAcc a p).elems k).bits = (tget p.elems k).bits :=
  tget_tmap_reads (f := fun _ (e : Elem) => { e with block := 0 }) (read := Elem.bits) h (fun _ _ => rfl) k

/-- An open that a running tile does not refuse at sight is a chain link or a first link. -/
theorem accOpen_eq {tile : Nat} {a : OpenArgs} {s : State} (hrun : (s.tile tile).stopped = false)
    (howner : (s.tile tile).owner.isSome = true) (hwait : (s.tile tile).waiting = none) (hok : openOk a = true)
    (hblocks : a.blocks ≤ 512) (hk : sized a.mode = true → a.kDim % a.size = 0) :
    accOpen tile a s = if a.chain then openLink tile a s else openFirst tile a s := by
  have howned : (s.tile tile).owner.isNone = false := by rw [← Option.not_isSome, howner]; rfl
  simp only [accOpen, hrun, howned, hwait, hok]
  rw [if_neg (by decide), if_neg (by omega), if_neg fun h => h.2 (hk h.1)]

theorem accOpen_first {tile : Nat} {a : OpenArgs} {s : State} (h : openCompletes tile a s = true) :
    accOpen tile a s
      = s.modTile tile (fun t => { t with accs := tput t.accs a.tracker (freshAcc a), waiting := none }) := by
  simp only [openCompletes, Bool.and_eq_true, Bool.or_eq_true, Bool.not_eq_true', decide_eq_true_eq, Option.isNone_iff_eq_none] at h
  obtain ⟨⟨⟨⟨⟨⟨⟨⟨⟨⟨-, hrun⟩, howner⟩, hwait⟩, hok⟩, hblocks⟩, hk⟩, hfirst⟩, hfree⟩, hbytes⟩, htrackers⟩ := h
  rw [accOpen_eq hrun howner hwait hok hblocks fun hs => hk.resolve_left (by simp [hs]), hfirst, if_neg (by decide)]
  unfold openFirst
  exact if_pos ⟨hfree, hbytes, htrackers⟩

theorem accOpen_link {tile : Nat} {a : OpenArgs} {s : State} (h : chainCompletes tile a s = true) :
    accOpen tile a s
      = s.modTile tile (fun t => { t with accs := tput t.accs a.tracker (linkAcc a (tget (s.tile tile).accs a.tracker)) }) := by
  simp only [chainCompletes, Bool.and_eq_true, Bool.or_eq_true, Bool.not_eq_true', decide_eq_true_eq, Option.isNone_iff_eq_none] at h
  obtain ⟨⟨⟨⟨⟨⟨⟨⟨⟨⟨⟨⟨-, hrun⟩, howner⟩, hwait⟩, hok⟩, hblocks⟩, hk⟩, hchain⟩, hlink⟩, hlive⟩, hclosed⟩, hsame⟩, -⟩ := h
  obtain ⟨hmode, hsize, hfmt, hrows, hfull⟩ := hsame
  rw [accOpen_eq hrun howner hwait hok hblocks fun hs => hk.resolve_left (by simp [hs]), hchain, if_pos rfl]
  unfold openLink
  exact (if_neg (by omega)).trans (if_pos ⟨hlive, hmode, hsize, hfmt, hrows, hclosed, hfull⟩)

theorem accOpen_openDone {tile : Nat} {a : OpenArgs} {s : State} (h : openCompletes tile a s = true) :
    openDone tile a s (accOpen tile a s) := by
  have hwait : (s.tile tile).waiting = none := by simp_all [openCompletes]
  rw [accOpen_first h]
  unfold openDone
  rw [State.modTile_self]
  dsimp only
  rw [tget_tput_self]
  refine ⟨onlyTileChanged_modTile _ _ _, by rw [← hwait], fun j hj => tget_tput_ne _ _ hj, ?_⟩
  exact ⟨rfl, rfl, rfl, rfl, rfl, rfl, rfl, rfl, rfl, fun _ => rfl⟩

theorem accOpen_chainDone {tile : Nat} {a : OpenArgs} {s : State} (h : chainCompletes tile a s = true) :
    chainDone tile a s (accOpen tile a s) := by
  rw [accOpen_link h]
  unfold chainDone
  rw [State.modTile_self, tget_tput_self]
  exact ⟨onlyTileChanged_modTile _ _ _, rfl, rfl, rfl, rfl, rfl, rfl,
    linkAcc_bits a (Bool.and_elim_right h)⟩

/-! #### Promotions (R68 to R72) -/

/-- The terms an element's next promotion takes. -/
def dueTerms (t : Tile) (tracker row col : Nat) : List Term :=
  nextTerms (tget t.accs tracker).mode (elemTerms t (tget t.accs tracker) tracker row col)

/-- The accumulation after an element's next promotion. -/
def promotedAcc (t : Tile) (tracker row col : Nat) : Acc :=
  promoteAcc (tget t.accs tracker) (128 * row + col) (gamma (dueTerms t tracker row col))
    (decide ((dueTerms t tracker row col).length = (elemTerms t (tget t.accs tracker) tracker row col).length)) t.closings

/-- The tile after an element's next promotion. -/
def promotedTile (t : Tile) (tracker row col : Nat) : Tile :=
  { t with
    accs := tput t.accs tracker (promotedAcc t tracker row col)
    terms := t.terms.filter (fun x => !(dueTerms t tracker row col).contains x)
    closings := if (promotedAcc t tracker row col).closed then t.closings + 1 else t.closings }

theorem promoteTile_eq {tile tracker row col : Nat} {s : State} (h : promotionCompletes tile tracker row col s = true) :
    promoteTile (s.tile tile) tracker row col = some (promotedTile (s.tile tile) tracker row col) := by
  simp only [promotionCompletes, Bool.and_eq_true, Bool.not_eq_true', decide_eq_true_eq] at h
  obtain ⟨⟨⟨⟨⟨-, hlive⟩, hopen⟩, hrow⟩, hcol⟩, hterms⟩ := h
  exact if_neg (by simp [hlive, hopen, hrow, hcol, hterms])

theorem promotion_eq {tile tracker row col : Nat} {s : State} (h : promotionCompletes tile tracker row col s = true)
    (corrected : Bool) :
    promotion tile tracker row col corrected s
      = if corrected then tileCorrected (s.modTile tile fun _ => promotedTile (s.tile tile) tracker row col) tile
        else s.modTile tile fun _ => promotedTile (s.tile tile) tracker row col := by
  unfold promotion
  rw [promoteTile_eq h]

theorem promotedTile_done (tile tracker row col : Nat) (s : State) :
    promotionDone tile tracker row col s (s.modTile tile fun _ => promotedTile (s.tile tile) tracker row col) := by
  unfold promotionDone
  rw [State.modTile_self]
  unfold promotedTile
  rw [tget_tput_self]
  refine ⟨onlyTileChanged_modTile _ _ _, ?_, fun k hk => tget_tput_ne _ _ hk, fun j hj => tget_tput_ne _ _ hj, fun x => ?_, rfl⟩
  · exact congrArg Elem.bits (tget_tput_self _ _ _)
  · rw [List.mem_filter, Bool.not_eq_true', ← Bool.not_eq_true, List.contains_iff_mem]
    rfl

/-- Settles O4: each row comes to one write of its tile, whose accumulations and terms are then read back. -/
theorem accumulatorFile : Obligations.AccumulatorFile := by
  refine ⟨fun tile a s h => ?_, fun tile a s h => ?_, fun tile tracker row col corrected s h => ?_⟩
  · have hpart : tile < 136 := by simp_all [openCompletes]
    exact ⟨_, if_pos hpart, accOpen_openDone h⟩
  · have hpart : tile < 136 := by simp_all [chainCompletes]
    exact ⟨_, if_pos hpart, accOpen_chainDone h⟩
  · have hpart : tile < 136 := by simp_all [promotionCompletes]
    exact ⟨_, promotedTile_done tile tracker row col s, (if_pos hpart).trans (congrArg _ (promotion_eq h corrected))⟩

end Sys2Proof.Machine
/-! ### The words of a TVX program (Tables 5.1 and 5.2) -/

namespace Sys2Proof.Machine

open Sys2Proof Sys2Proof.Safety

theorem bits_eq_div_mod (v lo n : Nat) : bits v lo n = v / 2 ^ lo % 2 ^ n := by
  rw [bits, Nat.shiftRight_eq_div_pow]

/-- A word of Table 5.2 as a number: fields that fit overlap no others. -/
theorem encodeTvx_toNat {op : Nat} {a : TvxArgs} (hop : op < 256) (h : tvxFits a = true) :
    (encodeTvx op a).toNat = op * 2 ^ 56 + a.mb * 2 ^ 53 + a.ml * 2 ^ 50 + a.rm * 2 ^ 48 + a.immUse * 2 ^ 46
      + a.scalar.toNat * 2 ^ 45 + (a.n - 1) * 2 ^ 32 + a.imm.toNat := by
  simp only [tvxFits, Bool.and_eq_true, decide_eq_true_eq] at h
  have himm := a.imm.isLt
  have hflag := a.scalar.toNat_lt
  have hscalar : (if a.scalar then 2 ^ 45 else 0) = a.scalar.toNat * 2 ^ 45 := by cases a.scalar <;> rfl
  rw [encodeTvx, BitVec.toNat_ofNat, hscalar, Nat.mod_eq_of_lt (by omega)]

theorem wordOp_encodeTvx {op : Nat} {a : TvxArgs} (hop : op < 256) (h : tvxFits a = true) : wordOp (encodeTvx op a) = op := by
  rw [wordOp, bits_eq_div_mod, encodeTvx_toNat hop h]
  simp only [tvxFits, Bool.and_eq_true, decide_eq_true_eq] at h
  have himm := a.imm.isLt
  have hflag := a.scalar.toNat_lt
  omega

theorem wordArgs_encodeTvx {op : Nat} {a : TvxArgs} (hop : op < 256) (h : tvxFits a = true) : wordArgs (encodeTvx op a) = a := by
  have hword := encodeTvx_toNat hop h
  simp only [tvxFits, Bool.and_eq_true, decide_eq_true_eq] at h
  have himm := a.imm.isLt
  have hflag := a.scalar.toNat_lt
  obtain ⟨mb, ml, rm, immUse, scalar, n, imm⟩ := a
  simp only [wordArgs, bits_eq_div_mod, Nat.testBit_eq_decide_div_mod_eq, hword, TvxArgs.mk.injEq] at *
  refine ⟨by omega, by omega, by omega, by omega, ?_, by omega, ?_⟩
  · cases scalar <;> simp <;> omega
  · refine BitVec.eq_of_toNat_eq ?_
    rw [BitVec.toNat_ofNat]
    omega

/-- A word of Table 5.1 as a number. -/
theorem encodeStream_toNat {a : StreamArgs} (h : streamFits a = true) :
    (encodeStream a).toNat = 0x08 * 2 ^ 56 + a.slot * 2 ^ 54 + a.format * 2 ^ 51 + a.object * 2 ^ 48 + a.base * 2 ^ 26
      + a.contiguous.toNat * 2 ^ 25 + a.vstride * 2 ^ 4 + a.q := by
  simp only [streamFits, Bool.and_eq_true, decide_eq_true_eq] at h
  have hflag := a.contiguous.toNat_lt
  have hcontiguous : (if a.contiguous then 2 ^ 25 else 0) = a.contiguous.toNat * 2 ^ 25 := by cases a.contiguous <;> rfl
  rw [encodeStream, BitVec.toNat_ofNat, hcontiguous, Nat.mod_eq_of_lt (by omega)]

theorem wordOp_encodeStream {a : StreamArgs} (h : streamFits a = true) : wordOp (encodeStream a) = 0x08 := by
  rw [wordOp, bits_eq_div_mod, encodeStream_toNat h]
  simp only [streamFits, Bool.and_eq_true, decide_eq_true_eq] at h
  have hflag := a.contiguous.toNat_lt
  omega

theorem wordStream_encodeStream {a : StreamArgs} (h : streamFits a = true) : wordStream (encodeStream a) = a := by
  have hword := encodeStream_toNat h
  simp only [streamFits, Bool.and_eq_true, decide_eq_true_eq] at h
  have hflag := a.contiguous.toNat_lt
  obtain ⟨slot, format, object, base, contiguous, vstride, q⟩ := a
  simp only [wordStream, bits_eq_div_mod, Nat.testBit_eq_decide_div_mod_eq, hword, StreamArgs.mk.injEq] at *
  refine ⟨by omega, by omega, by omega, by omega, ?_, by omega, by omega⟩
  cases contiguous <;> simp <;> omega

/-- Settles O39. -/
theorem tvxWordsRoundTrip : Obligations.TvxWordsRoundTrip :=
  ⟨fun _ _ hop h => ⟨wordOp_encodeTvx hop h, wordArgs_encodeTvx hop h⟩,
    fun _ h => ⟨wordOp_encodeStream h, wordStream_encodeStream h⟩⟩

end Sys2Proof.Machine
/-! ### What the operations of passes, moves, shards and errors leave alone (chapters 5, 7, 8, 9 and 16) -/

namespace Sys2Proof.Machine

open Sys2Proof Sys2Proof.Safety

/-! #### Numbered parts of the state -/

@[simp] theorem State.modPc_rest {M : List Component} (h : .pcs ∈ M) (s : State) (i : Nat) (g : Pc → Pc) :
    rest M (State.modPc s i g) = rest M s := by
  unfold State.modPc; exact rest_pcs h _ _
@[simp] theorem State.modQuarter_rest {M : List Component} (h : .quarters ∈ M) (s : State) (i : Nat) (g : Quarter → Quarter) :
    rest M (State.modQuarter s i g) = rest M s := by
  unfold State.modQuarter; exact rest_quarters h _ _
@[simp] theorem State.modShard_rest {M : List Component} (h : .cellar ∈ M) (s : State) (i : Nat) (g : Shard → Shard) :
    rest M (State.modShard s i g) = rest M s := by
  unfold State.modShard; exact rest_cellar h _ _
@[simp] theorem State.modBase_rest {M : List Component} (h : .cellar ∈ M) (s : State) (i : Nat) (g : Base → Base) :
    rest M (State.modBase s i g) = rest M s := by
  unfold State.modBase; exact rest_cellar h _ _
@[simp] theorem State.modJob_rest {M : List Component} (h : .jobs ∈ M) (s : State) (i : Nat) (g : Job → Job) :
    rest M (State.modJob s i g) = rest M s := by
  unfold State.modJob; exact rest_jobs h _ _
@[simp] theorem State.modLink_rest {M : List Component} (h : .link ∈ M) (s : State) (g : Link → Link) :
    rest M (State.modLink s g) = rest M s := by
  unfold State.modLink; exact rest_link h _ _
@[simp] theorem State.modPass_rest {M : List Component} (h : .wings ∈ M) (s : State) (w c : Nat) (g : Pass → Pass) :
    rest M (State.modPass s w c g) = rest M s := by
  exact State.modCtx_rest h _ _ _ _
@[simp] theorem State.mapCtx_rest {M : List Component} (h : .wings ∈ M) (s : State) (f : Nat → Nat → Ctx → Ctx) :
    rest M (State.mapCtx s f) = rest M s := by
  unfold State.mapCtx; exact rest_wings h _ _
@[simp] theorem chargeBytes_rest {M : List Component} (h : .tally ∈ M) (s : State) (party : Option Nat) (n : Nat) :
    rest M (chargeBytes s party n) = rest M s := by
  unfold chargeBytes; split <;> simp [h]
@[simp] theorem refObj_rest {M : List Component} (h : .objects ∈ M) (s : State) (o : Nat) :
    rest M (refObj s o) = rest M s := by
  simp [refObj, h]

/-! #### Objects and rooms moved and lost (chapters 7 and 8) -/

@[simp] theorem endKvSessions_rest {M : List Component} (h : .wings ∈ M) (s : State) (i : Nat) :
    rest M (endKvSessions s i) = rest M s := by
  unfold endKvSessions
  refine rest_foldl _ _ _ fun s w => rest_foldl _ _ _ fun s c => rest_foldl _ _ _ fun s v => ?_
  exact endServe_rest h _ _ _ _ _
@[simp] theorem damageObj_rest {M : List Component}
    (h : [.fns, .keeper, .sessions, .longs, .objects] ⊆ M) (s : State) (i : Nat) (st : Status) :
    rest M (damageObj s i st) = rest M s := by
  simp only [List.cons_subset, List.nil_subset, and_true] at h
  simp [damageObj, h]
@[simp] theorem arriveObj_rest {M : List Component} (h : [.objects, .tally] ⊆ M) (s : State) (i : Nat) (d : Place) :
    rest M (arriveObj s i d) = rest M s := by
  simp only [List.cons_subset, List.nil_subset, and_true] at h
  simp [arriveObj, h]
@[simp] theorem objectMoveCommit_rest {M : List Component}
    (h : [.fns, .secure, .keeper, .version, .sessions, .longs, .objects, .rooms, .handles, .tally] ⊆ M) (i : Nat) (s : State) :
    rest M (objectMoveCommit i s) = rest M s := by
  simp only [List.cons_subset, List.nil_subset, and_true] at h
  unfold objectMoveCommit; dsimp only; (repeat' split) <;> simp [h]
@[simp] theorem takeoverMoved_rest {M : List Component} (h : [.fns, .ports, .keeper, .rings] ⊆ M) (s : State) (o : Nat) :
    rest M (takeoverMoved s o) = rest M s := by
  simp only [List.cons_subset, List.nil_subset, and_true] at h
  simp [takeoverMoved, h]
@[simp] theorem objectMoved_rest {M : List Component}
    (h : [.fns, .ports, .secure, .keeper, .version, .sessions, .longs, .objects, .rooms, .handles, .rings, .tally] ⊆ M) (i : Nat) (s : State) :
    rest M (objectMoved i s) = rest M s := by
  simp only [List.cons_subset, List.nil_subset, and_true] at h
  unfold objectMoved; dsimp only; split <;> simp [h]
@[simp] theorem objectFillDone_rest {M : List Component}
    (h : [.fns, .keeper, .version, .sessions, .longs, .objects] ⊆ M) (i : Nat) (s : State) :
    rest M (objectFillDone i s) = rest M s := by
  simp only [List.cons_subset, List.nil_subset, and_true] at h
  unfold objectFillDone; dsimp only; (repeat' split) <;> simp [h]
@[simp] theorem objectTransferDone_rest {M : List Component}
    (h : [.fns, .keeper, .version, .sessions, .longs, .objects, .tally] ⊆ M) (i : Nat) (bytes : Bytes) (s : State) :
    rest M (objectTransferDone i bytes s) = rest M s := by
  simp only [List.cons_subset, List.nil_subset, and_true] at h
  unfold objectTransferDone; dsimp only; (repeat' split) <;> simp [h]
@[simp] theorem startLoad_rest {M : List Component} (h : [.rooms, .handles] ⊆ M) (s : State) (i w r : Nat) (place : Place) (l : Load) :
    rest M (startLoad s i w r place l) = rest M s := by
  simp only [List.cons_subset, List.nil_subset, and_true] at h
  simp [startLoad, h]
@[simp] theorem dropSessions_rest {M : List Component} (h : .wings ∈ M) (s : State) (i : Nat) :
    rest M (dropSessions s i) = rest M s := by
  simp [dropSessions, h]
@[simp] theorem endReload_rest {M : List Component}
    (h : [.fns, .keeper, .sessions, .longs, .wings, .objects, .rooms, .handles] ⊆ M) (s : State) (i : Nat) (st : Status) :
    rest M (endReload s i st) = rest M s := by
  simp only [List.cons_subset, List.nil_subset, and_true] at h
  unfold endReload
  split
  · rfl
  · rw [failLoad_rest (by simp [h])]
    exact rest_foldl _ _ _ fun s p => by split <;> simp [h]
@[simp] theorem endReads_rest {M : List Component} (h : [.fns, .keeper, .sessions, .longs, .handles] ⊆ M) (s : State) (i : Nat) :
    rest M (endReads s i) = rest M s := by
  simp only [List.cons_subset, List.nil_subset, and_true] at h
  simp [endReads, h]
@[simp] theorem damageHandle_rest {M : List Component}
    (h : [.fns, .keeper, .sessions, .longs, .wings, .rooms, .handles] ⊆ M) (s : State) (i : Nat) :
    rest M (damageHandle s i) = rest M s := by
  simp only [List.cons_subset, List.nil_subset, and_true] at h
  unfold damageHandle; dsimp only; split <;> simp [h]
@[simp] theorem rebindSessions_rest {M : List Component} (h : .wings ∈ M) (s : State) (i : Nat) :
    rest M (rebindSessions s i) = rest M s := by
  simp [rebindSessions, h]
@[simp] theorem countReload_rest {M : List Component} (h : [.wings, .tally] ⊆ M) (s : State) (w i : Nat) (l : Load) :
    rest M (countReload s w i l) = rest M s := by
  simp only [List.cons_subset, List.nil_subset, and_true] at h
  unfold countReload; dsimp only; split <;> simp [h]
@[simp] theorem commitLoad_rest {M : List Component}
    (h : [.fns, .keeper, .sessions, .longs, .wings, .rooms, .handles, .tally] ⊆ M) (s : State) (i : Nat) (l : Load) :
    rest M (commitLoad s i l) = rest M s := by
  simp only [List.cons_subset, List.nil_subset, and_true] at h
  simp [commitLoad, h]
@[simp] theorem pointArrival_rest {M : List Component}
    (h : [.fns, .keeper, .version, .sessions, .longs, .wings, .objects, .rooms, .handles, .tally] ⊆ M) (r : Nat) (block : Bytes) (s : State) :
    rest M (pointArrival r block s) = rest M s := by
  simp only [List.cons_subset, List.nil_subset, and_true] at h
  unfold pointArrival; dsimp only; (repeat' split) <;> simp [h]
@[simp] theorem replacementCommit_rest {M : List Component}
    (h : [.fns, .keeper, .version, .sessions, .longs, .wings, .rooms, .handles, .tally] ⊆ M) (i : Nat) (s : State) :
    rest M (replacementCommit i s) = rest M s := by
  simp only [List.cons_subset, List.nil_subset, and_true] at h
  unfold replacementCommit; dsimp only; (repeat' split) <;> simp [h]
@[simp] theorem endCheckouts_rest {M : List Component}
    (h : [.fns, .keeper, .sessions, .longs] ⊆ M) (s : State) (i : Nat) (l : List Checkout) :
    rest M (endCheckouts s i l) = rest M s := by
  simp only [List.cons_subset, List.nil_subset, and_true] at h
  unfold endCheckouts
  exact rest_foldl _ _ _ fun s c => by dsimp only; split <;> simp [h]
@[simp] theorem checkoutMoveCommit_rest {M : List Component}
    (h : [.tt, .fns, .keeper, .version, .sessions, .longs, .rooms, .handles, .tally] ⊆ M) (r : Nat) (s : State) :
    rest M (checkoutMoveCommit r s) = rest M s := by
  simp only [List.cons_subset, List.nil_subset, and_true] at h
  unfold checkoutMoveCommit; dsimp only; (repeat' split) <;> simp [h]
@[simp] theorem adapterReadDone_rest {M : List Component}
    (h : [.fns, .keeper, .version, .sessions, .longs, .rooms, .handles, .tally] ⊆ M) (i : Nat) (s : State) :
    rest M (adapterReadDone i s) = rest M s := by
  simp only [List.cons_subset, List.nil_subset, and_true] at h
  unfold adapterReadDone; dsimp only; (repeat' split) <;> simp [h]

/-! #### Update jobs (R110 to R124) -/

@[simp] theorem keepSlice_rest {M : List Component} (h : [.objects, .handles] ⊆ M) (s : State) (j : Job) (seg : Nat) (sp : List Space) :
    rest M (keepSlice s j seg sp) = rest M s := by
  simp only [List.cons_subset, List.nil_subset, and_true] at h
  unfold keepSlice; dsimp only; (repeat' split) <;> simp [h]
@[simp] theorem runProgress_rest {M : List Component}
    (h : [.fns, .runs, .keeper, .sessions, .longs, .objects] ⊆ M) (s : State) (ref : CmdRef) (faulted : Bool) :
    rest M (runProgress s ref faulted) = rest M s := by
  simp only [List.cons_subset, List.nil_subset, and_true] at h
  unfold runProgress
  dsimp only
  split
  · rfl
  · split
    · rw [finishIn_rest (by simp [h]), unrefObj_rest (by simp [h]), rest_runs (by simp [h])]
    · exact rest_runs (by simp [h]) _ _
@[simp] theorem endJob_rest {M : List Component}
    (h : [.fns, .jobs, .runs, .keeper, .sessions, .longs, .wings, .objects] ⊆ M) (s : State) (n : Nat) (faulted : Bool) :
    rest M (endJob s n faulted) = rest M s := by
  simp only [List.cons_subset, List.nil_subset, and_true] at h
  unfold endJob
  dsimp only
  split
  · rw [runProgress_rest (by simp [h]), rest_jobs (by simp [h])]
  · rw [State.modPass_rest (by simp [h]), rest_jobs (by simp [h])]
@[simp] theorem faultJob_rest {M : List Component}
    (h : [.tt, .fns, .jobs, .runs, .keeper, .sessions, .longs, .wings, .objects, .rooms, .handles] ⊆ M) (s : State) (n : Nat) :
    rest M (faultJob s n) = rest M s := by
  simp only [List.cons_subset, List.nil_subset, and_true] at h
  simp [faultJob, h]
@[simp] theorem updateJobStart_rest {M : List Component} (h : [.jobs, .rooms] ⊆ M) (n i : Nat) (s : State) :
    rest M (updateJobStart n i s) = rest M s := by
  simp only [List.cons_subset, List.nil_subset, and_true] at h
  unfold updateJobStart; dsimp only; split <;> simp [h]
@[simp] theorem runJobSlice_rest {M : List Component}
    (h : [.tt, .fns, .jobs, .runs, .keeper, .free, .version, .sessions, .longs, .wings, .objects, .rooms, .handles] ⊆ M) (s : State) (n : Nat) (j : Job) :
    rest M (runJobSlice s n j) = rest M s := by
  simp only [List.cons_subset, List.nil_subset, and_true] at h
  unfold runJobSlice; dsimp only; split <;> simp [h]
@[simp] theorem updateSlice_rest {M : List Component}
    (h : [.tt, .fns, .quarters, .jobs, .runs, .keeper, .free, .version, .sessions, .longs, .wings, .objects, .rooms, .handles] ⊆ M) (q : Nat) (s : State) :
    rest M (updateSlice q s) = rest M s := by
  simp only [List.cons_subset, List.nil_subset, and_true] at h
  unfold updateSlice; split <;> simp [h]
@[simp] theorem updateCommit_rest {M : List Component}
    (h : [.tt, .fns, .jobs, .runs, .keeper, .version, .sessions, .longs, .wings, .objects, .rooms, .handles] ⊆ M) (n i : Nat) (s : State) :
    rest M (updateCommit n i s) = rest M s := by
  simp only [List.cons_subset, List.nil_subset, and_true] at h
  unfold updateCommit; dsimp only; (repeat' split) <;> simp [h]
@[simp] theorem addJob_rest {M : List Component} (h : .jobs ∈ M) (s : State) (j : Job) :
    rest M (addJob s j) = rest M s := by
  unfold addJob; exact rest_jobs h _ _

/-! #### Windows of a wing (R195) -/

@[simp] theorem noteAhead_rest {M : List Component} (h : .wings ∈ M) (s : State) (w : Nat) :
    rest M (noteAhead s w) = rest M s := by
  simp [noteAhead, h]
@[simp] theorem startSweep_rest {M : List Component} (h : .wings ∈ M) (s : State) (w b : Nat) (backward : Bool) :
    rest M (startSweep s w b backward) = rest M s := by
  simp [startSweep, h]
@[simp] theorem finishShard_rest {M : List Component} (h : .wings ∈ M) (s : State) (w : Nat) :
    rest M (finishShard s w) = rest M s := by
  simp [finishShard, h]
@[simp] theorem assumeSweep_rest {M : List Component} (h : .wings ∈ M) (s : State) (w base : Nat) (backward : Bool) :
    rest M (assumeSweep s w base backward) = rest M s := by
  unfold assumeSweep; dsimp only; split <;> simp [h]

/-! #### Admissions (R161, R252, R349, R350) -/

@[simp] theorem reloadInto_rest {M : List Component} (h : [.rooms, .handles] ⊆ M) (s : State) (w i r : Nat) (place : Place) :
    rest M (reloadInto s w i r place) = rest M s := by
  simp only [List.cons_subset, List.nil_subset, and_true] at h
  simp [reloadInto, h]
@[simp] theorem takeRefs_rest {M : List Component} (h : [.objects, .rooms] ⊆ M) (s : State) (rooms objects : List Nat) :
    rest M (takeRefs s rooms objects) = rest M s := by
  simp only [List.cons_subset, List.nil_subset, and_true] at h
  simp [takeRefs, h]
@[simp] theorem admitPass_rest {M : List Component} (h : [.tiles, .wings, .objects, .rooms] ⊆ M) (s : State) (w c : Nat) (p : Pass) :
    rest M (admitPass s w c p) = rest M s := by
  simp only [List.cons_subset, List.nil_subset, and_true] at h
  unfold admitPass; dsimp only; split <;> simp [h]
@[simp] theorem loadListed_rest {M : List Component} (h : [.rooms, .handles] ⊆ M) (w : Nat) (s : State) (a : PassAdapter) :
    rest M (loadListed w s a) = rest M s := by
  simp only [List.cons_subset, List.nil_subset, and_true] at h
  unfold loadListed; dsimp only; (repeat' split) <;> simp [h]
@[simp] theorem countDenied_rest {M : List Component} (h : .wings ∈ M) (s : State) (w n : Nat) :
    rest M (countDenied s w n) = rest M s := by
  simp [countDenied, h]
@[simp] theorem failHead_rest {M : List Component}
    (h : [.fns, .keeper, .version, .sessions, .longs, .wings, .objects] ⊆ M) (s : State) (w c : Nat) (q : PassCmd) (st : Status) (b : Bytes) :
    rest M (failHead s w c q st b) = rest M s := by
  simp only [List.cons_subset, List.nil_subset, and_true] at h
  simp [failHead, h]
@[simp] theorem admitTrain_rest {M : List Component}
    (h : [.fns, .tiles, .keeper, .version, .sessions, .longs, .wings, .objects, .rooms, .handles] ⊆ M) (s : State) (w c : Nat) (q : PassCmd) :
    rest M (admitTrain s w c q) = rest M s := by
  simp only [List.cons_subset, List.nil_subset, and_true] at h
  unfold admitTrain; dsimp only; (repeat' split) <;> simp [h]
@[simp] theorem bindServe_rest {M : List Component} (h : [.wings, .rooms, .handles] ⊆ M) (s : State) (w c n : Nat) (handles : List Nat) :
    rest M ((bindServe s w c n handles).1) = rest M s := by
  simp only [List.cons_subset, List.nil_subset, and_true] at h
  unfold bindServe; dsimp only; (repeat' split) <;> simp [h]
theorem takeServe_rest {M : List Component} (h : [.wings, .rooms, .handles] ⊆ M) (w c chunk : Nat) (decode : Bool) (t : Taking) (n : Nat) :
    rest M (takeServe w c chunk decode t n).st = rest M t.st := by
  have hbind := bindServe_rest h t.st w c n t.handles
  unfold takeServe
  dsimp only
  split
  · rfl
  · split
    all_goals rename_i hb; rw [hb] at hbind; exact hbind
@[simp] theorem takeRows_rest {M : List Component} (h : [.wings, .rooms, .handles] ⊆ M) (s : State) (w c : Nat) :
    rest M (takeRows s w c).st = rest M s := by
  have hfold (decode : Bool) (l : List Nat) (t : Taking) :
      rest M (l.foldl (takeServe w c (s.ctx w c).chunkLimit decode) t).st = rest M t.st := by
    induction l generalizing t with
    | nil => rfl
    | cons n l ih => exact (ih _).trans (takeServe_rest h _ _ _ _ _ _)
  exact (hfold _ _ _).trans (hfold _ _ _)
@[simp] theorem denyTake_rest {M : List Component} (h : .wings ∈ M) (w c : Nat) (s : State) (k : ServeTake) :
    rest M (denyTake w c s k) = rest M s := by
  unfold denyTake; split <;> simp [h]
@[simp] theorem endRun_rest {M : List Component}
    (h : [.fns, .keeper, .free, .version, .sessions, .longs, .wings, .objects] ⊆ M) (s : State) (w c : Nat) (q : PassCmd) :
    rest M (endRun s w c q) = rest M s := by
  simp only [List.cons_subset, List.nil_subset, and_true] at h
  simp [endRun, h]
@[simp] theorem waitForRoom_rest {M : List Component} (h : [.fns, .keeper, .wings] ⊆ M) (s : State) (w c : Nat) :
    rest M (waitForRoom s w c) = rest M s := by
  simp only [List.cons_subset, List.nil_subset, and_true] at h
  unfold waitForRoom; dsimp only; (repeat' split) <;> simp [h]
@[simp] theorem admitServe_rest {M : List Component}
    (h : [.fns, .tiles, .keeper, .free, .version, .sessions, .longs, .wings, .objects, .rooms, .handles] ⊆ M) (s : State) (w c : Nat) (q : PassCmd) :
    rest M (admitServe s w c q) = rest M s := by
  simp only [List.cons_subset, List.nil_subset, and_true] at h
  unfold admitServe; dsimp only; (repeat' split) <;> simp [h]
@[simp] theorem passAdmit_rest {M : List Component}
    (h : [.fns, .tiles, .keeper, .free, .version, .sessions, .longs, .wings, .objects, .rooms, .handles] ⊆ M) (w c : Nat) (s : State) :
    rest M (passAdmit w c s) = rest M s := by
  simp only [List.cons_subset, List.nil_subset, and_true] at h
  unfold passAdmit; dsimp only; (repeat' split) <;> simp [h]

/-! #### The ends of passes (R111, R124, R157, R253, R350) -/

@[simp] theorem mapWatch_rest {M : List Component} (h : .wings ∈ M) (s : State) (w : Nat) (f : Watch → Watch) :
    rest M (mapWatch s w f) = rest M s := by
  simp [mapWatch, h]
@[simp] theorem limitNotices_rest {M : List Component} (h : [.fns, .keeper] ⊆ M) (w step : Nat) (s : State) (p : Nat × Watch) :
    rest M (limitNotices w step s p) = rest M s := by
  simp only [List.cons_subset, List.nil_subset, and_true] at h
  unfold limitNotices; dsimp only; (repeat' split) <;> simp [h]
@[simp] theorem checkLimits_rest {M : List Component} (h : [.fns, .keeper] ⊆ M) (s : State) (w step : Nat) :
    rest M (checkLimits s w step).1 = rest M s := by
  simp only [List.cons_subset, List.nil_subset, and_true] at h
  simp [checkLimits, h]
@[simp] theorem pokeGroups_rest {M : List Component} (h : [.tickets, .ports, .groups] ⊆ M) (s : State) (w c : Nat) :
    rest M (pokeGroups s w c) = rest M s := by
  simp only [List.cons_subset, List.nil_subset, and_true] at h
  unfold pokeGroups
  exact rest_foldl _ _ _ fun s n => by split <;> simp [h]
@[simp] theorem awaitLegs_rest {M : List Component} (h : .rings ∈ M) (s : State) (l : List (Nat × Nat)) :
    rest M (awaitLegs s l) = rest M s := by
  simp [awaitLegs, h]
@[simp] theorem checkLoss_rest {M : List Component}
    (h : [.fns, .keeper, .wings, .handles] ⊆ M) (w c : Nat) (q : PassCmd) (s : State) (k : Nat × Nat × Detector) :
    rest M (checkLoss w c q s k) = rest M s := by
  simp only [List.cons_subset, List.nil_subset, and_true] at h
  unfold checkLoss; dsimp only; split <;> simp [h]
@[simp] theorem forwardPassEnd_rest {M : List Component}
    (h : [.fns, .tiles, .keeper, .free, .version, .wings, .handles] ⊆ M) (w c : Nat) (s : State) :
    rest M (forwardPassEnd w c s) = rest M s := by
  simp only [List.cons_subset, List.nil_subset, and_true] at h
  unfold forwardPassEnd
  dsimp only
  (repeat' split) <;> simp [h, ↓rest_free]
@[simp] theorem backwardPassEnd_rest {M : List Component}
    (h : [.fns, .tickets, .jobs, .ports, .keeper, .wings, .groups] ⊆ M) (w c : Nat) (s : State) :
    rest M (backwardPassEnd w c s) = rest M s := by
  simp only [List.cons_subset, List.nil_subset, and_true] at h
  unfold backwardPassEnd; dsimp only; (repeat' split) <;> simp [h]
@[simp] theorem stepCommit_rest {M : List Component}
    (h : [.fns, .keeper, .version, .sessions, .longs, .wings, .objects, .rooms, .handles, .tally] ⊆ M) (w c : Nat) (s : State) :
    rest M (stepCommit w c s) = rest M s := by
  simp only [List.cons_subset, List.nil_subset, and_true] at h
  unfold stepCommit; dsimp only; (repeat' split) <;> simp [h]
@[simp] theorem passEnd_rest {M : List Component}
    (h : [.fns, .keeper, .version, .sessions, .longs, .wings, .objects, .rooms, .rings, .tally] ⊆ M) (w c : Nat) (s : State) :
    rest M (passEnd w c s) = rest M s := by
  simp only [List.cons_subset, List.nil_subset, and_true] at h
  unfold passEnd; (repeat' split) <;> simp [h]

/-! #### Base shards (chapter 9) -/

@[simp] theorem dropSlot_rest {M : List Component} (h : .wings ∈ M) (s : State) (w b j : Nat) :
    rest M (dropSlot s w b j) = rest M s := by
  simp [dropSlot, h]
@[simp] theorem loseShard_rest {M : List Component}
    (h : [.fns, .tiles, .keeper, .version, .sessions, .longs, .wings, .objects, .rooms, .tally] ⊆ M) (s : State) (k : Nat) :
    rest M (loseShard s k) = rest M s := by
  simp only [List.cons_subset, List.nil_subset, and_true] at h
  unfold loseShard
  refine rest_foldl _ _ _ fun s w => (rest_foldl _ _ _ fun s c => failPass_rest (by simp [h]) _ _ _ _).trans ?_
  exact dropSlot_rest (by simp [h]) _ _ _ _
@[simp] theorem sendRouted_rest {M : List Component} (h : .ports ∈ M) (s : State) (m : OutMsg) :
    rest M (sendRouted s m) = rest M s := by
  unfold sendRouted; split <;> simp [h]
@[simp] theorem askNext_rest {M : List Component}
    (h : [.fns, .tiles, .cellar, .ports, .keeper, .version, .sessions, .longs, .wings, .objects, .rooms, .tally] ⊆ M) (s : State) (k : Nat) (paced : Bool) (asked : List Nat) :
    rest M (askNext s k paced asked) = rest M s := by
  simp only [List.cons_subset, List.nil_subset, and_true] at h
  unfold askNext; dsimp only; (repeat' split) <;> simp [h]
@[simp] theorem askShard_rest {M : List Component}
    (h : [.fns, .tiles, .cellar, .ports, .keeper, .version, .sessions, .longs, .wings, .objects, .rooms, .tally] ⊆ M) (s : State) (k : Nat) :
    rest M (askShard s k) = rest M s := by
  simp only [List.cons_subset, List.nil_subset, and_true] at h
  unfold askShard; split <;> simp [h]
@[simp] theorem askRewrite_rest {M : List Component}
    (h : [.fns, .tiles, .cellar, .ports, .keeper, .version, .sessions, .longs, .wings, .objects, .rooms, .tally] ⊆ M) (s : State) (k : Nat) :
    rest M (askRewrite s k) = rest M s := by
  simp only [List.cons_subset, List.nil_subset, and_true] at h
  unfold askRewrite; split <;> simp [h]
@[simp] theorem quarantine_rest {M : List Component}
    (h : [.fns, .tiles, .cellar, .ports, .keeper, .version, .sessions, .longs, .wings, .objects, .rooms, .tally] ⊆ M) (s : State) (k : Nat) :
    rest M (quarantine s k) = rest M s := by
  simp only [List.cons_subset, List.nil_subset, and_true] at h
  unfold quarantine; dsimp only; split <;> simp [h]
@[simp] theorem cutInstall_rest {M : List Component}
    (h : [.fns, .cellar, .keeper, .sessions, .longs] ⊆ M) (s : State) (b : Nat) (st : Status) :
    rest M (cutInstall s b st) = rest M s := by
  simp only [List.cons_subset, List.nil_subset, and_true] at h
  unfold cutInstall; dsimp only; split <;> simp [h]
@[simp] theorem settleInstall_rest {M : List Component} (h : [.fns, .cellar, .keeper, .sessions, .longs] ⊆ M) (s : State) (b : Nat) :
    rest M (settleInstall s b) = rest M s := by
  simp only [List.cons_subset, List.nil_subset, and_true] at h
  unfold settleInstall; dsimp only; (repeat' split) <;> simp [h]
@[simp] theorem fillNext_rest {M : List Component}
    (h : [.fns, .tiles, .cellar, .ports, .keeper, .version, .sessions, .longs, .wings, .objects, .rooms, .tally] ⊆ M) (s : State) (b : Nat) :
    rest M (fillNext s b) = rest M s := by
  simp only [List.cons_subset, List.nil_subset, and_true] at h
  unfold fillNext
  split
  · rfl
  split
  · rfl
  · exact rest_foldl _ _ _ fun s stack => by dsimp only; (repeat' split) <;> simp [h]
@[simp] theorem sendDown_rest {M : List Component} (h : .ports ∈ M) (s : State) (ident source j digest : Nat) :
    rest M (sendDown s ident source j digest) = rest M s := by
  simp [sendDown, h]
@[simp] theorem tryAck_rest {M : List Component} (h : .ports ∈ M) (s : State) (ident source j : Nat) :
    rest M (tryAck s ident source j) = rest M s := by
  unfold tryAck; dsimp only; (repeat' split) <;> simp [h]
@[simp] theorem sourceShard_rest {M : List Component} (h : [.cellar, .ports] ⊆ M) (s : State) (k : Nat) :
    rest M (sourceShard s k) = rest M s := by
  simp only [List.cons_subset, List.nil_subset, and_true] at h
  unfold sourceShard; dsimp only; (repeat' split) <;> simp [h]
@[simp] theorem settleSink_rest {M : List Component} (h : [.fns, .cellar, .keeper, .sessions, .longs] ⊆ M) (s : State) (b j : Nat) :
    rest M (settleSink s b j) = rest M s := by
  simp only [List.cons_subset, List.nil_subset, and_true] at h
  unfold settleSink; dsimp only; (repeat' split) <;> simp [h]
@[simp] theorem failShard_rest {M : List Component}
    (h : [.fns, .tiles, .cellar, .ports, .keeper, .version, .sessions, .longs, .wings, .objects, .rooms, .tally] ⊆ M) (s : State) (k : Nat) :
    rest M (failShard s k) = rest M s := by
  simp only [List.cons_subset, List.nil_subset, and_true] at h
  unfold failShard; split <;> simp [h]
@[simp] theorem shardProgramDone_rest {M : List Component}
    (h : [.fns, .tiles, .cellar, .ports, .keeper, .version, .sessions, .longs, .wings, .objects, .rooms, .tally] ⊆ M) (k : Nat) (ok : Bool) (digest : Nat) (s : State) :
    rest M (shardProgramDone k ok digest s) = rest M s := by
  simp only [List.cons_subset, List.nil_subset, and_true] at h
  unfold shardProgramDone; dsimp only; (repeat' split) <;> simp [h]
@[simp] theorem shardReadbackDone_rest {M : List Component}
    (h : [.fns, .tiles, .cellar, .ports, .keeper, .version, .sessions, .longs, .wings, .objects, .rooms, .tally] ⊆ M) (k digest : Nat) (listsOk : Bool) (s : State) :
    rest M (shardReadbackDone k digest listsOk s) = rest M s := by
  simp only [List.cons_subset, List.nil_subset, and_true] at h
  unfold shardReadbackDone; dsimp only; (repeat' split) <;> simp [h]
@[simp] theorem shardEraseDone_rest {M : List Component} (h : [.fns, .cellar, .keeper] ⊆ M) (k : Nat) (s : State) :
    rest M (shardEraseDone k s) = rest M s := by
  simp only [List.cons_subset, List.nil_subset, and_true] at h
  unfold shardEraseDone; dsimp only; (repeat' split) <;> simp [h]
@[simp] theorem passOn_rest {M : List Component} (h : .wings ∈ M) (s : State) (w : Nat) :
    rest M (passOn s w) = rest M s := by
  unfold passOn; dsimp only; (repeat' split) <;> simp [h]
@[simp] theorem shardFetch_rest {M : List Component}
    (h : [.fns, .tiles, .cellar, .ports, .keeper, .version, .sessions, .longs, .wings, .objects, .rooms, .tally] ⊆ M) (w : Nat) (s : State) :
    rest M (shardFetch w s) = rest M s := by
  simp only [List.cons_subset, List.nil_subset, and_true] at h
  unfold shardFetch; dsimp only; (repeat' split) <;> simp [h]
@[simp] theorem fillSlot_rest {M : List Component} (h : .wings ∈ M) (s : State) (w b j : Nat) (again : Bool) :
    rest M (fillSlot s w b j again) = rest M s := by
  simp [fillSlot, h]
@[simp] theorem shardArrival_rest {M : List Component}
    (h : [.fns, .tiles, .cellar, .ports, .keeper, .version, .sessions, .longs, .wings, .objects, .rooms, .tally] ⊆ M) (w j digest : Nat) (s : State) :
    rest M (shardArrival w j digest s) = rest M s := by
  simp only [List.cons_subset, List.nil_subset, and_true] at h
  unfold shardArrival; dsimp only; (repeat' split) <;> simp [h]
@[simp] theorem holderTimeout_rest {M : List Component}
    (h : [.fns, .tiles, .cellar, .ports, .keeper, .version, .sessions, .longs, .wings, .objects, .rooms, .tally] ⊆ M) (k : Nat) (s : State) :
    rest M (holderTimeout k s) = rest M s := by
  simp only [List.cons_subset, List.nil_subset, and_true] at h
  unfold holderTimeout skipHolder; split <;> simp [h]
@[simp] theorem sweepReadDone_rest {M : List Component}
    (h : [.fns, .tiles, .cellar, .ports, .keeper, .version, .sessions, .longs, .wings, .objects, .rooms, .tally] ⊆ M) (k digest : Nat) (s : State) :
    rest M (sweepReadDone k digest s) = rest M s := by
  simp only [List.cons_subset, List.nil_subset, and_true] at h
  unfold sweepReadDone; dsimp only; (repeat' split) <;> simp [h]

/-! #### Errors of the parts (R166, R172, R203, R419 to R435) -/

@[simp] theorem autoMap_rest {M : List Component}
    (h : [.fns, .tiles, .keeper, .version, .sessions, .longs, .wings, .tileMap, .faultMap, .maps] ⊆ M) (s : State) (p : Nat) :
    rest M (autoMap s p) = rest M s := by
  simp only [List.cons_subset, List.nil_subset, and_true] at h
  unfold autoMap; (repeat' split) <;> simp [h]
@[simp] theorem arrayParity_rest {M : List Component}
    (h : [.fns, .tiles, .keeper, .version, .sessions, .longs, .wings, .objects, .rooms, .tileMap, .faultMap, .maps, .tally] ⊆ M) (p : Nat) (s : State) :
    rest M (arrayParity p s) = rest M s := by
  simp only [List.cons_subset, List.nil_subset, and_true] at h
  unfold arrayParity; dsimp only; (repeat' split) <;> simp [h]
@[simp] theorem accEccError_rest {M : List Component}
    (h : [.fns, .tiles, .keeper, .version, .sessions, .longs, .wings, .objects, .rooms, .tally] ⊆ M) (tile : Nat) (corrected : Bool) (s : State) :
    rest M (accEccError tile corrected s) = rest M s := by
  simp only [List.cons_subset, List.nil_subset, and_true] at h
  unfold accEccError; dsimp only; (repeat' split) <;> simp [h]
@[simp] theorem withholdObj_rest {M : List Component}
    (h : [.tt, .fns, .jobs, .runs, .keeper, .sessions, .longs, .wings, .objects, .rooms, .handles] ⊆ M) (s : State) (i : Nat) :
    rest M (withholdObj s i) = rest M s := by
  simp only [List.cons_subset, List.nil_subset, and_true] at h
  simp [withholdObj, h]
@[simp] theorem dropMirrors_rest {M : List Component} (h : .rings ∈ M) (s : State) (i : Nat) :
    rest M (dropMirrors s i) = rest M s := by
  unfold dropMirrors; exact rest_rings h _ _
@[simp] theorem objectHit_rest {M : List Component}
    (h : [.tt, .fns, .tickets, .tiles, .jobs, .runs, .secure, .keeper, .version, .sessions, .longs, .wings, .objects, .rooms, .handles, .rings, .tally] ⊆ M) (s : State) (i : Nat) (st : Status) (at_ : At) (body : List Nat) :
    rest M (objectHit s i st at_ body) = rest M s := by
  simp only [List.cons_subset, List.nil_subset, and_true] at h
  unfold objectHit
  dsimp only
  split
  · rfl
  · rw [carryMoves_rest (by simp [h]), notify_rest (by simp [h])]
    split <;> simp [h]
@[simp] theorem roomHit_rest {M : List Component}
    (h : [.fns, .keeper, .version, .sessions, .longs, .wings, .objects, .rooms, .handles] ⊆ M) (s : State) (r pc : Nat) (st : Status) (at_ : At) :
    rest M (roomHit s r pc st at_) = rest M s := by
  simp only [List.cons_subset, List.nil_subset, and_true] at h
  unfold roomHit; dsimp only; (repeat' split) <;> simp [h]
@[simp] theorem imageHit_rest {M : List Component}
    (h : [.fns, .keeper, .version, .sessions, .longs, .wings, .objects, .rooms, .handles] ⊆ M) (s : State) (i ch : Nat) (st : Status) (at_ : At) :
    rest M (imageHit s i ch st at_) = rest M s := by
  simp only [List.cons_subset, List.nil_subset, and_true] at h
  unfold imageHit; split <;> simp [h]
@[simp] theorem slotHit_rest {M : List Component} (h : .wings ∈ M) (s : State) (w k : Nat) :
    rest M (slotHit s w k) = rest M s := by
  unfold slotHit; split <;> simp [h]
@[simp] theorem destHit_rest {M : List Component}
    (h : [.fns, .secure, .keeper, .version, .sessions, .longs, .objects, .rooms, .handles] ⊆ M) (s : State) (i : Nat) (st : Status) :
    rest M (destHit s i st) = rest M s := by
  simp only [List.cons_subset, List.nil_subset, and_true] at h
  unfold destHit; dsimp only; split <;> simp [h]
@[simp] theorem errorAt_rest {M : List Component}
    (h : [.tt, .fns, .tickets, .tiles, .jobs, .runs, .secure, .keeper, .link, .version, .sessions, .longs, .wings, .objects, .rooms, .handles, .rings, .tally] ⊆ M) (s : State) (unit : Nat) (st : Status) (at_ : At) (body : List Nat) (p : ErrPlace) :
    rest M (errorAt s unit st at_ body p) = rest M s := by
  simp only [List.cons_subset, List.nil_subset, and_true] at h
  unfold errorAt; split <;> simp [h]
@[simp] theorem startRetirement_rest {M : List Component}
    (h : [.fns, .secure, .keeper, .version, .sessions, .longs, .wings, .objects, .rooms, .handles, .pcs] ⊆ M) (pc : Nat) (ref : Option CmdRef) (s : State) :
    rest M (startRetirement pc ref s) = rest M s := by
  simp only [List.cons_subset, List.nil_subset, and_true] at h
  unfold startRetirement
  rw [carryMoves_rest (by simp [h]), rest_foldl _ _ _ fun s w => windowDrops_rest (by simp [h]) pc w s, State.modPc_rest (by simp [h])]
@[simp] theorem hbmCorrected_rest {M : List Component} (h : [.fns, .keeper, .pcs] ⊆ M) (u addr : Nat) (s : State) :
    rest M (hbmCorrected u addr s) = rest M s := by
  simp only [List.cons_subset, List.nil_subset, and_true] at h
  unfold hbmCorrected; dsimp only; split <;> simp [h]
@[simp] theorem hbmUncorrectable_rest {M : List Component}
    (h : [.tt, .fns, .tickets, .tiles, .jobs, .runs, .secure, .keeper, .link, .version, .sessions, .longs, .wings, .objects, .rooms, .handles, .pcs, .rings, .tally] ⊆ M) (u addr : Nat) (p : ErrPlace) (s : State) :
    rest M (hbmUncorrectable u addr p s) = rest M s := by
  simp only [List.cons_subset, List.nil_subset, and_true] at h
  unfold hbmUncorrectable; dsimp only; split <;> simp [h]
@[simp] theorem loftCorrected_rest {M : List Component} (h : [.fns, .keeper, .lofts] ⊆ M) (c addr : Nat) (s : State) :
    rest M (loftCorrected c addr s) = rest M s := by
  simp only [List.cons_subset, List.nil_subset, and_true] at h
  unfold loftCorrected; dsimp only; split <;> simp [h]
@[simp] theorem loftUncorrectable_rest {M : List Component}
    (h : [.tt, .fns, .tickets, .tiles, .jobs, .runs, .secure, .keeper, .link, .version, .sessions, .longs, .wings, .objects, .rooms, .handles, .lofts, .rings, .tally] ⊆ M) (c addr : Nat) (p : ErrPlace) (s : State) :
    rest M (loftUncorrectable c addr p s) = rest M s := by
  simp only [List.cons_subset, List.nil_subset, and_true] at h
  simp [loftUncorrectable, h]
@[simp] theorem stopMovesTo_rest {M : List Component}
    (h : [.fns, .secure, .keeper, .version, .sessions, .longs, .objects, .rooms, .handles] ⊆ M) (c : Nat) (s : State) :
    rest M (stopMovesTo c s) = rest M s := by
  simp only [List.cons_subset, List.nil_subset, and_true] at h
  simp [stopMovesTo, h]
@[simp] theorem loseLoftData_rest {M : List Component}
    (h : [.tt, .fns, .tickets, .tiles, .jobs, .runs, .secure, .keeper, .link, .version, .sessions, .longs, .wings, .objects, .rooms, .handles, .rings, .tally] ⊆ M) (c : Nat) (s : State) :
    rest M (loseLoftData c s) = rest M s := by
  simp only [List.cons_subset, List.nil_subset, and_true] at h
  simp [loseLoftData, h]
@[simp] theorem loseLoft_rest {M : List Component}
    (h : [.tt, .fns, .tickets, .tiles, .jobs, .runs, .secure, .keeper, .link, .version, .sessions, .longs, .wings, .objects, .rooms, .handles, .lofts, .rings, .tally] ⊆ M) (c : Nat) (s : State) :
    rest M (loseLoft c s) = rest M s := by
  simp only [List.cons_subset, List.nil_subset, and_true] at h
  unfold loseLoft; dsimp only; (repeat' split) <;> simp [h]
@[simp] theorem quarterCorrected_rest {M : List Component} (h : [.quarters, .keeper] ⊆ M) (q : Nat) (s : State) :
    rest M (quarterCorrected q s) = rest M s := by
  simp only [List.cons_subset, List.nil_subset, and_true] at h
  simp [quarterCorrected, h]
@[simp] theorem endReader_rest {M : List Component}
    (h : [.fns, .tickets, .tiles, .keeper, .version, .sessions, .longs, .wings, .objects, .rooms, .tally] ⊆ M) (s : State) (reader : Option (Nat × Nat)) (kind unit word : Nat) :
    rest M (endReader s reader kind unit word) = rest M s := by
  simp only [List.cons_subset, List.nil_subset, and_true] at h
  unfold endReader; split <;> simp [h]
@[simp] theorem tileStoreEcc_rest {M : List Component}
    (h : [.fns, .tickets, .tiles, .keeper, .version, .sessions, .longs, .wings, .objects, .rooms, .tally] ⊆ M) (t word : Nat) (reader : Option (Nat × Nat)) (s : State) :
    rest M (tileStoreEcc t word reader s) = rest M s := by
  simp only [List.cons_subset, List.nil_subset, and_true] at h
  simp [tileStoreEcc, h]
@[simp] theorem quarterStoreEcc_rest {M : List Component}
    (h : [.fns, .tickets, .tiles, .quarters, .keeper, .version, .sessions, .longs, .wings, .objects, .rooms, .tally] ⊆ M) (q word : Nat) (reader : Option (Nat × Nat)) (s : State) :
    rest M (quarterStoreEcc q word reader s) = rest M s := by
  simp only [List.cons_subset, List.nil_subset, and_true] at h
  unfold quarterStoreEcc; dsimp only; split <;> simp [h]

/-! #### A link lost with its keys (R174, R372 to R374) -/

@[simp] theorem lapseSession_rest {M : List Component} (h : [.fns, .keeper, .sessions] ⊆ M) (s : State) (k : Nat) :
    rest M (lapseSession s k) = rest M s := by
  simp only [List.cons_subset, List.nil_subset, and_true] at h
  unfold lapseSession; dsimp only; split <;> simp [h]
@[simp] theorem lapseFunction_rest {M : List Component} (h : [.fns, .keeper, .sessions] ⊆ M) (s : State) (fn : Nat) :
    rest M (lapseFunction s fn) = rest M s := by
  simp only [List.cons_subset, List.nil_subset, and_true] at h
  simp [lapseFunction, h]
@[simp] theorem endHostLoad_rest {M : List Component}
    (h : [.fns, .keeper, .sessions, .longs, .wings, .objects, .rooms, .handles] ⊆ M) (s : State) (i : Nat) :
    rest M (endHostLoad s i) = rest M s := by
  simp only [List.cons_subset, List.nil_subset, and_true] at h
  unfold endHostLoad; (repeat' split) <;> simp [h]
@[simp] theorem endHostReads_rest {M : List Component}
    (h : [.fns, .keeper, .version, .sessions, .longs, .handles] ⊆ M) (fn : Nat) (s : State) (i : Nat) :
    rest M (endHostReads fn s i) = rest M s := by
  simp only [List.cons_subset, List.nil_subset, and_true] at h
  simp [endHostReads, h]
@[simp] theorem endHostInstall_rest {M : List Component}
    (h : [.fns, .cellar, .keeper, .version, .sessions, .longs] ⊆ M) (s : State) (b : Nat) :
    rest M (endHostInstall s b) = rest M s := by
  simp only [List.cons_subset, List.nil_subset, and_true] at h
  simp [endHostInstall, h]
@[simp] theorem stopHostAccesses_rest {M : List Component}
    (h : [.fns, .cellar, .secure, .keeper, .free, .version, .sessions, .longs, .wings, .objects, .rooms, .handles] ⊆ M) (fn : Nat) (s : State) :
    rest M (stopHostAccesses fn s) = rest M s := by
  simp only [List.cons_subset, List.nil_subset, and_true] at h
  simp [stopHostAccesses, h]
@[simp] theorem resetSteps_rest {M : List Component}
    (h : [.fns, .cellar, .secure, .keeper, .free, .version, .sessions, .longs, .wings, .objects, .rooms, .handles] ⊆ M) (fn : Nat) (to_ : FnSt) (keepBme : Bool) (s : State) :
    rest M (resetSteps fn to_ keepBme s) = rest M s := by
  simp only [List.cons_subset, List.nil_subset, and_true] at h
  simp [resetSteps, h]
@[simp] theorem tellFunction_rest {M : List Component} (h : [.fns, .keeper] ⊆ M) (s : State) (fn : Nat) :
    rest M (tellFunction s fn) = rest M s := by
  simp only [List.cons_subset, List.nil_subset, and_true] at h
  unfold tellFunction; split <;> simp [h]
@[simp] theorem makeAbsent_rest {M : List Component}
    (h : [.fns, .cellar, .secure, .keeper, .free, .version, .sessions, .longs, .wings, .objects, .rooms, .handles, .binds] ⊆ M) (s : State) (fn : Nat) :
    rest M (makeAbsent s fn) = rest M s := by
  simp only [List.cons_subset, List.nil_subset, and_true] at h
  unfold makeAbsent
  dsimp only
  split
  · rfl
  · rw [tellFunction_rest (by simp [h]), rest_foldl _ _ _ fun s q => finish_rest (by simp [h]) _ _ _ _]
    exact (rest_binds (by simp [h]) _ _).trans (by simp [h])
@[simp] theorem clearVfEnable_rest {M : List Component}
    (h : [.fns, .cellar, .secure, .keeper, .link, .free, .version, .sessions, .longs, .wings, .objects, .rooms, .handles, .binds] ⊆ M) (s : State) :
    rest M (clearVfEnable s) = rest M s := by
  simp only [List.cons_subset, List.nil_subset, and_true] at h
  simp [clearVfEnable, h]
@[simp] theorem resetVf0_rest {M : List Component}
    (h : [.fns, .cellar, .secure, .keeper, .link, .free, .version, .sessions, .longs, .wings, .objects, .rooms, .handles, .binds] ⊆ M) (s : State) :
    rest M (resetVf0 s) = rest M s := by
  simp only [List.cons_subset, List.nil_subset, and_true] at h
  unfold resetVf0; dsimp only; split <;> simp [h]
@[simp] theorem linkLoss_rest {M : List Component}
    (h : [.fns, .cellar, .secure, .keeper, .link, .free, .version, .sessions, .longs, .wings, .objects, .rooms, .handles, .binds] ⊆ M) (s : State) :
    rest M (linkLoss s) = rest M s := by
  simp only [List.cons_subset, List.nil_subset, and_true] at h
  unfold linkLoss; split <;> simp [h]
@[simp] theorem dropKey_rest {M : List Component}
    (h : [.fns, .cellar, .secure, .keeper, .link, .free, .version, .sessions, .longs, .wings, .objects, .rooms, .handles, .binds] ⊆ M) (slot : Nat) (s : State) :
    rest M (dropKey slot s) = rest M s := by
  simp only [List.cons_subset, List.nil_subset, and_true] at h
  unfold dropKey; dsimp only; (repeat' split) <;> simp [h]
@[simp] theorem secureStoreKeyError_rest {M : List Component}
    (h : [.fns, .cellar, .secure, .keeper, .link, .free, .version, .sessions, .longs, .wings, .objects, .rooms, .handles, .binds] ⊆ M) (slot : Nat) (s : State) :
    rest M (secureStoreKeyError slot s) = rest M s := by
  simp only [List.cons_subset, List.nil_subset, and_true] at h
  unfold secureStoreKeyError; (repeat' split) <;> simp [h]

/-! #### What the rows of these families may change -/

theorem exec_keepsRest_pass {i : Instr} {s t : State} (hf : familyOf i = .pass) (h : exec i s = .next t) : keepsRest i s t := by
  cases i with
  | updateJobStart n a => exact keepsRest_of_rest (familyParts .pass) rfl (rest_of_next h (updateJobStart_rest (by decide) _ _ _))
  | updateSlice q => exact keepsRest_of_rest (familyParts .pass) rfl (rest_onPart h fun u => updateSlice_rest (by decide) _ _)
  | updateCommit n a => exact keepsRest_of_rest (familyParts .pass) rfl (rest_of_next h (updateCommit_rest (by decide) _ _ _))
  | passAdmit w c =>
    refine keepsRest_of_rest (familyParts .pass) rfl (rest_onPart (f := fun u => if c < 256 then passAdmit w c u else u) h fun u => ?_)
    split
    · exact passAdmit_rest (by decide) _ _ _
    · rfl
  | forwardPassEnd w c => exact keepsRest_of_rest (familyParts .pass) rfl (rest_onPart h fun u => forwardPassEnd_rest (by decide) _ _ _)
  | backwardPassEnd w c => exact keepsRest_of_rest _ rfl (rest_onPart h fun u => backwardPassEnd_rest (List.Subset.refl _) _ _ _)
  | stepCommit w c => exact keepsRest_of_rest (familyParts .pass) rfl (rest_onPart h fun u => stepCommit_rest (by decide) _ _ _)
  | passEnd w c => exact keepsRest_of_rest (familyParts .pass) rfl (rest_onPart h fun u => passEnd_rest (by decide) _ _ _)
  | _ => cases hf

theorem exec_keepsRest_move {i : Instr} {s t : State} (hf : familyOf i = .move) (h : exec i s = .next t) : keepsRest i s t := by
  cases i with
  | pointArrival r b => exact keepsRest_of_rest (familyParts .move) rfl (rest_onPart h fun u => pointArrival_rest (by decide) _ _ _)
  | replacementCommit n => exact keepsRest_of_rest (familyParts .move) rfl (rest_onPart h fun u => replacementCommit_rest (by decide) _ _)
  | checkoutMoveCommit r => exact keepsRest_of_rest (familyParts .move) rfl (rest_onPart h fun u => checkoutMoveCommit_rest (by decide) _ _)
  | adapterReadDone n => exact keepsRest_of_rest (familyParts .move) rfl (rest_onPart h fun u => adapterReadDone_rest (by decide) _ _)
  | objectMoveCommit o => exact keepsRest_of_rest _ rfl (rest_onPart h fun u => objectMoved_rest (List.Subset.refl _) _ _)
  | objectFillDone o => exact keepsRest_of_rest (familyParts .move) rfl (rest_onPart h fun u => objectFillDone_rest (by decide) _ _)
  | objectTransferDone o b =>
    exact keepsRest_of_rest (familyParts .move) rfl (rest_onPart h fun u => objectTransferDone_rest (by decide) _ _ _)
  | _ => cases hf

theorem exec_keepsRest_shard {i : Instr} {s t : State} (hf : familyOf i = .shard) (h : exec i s = .next t) : keepsRest i s t := by
  cases i with
  | shardFetch w => exact keepsRest_of_rest (familyParts .shard) rfl (rest_onPart h fun u => shardFetch_rest (by decide) _ _)
  | shardArrival w k d => exact keepsRest_of_rest (familyParts .shard) rfl (rest_onPart h fun u => shardArrival_rest (by decide) _ _ _ _)
  | shardProgramDone k ok d =>
    exact keepsRest_of_rest (familyParts .shard) rfl (rest_onPart h fun u => shardProgramDone_rest (by decide) _ _ _ _)
  | shardReadbackDone k d ok =>
    exact keepsRest_of_rest (familyParts .shard) rfl (rest_onPart h fun u => shardReadbackDone_rest (by decide) _ _ _ _)
  | sweepReadDone k d => exact keepsRest_of_rest (familyParts .shard) rfl (rest_onPart h fun u => sweepReadDone_rest (by decide) _ _ _)
  | shardEraseDone k => exact keepsRest_of_rest (familyParts .shard) rfl (rest_onPart h fun u => shardEraseDone_rest (by decide) _ _)
  | holderTimeout k => exact keepsRest_of_rest (familyParts .shard) rfl (rest_onPart h fun u => holderTimeout_rest (by decide) _ _)
  | _ => cases hf

/-- An error of one of the 4 quarters' or of the 136 tiles' stores. -/
theorem rest_onStore {M : List Component} {quarterStore : Bool} {unit : Nat} {s t : State} {f g : State → State}
    (h : (if quarterStore then onPart unit 4 s f else onPart unit 136 s g) = .next t) (hf : ∀ u, rest M (f u) = rest M u)
    (hg : ∀ u, rest M (g u) = rest M u) : rest M t = rest M s := by
  cases quarterStore with
  | false => exact rest_onPart h hg
  | true => exact rest_onPart h hf

theorem exec_keepsRest_error {i : Instr} {s t : State} (hf : familyOf i = .error) (h : exec i s = .next t) : keepsRest i s t := by
  cases i with
  | arrayParityError p => exact keepsRest_of_rest _ rfl (rest_onPart h fun u => arrayParity_rest (List.Subset.refl _) _ _)
  | accEccError p c => exact keepsRest_of_rest (familyParts .error) rfl (rest_onPart h fun u => accEccError_rest (by decide) _ _ _)
  | hbmCorrectedError n a => exact keepsRest_of_rest (familyParts .error) rfl (rest_onPart h fun u => hbmCorrected_rest (by decide) _ _ _)
  | hbmUncorrectableError n a p =>
    exact keepsRest_of_rest (familyParts .error) rfl (rest_onPart h fun u => hbmUncorrectable_rest (by decide) _ _ _ _)
  | loftCorrectedError n a => exact keepsRest_of_rest (familyParts .error) rfl (rest_onPart h fun u => loftCorrected_rest (by decide) _ _ _)
  | loftUncorrectableError n a p =>
    exact keepsRest_of_rest (familyParts .error) rfl (rest_onPart h fun u => loftUncorrectable_rest (by decide) _ _ _ _)
  | loftChannelLoss n => exact keepsRest_of_rest (familyParts .error) rfl (rest_onPart h fun u => loseLoft_rest (by decide) _ _)
  | storeCorrectedError quarter n =>
    exact keepsRest_of_rest (familyParts .error) rfl (rest_onStore h (quarterCorrected_rest (by decide) _)
      fun u => tileCorrected_rest (by decide) _ _)
  | storeEccError quarter n word reader =>
    exact keepsRest_of_rest (familyParts .error) rfl (rest_onStore h (quarterStoreEcc_rest (by decide) _ _ _)
      (tileStoreEcc_rest (by decide) _ _ _))
  | secureStoreKeyError slot => exact keepsRest_of_rest _ rfl (rest_onPart h fun u => secureStoreKeyError_rest (List.Subset.refl _) _ _)
  | _ => cases hf

/-- Settles O57. -/
theorem frameWork : Obligations.FrameWork := by
  intro i s t hf _ h
  simp only [List.mem_cons, List.not_mem_nil, or_false] at hf
  obtain hf | hf | hf | hf := hf
  · exact exec_keepsRest_pass hf h
  · exact exec_keepsRest_move hf h
  · exact exec_keepsRest_shard hf h
  · exact exec_keepsRest_error hf h

end Sys2Proof.Machine
/-! ### Passes and update jobs as they go on (chapters 5, 6, 7, 10 and 13) -/

namespace Sys2Proof.Machine

open Sys2Proof Sys2Proof.Safety

/-! #### Reading a part that an operation leaves alone -/

section
variable {M : List Component} {s t : State}

theorem unlisted_unlisted {α : Type} [Inhabited α] {M N : List Component} (hMN : M ⊆ N) (c : Component) (a : α) :
    unlisted N c (unlisted M c a) = unlisted N c a := by
  unfold unlisted
  by_cases hN : c ∈ N
  · simp [hN]
  · rw [if_neg hN, if_neg hN, if_neg fun hM => hN (hMN hM)]

/-- States that agree outside a list agree outside a longer one. -/
theorem rest_mono {N : List Component} (h : rest M t = rest M s) (hMN : M ⊆ N) : rest N t = rest N s := by
  have hrest (u : State) : rest N (rest M u) = rest N u := by
    unfold rest restLed
    simp only [unlisted_unlisted hMN]
  rw [← hrest t, h, hrest s]

theorem job_of_rest (h : rest M t = rest M s) (hM : Component.jobs ∉ M) (n : Nat) : t.job n = s.job n :=
  congrArg (tget · n) (same_of_rest (c := .jobs) h hM)

theorem quarter_of_rest (h : rest M t = rest M s) (hM : Component.quarters ∉ M) (q : Nat) : t.quarter q = s.quarter q :=
  congrArg (tget · q) (same_of_rest (c := .quarters) h hM)

theorem handle_of_rest (h : rest M t = rest M s) (hM : Component.handles ∉ M) (n : Nat) : t.handle n = s.handle n :=
  congrArg (tget · n) (same_of_rest (c := .handles) h hM)

theorem obj_of_rest (h : rest M t = rest M s) (hM : Component.objects ∉ M) (o : Nat) : t.obj o = s.obj o :=
  congrArg (tget · o) (same_of_rest (c := .objects) h hM)

theorem room_of_rest (h : rest M t = rest M s) (hM : Component.rooms ∉ M) (r : Nat) : t.room r = s.room r :=
  congrArg (tget · r) (same_of_rest (c := .rooms) h hM)

theorem wingTiles_of_rest (h : rest M t = rest M s) (hw : Component.wings ∉ M) (hM : Component.tileMap ∉ M) (w : Nat) :
    wingTiles t w = wingTiles s w := by
  unfold wingTiles
  rw [wing_of_rest h hw, funext (physTile_of_rest h hM)]

end

/-! #### Update jobs (R110 to R116) -/

theorem updateJobStart_done {n i : Nat} {s : State} (h : passCompletes (.updateJobStart n i) s = true) :
    passDone (.updateJobStart n i) s (updateJobStart n i s) := by
  have heq : updateJobStart n i s = (s.modRoom (s.handle i).room (fun r => { r with st := .updating })).modJob n
      (fun j => { j with started := true }) := if_pos h
  simp only [passCompletes, Bool.and_eq_true] at h
  obtain ⟨⟨⟨⟨⟨hlive, -⟩, -⟩, -⟩, -⟩, -⟩ := h
  have hroom (r : Nat) : (updateJobStart n i s).room r
      = (s.modRoom (s.handle i).room (fun r => { r with st := .updating })).room r := by rw [heq]; rfl
  have hjob : (updateJobStart n i s).job n = { s.job n with started := true } := by rw [heq, State.modJob_self]; rfl
  refine ⟨by rw [heq]; rfl, ?_, ?_, ?_, ?_, fun r hr => ?_, fun m hm => ?_⟩
  · rw [hroom, State.modRoom_self]
  · rw [hjob]
  · rw [hjob]; exact hlive
  · rw [hroom, State.modRoom_self]
  · rw [hroom, State.modRoom_ne _ _ hr]
  · rw [heq, State.modJob_ne _ _ hm]; rfl

/-- A handle with the blocks that a slice wrote (R111). -/
def keptBlocks (seg : Nat) (sp : List Space) (x : Handle) : Handle :=
  { x with blocks := x.blocks.set seg (mload (spaceOf sp 0).mem 0 (x.blocks[seg]?.getD []).length) }

theorem keepSlice_handle (s : State) {j : Job} (seg : Nat) (sp : List Space) {h : Nat} (hh : h ≠ j.handle) :
    (keepSlice s j seg sp).handle h = s.handle h := by
  have hobjects : rest [.objects] (keepSlice s j seg sp) = rest [.objects] (s.modHandle j.handle (keptBlocks seg sp)) := by
    unfold keepSlice
    dsimp only
    (repeat' split) <;> simp <;> rfl
  rw [handle_of_rest hobjects (by decide), State.modHandle_ne _ _ hh]

theorem keepSlice_obj (s : State) {j : Job} (seg : Nat) (sp : List Space) {o : Nat} (hg : o ≠ j.adapter.g)
    (h1 : ∀ m, j.adapter.s1 = some m → o ≠ m.1) (h2 : ∀ m, j.adapter.s2 = some m → o ≠ m.1) :
    (keepSlice s j seg sp).obj o = s.obj o := by
  unfold keepSlice
  cases hs1 : j.adapter.s1 with
  | none =>
    cases hs2 : j.adapter.s2 with
    | none => exact State.modObj_ne _ _ hg
    | some m => exact (State.modObj_ne _ _ (h2 m hs2)).trans (State.modObj_ne _ _ hg)
  | some k =>
    cases hs2 : j.adapter.s2 with
    | none => exact (State.modObj_ne _ _ (h1 k hs1)).trans (State.modObj_ne _ _ hg)
    | some m => exact (State.modObj_ne _ _ (h2 m hs2)).trans ((State.modObj_ne _ _ (h1 k hs1)).trans (State.modObj_ne _ _ hg))

/-- A quarter whose engine has turned to a wing, with what one slice of a job wrote (R111, R114). -/
def sliceKept (q : Nat) (s : State) (j : Job) : State :=
  keepSlice (s.modQuarter q (fun x => { x with pointer := (j.wing + 1) % 16 })).draw j
    (j.nextSlice / slicesPerSeg (s.handle j.handle).image) (sliceOut s j).spaces

/-- The same with the slice's counts by tag (R118). -/
def sliceCounted (q : Nat) (s : State) (j : Job) : State :=
  (sliceOut s j).counts.foldl (fun u c => countTag u j.wing c.1 c.2) (sliceKept q s j)

theorem sliceCounted_rest (q : Nat) (s : State) (j : Job) : rest [.wings] (sliceCounted q s j) = rest [.wings] (sliceKept q s j) :=
  rest_foldl _ _ _ fun u c => countTag_rest (by decide) u j.wing c.1 c.2

theorem sliceKept_rest (q : Nat) (s : State) (j : Job) :
    rest [.quarters, .free, .objects, .handles] (sliceKept q s j) = rest [.quarters, .free, .objects, .handles] s := by
  unfold sliceKept
  rw [keepSlice_rest (by decide), State.draw_rest (by decide), State.modQuarter_rest (by decide)]

theorem sliceKept_quarter (q : Nat) (s : State) (j : Job) :
    (sliceKept q s j).quarter q = { s.quarter q with pointer := (j.wing + 1) % 16 } := by
  unfold sliceKept
  rw [quarter_of_rest (keepSlice_rest (List.Subset.refl _) _ _ _ _) (by decide), quarter_of_rest (State.draw_rest (M := [.free]) (by decide) _) (by decide),
    State.modQuarter_self]

theorem updateSlice_eq {q n : Nat} {j : Job} {s : State} (hj : chooseJob s q = some (n, j)) (hf : (sliceOut s j).fault = none) :
    updateSlice q s = (sliceCounted q s j).modJob n (fun x => { x with nextSlice := j.nextSlice + 1 }) := by
  unfold updateSlice
  rw [hj]
  unfold runJobSlice
  dsimp only
  split
  next hsome => exact absurd (hf.symm.trans hsome) (by simp)
  · rfl

theorem updateSlice_done {q : Nat} {s : State} (h : passCompletes (.updateSlice q) s = true) :
    passDone (.updateSlice q) s (updateSlice q s) := by
  simp only [passCompletes, Bool.and_eq_true] at h
  obtain ⟨-, h⟩ := h
  split at h
  next n j hj =>
    have hcounted := sliceCounted_rest q s j
    have hrest : rest [.jobs, .wings, .quarters, .free, .objects, .handles] (updateSlice q s)
        = rest [.jobs, .wings, .quarters, .free, .objects, .handles] s := by
      rw [updateSlice_eq hj (of_decide_eq_true h), State.modJob_rest (by decide), rest_mono hcounted (by decide),
        rest_mono (sliceKept_rest q s j) (by decide)]
    rw [updateSlice_eq hj (of_decide_eq_true h)] at hrest ⊢
    refine ⟨n, j, hj, ?_, ?_, fun i hi => ?_, fun o hg h1 h2 => ?_, ?_, ?_, ?_⟩
    · rw [State.modJob_self]
    · exact congrArg Quarter.pointer ((quarter_of_rest hcounted (by decide) q).trans (sliceKept_quarter q s j))
    · exact (handle_of_rest hcounted (by decide) i).trans (keepSlice_handle _ _ _ hi)
    · exact (obj_of_rest hcounted (by decide) o).trans (keepSlice_obj _ _ _ hg h1 h2)
    · exact same_of_rest (c := .rooms) hrest (by decide)
    · exact version_of_rest hrest (by decide)
    · exact same_of_rest (c := .tiles) hrest (by decide)
  next => cases h

/-- A room whose update has ended (R115, R159). -/
def leftUpdating (r : Room) : Room := { r with st := if r.checkouts ≠ [] ∨ r.discard then .leaving else .ready }

theorem leftUpdating_ready {r : Room} (hcheck : r.checkouts = []) (hdiscard : r.discard = false) :
    leftUpdating r = { r with st := .ready } := by
  unfold leftUpdating
  rw [if_neg (by simp [hcheck, hdiscard])]

/-- The record of an update's end, with its room and, for a rebias, its adapter's new biases (R133). -/
def updateRecorded (n i : Nat) (s : State) : State :=
  let u := s.bump.modRoom (s.handle i).room leftUpdating
  if (s.job n).rebias then u.modHandle i (fun x => { x with image := rebiased (s.job n) x.image }) else u

theorem updateRecorded_rest (n i : Nat) (s : State) :
    rest [.handles] (updateRecorded n i s) = rest [.handles] (s.bump.modRoom (s.handle i).room leftUpdating) := by
  unfold updateRecorded
  dsimp only
  split
  · exact State.modHandle_rest (by decide) _ _ _
  · rfl

theorem updateCommit_eq {n i : Nat} {s : State} (h : passCompletes (.updateCommit n i) s = true) : updateCommit n i s =
    settleRemoval (wakeCheckouts (endJob (updateRecorded n i s) n false) (s.handle i).room) (s.job n).wing := if_pos h

theorem endJob_jobs (s : State) (n : Nat) (faulted : Bool) : (endJob s n faulted).jobs = terase s.jobs n := by
  unfold endJob
  dsimp only
  split
  · exact same_of_rest (c := .jobs) (runProgress_rest (List.Subset.refl _) _ _ _) (by decide)
  · rfl

/-- What a change of a wing leaves of every wing. -/
theorem modWing_keeps {β : Type} (f : Wing → β) (s : State) (v : Nat) {g : Wing → Wing} (hg : ∀ x, f (g x) = f x) (w : Nat) :
    f ((s.modWing v g).wing w) = f (s.wing w) := by
  by_cases hw : w = v
  · subst hw; rw [State.modWing_self, hg]
  · rw [State.modWing_ne _ _ hw]

theorem endJob_leaving (s : State) (n : Nat) (faulted : Bool) (v : Nat) :
    ((endJob s n faulted).wing v).leaving = (s.wing v).leaving := by
  unfold endJob
  dsimp only
  split
  · exact congrArg Wing.leaving (wing_of_rest (runProgress_rest (List.Subset.refl _) _ _ _) (by decide) v)
  · exact modWing_keeps Wing.leaving { s with jobs := terase s.jobs n } _ (by exact fun _ => rfl) v

/-- A room that no checkout waits for is left as it is, unless its wing is being removed (R159, R240). -/
theorem wakeCheckouts_quiet {s : State} {r : Nat} (hwait : (s.room r).waiting = []) (hleaving : (s.wing (s.room r).wing).leaving = false) :
    wakeCheckouts s r = s := by
  unfold wakeCheckouts
  exact if_neg (by simp [hwait, hleaving])

theorem updateCommit_done {n i : Nat} {s : State} (h : passCompletes (.updateCommit n i) s = true) :
    passDone (.updateCommit n i) s (updateCommit n i s) := by
  rw [updateCommit_eq h]
  constructor
  · rw [job_of_rest (settleRemoval_rest (M := [.tt]) (by decide) _ _) (by decide),
      job_of_rest (wakeCheckouts_rest (M := [.rooms, .handles]) (by decide) _ _) (by decide)]
    unfold State.job tget tgetD
    rw [endJob_jobs, tlook_terase_self]
    rfl
  · intro hcheck hwait hdiscard hleaving
    have hend := endJob_rest (M := [.fns, .jobs, .runs, .keeper, .sessions, .longs, .wings, .objects]) (by decide)
      (updateRecorded n i s) n false
    have hroom : (endJob (updateRecorded n i s) n false).room (s.handle i).room = { s.room (s.handle i).room with st := .ready } := by
      rw [room_of_rest hend (by decide), room_of_rest (updateRecorded_rest n i s) (by decide), State.modRoom_self,
        room_of_rest (State.bump_rest (M := [.keeper, .version]) (by decide) s) (by decide), leftUpdating_ready hcheck hdiscard]
    have hwing : ((endJob (updateRecorded n i s) n false).wing (s.room (s.handle i).room).wing).leaving = false := by
      rw [endJob_leaving, wing_of_rest (updateRecorded_rest n i s) (by decide), wing_of_rest (State.modRoom_rest (M := [.rooms]) (by decide) _ _ _) (by decide),
        wing_of_rest (State.bump_rest (M := [.keeper, .version]) (by decide) s) (by decide)]
      exact hleaving
    rw [wakeCheckouts_quiet (by rw [hroom]; exact hwait) (by rw [hroom]; exact hwing)]
    have hsettle := settleRemoval_rest (M := [.tt]) (by decide) (endJob (updateRecorded n i s) n false) (s.job n).wing
    refine ⟨?_, ?_, fun hup => ?_⟩
    · rw [room_of_rest hsettle (by decide), hroom]
    · rw [room_of_rest hsettle (by decide), hroom]
    · rw [version_of_rest hsettle (by decide), version_of_rest hend (by decide), version_of_rest (updateRecorded_rest n i s) (by decide),
        version_of_rest (State.modRoom_rest (M := [.rooms]) (by decide) _ _ _) (by decide), bump_version, if_pos hup]

/-! #### A context's queue and pass (R346, R350) -/

/-- The queue of a context and its pass. -/
def passPart (x : Ctx) : List PassCmd × Option Pass := (x.queue, x.pass)

theorem modWing_ctx (s : State) (v : Nat) {g : Wing → Wing} (hg : ∀ x, (g x).contexts = x.contexts) (w c : Nat) :
    (s.modWing v g).ctx w c = s.ctx w c :=
  congrArg (tget · c) (modWing_keeps Wing.contexts s v hg w)

theorem modCtx_passPart (s : State) (v d : Nat) {g : Ctx → Ctx} (hg : ∀ x, passPart (g x) = passPart x) (w c : Nat) :
    passPart ((s.modCtx v d g).ctx w c) = passPart (s.ctx w c) := by
  by_cases hw : w = v ∧ c = d
  · obtain ⟨rfl, rfl⟩ := hw; rw [State.modCtx_self, hg]
  · rw [State.modCtx_ne _ _ (by omega)]

theorem endServe_passPart (s : State) (v d n : Nat) (st : Status) (w c : Nat) :
    passPart ((endServe s v d n st).ctx w c) = passPart (s.ctx w c) := modCtx_passPart s v d (by exact fun _ => rfl) w c

theorem countDenied_ctx (s : State) (v n w c : Nat) : (countDenied s v n).ctx w c = s.ctx w c := modWing_ctx s v (by exact fun _ => rfl) w c

theorem askSwitch_ctx (s : State) (v w c : Nat) : (askSwitch s v).ctx w c = s.ctx w c := modWing_ctx s v (by exact fun _ => rfl) w c

theorem noteRunnable_ctx (s : State) (v d w c : Nat) : (noteRunnable s v d).ctx w c = s.ctx w c := by
  unfold noteRunnable
  dsimp only
  split_ifs
  · exact askSwitch_ctx _ _ _ _
  · rfl

theorem noteAhead_ctx (s : State) (v w c : Nat) : (noteAhead s v).ctx w c = s.ctx w c := modWing_ctx s v (by exact fun _ => rfl) w c

theorem startSweep_ctx (s : State) (v b : Nat) (backward : Bool) (w c : Nat) : (startSweep s v b backward).ctx w c = s.ctx w c := by
  unfold startSweep
  dsimp only
  rw [noteAhead_ctx, modWing_ctx _ v (by exact fun _ => rfl), modWing_ctx _ v (by exact fun _ => rfl)]

theorem assumeSweep_ctx (s : State) (v b : Nat) (backward : Bool) (w c : Nat) : (assumeSweep s v b backward).ctx w c = s.ctx w c := by
  unfold assumeSweep
  dsimp only
  split
  · rfl
  · exact startSweep_ctx _ _ _ _ _ _

/-! #### Admission (R161, R252, R349, R350) -/

/-- A pass admitted stands in its context, whose queue is shorter by its head (R349, R350). -/
theorem admitPass_passPart (s : State) (w c : Nat) (p : Pass) :
    passPart ((admitPass s w c p).ctx w c) = ((s.ctx w c).queue.drop 1, some p) := by
  have hrefs : (takeRefs s p.rooms p.objects).ctx w c = s.ctx w c := ctx_of_rest (takeRefs_rest (List.Subset.refl _) s _ _) (by decide) w c
  rw [← hrefs]
  unfold admitPass
  dsimp only
  split
  · rw [ctx_of_rest (startProgram_rest (M := [.tiles]) (by decide) _ _ _ _ _) (by decide), assumeSweep_ctx, State.modCtx_self]; rfl
  · rw [noteRunnable_ctx, assumeSweep_ctx, State.modCtx_self]; rfl

theorem admitTrain_admits {s : State} {w c : Nat} {q : PassCmd} (h : trainAdmits s w q = true) :
    ∃ u p, admitTrain s w c q = admitPass u w c p ∧ rest [.wings, .rooms, .handles] u = rest [.wings, .rooms, .handles] s.bump
      ∧ u.ctx w c = s.ctx w c ∧ p.cmd = q ∧ p.phase = .forward ∧ p.admitted = u.clock.count ∧ p.rows = q.table.rows.filter (rowPasses s q.table)
      ∧ p.denied = q.table.rows.length - p.rows.length := by
  simp only [trainAdmits, Bool.and_eq_true, Bool.not_eq_true', Option.isNone_iff_eq_none] at h
  obtain ⟨⟨hready, hadapters⟩, hresources⟩ := h
  have hload := rest_foldl (M := [.rooms, .handles]) (loadListed w) q.table.adapters s.bump fun s a => loadListed_rest (List.Subset.refl _) w s a
  unfold admitTrain
  rw [hready, hadapters, hresources]
  refine ⟨countDenied (q.table.adapters.foldl (loadListed w) s.bump) w (q.table.rows.length - (q.table.rows.filter (rowPasses s q.table)).length),
    _, rfl, ?_, ?_, rfl, rfl, rfl, rfl, rfl⟩
  · exact (countDenied_rest (by decide) _ _ _).trans (rest_mono hload (by decide))
  · rw [countDenied_ctx, ctx_of_rest hload (by decide), ctx_of_rest (State.bump_rest (M := [.keeper, .version]) (by decide) s) (by decide)]

theorem reloadInto_passPart (s : State) (v i r : Nat) (place : Place) (w c : Nat) :
    passPart ((reloadInto s v i r place).ctx w c) = passPart (s.ctx w c) :=
  congrArg passPart (ctx_of_rest (reloadInto_rest (M := [.rooms, .handles]) (by decide) _ _ _ _ _) (by decide) w c)

/-- A session bound to a room (R161). -/
def boundTo (s : State) (w c n r : Nat) : State :=
  s.modCtx w c (fun x => { x with serves := tmod x.serves n (fun v => { v with room := r, roomGen := (s.room r).gen }) })

theorem boundTo_passPart (s : State) (w c n r : Nat) : passPart ((boundTo s w c n r).ctx w c) = passPart (s.ctx w c) :=
  modCtx_passPart s w c (by exact fun _ => rfl) w c

/-- A session bound, left out or ended changes neither its context's queue nor its pass (R161, R162). -/
theorem bindServe_passPart (s : State) (w c n : Nat) (handles : List Nat) :
    passPart ((bindServe s w c n handles).1.ctx w c) = passPart (s.ctx w c) := by
  unfold bindServe
  dsimp only
  split
  · rfl
  split
  · rfl
  split_ifs
  · exact endServe_passPart _ _ _ _ _ _ _
  · rfl
  · exact boundTo_passPart _ _ _ _ _
  · exact endServe_passPart _ _ _ _ _ _ _
  · split
    · exact boundTo_passPart _ _ _ _ _
    · split
      · exact (boundTo_passPart _ _ _ _ _).trans (reloadInto_passPart _ _ _ _ _ _ _)
      · rfl

theorem takeServe_passPart (w c chunk : Nat) (decode : Bool) (t : Taking) (n : Nat) :
    passPart ((takeServe w c chunk decode t n).st.ctx w c) = passPart (t.st.ctx w c) := by
  have hbind := bindServe_passPart t.st w c n t.handles
  unfold takeServe
  dsimp only
  split
  · rfl
  · split
    all_goals rename_i hb; rw [hb] at hbind; exact hbind

/-- What each session's turn leaves, the taking of rows leaves (R252). -/
theorem takeRows_keeps {β : Type} {f : Taking → β} {s : State} {w c : Nat}
    (hf : ∀ chunk decode t n, f (takeServe w c chunk decode t n) = f t) : f (takeRows s w c) = f
      { st := s, left := (s.ctx w c).rowTarget, takes := [], rooms := [], handles := [], short := false, lastDecode := none, cut := false } := by
  have hfold (chunk : Nat) (decode : Bool) (l : List Nat) (t : Taking) : f (l.foldl (takeServe w c chunk decode) t) = f t := by
    induction l generalizing t with
    | nil => rfl
    | cons n l ih => exact (ih _).trans (hf _ _ _ _)
  exact (hfold _ _ _ _).trans (hfold _ _ _ _)

theorem takeRows_passPart (s : State) (w c : Nat) : passPart ((takeRows s w c).st.ctx w c) = passPart (s.ctx w c) :=
  takeRows_keeps (f := fun t => passPart (t.st.ctx w c)) fun _ _ _ _ => takeServe_passPart _ _ _ _ _ _

/-- The rows of the sessions taken. -/
def rowsTaken (l : List ServeTake) : Nat := (l.map (·.rows)).sum

theorem takeServe_rows (w c chunk : Nat) (decode : Bool) (t : Taking) (n : Nat) :
    rowsTaken (takeServe w c chunk decode t n).takes + (takeServe w c chunk decode t n).left = rowsTaken t.takes + t.left := by
  unfold takeServe
  dsimp only
  split
  · rfl
  next hleft =>
    split
    · have hrows : (if decode then 1 else Nat.min (tget (t.st.ctx w c).serves n).promptLeft (Nat.min chunk t.left)) ≤ t.left := by
        split
        · omega
        · exact (Nat.min_le_right _ _).trans (Nat.min_le_right _ _)
      simp only [rowsTaken, List.map_append, List.sum_append, List.map_cons, List.map_nil, List.sum_singleton]
      omega
    · rfl
    · rfl

/-- The rows taken are no more than the context's target (R252). -/
theorem takeRows_rows (s : State) (w c : Nat) : rowsTaken (takeRows s w c).takes ≤ (s.ctx w c).rowTarget := by
  have h := takeRows_keeps (f := fun t => rowsTaken t.takes + t.left) (s := s) fun _ _ _ _ => takeServe_rows w c _ _ _ _
  have h : rowsTaken (takeRows s w c).takes + (takeRows s w c).left = 0 + (s.ctx w c).rowTarget := h
  omega

theorem denyTake_passPart (v d : Nat) (s : State) (k : ServeTake) (w c : Nat) :
    passPart ((denyTake v d s k).ctx w c) = passPart (s.ctx w c) := by
  unfold denyTake
  split
  · rfl
  · rw [countDenied_ctx, endServe_passPart]

theorem length_takeRowsOf (s : State) (w c : Nat) (handles : List Nat) (l : List ServeTake) :
    (l.flatMap (takeRowsOf s w c handles)).length = rowsTaken l := by
  unfold rowsTaken
  rw [List.length_flatMap]
  congr 1
  exact List.map_congr_left fun k _ => List.length_replicate

theorem admitServe_admits {s : State} {w c : Nat} {q : PassCmd} (h : serveAdmits s w c q = true) :
    ∃ u p, admitServe s w c q = admitPass u w c p
      ∧ rest [.fns, .keeper, .wings, .rooms, .handles] u = rest [.fns, .keeper, .wings, .rooms, .handles] (takeRows s w c).st.bump
      ∧ passPart (u.ctx w c) = passPart (s.ctx w c) ∧ p.cmd = q ∧ p.phase = .forward ∧ p.admitted = u.clock.count
      ∧ p.rows.length ≤ (s.ctx w c).rowTarget := by
  simp only [serveAdmits, Bool.and_eq_true, decide_eq_true_eq] at h
  obtain ⟨⟨hcount, hlive⟩, htakes⟩ := h
  have hlength (u : State) (f : ServeTake → Bool) :
      (((takeRows s w c).takes.filter f).flatMap (takeRowsOf u w c (takeRows s w c).handles)).length ≤ (s.ctx w c).rowTarget := by
    rw [length_takeRowsOf]
    exact ((List.filter_sublist.map _).sum_le_sum (fun _ _ => Nat.zero_le _)).trans (takeRows_rows s w c)
  unfold admitServe
  rw [if_neg (by simp [hcount])]
  dsimp only
  rw [if_neg hlive, if_neg htakes]
  refine ⟨_, _, rfl, ?_, ?_, rfl, rfl, rfl, hlength _ _⟩
  · refine (State.modCtx_rest (by decide) _ _ _ _).trans ((rest_foldl _ _ _ fun u k => denyTake_rest (by decide) w c u k).trans ?_)
    split
    · exact notify_rest (by decide) _ _ _ _
    · rfl
  · have hdeny (u : State) := foldl_keeps (fun u => passPart (State.ctx u w c)) (g := denyTake w c) (fun u k => denyTake_passPart w c u k w c)
      (takeRows s w c).takes u
    have hbump : passPart ((takeRows s w c).st.bump.ctx w c) = passPart (s.ctx w c) :=
      (congrArg passPart (ctx_of_rest (State.bump_rest (M := [.keeper, .version]) (by decide) _) (by decide) w c)).trans (takeRows_passPart s w c)
    refine (modCtx_passPart _ w c (by exact fun _ => rfl) w c).trans ((hdeny _).trans ?_)
    split
    · exact (congrArg passPart (ctx_of_rest (notify_rest (M := [.fns, .keeper]) (by decide) _ _ _ _) (by decide) w c)).trans hbump
    · exact hbump

theorem passAdmit_done {w c : Nat} {s : State} (h : passCompletes (.passAdmit w c) s = true) :
    passDone (.passAdmit w c) s (passAdmit w c s) := by
  simp only [passCompletes, Bool.and_eq_true, Option.isNone_iff_eq_none] at h
  obtain ⟨⟨⟨⟨⟨⟨-, -⟩, hlive⟩, hnone⟩, hadmits⟩, hup⟩, h⟩ := h
  have hversion : s.bump.led.version = s.led.version + 1 := by rw [bump_version, if_pos hup]
  have hclock : s.bump.clock = s.clock := clock_of_rest (State.bump_rest (M := [.keeper, .version]) (by decide) s) (by decide)
  unfold passAdmit
  dsimp only
  split at h
  next q l hq =>
    have hguard : ¬((!(s.ctx w c).live || (s.ctx w c).pass.isSome || !wingAdmits (s.wing w) || !s.keeper.up) = true) := by
      simp [hlive, hnone, hadmits, hup]
    rw [hq]
    dsimp only
    rw [if_neg hguard]
    by_cases htrain : q.train = true
    · rw [if_pos htrain] at h ⊢
      obtain ⟨u, p, heq, hrest, hctx, hcmd, hphase, hat, hrows, hdenied⟩ := admitTrain_admits (c := c) h
      have hpart := admitPass_passPart u w c p
      rw [hctx, hq] at hpart
      have hadmit := admitPass_rest (M := [.tiles, .wings, .objects, .rooms]) (List.Subset.refl _) u w c p
      rw [heq]
      refine ⟨q, l, p, hq, congrArg Prod.fst hpart, congrArg Prod.snd hpart, hcmd, hphase, ?_, fun _ => ⟨?_, ?_, ?_⟩, fun hserve => ?_⟩
      · rw [hat, clock_of_rest hrest (by decide), hclock]
      · intro x hx
        rw [hrows] at hx
        exact (List.mem_filter.mp hx).2
      · have hle := List.length_filter_le (rowPasses s q.table) q.table.rows
        rw [hdenied, hrows]
        omega
      · rw [version_of_rest hadmit (by decide), version_of_rest hrest (by decide), hversion]
      · cases htrain.symm.trans hserve
    · rw [if_neg htrain] at h ⊢
      obtain ⟨u, p, heq, hrest, hctx, hcmd, hphase, hat, hrows⟩ := admitServe_admits h
      have hpart := admitPass_passPart u w c p
      have hqueue : (u.ctx w c).queue = q :: l := (congrArg Prod.fst hctx).trans hq
      rw [hqueue] at hpart
      have htake := takeRows_rest (M := [.wings, .rooms, .handles]) (List.Subset.refl _) s w c
      have hup' : (takeRows s w c).st.keeper.up = true := by rw [keeper_of_rest htake (by decide)]; exact hup
      have hbump := State.bump_rest (M := [.keeper, .version]) (List.Subset.refl _) (takeRows s w c).st
      have hadmit := admitPass_rest (M := [.tiles, .wings, .objects, .rooms]) (List.Subset.refl _) u w c p
      rw [heq]
      refine ⟨q, l, p, hq, congrArg Prod.fst hpart, congrArg Prod.snd hpart, hcmd, hphase, ?_, fun hq' => absurd hq' htrain,
        fun _ => ⟨hrows, ?_⟩⟩
      · rw [hat, clock_of_rest hrest (by decide), clock_of_rest hbump (by decide), clock_of_rest htake (by decide)]
      · rw [version_of_rest hadmit (by decide), version_of_rest hrest (by decide), bump_version, if_pos hup',
          version_of_rest htake (by decide)]
  next => cases h

/-! #### Programs started (R87, R157) -/

/-- A tile runs a program of a context from its start. -/
def RunsFromStart (w c p : Nat) (s : State) : Prop :=
  (s.tile p).owner = some (w, c) ∧ (s.tile p).engine.running = true ∧ (s.tile p).engine.pc = 0

theorem startProgram_runs {s : State} {w c p : Nat} (id step : Nat) (hp : p ∈ wingTiles s w) :
    RunsFromStart w c p (startProgram s w c id step) := by
  unfold startProgram
  refine foldl_reaches (P := RunsFromStart w c) (fun s p => ?_) (fun s p q h => ?_) hp s
  · unfold RunsFromStart; rw [State.modTile_self]; exact ⟨rfl, rfl, rfl⟩
  · by_cases hpq : q = p
    · subst hpq; unfold RunsFromStart; rw [State.modTile_self]; exact ⟨rfl, rfl, rfl⟩
    · unfold RunsFromStart; rw [State.modTile_ne _ _ hpq]; exact h

theorem modWing_wingTiles (s : State) (v : Nat) {g : Wing → Wing} (hg : ∀ x, (g x).tiles = x.tiles) (w : Nat) :
    wingTiles (s.modWing v g) w = wingTiles s w := by
  unfold wingTiles
  rw [modWing_keeps Wing.tiles s v hg w]
  rfl

theorem modPass_wingTiles (s : State) (v d : Nat) (g : Pass → Pass) (w : Nat) : wingTiles (s.modPass v d g) w = wingTiles s w :=
  modWing_wingTiles s v (by exact fun _ => rfl) w

theorem assumeSweep_wingTiles (s : State) (v b : Nat) (backward : Bool) (w : Nat) :
    wingTiles (assumeSweep s v b backward) w = wingTiles s w := by
  unfold assumeSweep
  dsimp only
  split
  · rfl
  · unfold startSweep noteAhead
    dsimp only
    rw [modWing_wingTiles _ v (by exact fun _ => rfl), modWing_wingTiles _ v (by exact fun _ => rfl),
      modWing_wingTiles _ v (by exact fun _ => rfl)]

/-! #### The end of a forward pass (R125 to R130) -/

theorem up_of_passAtWork {s : State} {w c : Nat} (h : passAtWork s w c = true) : s.keeper.up = true := Bool.and_elim_right h

theorem modPass_pass (s : State) (w c : Nat) (g : Pass → Pass) : ((s.modPass w c g).ctx w c).pass = (s.ctx w c).pass.map g := by
  unfold State.modPass
  rw [State.modCtx_self]

/-- A loss checked leaves the wing's tiles, and a pass where there was one. -/
theorem checkLoss_keeps (w c : Nat) (q : PassCmd) (s : State) (k : Nat × Nat × Detector) :
    (((checkLoss w c q s k).ctx w c).pass.isSome, wingTiles (checkLoss w c q s k) w)
      = ((s.ctx w c).pass.isSome, wingTiles s w) := by
  unfold checkLoss
  dsimp only
  split
  · rfl
  · rw [modPass_pass, modPass_wingTiles, Option.isSome_map, ctx_of_rest (notify_rest (M := [.fns, .keeper]) (by decide) _ _ _ _) (by decide),
      wingTiles_of_rest (notify_rest (M := [.fns, .keeper]) (by decide) _ _ _ _) (by decide) (by decide)]
    rfl

theorem checkLosses_keeps (w c : Nat) (q : PassCmd) (s : State) (l : List (Nat × Nat × Detector)) :
    ((l.foldl (checkLoss w c q) s).ctx w c).pass.isSome = (s.ctx w c).pass.isSome
      ∧ wingTiles (l.foldl (checkLoss w c q) s) w = wingTiles s w :=
  Prod.mk.inj (foldl_keeps (fun s => ((s.ctx w c).pass.isSome, wingTiles s w)) (checkLoss_keeps w c q) l s)

theorem forwardPassEnd_done {w c : Nat} {s : State} (h : passCompletes (.forwardPassEnd w c) s = true) :
    passDone (.forwardPassEnd w c) s (forwardPassEnd w c s) := by
  simp only [passCompletes, Bool.and_eq_true] at h
  obtain ⟨⟨⟨-, hwork⟩, hended⟩, h⟩ := h
  split at h
  next p hp =>
    have hcheck : (passAtWork s w c && p.cmd.train && decide (p.phase = .forward) && programsEnded s w c && roomsArrived s p) = true := by
      simp_all
    unfold forwardPassEnd
    rw [hp]
    dsimp only
    rw [if_pos hcheck]
    have hup := up_of_passAtWork hwork
    have hbump := State.bump_rest (M := [.keeper, .version]) (List.Subset.refl _) s
    have hlosses := checkLosses_keeps w c p.cmd s.bump ((List.range p.detectors.length).zip p.detectors)
    have hrest := rest_foldl (M := [.fns, .keeper, .wings, .handles]) (checkLoss w c p.cmd) ((List.range p.detectors.length).zip p.detectors)
      s.bump fun s k => checkLoss_rest (List.Subset.refl _) w c p.cmd s k
    generalize ((List.range p.detectors.length).zip p.detectors).foldl (checkLoss w c p.cmd) s.bump = u at hlosses hrest
    obtain ⟨hpass, htiles⟩ := hlosses
    rw [ctx_of_rest hbump (by decide), hp] at hpass
    obtain ⟨p', hp'⟩ := Option.isSome_iff_exists.mp hpass
    refine ⟨⟨{ p' with phase := .backward }, ?_, rfl⟩, ?_, fun q hq => startProgram_runs _ _ ?_⟩
    · rw [ctx_of_rest (startProgram_rest (M := [.tiles]) (by decide) _ _ _ _ _) (by decide), assumeSweep_ctx, modPass_pass]
      exact congrArg (Option.map _) hp'
    · rw [version_of_rest (startProgram_rest (M := [.tiles]) (by decide) _ _ _ _ _) (by decide),
        version_of_rest (assumeSweep_rest (M := [.wings]) (by decide) _ _ _ _) (by decide),
        version_of_rest (State.modPass_rest (M := [.wings]) (by decide) _ _ _ _) (by decide)]
      exact (version_of_rest hrest (by decide)).trans ((bump_version s).trans (if_pos hup))
    · rw [assumeSweep_wingTiles, modPass_wingTiles]
      rw [← wingTiles_of_rest hbump (by decide) (by decide), ← htiles] at hq
      exact hq
  next => cases h

/-! #### Jobs of a step (R115, R116) -/

theorem tget_cons {α : Type} [Inhabited α] (p : Nat × α) (t : Tbl α) (i : Nat) : tget (p :: t) i = if p.1 = i then p.2 else tget t i := by
  obtain ⟨j, x⟩ := p
  change (if j = i then some x else tlook t i).getD default = if j = i then x else tget t i
  split <;> rfl

/-- The lowest free number of a table in order is at or above the start, and nothing in use stands there. -/
theorem freeNumber_unused {α : Type} [Inhabited α] {used : α → Bool} (hd : used default = false) {t : Tbl α} {b : Nat}
    (ht : trising b t = true) : b ≤ freeNumber used t b ∧ used (tget t (freeNumber used t b)) = false := by
  induction t generalizing b with
  | nil => exact ⟨le_refl _, hd⟩
  | cons p t ih =>
    obtain ⟨j, x⟩ := p
    simp only [trising, Bool.and_eq_true, decide_eq_true_eq] at ht
    obtain ⟨hbj, ht⟩ := ht
    unfold freeNumber
    split_ifs with hlt hused
    · have hnone : tlook ((j, x) :: t) b = none := tlook_of_trising (b := b + 1) (by simp [trising, ht]; omega) (Nat.lt_succ_self b)
      refine ⟨le_refl _, ?_⟩
      unfold tget tgetD
      rw [hnone]
      exact hd
    · obtain ⟨hle, hfree⟩ := ih ht
      exact ⟨by omega, by rw [tget_cons, if_neg (by dsimp only; omega)]; exact hfree⟩
    · exact ⟨hbj, by rw [tget_cons, if_pos rfl]; simpa using hused⟩

/-- A job of a context's step for an adapter. -/
def HasJob (w c h : Nat) (s : State) : Prop :=
  ∃ n, (s.job n).live = true ∧ (s.job n).handle = h ∧ (s.job n).wing = w ∧ (s.job n).context = c

theorem hasJob_addJob_self (s : State) (j : Job) : HasJob j.wing j.context j.handle (addJob s j) := by
  refine ⟨freeNumber (fun x : Job => x.live) s.jobs 0, ?_⟩
  unfold addJob State.job
  rw [tget_tput_self]
  exact ⟨rfl, rfl, rfl, rfl⟩

theorem hasJob_addJob {w c h : Nat} {s : State} (hwf : twf default s.jobs = true) (j : Job) (hj : HasJob w c h s) :
    HasJob w c h (addJob s j) := by
  obtain ⟨n, hlive, hrest⟩ := hj
  obtain ⟨-, hfree⟩ := freeNumber_unused (used := fun x : Job => x.live) rfl (Bool.and_elim_left hwf)
  have hkept : (addJob s j).job n = s.job n := by
    unfold addJob State.job
    dsimp only
    refine tget_tput_ne _ _ ?_
    rintro rfl
    cases hlive.symm.trans hfree
  exact ⟨n, by rw [hkept]; exact ⟨hlive, hrest⟩⟩

theorem addJob_wf {s : State} (hwf : twf default s.jobs = true) (j : Job) : twf default (addJob s j).jobs = true := by
  unfold addJob
  dsimp only
  exact twf_tput _ _ hwf

/-- Jobs added one after the other: every adapter gone through has one, and no job of before is lost. -/
theorem hasJob_foldl {w c : Nat} {q : PassCmd} {id : Nat} {l : List PassAdapter} {s : State} (hwf : twf default s.jobs = true) {h : Nat}
    (hh : (∃ a ∈ l, a.handle = h) ∨ HasJob w c h s) : HasJob w c h (l.foldl (fun s a => addJob s (stepJob s w c q id a)) s) := by
  induction l generalizing s with
  | nil => exact hh.resolve_left (by simp)
  | cons a l ih =>
    refine ih (addJob_wf hwf _) ?_
    rcases hh with ⟨b, hb, rfl⟩ | hh
    · rcases List.mem_cons.mp hb with rfl | hb
      · exact .inr (hasJob_addJob_self s (stepJob s w c q id b))
      · exact .inl ⟨b, hb, rfl⟩
    · exact .inr (hasJob_addJob hwf _ hh)

/-! #### The end of a backward pass (R116, R124) -/

theorem checkLimits_state (s : State) (w step : Nat) : ∃ u held, checkLimits s w step = (u, held) ∧ rest [.fns, .keeper] u = rest [.fns, .keeper] s :=
  ⟨_, _, rfl, checkLimits_rest (List.Subset.refl _) s w step⟩

/-- A training pass whose backward pass has ended, held back where a watch limit holds its step (R124). -/
def updatingPass (p : Pass) (held : Bool) : Pass :=
  { p with phase := .updating, holdStep := held, withheld := if held then p.cmd.table.adapters.map (·.handle) else p.withheld }

theorem updatingPass_withheld {p : Pass} {held : Bool} (h : (updatingPass p held).holdStep = true) {a : PassAdapter}
    (ha : a ∈ p.cmd.table.adapters) : a.handle ∈ (updatingPass p held).withheld := by
  have hheld : held = true := h
  subst hheld
  exact List.mem_map_of_mem ha

theorem backwardPassEnd_done {w c : Nat} {s : State} (h : passCompletes (.backwardPassEnd w c) s = true) :
    passDone (.backwardPassEnd w c) s (backwardPassEnd w c s) := by
  simp only [passCompletes, Bool.and_eq_true] at h
  obtain ⟨⟨⟨-, hwork⟩, hended⟩, h⟩ := h
  split at h
  next p hp =>
    have hcheck : (passAtWork s w c && p.cmd.train && decide (p.phase = .backward) && programsEnded s w c
        && p.cmd.table.adapters.all (fun a => p.withheld.contains a.handle || p.faulted.contains a.handle || decide ((s.obj a.g).st = .home))) = true := by
      simp_all
    obtain ⟨u, held, hlimits, hu⟩ := checkLimits_state s w p.cmd.step
    unfold backwardPassEnd
    rw [hp]
    dsimp only
    rw [if_pos hcheck, hlimits]
    dsimp only
    have hpass (g : Pass → Pass) : ((u.modPass w c g).ctx w c).pass = some (g p) := by
      rw [modPass_pass, ctx_of_rest hu (by decide), hp]; rfl
    split
    next hnone =>
      have hpoke := pokeGroups_rest (M := [.tickets, .ports, .groups]) (List.Subset.refl _) (u.modPass w c (fun _ => updatingPass p held)) w c
      refine ⟨updatingPass p held, ?_, rfl, fun id hid => ?_, fun hh a ha => ?_⟩
      · exact (congrArg Ctx.pass (ctx_of_rest hpoke (by decide) w c)).trans (hpass _)
      · cases hnone.symm.trans hid
      · exact updatingPass_withheld hh ha
    next id hid =>
      have hpoke := pokeGroups_rest (M := [.tickets, .ports, .groups]) (List.Subset.refl _) ((toUpdate (updatingPass p held)).foldl
        (fun s a => addJob s (stepJob s w c p.cmd id a)) (u.modPass w c (fun _ => updatingPass p held))) w c
      have hadded := rest_foldl (M := [.jobs]) (fun s a => addJob s (stepJob s w c p.cmd id a)) (toUpdate (updatingPass p held))
        (u.modPass w c (fun _ => updatingPass p held)) fun s a => addJob_rest (by decide) s _
      refine ⟨updatingPass p held, ?_, rfl, fun id' hid' hwf a ha => ?_, fun hh a ha => updatingPass_withheld hh ha⟩
      · exact (congrArg Ctx.pass ((ctx_of_rest hpoke (by decide) w c).trans (ctx_of_rest hadded (by decide) w c))).trans (hpass _)
      · have hjobs : (u.modPass w c (fun _ => updatingPass p held)).jobs = s.jobs := same_of_rest (c := .jobs) hu (by decide)
        obtain ⟨n, hjob⟩ := hasJob_foldl (w := w) (c := c) (q := p.cmd) (id := id) (by rw [hjobs]; exact hwf) (.inl ⟨a, ha, rfl⟩)
        exact ⟨n, (job_of_rest hpoke (by decide) n).symm ▸ hjob⟩
  next => cases h

/-! #### The commit of a step (R121, R124, R157) -/

theorem settleContext_passPart (s : State) (v d w c : Nat) : passPart ((settleContext s v d).ctx w c) = passPart (s.ctx w c) := by
  have hidle (g : Ctx → Ctx) (hg : ∀ x, passPart (g x) = passPart x) := modCtx_passPart s v d hg w c
  unfold settleContext
  dsimp only
  split_ifs
  · rw [askSwitch_ctx]
    exact hidle _ (by exact fun _ => rfl)
  · exact hidle _ (by exact fun _ => rfl)
  · rfl

theorem modCtx_watch (s : State) (v d : Nat) (g : Ctx → Ctx) (w : Nat) : ((s.modCtx v d g).wing w).watch = (s.wing w).watch :=
  modWing_keeps Wing.watch s v (by exact fun _ => rfl) w

theorem askSwitch_watch (s : State) (v w : Nat) : ((askSwitch s v).wing w).watch = (s.wing w).watch :=
  modWing_keeps Wing.watch s v (by exact fun _ => rfl) w

theorem settleContext_watch (s : State) (v d w : Nat) : ((settleContext s v d).wing w).watch = (s.wing w).watch := by
  unfold settleContext
  dsimp only
  split_ifs
  · rw [askSwitch_watch, modCtx_watch]
  · rw [modCtx_watch]
  · rfl

/-- A step's record: the watch banks closed, and the adapters whose stop acts held (R121, R128). -/
def stepRecorded (w : Nat) (p : Pass) (s : State) : State :=
  p.stops.foldl (fun s i => s.modHandle i (fun x => { x with det := { x.det with held := true } })) (mapWatch s.bump w Watch.commit)

/-- The same with what the pass held released, and its context without it (R157). -/
def stepReleased (w c : Nat) (p : Pass) (s : State) : State :=
  (releaseRefs (releaseTable (chargeRows (stepRecorded w p s) p.rows) p.cmd) p).modCtx w c (fun x => { x with pass := none })

theorem stepCommit_eq {w c : Nat} {s : State} {p : Pass} (hp : (s.ctx w c).pass = some p)
    (h : passCompletes (.stepCommit w c) s = true) :
    ∃ b, stepCommit w c s = settleContext (finishIn (stepReleased w c p s) p.cmd.ref .ok b) w c := by
  simp only [passCompletes, hp, Bool.and_eq_true] at h
  obtain ⟨⟨⟨-, hwork⟩, hjobs⟩, htrain, hphase⟩ := h
  unfold stepCommit
  rw [hp]
  dsimp only
  rw [if_pos (by simp [hwork, hjobs, htrain, hphase])]
  exact ⟨_, rfl⟩

theorem stepRecorded_rest (w : Nat) (p : Pass) (s : State) : rest [.handles, .wings] (stepRecorded w p s) = rest [.handles, .wings] s.bump := by
  unfold stepRecorded
  rw [rest_foldl _ _ _ fun s i => State.modHandle_rest (by decide) s i _, mapWatch_rest (by decide)]

theorem stepReleased_rest (w c : Nat) (p : Pass) (s : State) :
    rest [.fns, .keeper, .sessions, .longs, .wings, .objects, .rooms, .tally] (stepReleased w c p s)
      = rest [.fns, .keeper, .sessions, .longs, .wings, .objects, .rooms, .tally] (stepRecorded w p s) := by
  unfold stepReleased
  rw [State.modCtx_rest (by decide), releaseRefs_rest (by decide), releaseTable_rest (by decide), chargeRows_rest (by decide)]

/-- An adapter whose detector holds it (R128). -/
def Held (i : Nat) (s : State) : Prop := (s.handle i).det.held = true

theorem stepRecorded_held {w : Nat} {p : Pass} {s : State} {i : Nat} (hi : i ∈ p.stops) : Held i (stepRecorded w p s) := by
  unfold stepRecorded
  refine foldl_reaches (P := Held) (fun s i => ?_) (fun s i j h => ?_) hi _
  · unfold Held; rw [State.modHandle_self]
  · by_cases hij : j = i
    · subst hij; unfold Held; rw [State.modHandle_self]
    · unfold Held; rw [State.modHandle_ne _ _ hij]; exact h

/-- The watch banks of a wing closed (R121). -/
theorem stepReleased_watch {w : Nat} (c : Nat) (p : Pass) {s : State} (hwf : twf default (s.wing w).watch = true) (k : Nat) :
    tget ((stepReleased w c p s).wing w).watch k = Watch.commit (tget (s.wing w).watch k) := by
  have hheld := rest_foldl (M := [.handles]) (fun s i => State.modHandle s i (fun x => { x with det := { x.det with held := true } }))
    p.stops (mapWatch s.bump w Watch.commit) fun s i => State.modHandle_rest (by decide) s i _
  have hbump : (s.bump.wing w) = s.wing w := wing_of_rest (State.bump_rest (M := [.keeper, .version]) (by decide) s) (by decide) w
  have hwatch : ((stepReleased w c p s).wing w).watch = ((mapWatch s.bump w Watch.commit).wing w).watch := by
    unfold stepReleased
    rw [modCtx_watch, wing_of_rest (releaseRefs_rest (List.Subset.refl _) _ _) (by decide),
      wing_of_rest (releaseTable_rest (M := [.objects]) (by decide) _ _) (by decide),
      wing_of_rest (chargeRows_rest (M := [.tally]) (by decide) _ _) (by decide)]
    exact congrArg Wing.watch (wing_of_rest hheld (by decide) w)
  rw [hwatch]
  unfold mapWatch
  rw [State.modWing_self, hbump]
  exact tget_foldl_tput_reads (read := id) (read' := Watch.commit) hwf (fun _ => rfl) rfl k

theorem stepCommit_done {w c : Nat} {s : State} (h : passCompletes (.stepCommit w c) s = true) :
    passDone (.stepCommit w c) s (stepCommit w c s) := by
  have hpass : ∃ p, (s.ctx w c).pass = some p := by
    simp only [passCompletes, Bool.and_eq_true] at h
    split at h
    next p hp => exact ⟨p, hp⟩
    next => simp at h
  obtain ⟨p, hp⟩ := hpass
  have hup : s.keeper.up = true := by
    simp only [passCompletes, Bool.and_eq_true] at h
    obtain ⟨⟨⟨-, hwork⟩, -⟩, -⟩ := h
    exact up_of_passAtWork hwork
  obtain ⟨b, heq⟩ := stepCommit_eq hp h
  have hfinish := finishIn_rest (M := [.fns, .keeper, .sessions, .longs]) (List.Subset.refl _) (stepReleased w c p s) p.cmd.ref .ok b
  have hsettle := settleContext_rest (M := [.wings]) (by decide) (finishIn (stepReleased w c p s) p.cmd.ref .ok b) w c
  rw [heq]
  refine ⟨?_, ?_, fun p' hp' => ?_, fun hwf k => ?_⟩
  · have hnone : ((stepReleased w c p s).ctx w c).pass = none := by unfold stepReleased; rw [State.modCtx_self]
    refine (congrArg Prod.snd (settleContext_passPart _ w c w c)).trans ?_
    exact (congrArg Ctx.pass (ctx_of_rest hfinish (by decide) w c)).trans hnone
  · rw [version_of_rest hsettle (by decide), version_of_rest hfinish (by decide), version_of_rest (stepReleased_rest w c p s) (by decide),
      version_of_rest (stepRecorded_rest w p s) (by decide), bump_version, if_pos hup]
  · cases hp.symm.trans hp'
    refine ⟨?_, fun i hi => ?_⟩
    · rw [longs_of_rest hsettle (by decide), finishIn_longs]
      simp
    · rw [handle_of_rest hsettle (by decide), handle_of_rest hfinish (by decide), handle_of_rest (stepReleased_rest w c p s) (by decide)]
      exact stepRecorded_held hi
  · rw [settleContext_watch, wing_of_rest hfinish (by decide)]
    exact stepReleased_watch c p hwf k

/-! #### The end of a serving pass (R252, R350) -/

theorem settleTake_passPart (v d : Nat) (s : State) (k : ServeTake) (w c : Nat) :
    passPart ((settleTake v d s k).ctx w c) = passPart (s.ctx w c) := by
  have hcharge (n : Nat) (x : Counts) : (charge s n x).ctx w c = s.ctx w c := ctx_of_rest (charge_rest (M := [.tally]) (by decide) s n x) (by decide) w c
  unfold settleTake
  dsimp only
  split
  · rfl
  · refine (modCtx_passPart _ v d (by exact fun _ => rfl) w c).trans ?_
    split
    · rw [hcharge]
    · rfl

/-- A run of serving passes after one more of them (R350). -/
def runAfter (w c : Nat) (s : State) (p : Pass) : PassCmd :=
  { p.cmd with passesRun := p.cmd.passesRun + 1, passesLeft := p.cmd.passesLeft - 1, tokens := p.cmd.tokens + passTokens s w c p
               lastEnd := s.clock.count }

/-- A serving pass's record, with what it held released, and its context without it (R157, R350). -/
def serveReleased (w c : Nat) (s : State) (p : Pass) : State :=
  (releaseRefs (p.takes.foldl (settleTake w c) (chargeRows s.bump p.rows)) p).modCtx w c (fun x =>
    { x with pass := none, queue := if (runAfter w c s p).passesLeft = 0 then x.queue else runAfter w c s p :: x.queue })

theorem commitServe_eq (w c : Nat) (s : State) (p : Pass) : commitServe w c s p = settleContext
    (if (runAfter w c s p).passesLeft = 0 then finishIn (serveReleased w c s p) p.cmd.ref .ok (runPayload (runAfter w c s p))
      else serveReleased w c s p) w c := rfl

theorem serveReleased_rest (w c : Nat) (s : State) (p : Pass) :
    rest [.fns, .keeper, .sessions, .longs, .wings, .objects, .rooms, .tally] (serveReleased w c s p)
      = rest [.fns, .keeper, .sessions, .longs, .wings, .objects, .rooms, .tally] s.bump := by
  unfold serveReleased
  rw [State.modCtx_rest (by decide), releaseRefs_rest (by decide),
    rest_foldl _ _ _ fun s k => settleTake_rest (by decide) w c s k, chargeRows_rest (by decide)]

theorem serveReleased_passPart (w c : Nat) (s : State) (p : Pass) : passPart ((serveReleased w c s p).ctx w c) =
    (if (runAfter w c s p).passesLeft = 0 then (s.ctx w c).queue else runAfter w c s p :: (s.ctx w c).queue, none) := by
  have hctx : passPart ((releaseRefs (p.takes.foldl (settleTake w c) (chargeRows s.bump p.rows)) p).ctx w c) = passPart (s.ctx w c) := by
    rw [ctx_of_rest (releaseRefs_rest (List.Subset.refl _) _ _) (by decide),
      foldl_keeps (fun u => passPart (State.ctx u w c)) (fun u k => settleTake_passPart w c u k w c),
      ctx_of_rest (chargeRows_rest (M := [.tally]) (by decide) _ _) (by decide),
      ctx_of_rest (State.bump_rest (M := [.keeper, .version]) (by decide) s) (by decide)]
  have hqueue := congrArg Prod.fst hctx
  unfold serveReleased
  rw [State.modCtx_self]
  unfold passPart at hqueue ⊢
  dsimp only at hqueue ⊢
  rw [hqueue]

/-- A commit of a serving pass leaves no pass in its context, and at its queue's head what is left of the run (R350). -/
theorem commitServe_passPart (w c : Nat) (s : State) (p : Pass) : passPart ((commitServe w c s p).ctx w c) =
    (if (runAfter w c s p).passesLeft = 0 then (s.ctx w c).queue else runAfter w c s p :: (s.ctx w c).queue, none) := by
  rw [commitServe_eq, settleContext_passPart, ← serveReleased_passPart]
  split
  · rw [ctx_of_rest (finishIn_rest (List.Subset.refl _) _ _ _ _) (by decide)]
  · rfl

theorem commitServe_version (w c : Nat) {s : State} (hup : s.keeper.up = true) (p : Pass) :
    (commitServe w c s p).led.version = s.led.version + 1 := by
  have hreleased : (serveReleased w c s p).led.version = s.led.version + 1 := by
    rw [version_of_rest (serveReleased_rest w c s p) (by decide), bump_version, if_pos hup]
  rw [commitServe_eq, version_of_rest (settleContext_rest (M := [.wings]) (by decide) _ _ _) (by decide)]
  split
  · rw [version_of_rest (finishIn_rest (List.Subset.refl _) _ _ _ _) (by decide), hreleased]
  · exact hreleased

theorem commitServe_longs {w c : Nat} {s : State} {p : Pass} (hlast : p.cmd.passesLeft = 1) : p.cmd.ref ∉ (commitServe w c s p).led.longs := by
  have hleft : (runAfter w c s p).passesLeft = 0 := by simp [runAfter, hlast]
  rw [commitServe_eq, longs_of_rest (settleContext_rest (M := [.wings]) (by decide) _ _ _) (by decide), if_pos hleft, finishIn_longs]
  simp

/-- A serving pass at its end commits at once, or waits for the mirrors of the legs it has written (R293, R350). -/
theorem passEnd_eq {w c : Nat} {s : State} {p : Pass} (hp : (s.ctx w c).pass = some p) (h : passCompletes (.passEnd w c) s = true) :
    (writtenLegs s w p = [] → passEnd w c s = commitServe w c s p)
      ∧ (writtenLegs s w p ≠ [] →
          passEnd w c s = (awaitLegs s (writtenLegs s w p)).modPass w c (fun p => { p with phase := .done })) := by
  simp only [passCompletes, hp, Bool.and_eq_true] at h
  obtain ⟨⟨⟨-, hwork⟩, hended⟩, ⟨⟨htrain, hphase⟩, harrived⟩, hobjects⟩ := h
  unfold passEnd
  rw [hp]
  dsimp only
  rw [if_pos (by rw [hwork, htrain, hphase, hended, harrived, hobjects]; rfl)]
  cases writtenLegs s w p with
  | nil => exact ⟨fun _ => rfl, fun h => absurd rfl h⟩
  | cons l ls => exact ⟨fun h => (nomatch h), fun _ => rfl⟩

theorem passEnd_done {w c : Nat} {s : State} (h : passCompletes (.passEnd w c) s = true) : passDone (.passEnd w c) s (passEnd w c s) := by
  intro p hp
  obtain ⟨hcommits, hwaits⟩ := passEnd_eq hp h
  have hup : s.keeper.up = true := by
    simp only [passCompletes, Bool.and_eq_true] at h
    obtain ⟨⟨⟨-, hwork⟩, -⟩, -⟩ := h
    exact up_of_passAtWork hwork
  constructor
  · intro hnone
    rw [hcommits hnone]
    have hpart := commitServe_passPart w c s p
    have hqueue := congrArg Prod.fst hpart
    refine ⟨congrArg Prod.snd hpart, commitServe_version w c hup p, fun hlast => ⟨?_, commitServe_longs hlast⟩, fun hmore => ?_⟩
    · exact hqueue.trans (if_pos (by simp [runAfter, hlast]))
    · exact ⟨runAfter w c s p, hqueue.trans (if_neg (by simp only [runAfter]; omega)), rfl, rfl, rfl⟩
  · intro hlegs
    rw [hwaits hlegs]
    refine ⟨{ p with phase := .done }, ?_, rfl, rfl⟩
    rw [modPass_pass, ctx_of_rest (awaitLegs_rest (M := [.rings]) (by decide) _ _) (by decide), hp]
    rfl

/-- Settles O9. -/
theorem passRows : Obligations.PassRows := by
  intro i s hi h
  cases i with
  | updateJobStart n a => exact ⟨_, rfl, updateJobStart_done h⟩
  | updateSlice q => exact ⟨_, onPart_of_partIn (by simp_all [passCompletes, partIn]) _ _, updateSlice_done h⟩
  | updateCommit n a => exact ⟨_, rfl, updateCommit_done h⟩
  | passAdmit w c =>
    have hc : c < 256 := by simp_all [passCompletes]
    exact ⟨_, onPart_of_partIn (by simp_all [passCompletes, partIn]) _ _, (if_pos hc).symm ▸ passAdmit_done h⟩
  | forwardPassEnd w c => exact ⟨_, onPart_of_partIn (by simp_all [passCompletes, partIn]) _ _, forwardPassEnd_done h⟩
  | backwardPassEnd w c => exact ⟨_, onPart_of_partIn (by simp_all [passCompletes, partIn]) _ _, backwardPassEnd_done h⟩
  | stepCommit w c => exact ⟨_, onPart_of_partIn (by simp_all [passCompletes, partIn]) _ _, stepCommit_done h⟩
  | passEnd w c => exact ⟨_, onPart_of_partIn (by simp_all [passCompletes, partIn]) _ _, passEnd_done h⟩
  | _ => cases hi

end Sys2Proof.Machine
/-! ### Pass, serving-session, update, watch and detector commands (Tables 13.6 to 13.8) -/

namespace Sys2Proof.Machine

open Sys2Proof Sys2Proof.Safety

/-! #### What a command leaves of the part that its effect changes -/

section
variable {c : KCmd} {h : CmdHdr} {p : Bytes} {k : Packet} {u : State} {st : Status} {b : Bytes} {f : State → State} {M : List Component}

/-- A command that finds nothing to change is answered as a query is (R340). -/
theorem answered_of_nochange (hr : Ready c h p k u) (hn : Numbered h u) (hb : c.body u h p = .nochange b) :
    answered c h u (kExecute c k true u) b := by
  have hx : kExecute c k true u = concludeNumber u k true false .ok b := by
    unfold kExecute
    dsimp only
    rw [if_neg hr.inTime, if_neg (not_probation hn hr _), hr.eval, hb]
  rw [hx, concludeNumber_ok hr, answered, afterNumber_frame]
  exact ⟨rfl, rfl⟩

theorem committed_of_effect (hr : Ready c h p k u) (hn : Numbered h u) (hb : c.body u h p = .commit f st b) (hf : c.follow = fun _ _ s => s)
    (hkept : rest M (f (committing c h u st b)) = rest M (committing c h u st b)) (hM : ∀ x, x ∈ [Component.version, .sessions] → x ∉ M) :
    committed c h u (kExecute c k true u) st b :=
  committed_of_commit hr hn hb hf (sameWindow_of_rest hkept (hM _ (by decide)) _) (version_of_rest hkept (hM _ (by decide)))

/-- A commit in one wing: the wing as its effect leaves it, every other wing and the objects as they were. -/
theorem kExecute_commit_modWing {w : Nat} {g : Wing → Wing} (hr : Ready c h p k u) (hn : Numbered h u)
    (hb : c.body u h p = .commit (fun s => s.modWing w g) st b) (hf : c.follow = fun _ _ s => s) :
    committed c h u (kExecute c k true u) st b ∧ (kExecute c k true u).wing w = g (u.wing w)
      ∧ otherWingsKept w u (kExecute c k true u) ∧ (kExecute c k true u).led.objects = u.led.objects := by
  have hrest := kExecute_commit_rest (M := [.sessions, .stamped]) hr hn hb hf (by decide)
  have hbefore : rest [.version, .sessions, .fns] (committing c h u st b) = rest _ u := committing_rest hr (List.Subset.refl _)
  refine ⟨committed_of_effect (M := [.wings]) hr hn hb hf (State.modWing_rest (by decide) _ _ _) (by decide), ?_, fun v hv => ?_, ?_⟩
  · rw [wing_of_rest hrest (by decide), State.modWing_self, wing_of_rest hbefore (by decide)]
  · rw [wing_of_rest hrest (by decide), State.modWing_ne _ _ hv, wing_of_rest hbefore (by decide)]
  · exact (same_of_rest (c := .objects) hrest (by decide)).trans (same_of_rest (c := .objects) hbefore (by decide))

/-- A commit in one context of a wing. -/
theorem kExecute_commit_modCtx {w n : Nat} {g : Ctx → Ctx} (hr : Ready c h p k u) (hn : Numbered h u)
    (hb : c.body u h p = .commit (fun s => s.modCtx w n g) st b) (hf : c.follow = fun _ _ s => s) :
    committed c h u (kExecute c k true u) st b ∧ (kExecute c k true u).ctx w n = g (u.ctx w n)
      ∧ otherWingsKept w u (kExecute c k true u) ∧ (kExecute c k true u).led.objects = u.led.objects := by
  obtain ⟨hdone, hwing, hothers, hobjects⟩ := kExecute_commit_modWing hr hn hb hf
  exact ⟨hdone, (congrArg (fun x : Wing => tget x.contexts n) hwing).trans (tget_tmod_self _ _ _), hothers, hobjects⟩

/-- A commit in one handle. -/
theorem kExecute_commit_modHandle {i : Nat} {g : Handle → Handle} (hr : Ready c h p k u) (hn : Numbered h u)
    (hb : c.body u h p = .commit (fun s => s.modHandle i g) st b) (hf : c.follow = fun _ _ s => s) :
    committed c h u (kExecute c k true u) st b ∧ (kExecute c k true u).handle i = g (u.handle i) := by
  have hrest := kExecute_commit_rest (M := [.sessions, .stamped]) hr hn hb hf (by decide)
  have hbefore : rest [.version, .sessions, .fns] (committing c h u st b) = rest _ u := committing_rest hr (List.Subset.refl _)
  refine ⟨committed_of_effect (M := [.handles]) hr hn hb hf (State.modHandle_rest (by decide) _ _ _) (by decide), ?_⟩
  rw [handle_of_rest hrest (by decide), State.modHandle_self, handle_of_rest hbefore (by decide)]

end

/-! #### pass-train, pass-serve (R348, R350) -/

section
variable {h : CmdHdr} {p : Bytes} {k : Packet} {s u : State}

theorem queuePass_ctx (w n : Nat) (kind : CtxKind) (q : PassCmd) (s : State) :
    (queuePass w n kind q s).ctx w n = { s.ctx w n with kind := kind, queue := (s.ctx w n).queue ++ [q] } := State.modCtx_self _ _ _ _

theorem queuePass_wing_ne {v w : Nat} (hv : v ≠ w) (n : Nat) (kind : CtxKind) (q : PassCmd) (s : State) :
    (queuePass w n kind q s).wing v = s.wing v := State.modWing_ne _ _ hv

theorem queuePass_obj (w n : Nat) (kind : CtxKind) (q : PassCmd) (s : State) (o : Nat) : (queuePass w n kind q s).obj o = s.obj o := rfl

theorem refObj_obj (s : State) (o : Nat) : (refObj s o).obj o = { s.obj o with refs := (s.obj o).refs + 1 } := State.modObj_self _ _ _

theorem refObj_obj_ne (s : State) {o j : Nat} (hj : j ≠ o) : (refObj s o).obj j = s.obj j := State.modObj_ne _ _ hj

theorem refObj_wing (s : State) (o w : Nat) : (refObj s o).wing w = s.wing w := rfl

theorem refObj_ctx (s : State) (o w n : Nat) : (refObj s o).ctx w n = s.ctx w n := rfl

/-- What a pass-train does beside its record and reply. -/
def trainQueued (h : CmdHdr) (p : Bytes) (t : PassTable) (s : State) : State :=
  queuePass (field p 0 1) (field p 1 1) .train (trainPass h p t) (refObj s (field p 12 4))

/-- A pass-train that its own rules let pass is queued with the table its object holds (R348). -/
theorem passTrain_body (hrules : passRules (.passTrain h p) u = true) :
    ∃ t, readTable (u.obj (field p 12 4)).content (u.obj (field p 12 4)).size false = some t
      ∧ passTrainCmd.body u h p = .long (trainQueued h p t) .accepted [] none := by
  simp only [passRules, Bool.and_eq_true, Bool.not_eq_true', Option.any_eq_true] at hrules
  obtain ⟨⟨⟨hserving, hprograms⟩, hresident⟩, t, htable, hok⟩ := hrules
  simp only [trainTableOk, Bool.and_eq_true, Bool.not_eq_true', decide_eq_true_eq] at hok
  obtain ⟨⟨⟨⟨hlist, hadapters⟩, hbindings⟩, hsealed⟩, hresources⟩ := hok
  have hopen : ¬((u.wing (field p 0 1)).sealed ∧ field p 24 2 ≠ 0xFFFF) := by
    simpa using hsealed
  refine ⟨t, htable, ?_⟩
  unfold passTrainCmd
  dsimp only
  rw [if_neg (by simp [hserving]), if_neg (by simp [hprograms]), if_neg (by simp [hresident]), htable]
  dsimp only
  rw [if_neg (by simp [hlist]), hadapters]
  dsimp only
  rw [if_neg (by simp [hbindings]), if_neg hopen, hresources]
  rfl

theorem passTrain_done (hst : starts passTrainCmd h p s = true) (hrules : passRules (.passTrain h p) (taken passTrainCmd h s) = true) :
    passCmdDone passTrainCmd (.passTrain h p) (taken passTrainCmd h s) (kcp passTrainCmd h p s) := by
  obtain ⟨k, hr, hn, hlong, hx, -⟩ := kcp_of_starts hst rfl
  rw [hx]
  generalize taken passTrainCmd h s = u at *
  obtain ⟨t, htable, hb⟩ := passTrain_body hrules
  have hkept : rest [.wings, .objects] (trainQueued h p t (accepting passTrainCmd h u .accepted [])) = rest _ (accepting passTrainCmd h u .accepted []) :=
    (State.modCtx_rest (by decide) _ _ _ _).trans (refObj_rest (by decide) _ _)
  have hrest := kExecute_long_rest (M := [.sessions, .stamped]) hr hn (hlong rfl) hb (by decide)
  have hbefore : rest [.version, .sessions, .longs, .fns] (accepting passTrainCmd h u .accepted []) = rest _ u :=
    accepting_rest hr (List.Subset.refl _)
  refine ⟨t, htable, accepted1_of_long hr hn (hlong rfl) hb hkept (by decide), ?_, ?_, fun j hj => ?_, fun v hv => ?_⟩
  · rw [ctx_of_rest hrest (by decide), trainQueued, queuePass_ctx, refObj_ctx, ctx_of_rest hbefore (by decide)]
  · rw [obj_of_rest hrest (by decide), trainQueued, queuePass_obj, refObj_obj, obj_of_rest hbefore (by decide)]
  · rw [obj_of_rest hrest (by decide), trainQueued, queuePass_obj, refObj_obj_ne _ hj, obj_of_rest hbefore (by decide)]
  · rw [wing_of_rest hrest (by decide), trainQueued, queuePass_wing_ne hv, refObj_wing, wing_of_rest hbefore (by decide)]

theorem passServe_body (hrules : passRules (.passServe h p) u = true) :
    passServeCmd.body u h p = .long (queuePass (field p 0 1) (field p 1 1) .serve (servePass h p)) .accepted [] none := by
  simp only [passRules, Bool.and_eq_true, decide_eq_true_eq] at hrules
  obtain ⟨⟨hkind, hprogram⟩, htiles⟩ := hrules
  have hheld : ¬(heldProgram u (field p 0 1) (field p 12 2)).isNone := by
    rw [Option.isNone_iff_eq_none]; exact Option.ne_none_iff_isSome.mpr hprogram
  exact (if_neg hkind).trans ((if_neg hheld).trans (if_neg (by omega)))

theorem passServe_done (hst : starts passServeCmd h p s = true) (hrules : passRules (.passServe h p) (taken passServeCmd h s) = true) :
    passCmdDone passServeCmd (.passServe h p) (taken passServeCmd h s) (kcp passServeCmd h p s) := by
  obtain ⟨k, hr, hn, hlong, hx, -⟩ := kcp_of_starts hst rfl
  rw [hx]
  generalize taken passServeCmd h s = u at *
  have hb := passServe_body hrules
  have hrest := kExecute_long_rest (M := [.sessions, .stamped]) hr hn (hlong rfl) hb (by decide)
  have hbefore : rest [.version, .sessions, .longs, .fns] (accepting passServeCmd h u .accepted []) = rest _ u :=
    accepting_rest hr (List.Subset.refl _)
  refine ⟨accepted1_of_long (M := [.wings]) hr hn (hlong rfl) hb (State.modCtx_rest (by decide) _ _ _ _) (by decide), ?_, ?_, fun v hv => ?_⟩
  · rw [ctx_of_rest hrest (by decide), queuePass_ctx, ctx_of_rest hbefore (by decide)]
  · exact (same_of_rest (c := .objects) hrest (by decide)).trans (same_of_rest (c := .objects) hbefore (by decide))
  · rw [wing_of_rest hrest (by decide), queuePass_wing_ne hv, wing_of_rest hbefore (by decide)]

/-! #### Serving sessions (R351) -/

theorem serves_of_opened {x y : Ctx} {n : Nat} {v : Serve} (hy : y = { x with serves := tput x.serves n v }) :
    tget y.serves n = v ∧ ∀ j, j ≠ n → tget y.serves j = tget x.serves j := by
  subst hy
  exact ⟨tget_tput_self _ _ _, fun _ hj => tget_tput_ne _ _ hj⟩

theorem serveOpen_done (hst : starts serveOpenCmd h p s = true) (hrules : passRules (.serveOpen h p) (taken serveOpenCmd h s) = true) :
    passCmdDone serveOpenCmd (.serveOpen h p) (taken serveOpenCmd h s) (kcp serveOpenCmd h p s) := by
  obtain ⟨k, hr, hn, -, hx, -⟩ := kcp_of_starts hst rfl
  rw [hx]
  generalize taken serveOpenCmd h s = u at *
  simp only [passRules, Bool.and_eq_true, Bool.not_eq_true', Bool.and_eq_false_iff, decide_eq_true_eq, decide_eq_false_iff_not] at hrules
  obtain ⟨⟨⟨hkind, hgone⟩, howner⟩, hfree⟩ := hrules
  have hb : serveOpenCmd.body u h p = .commit
      (fun s => s.modCtx (field p 0 1) (field p 1 1) (fun x =>
        { x with serves := tput x.serves (freeServe (u.ctx (field p 0 1) (field p 1 1)))
                   (newServe u (field p 0 1) (field p 1 1) p (freeServe (u.ctx (field p 0 1) (field p 1 1)))) })) .ok
      (leBytes 2 (freeServe (u.ctx (field p 0 1) (field p 1 1))) ++ leBytes 2 0
        ++ leBytes 4 ((tget (u.ctx (field p 0 1) (field p 1 1)).serves (freeServe (u.ctx (field p 0 1) (field p 1 1)))).gen + 1)) := by
    refine (if_neg hkind).trans ((if_neg ?_).trans ((if_neg ?_).trans (if_neg (by omega))))
    · rintro ⟨hzero, hgone'⟩
      exact hgone.elim (fun hne => hne hzero) (fun hhere => by rw [hhere] at hgone'; cases hgone')
    · rintro (hne | hne)
      · exact hne howner.1
      · exact hne howner.2
  obtain ⟨hdone, hctx, hothers, -⟩ := kExecute_commit_modCtx hr hn hb rfl
  obtain ⟨hnew, holders⟩ := serves_of_opened hctx
  unfold passCmdDone
  dsimp only
  rw [hnew]
  refine ⟨hdone, rfl, rfl, rfl, ?_, rfl, rfl, rfl, holders, hothers⟩
  simp [newServe]

/-- What a commit that changes only the session a payload names leaves of that session. -/
theorem namedServe_of_ctx {t : State} {g : Serve → Serve}
    (hctx : t.ctx (field p 0 1) (field p 1 1) =
      { u.ctx (field p 0 1) (field p 1 1) with serves := tmod (u.ctx (field p 0 1) (field p 1 1)).serves (field p 2 2) g }) :
    namedServe t p = g (namedServe u p) :=
  (congrArg (fun x : Ctx => tget x.serves (field p 2 2)) hctx).trans (tget_tmod_self _ _ _)

theorem serveAppend_done (hst : starts serveAppendCmd h p s = true) (hrules : passRules (.serveAppend h p) (taken serveAppendCmd h s) = true) :
    passCmdDone serveAppendCmd (.serveAppend h p) (taken serveAppendCmd h s) (kcp serveAppendCmd h p s) := by
  obtain ⟨k, hr, hn, -, hx, -⟩ := kcp_of_starts hst rfl
  rw [hx]
  generalize taken serveAppendCmd h s = u at *
  have hlive : (namedServe u p).live = true := hrules
  obtain ⟨hdone, hctx, hothers, -⟩ := kExecute_commit_modCtx hr hn (if_neg (by simp [hlive])) rfl
  exact ⟨hdone, namedServe_of_ctx hctx, hothers⟩

theorem serveClose_done (hst : starts serveCloseCmd h p s = true) :
    passCmdDone serveCloseCmd (.serveClose h p) (taken serveCloseCmd h s) (kcp serveCloseCmd h p s) := by
  obtain ⟨k, hr, hn, -, hx, -⟩ := kcp_of_starts hst rfl
  rw [hx]
  generalize taken serveCloseCmd h s = u at *
  obtain ⟨hdone, hctx, hothers, hobjects⟩ := kExecute_commit_modCtx hr hn (c := serveCloseCmd) (st := .ok) (b := []) rfl rfl
  have hnamed := namedServe_of_ctx hctx
  exact ⟨hdone, (congrArg Serve.live hnamed).trans rfl, (congrArg Serve.gen hnamed).trans rfl, hobjects, hothers⟩

/-! #### update-run (R111, R352) -/

/-- The update job of one adapter of an update-run's table, with the words of its program. -/
def runJob (h : CmdHdr) (p : Bytes) (prog : Program) (t : PassTable) (a : PassAdapter) : Job :=
  { (default : Job) with
    wing := field p 0 1, handle := a.handle, words := withRounding (decide (field p 24 1 = 1)) prog.words, adapter := a, scalars := t.scalars
    layers := t.layers, sr := decide (field p 24 1 = 1), step := field p 16 8, rebias := decide (field p 1 1 = 1), ref := some (refOf h 0x0406) }

/-- The jobs of an update-run made, one for each adapter. -/
def runJobs (h : CmdHdr) (p : Bytes) (prog : Program) (t : PassTable) (s : State) : State :=
  t.adapters.foldl (fun s a => addJob s (runJob h p prog t a)) s

/-- What an update-run does beside its record and reply. -/
def runBegun (h : CmdHdr) (p : Bytes) (prog : Program) (t : PassTable) (s : State) : State :=
  runJobs h p prog t { refObj s (field p 8 4) with
    runs := s.runs ++ [{ ref := refOf h 0x0406, left := t.adapters.length, done := 0, faulted := 0, table := field p 8 4 }] }

/-- An update-run of no adapters, done with before its final reply. -/
def runDropped (h : CmdHdr) (p : Bytes) (s : State) : State :=
  (unrefObj { s with runs := s.runs.filter (fun x => decide (x.ref ≠ refOf h 0x0406)) } (field p 8 4)).bump

theorem updateRun_body (hrules : passRules (.updateRun h p) u = true) :
    ∃ t prog, readTable (u.obj (field p 8 4)).content (u.obj (field p 8 4)).size true = some t
      ∧ updateRunCmd.body u h p = .long (runBegun h p prog t) .accepted []
          (if t.adapters = [] then some (fun s => finishIn (runDropped h p s) (refOf h 0x0406) .ok (leBytes 4 0)) else none) := by
  simp only [passRules, Bool.and_eq_true, Bool.not_eq_true', Option.any_eq_true] at hrules
  obtain ⟨⟨⟨hsealed, hheld⟩, hresident⟩, t, htable, hok⟩ := hrules
  simp only [runTableOk, Bool.and_eq_true, Bool.not_eq_true'] at hok
  obtain ⟨⟨hlist, hadapters⟩, hrange⟩ := hok
  have hprog : ∃ prog, (if decide (field p 1 1 = 1) then some default else heldProgram u (field p 0 1) (field p 2 2)) = some prog := by
    split
    · exact ⟨_, rfl⟩
    next hno => exact Option.isSome_iff_exists.mp ((Bool.or_eq_true_iff.mp hheld).resolve_left hno)
  obtain ⟨prog, hprog⟩ := hprog
  refine ⟨t, prog, htable, ?_⟩
  unfold updateRunCmd
  dsimp only
  rw [if_neg (by simp [hsealed]), hprog]
  dsimp only
  rw [if_neg (by simp [hresident]), htable]
  dsimp only
  have hupdatable : ¬(!t.adapters.all (updatable u (decide (field p 1 1 = 1)))) = true := by simp [hadapters]
  exact (if_neg (by simp [hlist])).trans ((if_neg hupdatable).trans ((if_neg (by simpa using hrange)).trans rfl))

theorem runJobs_rest (h : CmdHdr) (p : Bytes) (prog : Program) (t : PassTable) (s : State) : rest [.jobs] (runJobs h p prog t s) = rest [.jobs] s :=
  rest_foldl _ _ _ (fun s _ => addJob_rest (by decide) s _)

theorem runBegun_rest (h : CmdHdr) (p : Bytes) (prog : Program) (t : PassTable) (s : State) :
    rest [.jobs, .objects, .runs] (runBegun h p prog t s) = rest [.jobs, .objects, .runs] s :=
  (rest_mono (runJobs_rest h p prog t _) (by decide)).trans ((rest_runs (by decide) _ _).trans (refObj_rest (by decide) _ _))

theorem runBegun_obj (h : CmdHdr) (p : Bytes) (prog : Program) (t : PassTable) (s : State) :
    (runBegun h p prog t s).obj (field p 8 4) = { s.obj (field p 8 4) with refs := (s.obj (field p 8 4)).refs + 1 } :=
  (obj_of_rest (runJobs_rest h p prog t _) (by decide) _).trans (refObj_obj s _)

theorem runBegun_runs (h : CmdHdr) (p : Bytes) (prog : Program) (t : PassTable) (s : State) :
    (runBegun h p prog t s).runs =
      s.runs ++ [{ ref := refOf h 0x0406, left := t.adapters.length, done := 0, faulted := 0, table := field p 8 4 }] :=
  same_of_rest (c := .runs) (runJobs_rest h p prog t _) (by decide)

theorem runDropped_rest (h : CmdHdr) (p : Bytes) (s : State) :
    rest [.keeper, .version, .objects, .runs] (runDropped h p s) = rest [.keeper, .version, .objects, .runs] s :=
  (State.bump_rest (by decide) _).trans ((unrefObj_rest (by decide) _ _).trans (rest_runs (by decide) _ _))

theorem runDropped_refs (h : CmdHdr) (p : Bytes) (s : State) :
    ((runDropped h p s).obj (field p 8 4)).refs = (s.obj (field p 8 4)).refs - 1 := by
  unfold runDropped
  rw [obj_of_rest (State.bump_rest (M := [.keeper, .version]) (by decide) _) (by decide)]
  exact congrArg Obj.refs (State.modObj_self _ _ _)

theorem updateRun_done (hst : starts updateRunCmd h p s = true) (hrules : passRules (.updateRun h p) (taken updateRunCmd h s) = true) :
    passCmdDone updateRunCmd (.updateRun h p) (taken updateRunCmd h s) (kcp updateRunCmd h p s) := by
  obtain ⟨k, hr, hn, hlong, hx, -⟩ := kcp_of_starts hst rfl
  rw [hx]
  generalize taken updateRunCmd h s = u at *
  obtain ⟨t, prog, htable, hb⟩ := updateRun_body hrules
  have hbefore : rest [.version, .sessions, .longs, .fns] (accepting updateRunCmd h u .accepted []) = rest _ u :=
    accepting_rest hr (List.Subset.refl _)
  refine ⟨t, htable, fun hsome => ?_, fun hnone => ?_⟩
  · rw [if_neg hsome] at hb
    have hrest := kExecute_long_rest (M := [.sessions, .stamped]) hr hn (hlong rfl) hb (by decide)
    refine ⟨accepted1_of_long hr hn (hlong rfl) hb (runBegun_rest h p prog t _) (by decide), ?_, ?_⟩
    · rw [same_of_rest (c := .runs) hrest (by decide)]
      refine (runBegun_runs h p prog t _).trans ?_
      exact congrArg (· ++ _) (same_of_rest (c := .runs) hbefore (by decide))
    · rw [obj_of_rest hrest (by decide), runBegun_obj, obj_of_rest hbefore (by decide)]
  · rw [if_pos hnone] at hb
    have hrest := kExecute_long_done_rest (M := replyParts) hr hn (hlong rfl) hb (by decide)
    refine ⟨finished_of_long hr hn (hlong rfl) hb rfl ?_, ?_⟩
    · rw [sess_of_rest (runDropped_rest h p _) (by decide), sess_of_rest (runBegun_rest h p prog t _) (by decide)]
      exact sameWindow_refl _
    · rw [obj_of_rest hrest (by decide), obj_of_rest (finishIn_rest (M := replyParts) (by decide) _ _ _ _) (by decide), runDropped_refs,
        runBegun_obj, obj_of_rest hbefore (by decide)]
      exact Nat.add_sub_cancel _ _

/-! #### The watch table (R121, R123) -/

theorem watchRead_done (hst : starts watchReadCmd h p s = true) :
    passCmdDone watchReadCmd (.watchRead h p) (taken watchReadCmd h s) (kcp watchReadCmd h p s) := by
  obtain ⟨k, hr, hn, -, hx, -⟩ := kcp_of_starts hst rfl
  rw [hx]
  exact answered_of_query hr hn rfl

theorem tget_foldl_range_tmod_outside {α : Type} [DecidableEq α] [Inhabited α] (f : Nat → α → α) (t : Tbl α) (first count : Nat) {n : Nat}
    (hn : n < first ∨ first + count ≤ n) : tget ((List.range count).foldl (fun t i => tmod t (first + i) (f i)) t) n = tget t n := by
  induction count with
  | zero => rfl
  | succ count ih =>
    rw [List.range_succ, List.foldl_append]
    exact (tget_tmod_ne _ _ (by omega)).trans (ih (by omega))

/-- Each entry of a range changed once, by its place in the range. -/
theorem tget_foldl_range_tmod {α : Type} [DecidableEq α] [Inhabited α] (f : Nat → α → α) (t : Tbl α) (first : Nat) {count j : Nat} (hj : j < count) :
    tget ((List.range count).foldl (fun t i => tmod t (first + i) (f i)) t) (first + j) = f j (tget t (first + j)) := by
  induction count with
  | zero => omega
  | succ count ih =>
    rw [List.range_succ, List.foldl_append]
    by_cases hlast : j = count
    · subst hlast
      exact (tget_tmod_self _ _ _).trans (congrArg (f j) (tget_foldl_range_tmod_outside f t first j (.inr (Nat.le_refl _))))
    · exact (tget_tmod_ne _ _ (by omega)).trans (ih (by omega))

/-- A commit that changes a range of a wing's watch table leaves every other entry and every other wing as they were. -/
theorem kExecute_rangeWatch {c : KCmd} {f : Nat → Watch → Watch} {w first count : Nat} (hr : Ready c h p k u) (hn : Numbered h u)
    (hb : c.body u h p = .commit (fun s => rangeWatch s w first count f) .ok []) (hf : c.follow = fun _ _ s => s) :
    committed c h u (kExecute c k true u) .ok [] ∧ otherWingsKept w u (kExecute c k true u)
      ∧ (∀ j, j < count → tget ((kExecute c k true u).wing w).watch (first + j) = f j (tget (u.wing w).watch (first + j)))
      ∧ (∀ n, n < first ∨ first + count ≤ n → tget ((kExecute c k true u).wing w).watch n = tget (u.wing w).watch n) := by
  obtain ⟨hdone, hwing, hothers, -⟩ := kExecute_commit_modWing hr hn hb hf
  have hwatch := congrArg Wing.watch hwing
  refine ⟨hdone, hothers, fun j hj => ?_, fun n hout => ?_⟩
  · exact (congrArg (tget · _) hwatch).trans (tget_foldl_range_tmod f _ first hj)
  · exact (congrArg (tget · n) hwatch).trans (tget_foldl_range_tmod_outside f _ first count hout)

theorem watchSet_done (hst : starts watchSetCmd h p s = true) :
    passCmdDone watchSetCmd (.watchSet h p) (taken watchSetCmd h s) (kcp watchSetCmd h p s) := by
  obtain ⟨k, hr, hn, -, hx, -⟩ := kcp_of_starts hst rfl
  rw [hx]
  exact kExecute_rangeWatch hr hn rfl rfl

theorem watchReset_done (hst : starts watchResetCmd h p s = true) :
    passCmdDone watchResetCmd (.watchReset h p) (taken watchResetCmd h s) (kcp watchResetCmd h p s) := by
  obtain ⟨k, hr, hn, -, hx, -⟩ := kcp_of_starts hst rfl
  rw [hx]
  exact kExecute_rangeWatch hr hn rfl rfl

/-! #### The loss-spike detector (R126, R129) -/

/-- What a detector-set changes, by its mask (R126). -/
theorem writeDetector_fields (p : Bytes) (d : Detector) :
    (writeDetector p d).held = d.held
      ∧ (writeDetector p d).a = (if (field p 2 1).testBit 0 then field p 8 1 else d.a)
      ∧ (writeDetector p d).action = (if (field p 2 1).testBit 0 then field p 9 1 else d.action)
      ∧ (writeDetector p d).spikes = (if (field p 2 1).testBit 0 then field p 10 1 else d.spikes)
      ∧ (writeDetector p d).warmup = (if (field p 2 1).testBit 0 then field p 12 2 else d.warmup)
      ∧ (writeDetector p d).n = (if (field p 2 1).testBit 1 then field p 32 8 else d.n)
      ∧ (writeDetector p d).c = (if (field p 2 1).testBit 1 then field p 40 4 else d.c) := by
  unfold writeDetector
  dsimp only
  by_cases hcfg : (field p 2 1).testBit 0 = true
  · rw [if_pos hcfg]
    split
    · exact ⟨rfl, rfl, rfl, rfl, rfl, rfl, rfl⟩
    · exact ⟨rfl, rfl, rfl, rfl, rfl, rfl, rfl⟩
  · rw [if_neg hcfg]
    split
    · exact ⟨rfl, rfl, rfl, rfl, rfl, rfl, rfl⟩
    · exact ⟨rfl, rfl, rfl, rfl, rfl, rfl, rfl⟩

theorem detectorSet_done (hst : starts detectorSetCmd h p s = true) (hrules : passRules (.detectorSet h p) (taken detectorSetCmd h s) = true) :
    passCmdDone detectorSetCmd (.detectorSet h p) (taken detectorSetCmd h s) (kcp detectorSetCmd h p s) := by
  obtain ⟨k, hr, hn, -, hx, -⟩ := kcp_of_starts hst rfl
  rw [hx]
  generalize taken detectorSetCmd h s = u at *
  have hhere : handleGone u (field p 0 2) = false := by simpa [passRules] using hrules
  obtain ⟨hdone, hhandle⟩ := kExecute_commit_modHandle hr hn (if_neg (by simp [hhere])) rfl
  unfold passCmdDone
  dsimp only
  rw [hhandle]
  exact ⟨hdone, rfl, writeDetector_fields p _⟩

theorem detectorRelease_done (hst : starts detectorReleaseCmd h p s = true)
    (hrules : passRules (.detectorRelease h p) (taken detectorReleaseCmd h s) = true) :
    passCmdDone detectorReleaseCmd (.detectorRelease h p) (taken detectorReleaseCmd h s) (kcp detectorReleaseCmd h p s) := by
  obtain ⟨k, hr, hn, -, hx, -⟩ := kcp_of_starts hst rfl
  rw [hx]
  generalize taken detectorReleaseCmd h s = u at *
  have hhere : ¬(handleGone u (field p 0 2) = true) := by simpa [passRules] using hrules
  refine ⟨fun hheld => ?_, fun hfree => ?_⟩
  · obtain ⟨hdone, hhandle⟩ := kExecute_commit_modHandle hr hn ((if_neg hhere).trans (if_pos hheld)) rfl
    exact ⟨hdone, congrArg Handle.det hhandle⟩
  · exact answered_of_nochange hr hn ((if_neg hhere).trans (if_neg (by simp [hfree])))

end

/-- Settles O20: each of the commands goes through the keeper's own steps, and its effect is read off the part that it changes. -/
theorem passCommands : Obligations.PassCommands := by
  intro i c h p s hi hc hst hrules
  cases i with
  | passTrain => cases hc; exact ⟨_, rfl, passTrain_done hst hrules⟩
  | passServe => cases hc; exact ⟨_, rfl, passServe_done hst hrules⟩
  | serveOpen => cases hc; exact ⟨_, rfl, serveOpen_done hst hrules⟩
  | serveAppend => cases hc; exact ⟨_, rfl, serveAppend_done hst hrules⟩
  | serveClose => cases hc; exact ⟨_, rfl, serveClose_done hst⟩
  | updateRun => cases hc; exact ⟨_, rfl, updateRun_done hst hrules⟩
  | watchRead => cases hc; exact ⟨_, rfl, watchRead_done hst⟩
  | watchSet => cases hc; exact ⟨_, rfl, watchSet_done hst⟩
  | watchReset => cases hc; exact ⟨_, rfl, watchReset_done hst⟩
  | detectorSet => cases hc; exact ⟨_, rfl, detectorSet_done hst hrules⟩
  | detectorRelease => cases hc; exact ⟨_, rfl, detectorRelease_done hst hrules⟩
  | _ => cases hi

end Sys2Proof.Machine
/-! ### What final replies leave, and the rooms and handles they free (chapter 7) -/

namespace Sys2Proof.Machine

open Sys2Proof Sys2Proof.Safety

/-! #### Final replies (R332) -/

/-- A host session after a final reply is as it was, or bears the reply as the reply's own. -/
theorem finishIn_sess_cases (w : State) (ref : CmdRef) (st : Status) (b : Bytes) (key : Nat) :
    (finishIn w ref st b).sess key = w.sess key
      ∨ (finishIn w ref st b).sess key = finalMark ref (mkReply w ref st true b) (w.sess key) := by
  have hlog (v : State) : (if st.value / 256 ≠ 0 then logStatus v st {} else v).sess = v.sess := by
    split
    · exact funext fun k => sess_of_rest (logStatus_rest (M := [.keeper]) (by decide) v st {}) (by decide) k
    · rfl
  by_cases hlive : (w.sess (sessKey ref.fn ref.session)).gen = ref.sgen ∧ (w.sess (sessKey ref.fn ref.session)).st ≠ .closed
  · by_cases hkey : key = sessKey ref.fn ref.session
    · subst hkey
      exact .inr (finishIn_sess st b hlive)
    · refine .inl ?_
      have hother (v : State) (g : Session → Session) : (v.modSess (sessKey ref.fn ref.session) g).sess key = v.sess key :=
        State.modSess_ne _ _ hkey
      unfold finishIn
      dsimp only
      rw [if_pos hlive]
      split
      · rw [hother, hlog]; rfl
      · exact (hother _ _).trans (congrFun (hlog _) key)
  · refine .inl ?_
    unfold finishIn
    dsimp only
    rw [if_neg hlive, hlog]
    rfl

/-- A number that E has passed and that bears a mark keeps one through any final reply: its own cached reply, at most. -/
theorem marked_finalMark {h : CmdHdr} {x : Session} {m : Mark} (hm : Marked h x m) (hne : m ≠ .absent) (ref : CmdRef) (r : Reply) :
    ∃ m', m' ≠ .absent ∧ Marked h (finalMark ref r x) m' := by
  obtain ⟨hgen, hlive, hnext, hahead, hmark⟩ := hm
  by_cases habsent : tget x.marks ref.seq = .absent
  · have hmarks : (finalMark ref r x).marks = x.marks := if_pos habsent
    exact ⟨m, hne, hgen, hlive, hnext, by rw [hmarks]; exact hahead, by rw [hmarks]; exact hmark⟩
  · have hmarks : (finalMark ref r x).marks = tput x.marks ref.seq (.cached ref.crc r) := if_neg habsent
    have hkeeps : tget (finalMark ref r x).marks (h.seq + 64) ≠ .skipped := by
      rw [hmarks]
      by_cases hseq : h.seq + 64 = ref.seq
      · rw [hseq, tget_tput_self]; simp
      · rw [tget_tput_ne _ _ hseq]; exact hahead
    by_cases hseq : h.seq = ref.seq
    · exact ⟨.cached ref.crc r, by simp, hgen, hlive, hnext, hkeeps, by rw [hmarks, hseq, tget_tput_self]⟩
    · exact ⟨m, hne, hgen, hlive, hnext, hkeeps, by rw [hmarks, tget_tput_ne _ _ hseq]; exact hmark⟩

/-- Of host sessions and outstanding commands, a step gives final replies at most: none becomes outstanding, and a number that E has
passed with a mark stays so. -/
structure EndsOnly (s t : State) : Prop where
  longs : t.led.longs ⊆ s.led.longs
  marked : ∀ h m, m ≠ .absent → Marked h (s.sess (ownKey h)) m → ∃ m', m' ≠ .absent ∧ Marked h (t.sess (ownKey h)) m'

namespace EndsOnly

variable {s t u : State}

theorem refl (s : State) : EndsOnly s s := ⟨List.Subset.refl _, fun _ m hne hm => ⟨m, hne, hm⟩⟩

theorem trans (hst : EndsOnly s t) (htu : EndsOnly t u) : EndsOnly s u := by
  refine ⟨List.Subset.trans htu.longs hst.longs, fun h m hne hm => ?_⟩
  obtain ⟨m', hne', hm'⟩ := hst.marked h m hne hm
  exact htu.marked h m' hne' hm'

theorem of_rest {M : List Component} (hr : rest M t = rest M s) (hsess : Component.sessions ∉ M) (hlongs : Component.longs ∉ M) :
    EndsOnly s t :=
  ⟨by rw [longs_of_rest hr hlongs]; exact List.Subset.refl _, fun _ m hne hm => ⟨m, hne, by rw [sess_of_rest hr hsess]; exact hm⟩⟩

theorem foldl {α : Type} {g : State → α → State} (hg : ∀ s a, EndsOnly s (g s a)) (l : List α) (s : State) : EndsOnly s (l.foldl g s) :=
  List.foldlRecOn l g (refl s) fun _ hs a _ => hs.trans (hg _ a)

theorem not_long {ref : CmdRef} (h : EndsOnly s t) (hs : ref ∉ s.led.longs) : ref ∉ t.led.longs := fun ht => hs (h.longs ht)

end EndsOnly

theorem finishIn_ends (s : State) (ref : CmdRef) (st : Status) (b : Bytes) : EndsOnly s (finishIn s ref st b) := by
  refine ⟨by rw [finishIn_longs]; exact List.filter_subset_self _, fun h m hne hm => ?_⟩
  rcases finishIn_sess_cases s ref st b (ownKey h) with hsess | hsess
  · exact ⟨m, hne, hsess ▸ hm⟩
  · rw [hsess]
    exact marked_finalMark hm hne ref _

theorem finishOpt_ends (s : State) (ref : Option CmdRef) (st : Status) (b : Bytes) : EndsOnly s (finishOpt s ref st b) := by
  cases ref with
  | none => exact .refl s
  | some r => exact finishIn_ends s r st b

/-- A command that has had its final reply is outstanding no more (R332). -/
theorem finishIn_not_long (s : State) (ref : CmdRef) (st : Status) (b : Bytes) : ref ∉ (finishIn s ref st b).led.longs := by
  rw [finishIn_longs]; simp

theorem finishOpt_not_long (s : State) (st : Status) (b : Bytes) {ref : Option CmdRef} {r : CmdRef} (hr : ref = some r) :
    r ∉ (finishOpt s ref st b).led.longs := by
  subst hr; exact finishIn_not_long s r st b

/-- Of a list of commands that end one after the other none is outstanding. -/
theorem foldl_not_long {α : Type} {g : State → α → State} {f : α → CmdRef} (hends : ∀ s a, EndsOnly s (g s a))
    (hself : ∀ s a, f a ∉ (g s a).led.longs) {l : List α} {a : α} (ha : a ∈ l) (s : State) : f a ∉ (l.foldl g s).led.longs := by
  induction l generalizing s with
  | nil => cases ha
  | cons b l ih =>
    rcases List.mem_cons.mp ha with rfl | hmem
    · exact (EndsOnly.foldl hends l (g s a)).not_long (hself s a)
    · exact ih hmem (g s b)

/-! #### Rooms freed (R143, R159, R163) -/

/-- A room as it stands once it is freed. -/
def freedRoom (x : Room) : Room := { (default : Room) with gen := x.gen + 1 }

/-- The parts of the state that a final reply may change. -/
def finalParts : List Component := [.fns, .keeper, .sessions, .longs]

theorem freeRoom_eq (s : State) (r : Nat) : freeRoom s r =
    ((s.room r).checkouts ++ (s.room r).waiting).foldl (fun s c => finishIn s c.ref .staleGeneration []) (s.modRoom r freedRoom) := rfl

/-- Freeing a room is its change, and final replies. -/
theorem freeRoom_replies (s : State) (r : Nat) : rest finalParts (freeRoom s r) = rest finalParts (s.modRoom r freedRoom) :=
  rest_foldl _ _ _ fun s c => finishIn_rest (List.Subset.refl _) s c.ref .staleGeneration []

theorem freeRoom_room (s : State) (r : Nat) : (freeRoom s r).room r = freedRoom (s.room r) := by
  rw [room_of_rest (freeRoom_replies s r) (by decide), State.modRoom_self]

theorem freeRoom_room_ne (s : State) {r q : Nat} (hq : q ≠ r) : (freeRoom s r).room q = s.room q := by
  rw [room_of_rest (freeRoom_replies s r) (by decide), State.modRoom_ne _ _ hq]

theorem freeRoom_handle (s : State) (r i : Nat) : (freeRoom s r).handle i = s.handle i :=
  handle_of_rest (freeRoom_replies s r) (by decide) i

theorem freeRoom_ends (s : State) (r : Nat) : EndsOnly s (freeRoom s r) := by
  have hfreed : EndsOnly s (s.modRoom r freedRoom) := .of_rest (M := [.rooms]) (State.modRoom_rest (by decide) _ _ _) (by decide) (by decide)
  rw [freeRoom_eq]
  refine hfreed.trans (.foldl (fun s c => ?_) _ _)
  exact finishIn_ends s c.ref .staleGeneration []

theorem settleDiscard_ends (s : State) (r : Nat) : EndsOnly s (settleDiscard s r) := by
  unfold settleDiscard
  dsimp only
  split
  · exact freeRoom_ends s r
  · exact .refl s

/-! #### Loads that fail (R144) -/

/-- A handle whose load has failed. -/
def loadFailed (l : Load) (x : Handle) : Handle := { x with load := none, st := if x.st = .loading then l.before else x.st }

/-- What the failure of a load comes to before its final reply. -/
def loadDropped (s : State) (i : Nat) (l : Load) : State :=
  (if l.first then freeObj (freeRoom s l.room) (s.handle i).obj else freeRoom s l.room).modHandle i (loadFailed l)

section
variable {s : State} {i : Nat} {l : Load}

theorem failLoad_eq (hl : (s.handle i).load = some l) (st : Status) : failLoad s i st = finishOpt (loadDropped s i l) l.ref st [] := by
  unfold failLoad loadDropped
  rw [hl]
  dsimp only
  rw [freeRoom_handle]
  rfl

theorem loadDropped_rest (s : State) (i : Nat) (l : Load) : rest [.objects, .handles] (loadDropped s i l) = rest [.objects, .handles] (freeRoom s l.room) := by
  unfold loadDropped
  rw [State.modHandle_rest (by decide)]
  split
  · exact freeObj_rest (by decide) _ _
  · rfl

theorem loadDropped_handle (s : State) (i : Nat) (l : Load) : (loadDropped s i l).handle i = loadFailed l (s.handle i) := by
  unfold loadDropped
  rw [State.modHandle_self]
  split
  · exact congrArg (loadFailed l) ((handle_of_rest (freeObj_rest (M := [.objects]) (by decide) _ _) (by decide) i).trans (freeRoom_handle _ _ i))
  · rw [freeRoom_handle]

theorem loadDropped_ends (s : State) (i : Nat) (l : Load) : EndsOnly s (loadDropped s i l) :=
  (freeRoom_ends s l.room).trans (.of_rest (loadDropped_rest s i l) (by decide) (by decide))

/-- What a failed load leaves is told by its room and handle; its final reply adds nothing to them. -/
theorem failLoad_replies (hl : (s.handle i).load = some l) (st : Status) : rest finalParts (failLoad s i st) = rest finalParts (loadDropped s i l) := by
  rw [failLoad_eq hl]
  exact finishOpt_rest (List.Subset.refl _) _ _ _ _

theorem failLoad_handle (hl : (s.handle i).load = some l) (st : Status) : (failLoad s i st).handle i = loadFailed l (s.handle i) := by
  rw [handle_of_rest (failLoad_replies hl st) (by decide), loadDropped_handle]

theorem failLoad_room (hl : (s.handle i).load = some l) (st : Status) : (failLoad s i st).room l.room = freedRoom (s.room l.room) := by
  rw [room_of_rest (failLoad_replies hl st) (by decide), room_of_rest (loadDropped_rest s i l) (by decide), freeRoom_room]

theorem failLoad_ends (s : State) (i : Nat) (st : Status) : EndsOnly s (failLoad s i st) := by
  cases hl : (s.handle i).load with
  | none =>
    have hsame : failLoad s i st = s := by unfold failLoad; rw [hl]
    rw [hsame]; exact .refl s
  | some l => rw [failLoad_eq hl]; exact (loadDropped_ends s i l).trans (finishOpt_ends _ _ _ _)

end

/-! #### Adapter-reads that end (R356) -/

theorem endReads_eq (s : State) (i : Nat) : endReads s i =
    (s.handle i).reading.foldl (fun s r => finishIn s r .adapterGone []) (s.modHandle i fun x => { x with reading := [] }) := rfl

theorem endReads_ends (s : State) (i : Nat) : EndsOnly s (endReads s i) := by
  have hcleared : EndsOnly s (s.modHandle i fun x => { x with reading := [] }) :=
    .of_rest (M := [.handles]) (State.modHandle_rest (by decide) _ _ _) (by decide) (by decide)
  rw [endReads_eq]
  exact hcleared.trans (.foldl (fun s r => finishIn_ends s r .adapterGone []) _ _)

theorem endReads_not_long {s : State} {i : Nat} {ref : CmdRef} (href : ref ∈ (s.handle i).reading) : ref ∉ (endReads s i).led.longs :=
  foldl_not_long (f := id) (fun s r => finishIn_ends s r .adapterGone []) (fun s r => finishIn_not_long s r .adapterGone []) href _

theorem endReads_handle (s : State) (i : Nat) : (endReads s i).handle i = { s.handle i with reading := [] } := by
  have hreplies : rest finalParts (endReads s i) = rest finalParts (s.modHandle i fun x => { x with reading := [] }) :=
    rest_foldl _ _ _ fun s r => finishIn_rest (List.Subset.refl _) s r .adapterGone []
  rw [handle_of_rest hreplies (by decide), State.modHandle_self]

/-! #### Rooms whose checkouts take effect (R159, R160) -/

/-- A room whose checkouts take effect. -/
def leavingRoom (w : Wing) (l : List Checkout) (x : Room) : Room :=
  { x with st := .leaving, pinned := x.pinned && !(l.any (fun c => c.forced)) && !w.leaving, checkouts := x.checkouts ++ l, waiting := [] }

theorem leaveRoom_room (s : State) (r : Nat) (l : List Checkout) :
    (leaveRoom s r l).room r = leavingRoom (s.wing (s.room r).wing) l (s.room r) :=
  State.modRoom_self s r fun x => leavingRoom (s.wing x.wing) l x

theorem leaveRoom_handle (s : State) (r : Nat) (l : List Checkout) :
    (leaveRoom s r l).handle (s.room r).handle = { s.handle (s.room r).handle with st := .leaving } := State.modHandle_self _ _ _

end Sys2Proof.Machine
/-! ### The commands of adapters and rooms (R144, R158 to R163, R355, R356) -/

namespace Sys2Proof.Machine

open Sys2Proof Sys2Proof.Safety

section
variable {c : KCmd} {h : CmdHdr} {p : Bytes} {k : Packet} {s u : State} {st : Status} {b : Bytes} {f g : State → State}

/-! #### Commands refused, and commands that give final replies to others -/

/-- The state with a refused command's number passed, its refusal cached under the number and sent. -/
def refusing (c : KCmd) (h : CmdHdr) (u : State) (st : Status) (b : Bytes) : State :=
  pushReply (passNumber u (ownKey h) h.seq (.cached h.crc (refusal c.code h u st b))) h.fn (refusal c.code h u st b)

theorem marked_passNumber (hn : Numbered h u) (m : Mark) : Marked h ((passNumber u (ownKey h) h.seq m).sess (ownKey h)) m := by
  obtain ⟨hopen, hgen, -, hahead, hpos⟩ := hn
  rw [passNumber_sess]
  refine ⟨hgen, by simp [hopen], rfl, ?_, by simp⟩
  dsimp only
  rw [tget_tput_ne _ _ (by omega), tget_terase_ne _ (by omega)]
  exact hahead

theorem kExecute_refuse (hr : Ready c h p k u) (hn : Numbered h u) (hb : c.body u h p = .refuse st b) (hcls : c.cls ≠ .query)
    (hst : st ≠ .malformed) : kExecute c k true u = afterNumber (refusing c h u st b) (ownKey h) := by
  unfold kExecute
  dsimp only
  rw [if_neg hr.inTime, if_neg (not_probation hn hr _), hr.eval, hb]
  unfold concludeNumber
  rw [hr.hdr, hr.code]
  dsimp only
  rw [decide_eq_true hcls, if_neg hst]
  rfl

/-- A command that its own rules refuse, and that is no query, is refused under its number (Table 12.9, R340). -/
theorem refused_of_refuse (hr : Ready c h p k u) (hn : Numbered h u) (hb : c.body u h p = .refuse st b) (hcls : c.cls ≠ .query)
    (hst : st ≠ .malformed) : refused c.code true h u (kExecute c k true u) st b := by
  rw [kExecute_refuse hr hn hb hcls hst]
  obtain ⟨hlt, hmark⟩ := afterNumber_mark (s := refusing c h u st b) hn.positive
    (marked_passNumber hn (.cached h.crc (refusal c.code h u st b)))
  refine ⟨?_, hlt, hmark, fun _ => ?_, fun hmal => absurd hmal hst⟩
  · rw [nothingCommitted, afterNumber_frame]; rfl
  · rw [afterNumber_frame]; exact ⟨rfl, rfl⟩

/-- A commit whose effect gives other commands their final replies is concluded by its own cached reply. -/
theorem concluded_of_ends (hr : Ready c h p k u) (hn : Numbered h u) (hb : c.body u h p = .commit f st b)
    (hf : c.follow = fun _ _ s => s) (hends : EndsOnly (committing c h u st b) (f (committing c h u st b))) :
    concluded c h u (kExecute c k true u) st b := by
  obtain ⟨m, -, hm⟩ := hends.marked h _ (by simp) (marked_committing hn)
  rw [kExecute_commit hr hn hb hf]
  obtain ⟨hlt, hmark⟩ := afterNumber_mark hn.positive (marked_cacheReply (r := mkReply u.bump (refOf h c.code) st true b) hm)
  exact ⟨hlt, _, hmark, rfl⟩

/-- A long command that ends at once is finished, whatever other commands get their final replies with it. -/
theorem finished_of_ends (hr : Ready c h p k u) (hn : Numbered h u) (hl : (u.sess (ownKey h)).longs < 64)
    (hb : c.body u h p = .long f st b (some g)) {w : State} {st' : Status} {b' : Bytes}
    (hg : g (f (accepting c h u st b)) = finishIn w (refOf h c.code) st' b') (hends : EndsOnly (accepting c h u st b) w) :
    finished c h (kExecute c k true u) st' b' := by
  obtain ⟨m, hne, hm⟩ := hends.marked h _ (by simp) (marked_accepting hn)
  rw [kExecute_long_done hr hn hl hb, hg]
  obtain ⟨hlt, hmark⟩ := afterNumber_mark hn.positive (finishIn_marked c.code st' b' hm hne)
  refine ⟨?_, hlt, _, hmark, rfl, rfl, rfl, rfl⟩
  rw [longs_of_rest (M := [.sessions, .stamped]) (afterNumber_rest (by decide) _ _) (by decide)]
  exact finishIn_not_long _ _ _ _

/-! #### room-pin (R158) -/

/-- A room as a room-pin leaves it. -/
def pinRoom (p : Bytes) (x : Room) : Room := { x with pinned := decide (field p 2 1 = 1) }

theorem kExecute_commit_modRoom {r : Nat} {g : Room → Room} (hr : Ready c h p k u) (hn : Numbered h u)
    (hb : c.body u h p = .commit (fun s => s.modRoom r g) st b) (hf : c.follow = fun _ _ s => s) :
    committed c h u (kExecute c k true u) st b ∧ (kExecute c k true u).room r = g (u.room r)
      ∧ (∀ q, q ≠ r → (kExecute c k true u).room q = u.room q) ∧ (kExecute c k true u).led.handles = u.led.handles := by
  have hrest := kExecute_commit_rest (M := [.sessions, .stamped]) hr hn hb hf (by decide)
  have hbefore : rest [.version, .sessions, .fns] (committing c h u st b) = rest _ u := committing_rest hr (List.Subset.refl _)
  refine ⟨committed_of_effect (M := [.rooms]) hr hn hb hf (State.modRoom_rest (by decide) _ _ _) (by decide), ?_, fun q hq => ?_, ?_⟩
  · rw [room_of_rest hrest (by decide), State.modRoom_self, room_of_rest hbefore (by decide)]
  · rw [room_of_rest hrest (by decide), State.modRoom_ne _ _ hq, room_of_rest hbefore (by decide)]
  · exact (same_of_rest (c := .handles) hrest (by decide)).trans (same_of_rest (c := .handles) hbefore (by decide))

theorem roomPin_pins (hr : Ready roomPinCmd h p k u) (hn : Numbered h u) (hstays : (u.room (field p 0 2)).st ≠ .leaving) :
    committed roomPinCmd h u (kExecute roomPinCmd k true u) .ok []
      ∧ (kExecute roomPinCmd k true u).room (field p 0 2) = pinRoom p (u.room (field p 0 2))
      ∧ (∀ q, q ≠ field p 0 2 → (kExecute roomPinCmd k true u).room q = u.room q)
      ∧ (kExecute roomPinCmd k true u).led.handles = u.led.handles :=
  kExecute_commit_modRoom hr hn (if_neg hstays) rfl

theorem roomPin_refused (hr : Ready roomPinCmd h p k u) (hn : Numbered h u) (hleaves : (u.room (field p 0 2)).st = .leaving) :
    refused 0x0602 true h u (kExecute roomPinCmd k true u) .roomLeaving [] :=
  refused_of_refuse hr hn (if_pos hleaves) (by decide) (by decide)

/-- A refusal leaves every room as it was. -/
theorem room_of_refused {code : Nat} {cached : Bool} {t : State} (href : refused code cached h u t st b) (r : Nat) : t.room r = u.room r := by
  obtain ⟨hnothing, -⟩ := href
  rw [hnothing]; rfl

theorem taken_room (c : KCmd) (h : CmdHdr) (s : State) (r : Nat) : (taken c h s).room r = s.room r := by
  unfold taken takenFrom; split <;> split <;> rfl

end

/-- Settles O50: a room-pin is one change of its room, or a refusal, by the room's state when its turn has come. -/
theorem roomPin : Obligations.RoomPin := by
  intro h p s hst
  dsimp only
  obtain ⟨k, hr, hn, -, hx, -⟩ := kcp_of_starts hst rfl
  have hnext : exec (.roomPin h p) s = .next (kExecute roomPinCmd k true (taken roomPinCmd h s)) := congrArg Host.Outcome.next hx
  have hroom := taken_room roomPinCmd h s
  constructor
  · intro hstays
    obtain ⟨hdone, hpinned, hothers, -⟩ := roomPin_pins hr hn (by rw [hroom]; exact hstays)
    exact ⟨_, hnext, hdone, by rw [hpinned, hroom]; rfl, fun q hq => (hothers q hq).trans (hroom q)⟩
  · intro hleaves
    have hrefused := roomPin_refused hr hn (by rw [hroom]; exact hleaves)
    exact ⟨_, hnext, hrefused, (room_of_refused hrefused _).trans (hroom _)⟩

end Sys2Proof.Machine
/-! ### Adapters loaded, checked out, deleted and read (R144, R159, R163, R355, R356) -/

namespace Sys2Proof.Machine

open Sys2Proof Sys2Proof.Safety

section
variable {h : CmdHdr} {p : Bytes} {host : HostRead} {k : Packet} {s u : State}

/-! #### room-pin, checkout (R158 to R160) -/

theorem roomPin_done (hst : starts roomPinCmd h p s = true) (hrules : moduleRules (.roomPin h p) (taken roomPinCmd h s) = true) :
    moduleDone roomPinCmd (.roomPin h p) (taken roomPinCmd h s) (kcp roomPinCmd h p s) := by
  obtain ⟨k, hr, hn, -, hx, -⟩ := kcp_of_starts hst rfl
  rw [hx]
  obtain ⟨hdone, hpinned, -, hhandles⟩ := roomPin_pins hr hn (of_decide_eq_true hrules)
  exact ⟨hdone, hpinned, hhandles⟩

/-- A checkout as its room keeps it. -/
def askedCheckout (h : CmdHdr) (p : Bytes) : Checkout := { ref := refOf h checkoutCmd.code, forced := decide (field p 2 1 = 1) }

/-- A room whose checkout waits for an update, a load or a read (R159). -/
def waitingRoom (h : CmdHdr) (p : Bytes) (x : Room) : Room :=
  { x with waiting := x.waiting ++ [askedCheckout h p], pinned := x.pinned && !decide (field p 2 1 = 1) }

theorem checkout_body (hrules : moduleRules (.checkout h p) u = true) : checkoutCmd.body u h p =
    if (u.room (field p 0 2)).st = .updating ∨ (u.room (field p 0 2)).st = .loading
        ∨ (u.handle (u.room (field p 0 2)).handle).reading ≠ [] then
      .long (fun s => s.modRoom (field p 0 2) (waitingRoom h p)) .accepted [] none
    else .long (fun s => leaveRoom s (field p 0 2) [askedCheckout h p]) .accepted [] none := by
  have hlet : field p 2 1 = 1 ∨ (u.room (field p 0 2)).refs = 0 ∧ (u.room (field p 0 2)).pinned = false := by
    simpa [moduleRules] using hrules
  refine (if_neg ?_).trans ((if_neg ?_).trans rfl)
  · rintro ⟨hunforced, hrefs⟩
    rcases hlet with hforced | ⟨hfree, -⟩
    · simp [hforced] at hunforced
    · omega
  · rintro ⟨hunforced, hpinned⟩
    rcases hlet with hforced | ⟨-, hunpinned⟩
    · simp [hforced] at hunforced
    · exact absurd hpinned (by simp [hunpinned])

theorem checkout_done (hst : starts checkoutCmd h p s = true) (hrules : moduleRules (.checkout h p) (taken checkoutCmd h s) = true) :
    moduleDone checkoutCmd (.checkout h p) (taken checkoutCmd h s) (kcp checkoutCmd h p s) := by
  obtain ⟨k, hr, hn, hl, hx, -⟩ := kcp_of_starts hst rfl
  rw [hx]
  generalize taken checkoutCmd h s = u at *
  have hb := checkout_body hrules
  have hbefore : rest [.version, .sessions, .longs, .fns] (accepting checkoutCmd h u .accepted []) = rest _ u :=
    accepting_rest hr (List.Subset.refl _)
  have hroom := room_of_rest hbefore (by decide) (field p 0 2)
  split at hb
  next hwaits =>
    have hrest := kExecute_long_rest (M := [.sessions, .stamped]) hr hn (hl rfl) hb (by decide)
    have hafter : (kExecute checkoutCmd k true u).room (field p 0 2) = waitingRoom h p (u.room (field p 0 2)) := by
      rw [room_of_rest hrest (by decide), State.modRoom_self, hroom]
    refine ⟨accepted1_of_long (M := [.rooms]) hr hn (hl rfl) hb (State.modRoom_rest (by decide) _ _ _) (by decide), fun _ => ?_,
      fun hupdating hloading hreading => ?_, fun hforced => ?_⟩
    · refine ⟨by rw [hafter]; rfl, by rw [hafter]; rfl, ?_⟩
      exact (same_of_rest (c := .handles) hrest (by decide)).trans (same_of_rest (c := .handles) hbefore (by decide))
    · rcases hwaits with h1 | h2 | h3
      · exact absurd h1 hupdating
      · exact absurd h2 hloading
      · exact absurd hreading h3
    · rw [hafter]; simp [waitingRoom, hforced]
  next hgoes =>
    have hrest := kExecute_long_rest (M := [.sessions, .stamped]) hr hn (hl rfl) hb (by decide)
    have hafter : (kExecute checkoutCmd k true u).room (field p 0 2)
        = leavingRoom (u.wing (u.room (field p 0 2)).wing) [askedCheckout h p] (u.room (field p 0 2)) := by
      rw [room_of_rest hrest (by decide), leaveRoom_room, hroom, wing_of_rest hbefore (by decide)]
    have hhandle : ((kExecute checkoutCmd k true u).handle (u.room (field p 0 2)).handle).st = .leaving := by
      rw [handle_of_rest hrest (by decide), ← hroom, leaveRoom_handle]
    refine ⟨accepted1_of_long (M := [.rooms, .handles]) hr hn (hl rfl) hb (leaveRoom_rest (by decide) _ _ _) (by decide),
      fun hwaits => absurd hwaits hgoes, fun _ _ _ => ⟨by rw [hafter]; rfl, hhandle, by rw [hafter]; rfl⟩, fun hforced => ?_⟩
    rw [hafter]; simp [leavingRoom, askedCheckout, hforced]

/-! #### adapter-read, adapter-status (R356) -/

theorem adapterRead_done (hst : starts adapterReadCmd h p s = true) (hrules : moduleRules (.adapterRead h p) (taken adapterReadCmd h s) = true) :
    moduleDone adapterReadCmd (.adapterRead h p) (taken adapterReadCmd h s) (kcp adapterReadCmd h p s) := by
  obtain ⟨k, hr, hn, hl, hx, -⟩ := kcp_of_starts hst rfl
  rw [hx]
  generalize taken adapterReadCmd h s = u at *
  simp only [moduleRules, Bool.and_eq_true, Bool.not_eq_true', Bool.and_eq_false_iff, decide_eq_true_eq, decide_eq_false_iff_not] at hrules
  obtain ⟨⟨haway, hdamaged, habsent⟩, hspace⟩ := hrules
  have hb : adapterReadCmd.body u h p = .long (fun s => s.modHandle (field p 0 2) (fun x =>
      { x with reading := x.reading ++ [refOf h adapterReadCmd.code] })) .accepted [] none := by
    refine (if_neg ?_).trans ((if_neg (by simp [hdamaged, habsent])).trans (if_neg (by omega)))
    rintro ⟨hhome, hhost⟩
    exact haway.elim (fun hne => hne hhome) (fun hloft => by simp [hhost] at hloft)
  have hrest := kExecute_long_rest (M := [.sessions, .stamped]) hr hn (hl rfl) hb (by decide)
  have hbefore : rest [.version, .sessions, .longs, .fns] (accepting adapterReadCmd h u .accepted []) = rest _ u :=
    accepting_rest hr (List.Subset.refl _)
  refine ⟨accepted1_of_long (M := [.handles]) hr hn (hl rfl) hb (State.modHandle_rest (by decide) _ _ _) (by decide), ?_⟩
  rw [handle_of_rest hrest (by decide), State.modHandle_self, handle_of_rest hbefore (by decide)]

theorem adapterStatus_done (hst : starts adapterStatusCmd h p s = true) :
    moduleDone adapterStatusCmd (.adapterStatus h p) (taken adapterStatusCmd h s) (kcp adapterStatusCmd h p s) := by
  obtain ⟨k, hr, hn, -, hx, -⟩ := kcp_of_starts hst rfl
  rw [hx]
  exact answered_of_query hr hn rfl

/-! #### adapter-delete (R163) -/

/-- A deletion's first part: the handle's serving sessions, its adapter-reads and its load end. -/
def endUses (i : Nat) (s : State) : State :=
  let t := endReads (dropSessions s i) i
  if (s.handle i).load.isSome then failLoad t i .adapterBad else t

/-- The room of a handle that is deleted there, discarded once no pass in flight uses it (R163). -/
def discardRoom (x : Handle) (s : State) : State :=
  if x.st = .resident ∨ x.st = .leaving then
    settleDiscard (s.modRoom x.room (fun r => { r with st := .leaving, discard := true, pinned := false })) x.room
  else s

/-- A handle's number as it stands once it is free. -/
def freedHandle (x : Handle) : Handle := { (default : Handle) with gen := x.gen }

theorem deleteHandle_eq (i : Nat) (s : State) : deleteHandle i s =
    (freeObj (discardRoom (s.handle i) (endUses i s)) (s.handle i).obj).modHandle i freedHandle := rfl

theorem dropSessions_ends (s : State) (i : Nat) : EndsOnly s (dropSessions s i) :=
  .of_rest (M := [.wings]) (dropSessions_rest (by decide) s i) (by decide) (by decide)

theorem endUses_ends (i : Nat) (s : State) : EndsOnly s (endUses i s) := by
  have hreads := (dropSessions_ends s i).trans (endReads_ends (dropSessions s i) i)
  unfold endUses
  dsimp only
  split
  · exact hreads.trans (failLoad_ends _ _ _)
  · exact hreads

theorem discardRoom_ends (x : Handle) (s : State) : EndsOnly s (discardRoom x s) := by
  unfold discardRoom
  split
  · refine EndsOnly.trans ?_ (settleDiscard_ends _ _)
    exact .of_rest (M := [.rooms]) (State.modRoom_rest (by decide) _ _ _) (by decide) (by decide)
  · exact .refl s

theorem discardRoom_rest {M : List Component} (hM : [.fns, .keeper, .sessions, .longs, .rooms] ⊆ M) (x : Handle) (s : State) :
    rest M (discardRoom x s) = rest M s := by
  unfold discardRoom
  split
  · exact (settleDiscard_rest hM _ _).trans (State.modRoom_rest (hM (by decide)) _ _ _)
  · rfl

theorem deletion_rest (i : Nat) (s : State) : rest [.objects, .handles] (deleteHandle i s) =
    rest [.objects, .handles] (discardRoom (s.handle i) (endUses i s)) := by
  rw [deleteHandle_eq, State.modHandle_rest (by decide), freeObj_rest (by decide)]

theorem deleteHandle_ends (i : Nat) (s : State) : EndsOnly s (deleteHandle i s) :=
  ((endUses_ends i s).trans (discardRoom_ends _ _)).trans (.of_rest (deletion_rest i s) (by decide) (by decide))

/-- No adapter-read of a deleted handle is outstanding (R356). -/
theorem deleteHandle_not_long {i : Nat} {ref : CmdRef} (href : ref ∈ (s.handle i).reading) : ref ∉ (deleteHandle i s).led.longs := by
  have hsame : (dropSessions s i).handle i = s.handle i := handle_of_rest (dropSessions_rest (M := [.wings]) (by decide) s i) (by decide) i
  have hread : ref ∉ (endReads (dropSessions s i) i).led.longs := endReads_not_long (by rw [hsame]; exact href)
  have hused : ref ∉ (endUses i s).led.longs := by
    unfold endUses
    dsimp only
    split
    · exact (failLoad_ends _ _ _).not_long hread
    · exact hread
  rw [longs_of_rest (deletion_rest i s) (by decide)]
  exact (discardRoom_ends _ _).not_long hused

/-- The end of its uses leaves a handle its generation. -/
theorem endUses_gen (i : Nat) (s : State) : ((endUses i s).handle i).gen = (s.handle i).gen := by
  have hsame : (dropSessions s i).handle i = s.handle i := handle_of_rest (dropSessions_rest (M := [.wings]) (by decide) s i) (by decide) i
  have hreads : (endReads (dropSessions s i) i).handle i = { s.handle i with reading := [] } := by rw [endReads_handle, hsame]
  unfold endUses
  dsimp only
  split
  next hsome =>
    obtain ⟨l, hl⟩ := Option.isSome_iff_exists.mp hsome
    rw [failLoad_handle (l := l) (by rw [hreads]; exact hl), hreads]
    rfl
  · rw [hreads]

theorem deleteHandle_handle (i : Nat) (s : State) :
    ((deleteHandle i s).handle i).st = .unused ∧ ((deleteHandle i s).handle i).gen = (s.handle i).gen := by
  have hgen : ((freeObj (discardRoom (s.handle i) (endUses i s)) (s.handle i).obj).handle i).gen = (s.handle i).gen := by
    rw [handle_of_rest (freeObj_rest (M := [.objects]) (by decide) _ _) (by decide),
      handle_of_rest (discardRoom_rest (List.Subset.refl _) _ _) (by decide), endUses_gen]
  rw [deleteHandle_eq, State.modHandle_self]
  exact ⟨rfl, hgen⟩

theorem deleteHandle_obj (i : Nat) (s : State) : ((deleteHandle i s).obj (s.handle i).obj).live = false := by
  rw [deleteHandle_eq, obj_of_rest (State.modHandle_rest (M := [.handles]) (by decide) _ _ _) (by decide), freeObj, State.modObj_self]
  rfl

theorem endUses_rest (i : Nat) (s : State) : rest [.fns, .keeper, .sessions, .longs, .wings, .objects, .rooms, .handles] (endUses i s) =
    rest [.fns, .keeper, .sessions, .longs, .wings, .objects, .rooms, .handles] s := by
  have hreads := (endReads_rest (M := [.fns, .keeper, .sessions, .longs, .wings, .objects, .rooms, .handles]) (by decide)
    (dropSessions s i) i).trans (dropSessions_rest (by decide) s i)
  unfold endUses
  dsimp only
  split
  · exact (failLoad_rest (by decide) _ _ _).trans hreads
  · exact hreads

theorem deleteHandle_version (i : Nat) (s : State) : (deleteHandle i s).led.version = s.led.version := by
  rw [version_of_rest (deletion_rest i s) (by decide), version_of_rest (discardRoom_rest (List.Subset.refl _) _ _) (by decide),
    version_of_rest (endUses_rest i s) (by decide)]

theorem adapterDelete_done (hst : starts adapterDeleteCmd h p s = true) :
    moduleDone adapterDeleteCmd (.adapterDelete h p) (taken adapterDeleteCmd h s) (kcp adapterDeleteCmd h p s) := by
  obtain ⟨k, hr, hn, -, hx, -⟩ := kcp_of_starts hst rfl
  rw [hx]
  generalize taken adapterDeleteCmd h s = u at *
  have hb : adapterDeleteCmd.body u h p = .commit (deleteHandle (field p 0 2)) .ok [] := rfl
  have hrest := kExecute_commit_rest (M := [.sessions, .stamped]) hr hn hb rfl (by decide)
  have hbefore : rest [.version, .sessions, .fns] (committing adapterDeleteCmd h u .ok []) = rest _ u :=
    committing_rest hr (List.Subset.refl _)
  have hhandle := handle_of_rest hbefore (by decide) (field p 0 2)
  obtain ⟨hunused, hgen⟩ := deleteHandle_handle (field p 0 2) (committing adapterDeleteCmd h u .ok [])
  refine ⟨?_, concluded_of_ends hr hn hb rfl (deleteHandle_ends _ _), ?_, ?_, ?_, fun ref href => ?_⟩
  · rw [version_of_rest hrest (by decide), deleteHandle_version, committing_version hr]
  · rw [handle_of_rest hrest (by decide)]; exact hunused
  · rw [handle_of_rest hrest (by decide), hgen, hhandle]
  · rw [obj_of_rest hrest (by decide), ← hhandle]; exact deleteHandle_obj _ _
  · rw [longs_of_rest hrest (by decide)]; exact deleteHandle_not_long (by rw [hhandle]; exact href)

end

end Sys2Proof.Machine
/-! ### The command adapter-load (R144, R355) -/

namespace Sys2Proof.Machine

open Sys2Proof Sys2Proof.Safety

section
variable {h : CmdHdr} {p : Bytes} {host : HostRead} {k : Packet} {s u : State} {r : Nat} {place : Place}

/-- The image that the source of an adapter-load shows, before the agreements of R144. -/
def imageRead (u : State) (h : CmdHdr) (p : Bytes) (host : HostRead) : Option Image :=
  if field p 2 1 = 1 then some (u.handle (field p 0 2)).image
  else (hostBytes u h.fn host).bind (parseImage (baseLayers u (field p 3 1)))

/-- The agreements of R144 for an adapter-load. -/
def loadAgrees (u : State) (p : Bytes) (m : Image) : Bool :=
  imageAgrees u (field p 3 1) (if (u.handle (field p 0 2)).st = .unused then field p 12 2 else (u.handle (field p 0 2)).owner) m
    (if field p 2 1 = 1 then none else some (field p 24 8))

/-- The image to load is the one read, where it agrees. -/
theorem imageToLoad_eq (u : State) (h : CmdHdr) (p : Bytes) (host : HostRead) :
    imageToLoad u h p host = (imageRead u h p host).filter (loadAgrees u p) := by
  unfold imageToLoad imageRead loadAgrees
  by_cases hloft : field p 2 1 = 1
  · simp only [if_pos hloft, Option.filter_some]
  · simp only [if_neg hloft]
    cases hostBytes u h.fn host with
    | none => rfl
    | some b => rfl

/-- The load that an adapter-load starts. -/
def askedLoad (u : State) (h : CmdHdr) (p : Bytes) (host : HostRead) (r : Nat) : Load :=
  { fromLoft := decide (field p 2 1 = 1), ref := some (refOf h 0x0601), room := r, image := (imageRead u h p host).getD default
    first := decide ((u.handle (field p 0 2)).st = .unused), before := (u.handle (field p 0 2)).st, blocks := [], reload := false }

/-- The handle of an adapter-load made ready: a first load fixes it, a later one from the host may move its home (R141, R355). -/
def handleReady (u : State) (h : CmdHdr) (p : Bytes) (s : State) : State :=
  if (u.handle (field p 0 2)).st = .unused then
    (newRoomObj s p (loadBytes u p)).modHandle (field p 0 2) (firstLoad p h.fn (freeObjNumber s))
  else if field p 2 1 = 1 then s
  else s.modHandle (field p 0 2) (fun x => if x.homeHost then { x with hostAddr := field p 16 8, hostFn := h.fn } else x)

/-- What an adapter-load does beside its record and reply. -/
def loadBegun (u : State) (h : CmdHdr) (p : Bytes) (host : HostRead) (r : Nat) (place : Place) (s : State) : State :=
  (startLoad (handleReady u h p s) (field p 0 2) (field p 3 1) r place (askedLoad u h p host r)).modRoom r
    (fun x => { x with mib := roomMib (loadBytes u p) })

/-- The end of an adapter-load whose image cannot be loaded. -/
def loadRejected (h : CmdHdr) (p : Bytes) (host : HostRead) (s : State) : State :=
  failLoad s.bump (field p 0 2) (if (hostBytes s h.fn host).isNone ∧ !decide (field p 2 1 = 1) then .hostAccessFault else .adapterBad)

/-- The interim payload of an adapter-load. -/
def loadReply (u : State) (r : Nat) : Bytes := leBytes 2 r ++ leBytes 2 0 ++ leBytes 4 (Nat.max (u.room r).gen 1)

theorem adapterLoad_body (hrules : moduleRules (.adapterLoad h p host) u = true) :
    ∃ r place, roomToLoad u p = some (r, place) ∧ (adapterLoadCmd host).body u h p =
      .long (loadBegun u h p host r place) .accepted (loadReply u r)
        (if (imageToLoad u h p host).isSome then none else some (loadRejected h p host)) := by
  simp only [moduleRules, Bool.and_eq_true, Bool.not_eq_true', decide_eq_true_eq] at hrules
  obtain ⟨⟨hrefused, hfull⟩, hroom⟩ := hrules
  obtain ⟨⟨r, place⟩, hfound⟩ := Option.isSome_iff_exists.mp hroom
  refine ⟨r, place, hfound, ?_⟩
  have hroomy : ¬(decide ((u.handle (field p 0 2)).st = .unused ∧ (262144 ≤ liveObjects u ∨ 262144 ≤ freeObjNumber u)) = true) := by
    simpa using hfull
  unfold roomToLoad loadBytes at hfound
  unfold adapterLoadCmd
  dsimp only
  rw [hrefused]
  dsimp only
  rw [if_neg hroomy]
  simp only [decide_eq_true_eq]
  rw [hfound]
  dsimp only
  congr 1
  · funext s
    unfold loadBegun handleReady askedLoad imageRead loadBytes
    by_cases hfirst : (u.handle (field p 0 2)).st = .unused
    · simp only [if_pos hfirst]
    · simp only [if_neg hfirst]
  · rw [imageToLoad_eq, Option.isSome_filter]
    unfold imageRead loadAgrees
    by_cases hloft : field p 2 1 = 1
    · simp only [if_pos hloft]
      rfl
    · simp only [if_neg hloft]
      cases (hostBytes u h.fn host).bind (parseImage (baseLayers u (field p 3 1))) with
      | none => rfl
      | some m => rfl

/-- An adapter-load of a handle that is being checked out is refused (Table 13.11). -/
theorem not_leaving_of_not_refused (hrefused : loadRefused u p = none) : (u.handle (field p 0 2)).st ≠ .leaving := by
  intro hleaving
  unfold loadRefused at hrefused
  dsimp only at hrefused
  rw [if_pos (.inr (.inl hleaving))] at hrefused
  cases hrefused

theorem handleReady_rest (u : State) (h : CmdHdr) (p : Bytes) (s : State) :
    rest [.objects, .handles] (handleReady u h p s) = rest [.objects, .handles] s := by
  unfold handleReady
  split_ifs
  · exact (State.modHandle_rest (by decide) _ _ _).trans (State.modObj_rest (by decide) _ _ _)
  · rfl
  · exact State.modHandle_rest (by decide) _ _ _

/-- A handle made ready is as far as it was. -/
theorem handleReady_st (hs : s.handle (field p 0 2) = u.handle (field p 0 2)) :
    ((handleReady u h p s).handle (field p 0 2)).st = (u.handle (field p 0 2)).st := by
  unfold handleReady
  split_ifs with hfirst hloft
  · rw [State.modHandle_self, hfirst]; rfl
  · rw [hs]
  · rw [State.modHandle_self, hs]
    split
    · rfl
    · rfl

theorem handleReady_first (hs : s.handle (field p 0 2) = u.handle (field p 0 2)) (hfirst : (u.handle (field p 0 2)).st = .unused) :
    (handleReady u h p s).handle (field p 0 2) = firstLoad p h.fn (freeObjNumber s) (u.handle (field p 0 2)) := by
  unfold handleReady
  rw [if_pos hfirst, State.modHandle_self, ← hs]
  rfl

theorem loadBegun_rest (u : State) (h : CmdHdr) (p : Bytes) (host : HostRead) (r : Nat) (place : Place) (s : State) :
    rest [.objects, .rooms, .handles] (loadBegun u h p host r place s) = rest [.objects, .rooms, .handles] s := by
  unfold loadBegun
  rw [State.modRoom_rest (by decide), startLoad_rest (by decide)]
  exact rest_mono (handleReady_rest u h p s) (by decide)

/-- A handle with a load that has begun. -/
def loadingHandle (l : Load) (x : Handle) : Handle :=
  { x with load := some l, st := if x.st = .resident ∨ x.st = .leaving then x.st else .loading }

theorem startLoad_handle (s : State) (i w r : Nat) (place : Place) (l : Load) :
    (startLoad s i w r place l).handle i = loadingHandle l (s.handle i) := State.modHandle_self _ _ _

theorem loadBegun_handle (u : State) (h : CmdHdr) (p : Bytes) (host : HostRead) (r : Nat) (place : Place) (s : State) :
    (loadBegun u h p host r place s).handle (field p 0 2) =
      loadingHandle (askedLoad u h p host r) ((handleReady u h p s).handle (field p 0 2)) := by
  unfold loadBegun
  rw [handle_of_rest (State.modRoom_rest (M := [.rooms]) (by decide) _ _ _) (by decide), startLoad_handle]

/-- The state of a handle whose load has begun: an old image serves on (R144, R145). -/
theorem loadBegun_handle_st (hs : s.handle (field p 0 2) = u.handle (field p 0 2)) (hstays : (u.handle (field p 0 2)).st ≠ .leaving) :
    ((loadBegun u h p host r place s).handle (field p 0 2)).st = if (u.handle (field p 0 2)).st = .resident then .resident else .loading := by
  rw [loadBegun_handle]
  unfold loadingHandle
  dsimp only
  rw [handleReady_st hs]
  by_cases hresident : (u.handle (field p 0 2)).st = .resident
  · rw [if_pos (.inl hresident), if_pos hresident, hresident]
  · rw [if_neg (by simp [hresident, hstays]), if_neg hresident]

/-- A room with a load that has begun. -/
def loadingRoom (i w : Nat) (place : Place) (l : Load) (x : Room) : Room :=
  { x with gen := Nat.max x.gen 1, st := .loading, handle := i, wing := w, place := place, mib := roomMib l.image.bytes, arrived := 0 }

theorem startLoad_room (s : State) (i w r : Nat) (place : Place) (l : Load) :
    (startLoad s i w r place l).room r = loadingRoom i w place l (s.room r) := State.modRoom_self s r (loadingRoom i w place l)

theorem loadBegun_room (u : State) (h : CmdHdr) (p : Bytes) (host : HostRead) (r : Nat) (place : Place) (s : State) :
    ((loadBegun u h p host r place s).room r).st = .loading ∧ ((loadBegun u h p host r place s).room r).handle = field p 0 2
      ∧ ((loadBegun u h p host r place s).room r).wing = field p 3 1 ∧ ((loadBegun u h p host r place s).room r).place = place := by
  unfold loadBegun
  rw [State.modRoom_self, startLoad_room]
  exact ⟨rfl, rfl, rfl, rfl⟩

/-! #### The load goes on, or ends at once -/

theorem adapterLoad_accepted {m : Image} (hr : Ready (adapterLoadCmd host) h p k u) (hn : Numbered h u) (hl : (u.sess (ownKey h)).longs < 64)
    (hstays : (u.handle (field p 0 2)).st ≠ .leaving) (himage : imageToLoad u h p host = some m)
    (hb : (adapterLoadCmd host).body u h p = .long (loadBegun u h p host r place) .accepted (loadReply u r) none)
    {t : State} (ht : t = kExecute (adapterLoadCmd host) k true u) :
    accepted1 (adapterLoadCmd host) h u t (loadReply u r)
      ∧ (∃ l, (t.handle (field p 0 2)).load = some l ∧ l.room = r ∧ l.image = m ∧ l.blocks = [] ∧ l.fromLoft = decide (field p 2 1 = 1)
          ∧ l.ref = some (refOf h (adapterLoadCmd host).code))
      ∧ (t.handle (field p 0 2)).st = (if (u.handle (field p 0 2)).st = .resident then .resident else .loading)
      ∧ ((u.handle (field p 0 2)).st = .unused →
          (t.handle (field p 0 2)).gen = (u.handle (field p 0 2)).gen + 1 ∧ (t.handle (field p 0 2)).owner = field p 12 2)
      ∧ (t.room r).st = .loading ∧ (t.room r).handle = field p 0 2 ∧ (t.room r).wing = field p 3 1 ∧ (t.room r).place = place := by
  subst ht
  have hrest := kExecute_long_rest (M := [.sessions, .stamped]) hr hn hl hb (by decide)
  have hbefore : (accepting (adapterLoadCmd host) h u .accepted (loadReply u r)).handle (field p 0 2) = u.handle (field p 0 2) :=
    handle_of_rest (accepting_rest hr (List.Subset.refl _)) (by decide) _
  have hhandle := handle_of_rest hrest (by decide) (field p 0 2)
  have himage' : (askedLoad u h p host r).image = m := by
    rw [imageToLoad_eq, Option.filter_eq_some_iff] at himage
    obtain ⟨hread, -⟩ := himage
    unfold askedLoad
    rw [hread]
    rfl
  refine ⟨accepted1_of_long hr hn hl hb (loadBegun_rest u h p host r place _) (by decide),
    ⟨askedLoad u h p host r, by rw [hhandle, loadBegun_handle]; rfl, rfl, himage', rfl, rfl, rfl⟩, ?_, fun hfirst => ?_, ?_⟩
  · rw [hhandle, loadBegun_handle_st hbefore hstays]
  · rw [hhandle, loadBegun_handle, handleReady_first hbefore hfirst]
    exact ⟨rfl, rfl⟩
  · rw [room_of_rest hrest (by decide)]
    exact loadBegun_room u h p host r place _

/-- A load that has begun and is rejected at once leaves its handle as far as it was (R144). -/
theorem loadFailed_begun_st (hs : s.handle (field p 0 2) = u.handle (field p 0 2)) (hstays : (u.handle (field p 0 2)).st ≠ .leaving) :
    (loadFailed (askedLoad u h p host r) ((loadBegun u h p host r place s).handle (field p 0 2))).st = (u.handle (field p 0 2)).st := by
  unfold loadFailed
  dsimp only
  rw [loadBegun_handle_st hs hstays]
  by_cases hresident : (u.handle (field p 0 2)).st = .resident
  · rw [if_pos hresident, if_neg (by decide), hresident]
  · rw [if_neg hresident, if_pos rfl]; rfl

/-- What a host's read gave is the same to a load that has begun. -/
theorem loadBegun_hostBytes (hr : Ready (adapterLoadCmd host) h p k u) (b : Bytes) :
    hostBytes (loadBegun u h p host r place (accepting (adapterLoadCmd host) h u .accepted b)) h.fn host = hostBytes u h.fn host := by
  have hbegun := loadBegun_rest u h p host r place (accepting (adapterLoadCmd host) h u .accepted b)
  refine hostBytes_congr ?_ ?_ host
  · exact (same_of_rest (c := .link) hbegun (by decide)).trans (accepting_link hr _ _)
  · exact (congrArg (fun f => outsideQueues (tgetD Fn.blank f h.fn)) (same_of_rest (c := .fns) hbegun (by decide))).trans
      (accepting_outside _ _ _ _ _ _)

/-- Why an adapter-load whose image cannot be loaded ends (R144, Table 14.4). -/
def rejection (u : State) (h : CmdHdr) (p : Bytes) (host : HostRead) : Status :=
  if (hostBytes u h.fn host).isNone ∧ field p 2 1 = 0 then .hostAccessFault else .adapterBad

theorem loadRejected_eq (hsource : field p 2 1 < 2) (hread : hostBytes s h.fn host = hostBytes u h.fn host) :
    loadRejected h p host s = failLoad s.bump (field p 0 2) (rejection u h p host) := by
  unfold loadRejected rejection
  rw [hread]
  congr 2
  simp only [Bool.not_eq_true', decide_eq_false_iff_not, eq_iff_iff, and_congr_right_iff]
  omega

theorem adapterLoad_rejected (hr : Ready (adapterLoadCmd host) h p k u) (hn : Numbered h u) (hl : (u.sess (ownKey h)).longs < 64)
    (hsource : field p 2 1 < 2) (hstays : (u.handle (field p 0 2)).st ≠ .leaving)
    (hb : (adapterLoadCmd host).body u h p = .long (loadBegun u h p host r place) .accepted (loadReply u r) (some (loadRejected h p host)))
    {t : State} (ht : t = kExecute (adapterLoadCmd host) k true u) :
    finished (adapterLoadCmd host) h t (rejection u h p host) [] ∧ (t.handle (field p 0 2)).load = none
      ∧ (t.handle (field p 0 2)).st = (u.handle (field p 0 2)).st ∧ (t.room r).st = .free := by
  subst ht
  have hrest := kExecute_long_done_rest (M := [.sessions, .stamped]) hr hn hl hb (by decide)
  have hbegun := loadBegun_rest u h p host r place (accepting (adapterLoadCmd host) h u .accepted (loadReply u r))
  have heq := loadRejected_eq hsource (loadBegun_hostBytes (r := r) (place := place) hr (loadReply u r))
  have hst := loadFailed_begun_st (h := h) (host := host) (r := r) (place := place) (s := accepting (adapterLoadCmd host) h u .accepted (loadReply u r))
    (handle_of_rest (accepting_rest (M := [.version, .sessions, .longs, .fns]) hr (List.Subset.refl _)) (by decide) _) hstays
  have hload : ((loadBegun u h p host r place (accepting (adapterLoadCmd host) h u .accepted (loadReply u r))).handle (field p 0 2)).load
      = some (askedLoad u h p host r) := by rw [loadBegun_handle]; rfl
  generalize hv : loadBegun u h p host r place (accepting (adapterLoadCmd host) h u .accepted (loadReply u r)) = v at *
  have hbump := State.bump_rest (M := [.keeper, .version]) (by decide) v
  have hhandle := handle_of_rest hbump (by decide) (field p 0 2)
  rw [← hhandle] at hst hload
  have hends : EndsOnly (accepting (adapterLoadCmd host) h u .accepted (loadReply u r)) v.bump :=
    EndsOnly.trans (.of_rest hbegun (by decide) (by decide)) (.of_rest hbump (by decide) (by decide))
  refine ⟨finished_of_ends hr hn hl hb ?_ (hends.trans (loadDropped_ends v.bump (field p 0 2) (askedLoad u h p host r))), ?_, ?_, ?_⟩
  · rw [hv, heq, failLoad_eq hload]; rfl
  · rw [handle_of_rest hrest (by decide), heq, failLoad_handle hload]; rfl
  · rw [handle_of_rest hrest (by decide), heq, failLoad_handle hload]; exact hst
  · rw [room_of_rest hrest (by decide), heq]
    exact congrArg Room.st (failLoad_room hload _)

theorem adapterLoad_done (hst : starts (adapterLoadCmd host) h p s = true)
    (hrules : moduleRules (.adapterLoad h p host) (taken (adapterLoadCmd host) h s) = true) :
    moduleDone (adapterLoadCmd host) (.adapterLoad h p host) (taken (adapterLoadCmd host) h s) (kcp (adapterLoadCmd host) h p s) := by
  obtain ⟨k, hr, hn, hl, hx, -⟩ := kcp_of_starts hst rfl
  have hparse := parse_of_starts hst
  rw [hx]
  generalize taken (adapterLoadCmd host) h s = u at *
  obtain ⟨r, place, hfound, hb⟩ := adapterLoad_body hrules
  have hstays : (u.handle (field p 0 2)).st ≠ .leaving := by
    simp only [moduleRules, Bool.and_eq_true, decide_eq_true_eq] at hrules
    obtain ⟨⟨hrefused, -⟩, -⟩ := hrules
    exact not_leaving_of_not_refused hrefused
  have hsource : field p 2 1 < 2 := by
    simp only [adapterLoadCmd, Bool.and_eq_true, decide_eq_true_eq] at hparse
    obtain ⟨-, hsource, -⟩ := hparse
    exact hsource
  refine ⟨r, place, hfound, fun m himage => ?_, fun himage => ?_⟩
  · rw [himage] at hb
    exact adapterLoad_accepted hr hn (hl rfl) hstays himage hb rfl
  · rw [himage] at hb
    exact adapterLoad_rejected hr hn (hl rfl) hsource hstays hb rfl

end

/-- Settles O22: each of the commands goes through the keeper's own steps, and its effect is read off the rooms and handles it changes. -/
theorem adapterCommands : Obligations.AdapterCommands := by
  intro i c h p s hi hc hst hrules
  cases i with
  | adapterLoad => cases hc; exact ⟨_, rfl, adapterLoad_done hst hrules⟩
  | roomPin => cases hc; exact ⟨_, rfl, roomPin_done hst hrules⟩
  | checkout => cases hc; exact ⟨_, rfl, checkout_done hst hrules⟩
  | adapterDelete => cases hc; exact ⟨_, rfl, adapterDelete_done hst⟩
  | adapterRead => cases hc; exact ⟨_, rfl, adapterRead_done hst hrules⟩
  | adapterStatus => cases hc; exact ⟨_, rfl, adapterStatus_done hst⟩
  | _ => cases hi

end Sys2Proof.Machine
/-! ### Rooms and objects moved (chapters 7 and 8) -/

namespace Sys2Proof.Machine

open Sys2Proof Sys2Proof.Safety

section
variable {s : State} {i r : Nat} {l : Load}

/-! #### A load's commit (R144, R145) -/

/-- A handle whose load has committed. -/
def residentHandle (l : Load) (x : Handle) : Handle :=
  { x with st := .resident, room := l.room, image := l.image, blocks := l.blocks, home := default, load := none }

/-- A room whose load has committed. -/
def readyRoom (x : Room) : Room := { x with st := .ready }

/-- A load's commit up to its final reply. -/
def loadCommitted (s : State) (i : Nat) (l : Load) : State :=
  let t := (s.modRoom l.room readyRoom).modHandle i (residentHandle l)
  chargeBytes (countReload t (s.room l.room).wing i l) (some (t.handle i).owner) l.image.bytes

theorem commitLoad_eq (s : State) (i : Nat) (l : Load) : commitLoad s i l =
    finishOpt (loadCommitted s i l) l.ref .ok (loadPayload (loadCommitted s i l) i l.room) := rfl

theorem loadCommitted_rest (s : State) (i : Nat) (l : Load) : rest [.wings, .tally] (loadCommitted s i l) =
    rest [.wings, .tally] ((s.modRoom l.room readyRoom).modHandle i (residentHandle l)) := by
  unfold loadCommitted
  dsimp only
  rw [chargeBytes_rest (by decide), countReload_rest (by decide)]

/-- What a load's commit leaves is told by its room and handle, a reload's counts and the final reply apart. -/
theorem commitLoad_replies (s : State) (i : Nat) (l : Load) : rest (.wings :: .tally :: finalParts) (commitLoad s i l) =
    rest (.wings :: .tally :: finalParts) ((s.modRoom l.room readyRoom).modHandle i (residentHandle l)) := by
  rw [commitLoad_eq, finishOpt_rest (by decide)]
  exact rest_mono (loadCommitted_rest s i l) (by decide)

theorem commitLoad_handle (s : State) (i : Nat) (l : Load) : (commitLoad s i l).handle i = residentHandle l (s.handle i) := by
  rw [handle_of_rest (commitLoad_replies s i l) (by decide), State.modHandle_self]
  rfl

theorem commitLoad_room (s : State) (i : Nat) (l : Load) : (commitLoad s i l).room l.room = readyRoom (s.room l.room) := by
  rw [room_of_rest (commitLoad_replies s i l) (by decide), room_of_rest (State.modHandle_rest (M := [.handles]) (by decide) _ _ _) (by decide),
    State.modRoom_self]

theorem commitLoad_room_ne (s : State) (i : Nat) {l : Load} (hr : r ≠ l.room) : (commitLoad s i l).room r = s.room r := by
  rw [room_of_rest (commitLoad_replies s i l) (by decide), room_of_rest (State.modHandle_rest (M := [.handles]) (by decide) _ _ _) (by decide),
    State.modRoom_ne _ _ hr]

theorem commitLoad_version (s : State) (i : Nat) (l : Load) : (commitLoad s i l).led.version = s.led.version := by
  rw [version_of_rest (commitLoad_replies s i l) (by decide)]; rfl

theorem commitLoad_not_long (s : State) (i : Nat) {ref : CmdRef} (href : l.ref = some ref) : ref ∉ (commitLoad s i l).led.longs := by
  rw [commitLoad_eq]; exact finishOpt_not_long _ _ _ href

/-- A wing whose counts show a reload (R161). -/
def reloadCounted (l : Load) (x : Wing) : Wing :=
  { x with stall :=
      { x.stall with
        reloadsLoft := x.stall.reloadsLoft + (if l.fromLoft then 1 else 0), reloadsHost := x.stall.reloadsHost + (if l.fromLoft then 0 else 1)
        reloadBytes := wrapAdd x.stall.reloadBytes l.image.bytes } }

theorem charge_wings (s : State) (party : Nat) (c : Counts) : (charge s party c).led.wings = s.led.wings :=
  same_of_rest (c := .wings) (charge_rest (M := [.tally]) (by decide) s party c) (by decide)

/-- A load's commit counts a reload in its wing, and leaves wings otherwise alone (R161). -/
theorem commitLoad_wings (s : State) (i : Nat) (l : Load) : (commitLoad s i l).led.wings = s.led.wings
    ∨ (commitLoad s i l).led.wings = tmod s.led.wings (s.room l.room).wing (reloadCounted l) := by
  have hfinish : (commitLoad s i l).led.wings = (loadCommitted s i l).led.wings := by
    rw [commitLoad_eq]
    exact same_of_rest (c := .wings) (finishOpt_rest (M := finalParts) (List.Subset.refl _) _ _ _ _) (by decide)
  have hcharge : (loadCommitted s i l).led.wings =
      (countReload ((s.modRoom l.room readyRoom).modHandle i (residentHandle l)) (s.room l.room).wing i l).led.wings := charge_wings _ _ _
  rw [hfinish, hcharge]
  unfold countReload
  split
  · exact .inl rfl
  · refine .inr ?_
    exact charge_wings (((s.modRoom l.room readyRoom).modHandle i (residentHandle l)).modWing (s.room l.room).wing (reloadCounted l)) _ _

theorem commitLoad_leaving (s : State) (i : Nat) (l : Load) (w : Nat) : ((commitLoad s i l).wing w).leaving = (s.wing w).leaving := by
  rcases commitLoad_wings s i l with hsame | hmod
  · exact congrArg (fun t => (tget t w).leaving) hsame
  · exact (congrArg (fun t => (tget t w).leaving) hmod).trans
      (modWing_keeps Wing.leaving s (s.room l.room).wing (g := reloadCounted l) (fun _ => rfl) w)

theorem commitLoad_twf (s : State) (i : Nat) (l : Load) (hwf : twf default s.led.wings = true) :
    twf default (commitLoad s i l).led.wings = true := by
  rcases commitLoad_wings s i l with hsame | hmod
  · rw [hsame]; exact hwf
  · rw [hmod]; exact twf_tmod _ _ hwf

theorem bump_room (s : State) (r : Nat) : s.bump.room r = s.room r :=
  room_of_rest (State.bump_rest (M := [.keeper, .version]) (by decide) s) (by decide) r

theorem bump_handle (s : State) (i : Nat) : s.bump.handle i = s.handle i :=
  handle_of_rest (State.bump_rest (M := [.keeper, .version]) (by decide) s) (by decide) i

theorem bump_wing (s : State) (w : Nat) : s.bump.wing w = s.wing w :=
  wing_of_rest (State.bump_rest (M := [.keeper, .version]) (by decide) s) (by decide) w

/-! #### POINT_ARRIVAL (R144) -/

/-- A load with one block more. -/
def withBlock (l : Load) (block : Bytes) : Load := { l with blocks := l.blocks ++ [block] }

/-- A block's arrival noted in its load and its room. -/
def blockArrived (r i : Nat) (l : Load) (block : Bytes) (s : State) : State :=
  (s.modHandle i (fun x => { x with load := some (withBlock l block) })).modRoom r (fun x => { x with arrived := x.arrived + 1 })

/-- A load failed by a block that does not match; an image from its Loft home is damaged there (R144, R166). -/
def blockRefused (i : Nat) (l : Load) (s : State) : State :=
  let t := failLoad s.bump i .adapterBad
  if l.fromLoft then notify (damageHandle t i) .adapterDigest (atHandle t i) [i, l.blocks.length] else t

section
variable {block : Bytes}

theorem arriving_of_completes (h : roomCompletes (.pointArrival r block) s = true) (hl : (s.handle (s.room r).handle).load = some l) :
    s.keeper.up = true ∧ l.room = r ∧ l.blocks.length < l.image.points.length
      ∧ ¬((s.room r).st ≠ .loading ∨ l.room ≠ r ∨ (s.handle (s.room r).handle).st = .leaving ∨ (!s.keeper.up) = true) := by
  simp only [roomCompletes, hl, Bool.and_eq_true, decide_eq_true_eq] at h
  obtain ⟨⟨⟨⟨-, hup⟩, hloading⟩, hstays⟩, hroom, hmore⟩ := h
  exact ⟨hup, hroom, hmore, by simp [hloading, hroom, hstays, hup]⟩

/-- A point's arrival notes a block that matches, the last of which commits a load that replaces nothing; another block fails the load. -/
theorem pointArrival_eq (h : roomCompletes (.pointArrival r block) s = true) (hl : (s.handle (s.room r).handle).load = some l) :
    pointArrival r block s =
      if blockMatches l block then
        if l.blocks.length + 1 = l.image.points.length ∧ (s.handle (s.room r).handle).st = .loading then
          wakeCheckouts (commitLoad (blockArrived r (s.room r).handle l block s).bump (s.room r).handle (withBlock l block)) r
        else blockArrived r (s.room r).handle l block s
      else blockRefused (s.room r).handle l s := by
  obtain ⟨-, -, hmore, hacts⟩ := arriving_of_completes h hl
  obtain ⟨q, hq⟩ : ∃ q, l.image.points[l.blocks.length]? = some q := ⟨_, List.getElem?_eq_getElem hmore⟩
  unfold pointArrival blockMatches
  dsimp only
  rw [hl]
  dsimp only
  rw [if_neg hacts, hq]
  dsimp only
  rw [List.length_append]
  simp only [decide_eq_true_eq]
  rfl

theorem blockArrived_room (r i : Nat) (l : Load) (block : Bytes) (s : State) :
    (blockArrived r i l block s).room r = { s.room r with arrived := (s.room r).arrived + 1 } := State.modRoom_self _ _ _

theorem blockArrived_handle (r i : Nat) (l : Load) (block : Bytes) (s : State) :
    (blockArrived r i l block s).handle i = { s.handle i with load := some (withBlock l block) } := by
  unfold blockArrived
  rw [handle_of_rest (State.modRoom_rest (M := [.rooms]) (by decide) _ _ _) (by decide), State.modHandle_self]

theorem blockArrived_version {i : Nat} (r : Nat) (l : Load) (block : Bytes) (hup : s.keeper.up = true) :
    (blockArrived r i l block s).bump.led.version = s.led.version + 1 := by
  rw [bump_version]; exact if_pos hup

theorem arrivalCommitted_room {i : Nat} (hroom : l.room = r) (block : Bytes) (s : State) :
    (commitLoad (blockArrived r i l block s).bump i (withBlock l block)).room r =
      readyRoom { s.room r with arrived := (s.room r).arrived + 1 } := by
  subst hroom
  exact (commitLoad_room _ i (withBlock l block)).trans (congrArg readyRoom ((bump_room _ _).trans (blockArrived_room _ i l block s)))

/-- The last block's arrival commits its load, and no checkout takes effect where none waits (R144, R159). -/
theorem pointArrival_last (h : roomCompletes (.pointArrival r block) s = true) (hl : (s.handle (s.room r).handle).load = some l)
    (hmatch : blockMatches l block = true) (hlast : l.blocks.length + 1 = l.image.points.length)
    (hst : (s.handle (s.room r).handle).st = .loading) (hwait : (s.room r).waiting = []) (hleaving : (s.wing (s.room r).wing).leaving = false) :
    pointArrival r block s = commitLoad (blockArrived r (s.room r).handle l block s).bump (s.room r).handle (withBlock l block) := by
  obtain ⟨-, hroom, -, -⟩ := arriving_of_completes h hl
  have hready := arrivalCommitted_room (i := (s.room r).handle) hroom block s
  rw [pointArrival_eq h hl, if_pos hmatch, if_pos ⟨hlast, hst⟩]
  refine wakeCheckouts_quiet (by rw [hready]; exact hwait) ?_
  rw [hready, commitLoad_leaving, bump_wing]
  exact hleaving

theorem damageHandle_room {i : Nat} (haway : (s.handle i).st = .resident ∨ (s.handle i).st = .leaving → r ≠ (s.handle i).room) :
    (damageHandle s i).room r = s.room r := by
  have hreads : rest (.wings :: .handles :: finalParts) (endReads (dropSessions s i) i) = rest (.wings :: .handles :: finalParts) s :=
    (endReads_rest (by decide) _ _).trans (dropSessions_rest (by decide) _ _)
  unfold damageHandle
  dsimp only
  rw [room_of_rest (State.mapCtx_rest (M := [.wings]) (by decide) _ _) (by decide),
    room_of_rest (State.modHandle_rest (M := [.handles]) (by decide) _ _ _) (by decide)]
  split
  next hin => rw [freeRoom_room_ne _ (haway hin), room_of_rest hreads (by decide)]
  · exact room_of_rest hreads (by decide) r

theorem damageHandle_load (s : State) (i : Nat) : ((damageHandle s i).handle i).load = (s.handle i).load := by
  have hreads : ((endReads (dropSessions s i) i).handle i).load = (s.handle i).load := by
    rw [endReads_handle, handle_of_rest (dropSessions_rest (M := [.wings]) (by decide) _ _) (by decide)]
  unfold damageHandle
  dsimp only
  rw [handle_of_rest (State.mapCtx_rest (M := [.wings]) (by decide) _ _) (by decide), State.modHandle_self]
  split
  · rw [freeRoom_handle]; exact hreads
  · exact hreads

theorem damageHandle_ends (s : State) (i : Nat) : EndsOnly s (damageHandle s i) := by
  have hreads := (dropSessions_ends s i).trans (endReads_ends (dropSessions s i) i)
  unfold damageHandle
  dsimp only
  refine EndsOnly.trans (t := if (s.handle i).st = .resident ∨ (s.handle i).st = .leaving then
    freeRoom (endReads (dropSessions s i) i) (s.handle i).room else endReads (dropSessions s i) i) ?_ ?_
  · split
    · exact hreads.trans (freeRoom_ends _ _)
    · exact hreads
  · exact .of_rest (M := [.wings, .handles]) ((State.mapCtx_rest (by decide) _ _).trans (State.modHandle_rest (by decide) _ _ _)) (by decide) (by decide)

theorem blockRefused_rest (i : Nat) (l : Load) (s : State) : rest [.fns, .keeper] (blockRefused i l s) = rest [.fns, .keeper]
    (if l.fromLoft then damageHandle (failLoad s.bump i .adapterBad) i else failLoad s.bump i .adapterBad) := by
  unfold blockRefused
  dsimp only
  split
  · exact notify_rest (by decide) _ _ _ _
  · rfl

theorem blockRefused_version {i : Nat} (l : Load) (hup : s.keeper.up = true) : (blockRefused i l s).led.version = s.led.version + 1 := by
  have hfailed : (failLoad s.bump i .adapterBad).led.version = s.led.version + 1 := by
    rw [version_of_rest (failLoad_rest (List.Subset.refl _) _ _ _) (by decide), bump_version, if_pos hup]
  rw [version_of_rest (blockRefused_rest i l s) (by decide)]
  split
  · rw [version_of_rest (damageHandle_rest (List.Subset.refl _) _ _) (by decide), hfailed]
  · exact hfailed

theorem blockRefused_handle_load {i : Nat} (hl : (s.handle i).load = some l) : ((blockRefused i l s).handle i).load = none := by
  have hfailed : ((failLoad s.bump i .adapterBad).handle i).load = none := by
    rw [failLoad_handle (l := l) (by rw [bump_handle]; exact hl)]; rfl
  rw [handle_of_rest (blockRefused_rest i l s) (by decide)]
  split
  · rw [damageHandle_load]; exact hfailed
  · exact hfailed

theorem blockRefused_not_long {i : Nat} {ref : CmdRef} (hl : (s.handle i).load = some l) (href : l.ref = some ref) :
    ref ∉ (blockRefused i l s).led.longs := by
  have hfailed : ref ∉ (failLoad s.bump i .adapterBad).led.longs := by
    rw [failLoad_eq (l := l) (by rw [bump_handle]; exact hl)]
    exact finishOpt_not_long _ _ _ href
  rw [longs_of_rest (blockRefused_rest i l s) (by decide)]
  split
  · exact (damageHandle_ends _ _).not_long hfailed
  · exact hfailed

/-- The room of a refused load is free, and freed once, unless its handle was in it before (R144, R166). -/
theorem blockRefused_room {i : Nat} (hl : (s.handle i).load = some l)
    (honce : l.fromLoft = true → (s.handle i).room = l.room → (s.handle i).st = .loading ∧ l.before = .home) :
    (blockRefused i l s).room l.room = freedRoom (s.room l.room) := by
  have hload : (s.bump.handle i).load = some l := by rw [bump_handle]; exact hl
  have hfailed : (failLoad s.bump i .adapterBad).room l.room = freedRoom (s.room l.room) := by rw [failLoad_room hload, bump_room]
  rw [room_of_rest (blockRefused_rest i l s) (by decide)]
  split
  next hloft =>
    rw [damageHandle_room, hfailed]
    rw [failLoad_handle hload, bump_handle]
    rintro hin hsame
    obtain ⟨hloading, hbefore⟩ := honce hloft hsame.symm
    simp [loadFailed, hloading, hbefore] at hin
  · exact hfailed

theorem pointArrival_done (h : roomCompletes (.pointArrival r block) s = true) : roomDone (.pointArrival r block) s (pointArrival r block s) := by
  intro l hl
  change (s.handle (s.room r).handle).load = some l at hl
  obtain ⟨hup, hroom, -, -⟩ := arriving_of_completes h hl
  refine ⟨fun hmatch => ⟨fun hmore => ?_, fun hlast hst hwait hleaving => ?_⟩, fun hmatch honce => ?_⟩
  · have heq : pointArrival r block s = blockArrived r (s.room r).handle l block s := by
      rw [pointArrival_eq h hl, if_pos hmatch, if_neg (by omega)]
    rw [heq]
    exact ⟨by rw [blockArrived_handle]; rfl, by rw [blockArrived_room], rfl⟩
  · rw [pointArrival_last h hl hmatch hlast hst hwait hleaving, commitLoad_version, blockArrived_version r l block hup]
    rw [commitLoad_handle, arrivalCommitted_room hroom]
    exact ⟨rfl, hroom, rfl, rfl, rfl, rfl, rfl, fun ref href => commitLoad_not_long _ _ href⟩
  · have heq : pointArrival r block s = blockRefused (s.room r).handle l s := by
      rw [pointArrival_eq h hl, if_neg (by simp [hmatch])]
    have hfreed := blockRefused_room hl (by rw [hroom]; exact honce)
    rw [hroom] at hfreed
    rw [heq, hfreed]
    exact ⟨rfl, rfl, blockRefused_handle_load hl, blockRefused_version l hup, fun ref href => blockRefused_not_long hl href⟩

end

/-! #### REPLACEMENT_COMMIT (R145) -/

/-- A wing with every context changed. -/
def mappedWing (f : Nat → Nat → Ctx → Ctx) (q : Nat × Wing) : Wing :=
  { q.2 with contexts := q.2.contexts.foldl (fun u c => tput u c.1 (f q.1 c.1 c.2)) q.2.contexts }

/-- Where the table of wings is canonical, no change of every context changes whether a wing is being removed. -/
theorem mapCtx_leaving (hwf : twf default s.led.wings = true) (f : Nat → Nat → Ctx → Ctx) (w : Nat) :
    ((s.mapCtx f).wing w).leaving = (s.wing w).leaving :=
  tget_foldl_tput_reads (f := mappedWing f) (read := Wing.leaving) (read' := Wing.leaving) hwf (fun _ => rfl) rfl w

/-- A replacement's load committed, and its handle's sessions rebound (R145). -/
def replaced (s : State) (i : Nat) (l : Load) : State := rebindSessions (commitLoad (freeRoom s.bump (s.handle i).room) i l) i

theorem replacementCommit_eq (h : roomCompletes (.replacementCommit i) s = true) (hl : (s.handle i).load = some l) :
    s.keeper.up = true ∧ replacementCommit i s = wakeCheckouts (replaced s i l) l.room := by
  simp only [roomCompletes, Bool.and_eq_true, decide_eq_true_eq] at h
  obtain ⟨⟨⟨⟨-, hup⟩, hready⟩, hrefs⟩, hreading⟩ := h
  refine ⟨hup, ?_⟩
  unfold replacementCommit
  dsimp only
  rw [hl]
  exact if_pos ⟨hready, hrefs, hreading, hup⟩

theorem freeRoom_wings (s : State) (r : Nat) : (freeRoom s r).led.wings = s.led.wings :=
  same_of_rest (c := .wings) (freeRoom_rest (M := .rooms :: finalParts) (by decide) s r) (by decide)

theorem replaced_leaving (hwf : twf default s.led.wings = true) (i : Nat) (l : Load) (w : Nat) :
    ((replaced s i l).wing w).leaving = (s.wing w).leaving := by
  have hwings : (freeRoom s.bump (s.handle i).room).led.wings = s.led.wings :=
    (freeRoom_wings _ _).trans (same_of_rest (c := .wings) (State.bump_rest (M := [.keeper, .version]) (by decide) s) (by decide))
  unfold replaced rebindSessions
  dsimp only
  rw [mapCtx_leaving (commitLoad_twf _ _ _ (by rw [hwings]; exact hwf)), commitLoad_leaving]
  exact congrArg (fun t => (tget t w).leaving) hwings

theorem replaced_rest (s : State) (i : Nat) (l : Load) : rest [.wings] (replaced s i l) =
    rest [.wings] (commitLoad (freeRoom s.bump (s.handle i).room) i l) := rebindSessions_rest (by decide) _ _

theorem replaced_version (i : Nat) (l : Load) (hup : s.keeper.up = true) : (replaced s i l).led.version = s.led.version + 1 := by
  rw [version_of_rest (replaced_rest s i l) (by decide), commitLoad_version, version_of_rest (freeRoom_rest (List.Subset.refl _) _ _) (by decide),
    bump_version, if_pos hup]

theorem replaced_handle (s : State) (i : Nat) (l : Load) : (replaced s i l).handle i = residentHandle l (s.handle i) := by
  rw [handle_of_rest (replaced_rest s i l) (by decide), commitLoad_handle, freeRoom_handle, bump_handle]

theorem replaced_newRoom (hne : l.room ≠ (s.handle i).room) : (replaced s i l).room l.room = readyRoom (s.room l.room) := by
  rw [room_of_rest (replaced_rest s i l) (by decide), commitLoad_room, freeRoom_room_ne _ hne, bump_room]

theorem replaced_oldRoom (hne : l.room ≠ (s.handle i).room) : (replaced s i l).room (s.handle i).room = freedRoom (s.room (s.handle i).room) := by
  rw [room_of_rest (replaced_rest s i l) (by decide), commitLoad_room_ne _ _ (Ne.symm hne), freeRoom_room, bump_room]

theorem replacementCommit_done (hwf : twf default s.led.wings = true) (h : roomCompletes (.replacementCommit i) s = true) :
    roomDone (.replacementCommit i) s (replacementCommit i s) := by
  intro l hl hne hwait hleaving
  obtain ⟨hup, heq⟩ := replacementCommit_eq h hl
  have hnew := replaced_newRoom hne
  have hquiet : wakeCheckouts (replaced s i l) l.room = replaced s i l :=
    wakeCheckouts_quiet (by rw [hnew]; exact hwait) (by rw [hnew, replaced_leaving hwf]; exact hleaving)
  rw [heq, hquiet, replaced_oldRoom hne, replaced_handle, hnew]
  exact ⟨rfl, rfl, rfl, rfl, rfl, rfl, rfl, replaced_version i l hup⟩

/-! #### CHECKOUT_MOVE_COMMIT, ADAPTER_READ_DONE (R159, R160, R356) -/

/-- The handle of a checkout whose move has committed. -/
def movedHome (home : Place) (x : Handle) : Handle := { x with st := if x.load.isSome then .loading else .home, home := home }

/-- A checkout's move committed up to its replies: the room is free and the handle home. -/
def moveCommitted (r : Nat) (home : Place) (s : State) : State :=
  let i := (s.room r).handle
  chargeBytes ((freeRoom (s.bump.modRoom r (fun x => { x with checkouts := [], waiting := [] })) r).modHandle i (movedHome home))
    (some (s.handle i).owner) (s.handle i).image.bytes

/-- The same with the replies and notices of its checkouts. -/
def moveAnswered (r : Nat) (home : Place) (s : State) : State :=
  let i := (s.room r).handle
  let t := endCheckouts (moveCommitted r home s) i ((s.room r).checkouts ++ (s.room r).waiting)
  if (t.wing (s.room r).wing).leaving then notify t .checkoutDone (atHandle t i) [i, (t.handle i).gen] else t

theorem checkoutMoveCommit_eq (h : roomCompletes (.checkoutMoveCommit r) s = true) :
    s.keeper.up = true ∧ ∃ home, checkoutMoveCommit r s = settleRemoval (moveAnswered r home s) (s.room r).wing := by
  simp only [roomCompletes, Bool.and_eq_true, Bool.not_eq_true', decide_eq_true_eq] at h
  obtain ⟨⟨⟨⟨⟨-, hup⟩, hst⟩, hrefs⟩, hdiscard⟩, hplace⟩ := h
  obtain ⟨home, hhome⟩ : ∃ home, (if (s.handle (s.room r).handle).homeHost = true then some default else
      findPlace s .loft (s.handle (s.room r).handle).loftSet (s.handle (s.room r).handle).image.bytes) = some home := by
    split
    · exact ⟨_, rfl⟩
    next hloft => exact Option.isSome_iff_exists.mp (by simpa [hloft] using hplace)
  refine ⟨hup, home, ?_⟩
  unfold checkoutMoveCommit
  dsimp only
  rw [if_neg (by simp [hst, hrefs, hdiscard, hup]), hhome]
  rfl

/-- A checkout's final reply, and the notice of a forced one (R160). -/
def checkoutEnded (i : Nat) (s : State) (c : Checkout) : State :=
  let t := finishIn s c.ref .ok (leBytes 2 i ++ leBytes 2 0 ++ leBytes 4 (s.handle i).gen)
  if c.forced then notify t .checkoutDone (atHandle t i) [i, (t.handle i).gen] else t

theorem endCheckouts_eq (s : State) (i : Nat) (l : List Checkout) : endCheckouts s i l = l.foldl (checkoutEnded i) s := rfl

theorem checkoutEnded_replies (i : Nat) (s : State) (c : Checkout) : rest [.fns, .keeper] (checkoutEnded i s c) =
    rest [.fns, .keeper] (finishIn s c.ref .ok (leBytes 2 i ++ leBytes 2 0 ++ leBytes 4 (s.handle i).gen)) := by
  unfold checkoutEnded
  dsimp only
  split
  · exact notify_rest (by decide) _ _ _ _
  · rfl

theorem endCheckouts_not_long {c : Checkout} {l : List Checkout} (hc : c ∈ l) (s : State) (i : Nat) :
    c.ref ∉ (endCheckouts s i l).led.longs := by
  rw [endCheckouts_eq]
  refine foldl_not_long (f := Checkout.ref) (fun s c => ?_) (fun s c => ?_) hc s
  · exact (finishIn_ends s _ _ _).trans (.of_rest (checkoutEnded_replies i s c) (by decide) (by decide))
  · rw [longs_of_rest (checkoutEnded_replies i s c) (by decide)]; exact finishIn_not_long _ _ _ _

theorem moveCommitted_rest (r : Nat) (home : Place) (s : State) : rest [.tally] (moveCommitted r home s) = rest [.tally]
    ((freeRoom (s.bump.modRoom r (fun x => { x with checkouts := [], waiting := [] })) r).modHandle (s.room r).handle (movedHome home)) :=
  chargeBytes_rest (by decide) _ _ _

theorem moveCommitted_room (r : Nat) (home : Place) (s : State) : (moveCommitted r home s).room r = freedRoom (s.room r) := by
  rw [room_of_rest (moveCommitted_rest r home s) (by decide), room_of_rest (State.modHandle_rest (M := [.handles]) (by decide) _ _ _) (by decide),
    freeRoom_room, State.modRoom_self, bump_room]
  rfl

theorem moveCommitted_handle (r : Nat) (home : Place) (s : State) :
    (moveCommitted r home s).handle (s.room r).handle = movedHome home (s.handle (s.room r).handle) := by
  rw [handle_of_rest (moveCommitted_rest r home s) (by decide), State.modHandle_self, freeRoom_handle,
    handle_of_rest (State.modRoom_rest (M := [.rooms]) (by decide) _ _ _) (by decide), bump_handle]

theorem moveCommitted_version (r : Nat) (home : Place) (hup : s.keeper.up = true) :
    (moveCommitted r home s).led.version = s.led.version + 1 := by
  rw [version_of_rest (moveCommitted_rest r home s) (by decide), version_of_rest (State.modHandle_rest (M := [.handles]) (by decide) _ _ _) (by decide),
    version_of_rest (freeRoom_rest (List.Subset.refl _) _ _) (by decide), version_of_rest (State.modRoom_rest (M := [.rooms]) (by decide) _ _ _) (by decide),
    bump_version, if_pos hup]

theorem moveAnswered_notice (r : Nat) (home : Place) (s : State) : rest [.fns, .keeper] (moveAnswered r home s) = rest [.fns, .keeper]
    (endCheckouts (moveCommitted r home s) (s.room r).handle ((s.room r).checkouts ++ (s.room r).waiting)) := by
  unfold moveAnswered
  dsimp only
  split
  · exact notify_rest (by decide) _ _ _ _
  · rfl

/-- The replies to a move's checkouts change nothing that the move has left (R159, R160). -/
theorem checkoutMove_replies (r : Nat) (home : Place) (s : State) (w : Nat) :
    rest (.tt :: finalParts) (settleRemoval (moveAnswered r home s) w) = rest (.tt :: finalParts) (moveCommitted r home s) := by
  rw [settleRemoval_rest (by decide), rest_mono (moveAnswered_notice r home s) (by decide), endCheckouts_rest (by decide)]

theorem checkoutMoveCommit_done (h : roomCompletes (.checkoutMoveCommit r) s = true) :
    roomDone (.checkoutMoveCommit r) s (checkoutMoveCommit r s) := by
  obtain ⟨hup, home, heq⟩ := checkoutMoveCommit_eq h
  have hreplies := checkoutMove_replies r home s (s.room r).wing
  have hroom := (room_of_rest hreplies (by decide) r).trans (moveCommitted_room r home s)
  have hhandle := (handle_of_rest hreplies (by decide) _).trans (moveCommitted_handle r home s)
  rw [heq]
  refine ⟨by rw [hroom]; rfl, by rw [hroom]; rfl, by rw [hhandle]; rfl, by rw [hhandle]; rfl, ?_, fun c hc => ?_⟩
  · rw [version_of_rest hreplies (by decide), moveCommitted_version r home hup]
  · rw [longs_of_rest (settleRemoval_rest (M := [.tt]) (by decide) _ _) (by decide), longs_of_rest (moveAnswered_notice r home s) (by decide)]
    exact endCheckouts_not_long (List.mem_append.mpr hc) _ _

/-- An adapter-read's copy complete: its record, its charge and its final reply (R356). -/
def readDone (i : Nat) (ref : CmdRef) (l : List CmdRef) (s : State) : State :=
  finishIn (chargeBytes (s.bump.modHandle i (fun x => { x with reading := l })) (some (s.handle i).owner) (s.handle i).image.bytes) ref .ok
    (leBytes 8 (s.handle i).image.bytes)

theorem adapterReadDone_eq (h : roomCompletes (.adapterReadDone i) s = true) : s.keeper.up = true ∧ ∃ ref l,
    (s.handle i).reading = ref :: l ∧ adapterReadDone i s =
      if (s.handle i).st = .resident then wakeCheckouts (readDone i ref l s) (s.handle i).room else readDone i ref l s := by
  simp only [roomCompletes, Bool.and_eq_true, Bool.not_eq_true', Bool.and_eq_false_iff, decide_eq_true_eq, decide_eq_false_iff_not] at h
  obtain ⟨⟨⟨⟨-, hup⟩, hreading⟩, hst⟩, hupdating⟩ := h
  obtain ⟨ref, l, hl⟩ := List.exists_cons_of_ne_nil hreading
  refine ⟨hup, ref, l, hl, ?_⟩
  unfold adapterReadDone
  dsimp only
  rw [hl]
  exact if_pos ⟨hst, fun hboth => hupdating.elim (fun hne => hne hboth.1) (fun hne => hne hboth.2), hup⟩

theorem readDone_rest (i : Nat) (ref : CmdRef) (l : List CmdRef) (s : State) : rest (.tally :: finalParts) (readDone i ref l s) =
    rest (.tally :: finalParts) (s.bump.modHandle i (fun x => { x with reading := l })) :=
  (finishIn_rest (by decide) _ _ _ _).trans (chargeBytes_rest (by decide) _ _ _)

/-- The reads and the blocks of a handle. -/
def readPart (x : Handle) : List CmdRef × List Bytes := (x.reading, x.blocks)

theorem modHandle_readPart (s : State) (j : Nat) {g : Handle → Handle} (hg : ∀ x, readPart (g x) = readPart x) (i : Nat) :
    readPart ((s.modHandle j g).handle i) = readPart (s.handle i) := by
  by_cases hi : i = j
  · subst hi; rw [State.modHandle_self, hg]
  · rw [State.modHandle_ne _ _ hi]

/-- A checkout that takes effect leaves the reads and the blocks of every handle. -/
theorem wakeCheckouts_readPart (s : State) (r i : Nat) : readPart ((wakeCheckouts s r).handle i) = readPart (s.handle i) := by
  unfold wakeCheckouts
  dsimp only
  split
  · unfold leaveRoom
    dsimp only
    exact (modHandle_readPart _ _ (by exact fun _ => rfl) i).trans
      (congrArg readPart (handle_of_rest (State.modRoom_rest (M := [.rooms]) (by decide) _ _ _) (by decide) i))
  · rfl

theorem adapterReadDone_done (h : roomCompletes (.adapterReadDone i) s = true) : roomDone (.adapterReadDone i) s (adapterReadDone i s) := by
  obtain ⟨hup, ref, l, hl, heq⟩ := adapterReadDone_eq h
  have hwoken : rest [.rooms, .handles] (adapterReadDone i s) = rest [.rooms, .handles] (readDone i ref l s) := by
    rw [heq]
    split
    · exact wakeCheckouts_rest (by decide) _ _
    · rfl
  have hpart : readPart ((adapterReadDone i s).handle i) = readPart ((readDone i ref l s).handle i) := by
    rw [heq]
    split
    · exact wakeCheckouts_readPart _ _ _
    · rfl
  rw [handle_of_rest (readDone_rest i ref l s) (by decide), State.modHandle_self, bump_handle] at hpart
  refine ⟨ref, l, hl, congrArg Prod.fst hpart, ?_, ?_, congrArg Prod.snd hpart⟩
  · rw [longs_of_rest hwoken (by decide)]; exact finishIn_not_long _ _ _ _
  · rw [version_of_rest hwoken (by decide), version_of_rest (readDone_rest i ref l s) (by decide),
      version_of_rest (State.modHandle_rest (M := [.handles]) (by decide) _ _ _) (by decide), bump_version, if_pos hup]

end

end Sys2Proof.Machine
/-! ### Objects moved, filled and transferred (chapter 8), and what the rows of moves come to -/

namespace Sys2Proof.Machine

open Sys2Proof Sys2Proof.Safety

section
variable {s : State} {o : Nat} {d : Place} {b : Bytes}

/-! #### OBJECT_MOVE_COMMIT (R184, R185) -/

theorem retiringPcs_of_rest {M : List Component} {t : State} (h : rest M t = rest M s) (hM : Component.pcs ∉ M) : retiringPcs t = retiringPcs s := by
  unfold retiringPcs; rw [show t.led.pcs = s.led.pcs from same_of_rest (c := .pcs) h hM]

theorem evacuatingLofts_of_rest {M : List Component} {t : State} (h : rest M t = rest M s) (hM : Component.lofts ∉ M) :
    evacuatingLofts t = evacuatingLofts s := by
  unfold evacuatingLofts; rw [show t.led.lofts = s.led.lofts from same_of_rest (c := .lofts) h hM]

/-- Where no retirement, evacuation or key removal is under way, no move is carried on. -/
theorem carryMoves_of_noMovesWaiting (h : noMovesWaiting s = true) : carryMoves s = s := by
  simp only [noMovesWaiting, Bool.and_eq_true, decide_eq_true_eq] at h
  obtain ⟨⟨hremovals, hpcs⟩, hlofts⟩ := h
  unfold carryMoves
  dsimp only
  rw [settleRemovals_quiet hremovals, hpcs, List.foldl_nil, hlofts, List.foldl_nil]

theorem noMovesWaiting_of_rest {M : List Component} {t : State} (h : rest M t = rest M s) (hsecure : Component.secure ∉ M)
    (hpcs : Component.pcs ∉ M) (hlofts : Component.lofts ∉ M) : noMovesWaiting t = noMovesWaiting s := by
  unfold noMovesWaiting
  rw [removals_of_rest h hsecure, retiringPcs_of_rest h hpcs, evacuatingLofts_of_rest h hlofts]

/-- An object at its new home. -/
def arrivedObj (d : Place) (x : Obj) : Obj := { x with place := d, st := .home, work := .none }

theorem arriveObj_rest_obj (s : State) (o : Nat) (d : Place) : rest [.tally] (arriveObj s o d) = rest [.tally] (s.modObj o (arrivedObj d)) :=
  chargeBytes_rest (by decide) _ _ _

theorem arriveObj_obj (s : State) (o : Nat) (d : Place) : (arriveObj s.bump o d).obj o = arrivedObj d (s.obj o) := by
  rw [obj_of_rest (arriveObj_rest_obj s.bump o d) (by decide), State.modObj_self,
    obj_of_rest (State.bump_rest (M := [.keeper, .version]) (by decide) s) (by decide)]

theorem arriveObj_version (o : Nat) (d : Place) (hup : s.keeper.up = true) : (arriveObj s.bump o d).led.version = s.led.version + 1 := by
  rw [version_of_rest (arriveObj_rest (M := [.objects, .tally]) (by decide) _ _ _) (by decide), bump_version, if_pos hup]

/-- What a commit of an object's move may change. -/
def arrivalParts : List Component := .version :: .objects :: .tally :: finalParts

theorem arriveObj_arrival (s : State) (o : Nat) (d : Place) : rest arrivalParts (arriveObj s.bump o d) = rest arrivalParts s :=
  (arriveObj_rest (by decide) _ _ _).trans (State.bump_rest (by decide) s)

/-- The commit of a move, before other moves are carried on. -/
def moveArrived (o : Nat) (d : Place) (ref : Option CmdRef) (s : State) : State := finishOpt (arriveObj s.bump o d) ref .ok []

/-- The same for a growth that moves its object. -/
def growthArrived (o n : Nat) (d : Place) (ref : CmdRef) (s : State) : State :=
  finishIn ((arriveObj s.bump o d).modObj o (fun x => { x with size := n })) ref .ok []

theorem moveArrived_rest (o : Nat) (d : Place) (ref : Option CmdRef) (s : State) :
    rest finalParts (moveArrived o d ref s) = rest finalParts (arriveObj s.bump o d) := finishOpt_rest (List.Subset.refl _) _ _ _ _

theorem growthArrived_rest (o n : Nat) (d : Place) (ref : CmdRef) (s : State) : rest finalParts (growthArrived o n d ref s) =
    rest finalParts ((arriveObj s.bump o d).modObj o (fun x => { x with size := n })) := finishIn_rest (List.Subset.refl _) _ _ _ _

/-- The commit by the kind of the move; a move of a retirement or an evacuation has no command behind it (R428, R433). -/
def objectArrived (o : Nat) (s : State) : State :=
  match (s.obj o).work with
  | .move d _ ref => moveArrived o d ref s
  | .retire d => moveArrived o d none s
  | .evacuate d => moveArrived o d none s
  | .grow n d ref => growthArrived o n d ref s
  | _ => s

theorem objectArrived_rest (o : Nat) (s : State) : rest arrivalParts (objectArrived o s) = rest arrivalParts s := by
  have hmove (d : Place) (ref : Option CmdRef) : rest arrivalParts (moveArrived o d ref s) = rest arrivalParts s :=
    (rest_mono (moveArrived_rest o d ref s) (by decide)).trans (arriveObj_arrival s o d)
  unfold objectArrived
  split
  · exact hmove _ _
  · exact hmove _ _
  · exact hmove _ _
  · exact (rest_mono (growthArrived_rest _ _ _ _ _) (by decide)).trans ((State.modObj_rest (by decide) _ _ _).trans (arriveObj_arrival s o _))
  · rfl

theorem objectMoveCommit_eq (h : roomCompletes (.objectMoveCommit o) s = true) (hq : noMovesWaiting s = true) :
    objectMoveCommit o s = objectArrived o s := by
  simp only [roomCompletes, Bool.and_eq_true, decide_eq_true_eq] at h
  obtain ⟨⟨⟨⟨-, hup⟩, hlive⟩, hmoving⟩, hwork⟩ := h
  have hquiet := carryMoves_of_noMovesWaiting ((noMovesWaiting_of_rest (objectArrived_rest o s) (by decide) (by decide) (by decide)).trans hq)
  rw [← hquiet]
  unfold objectMoveCommit objectArrived
  dsimp only
  rw [if_neg (by simp [hlive, hmoving, hup])]
  cases hw : (s.obj o).work with
  | move | retire | evacuate | grow => rfl
  | _ => rw [hw] at hwork; cases hwork

/-- What a takeover that waited for an object's move may change (R292). -/
def takeoverParts : List Component := [.fns, .ports, .keeper, .rings]

theorem objectMoved_rest_move (o : Nat) (s : State) : rest takeoverParts (objectMoved o s) = rest takeoverParts (objectMoveCommit o s) := by
  unfold objectMoved
  dsimp only
  split
  · exact takeoverMoved_rest (List.Subset.refl _) _ _
  · rfl

/-- An object's move as roomDone tells it: to a place, with a size, and with the final reply to its command, if one asked for it. -/
structure Moved (o : Nat) (d : Place) (n : Nat) (ref : Option CmdRef) (s t : State) : Prop where
  obj : t.obj o = { arrivedObj d (s.obj o) with size := n }
  version : t.led.version = s.led.version + 1
  ended : ∀ f, ref = some f → f ∉ t.led.longs

theorem Moved.of_rest {M : List Component} {n : Nat} {ref : Option CmdRef} {t u : State} (h : Moved o d n ref s t) (hr : rest M u = rest M t)
    (hM : ∀ x, x ∈ [Component.objects, .version, .longs] → x ∉ M) : Moved o d n ref s u :=
  ⟨(obj_of_rest hr (hM _ (by decide)) o).trans h.obj, (version_of_rest hr (hM _ (by decide))).trans h.version,
    fun f hf => by rw [longs_of_rest hr (hM _ (by decide))]; exact h.ended f hf⟩

/-- Whatever the kind of the move, its object is home with its contents and its generation, and one record tells it. -/
theorem Moved.home {n : Nat} {ref : Option CmdRef} {t : State} (h : Moved o d n ref s t) {P : Prop} (hP : P) :
    (t.obj o).st = .home ∧ (t.obj o).work = .none ∧ (t.obj o).content = (s.obj o).content ∧ (t.obj o).gen = (s.obj o).gen
      ∧ t.led.version = s.led.version + 1 ∧ P := by
  rw [h.obj]; exact ⟨rfl, rfl, rfl, rfl, h.version, hP⟩

theorem Moved.place {n : Nat} {ref : Option CmdRef} {t : State} (h : Moved o d n ref s t) : (t.obj o).place = d := by rw [h.obj]; rfl

theorem Moved.size {n : Nat} {ref : Option CmdRef} {t : State} (h : Moved o d n ref s t) : (t.obj o).size = n := by rw [h.obj]

theorem moveArrived_moved (hup : s.keeper.up = true) (o : Nat) (d : Place) (ref : Option CmdRef) :
    Moved o d (s.obj o).size ref s (moveArrived o d ref s) :=
  ⟨by rw [obj_of_rest (moveArrived_rest o d ref s) (by decide), arriveObj_obj]; rfl,
    by rw [version_of_rest (moveArrived_rest o d ref s) (by decide), arriveObj_version o d hup], fun _ hf => finishOpt_not_long _ _ _ hf⟩

theorem growthArrived_moved (hup : s.keeper.up = true) (o n : Nat) (d : Place) (ref : CmdRef) :
    Moved o d n (some ref) s (growthArrived o n d ref s) := by
  refine ⟨?_, ?_, fun f hf => ?_⟩
  · rw [obj_of_rest (growthArrived_rest o n d ref s) (by decide), State.modObj_self, arriveObj_obj]
  · rw [version_of_rest (growthArrived_rest o n d ref s) (by decide), version_of_rest (State.modObj_rest (M := [.objects]) (by decide) _ _ _) (by decide),
      arriveObj_version o d hup]
  · cases hf; exact finishIn_not_long _ _ _ _

theorem objectMoveCommit_done (h : roomCompletes (.objectMoveCommit o) s = true) : roomDone (.objectMoveCommit o) s (objectMoved o s) := by
  intro hq
  have hrest := objectMoved_rest_move o s
  rw [objectMoveCommit_eq h hq] at hrest
  simp only [roomCompletes, Bool.and_eq_true, decide_eq_true_eq] at h
  obtain ⟨⟨⟨⟨-, hup⟩, -⟩, -⟩, hwork⟩ := h
  unfold objectArrived at hrest
  have moved {d : Place} {ref : Option CmdRef} (hr : rest takeoverParts (objectMoved o s) = rest takeoverParts (moveArrived o d ref s)) :=
    (moveArrived_moved hup o d ref).of_rest hr (by decide)
  cases hw : (s.obj o).work with
  | move d n ref =>
    rw [hw] at hrest
    have hm := moved hrest
    exact hm.home ⟨hm.place, hm.size, hm.ended⟩
  | retire d =>
    rw [hw] at hrest
    have hm := moved hrest
    exact hm.home ⟨hm.place, hm.size⟩
  | evacuate d =>
    rw [hw] at hrest
    have hm := moved hrest
    exact hm.home ⟨hm.place, hm.size⟩
  | grow n d ref =>
    rw [hw] at hrest
    have hm := (growthArrived_moved hup o n d ref).of_rest hrest (by decide)
    exact hm.home ⟨hm.place, hm.size, hm.ended ref rfl⟩
  | _ => rw [hw] at hwork; cases hwork

/-! #### OBJECT_FILL_DONE, OBJECT_TRANSFER_DONE (R185, R198, R354) -/

/-- One record that changes one object and ends one command. -/
structure Worked (o : Nat) (g : Obj → Obj) (ref : CmdRef) (s t : State) : Prop where
  obj : t.obj o = g (s.obj o)
  others : ∀ j, j ≠ o → t.obj j = s.obj j
  version : t.led.version = s.led.version + 1
  ended : ref ∉ t.led.longs

/-- A charge made before the reply changes none of this. -/
theorem worked_of_reply (hup : s.keeper.up = true) {g : Obj → Obj} {v : State} (hv : rest [.tally] v = rest [.tally] (s.bump.modObj o g))
    (ref : CmdRef) (b : Bytes) : Worked o g ref s (finishIn v ref .ok b) := by
  have hreply : rest (.tally :: finalParts) (finishIn v ref .ok b) = rest (.tally :: finalParts) (s.bump.modObj o g) :=
    (finishIn_rest (by decide) _ _ _ _).trans (rest_mono hv (by decide))
  have hbump := obj_of_rest (State.bump_rest (M := [.keeper, .version]) (by decide) s) (by decide)
  refine ⟨?_, fun j hj => ?_, ?_, finishIn_not_long _ _ _ _⟩
  · rw [obj_of_rest hreply (by decide), State.modObj_self, hbump]
  · rw [obj_of_rest hreply (by decide), State.modObj_ne _ _ hj, hbump]
  · rw [version_of_rest hreply (by decide), version_of_rest (State.modObj_rest (M := [.objects]) (by decide) _ _ _) (by decide), bump_version, if_pos hup]

/-- An object at home with its work done. -/
def filledObj (x : Obj) : Obj := { x with st := .home, work := .none }

/-- An object grown in place. -/
def grownObj (d : Place) (n : Nat) (x : Obj) : Obj := { x with place := d, size := n, work := .none }

theorem objectFillDone_done (h : roomCompletes (.objectFillDone o) s = true) : roomDone (.objectFillDone o) s (objectFillDone o s) := by
  simp only [roomCompletes, Bool.and_eq_true, decide_eq_true_eq] at h
  obtain ⟨⟨⟨-, hup⟩, hlive⟩, hwork⟩ := h
  have hacts : ¬((!(s.obj o).live || !s.keeper.up) = true) := by simp [hlive, hup]
  have worked {g : Obj → Obj} {ref : CmdRef} {reply : Bytes} (heq : objectFillDone o s = finishIn (s.bump.modObj o g) ref .ok reply) :
      Worked o g ref s (objectFillDone o s) := heq ▸ worked_of_reply hup rfl ref reply
  unfold roomDone
  dsimp only
  cases hw : (s.obj o).work with
  | create ref =>
    have hdone := worked (g := filledObj) (by unfold objectFillDone; dsimp only; rw [if_neg hacts, hw]; rfl)
    rw [hdone.obj]
    exact ⟨hdone.version, rfl, rfl, ⟨rfl, hdone.ended⟩, hdone.others⟩
  | saveCreate w c ref =>
    have hdone := worked (g := filledObj) (by unfold objectFillDone; dsimp only; rw [if_neg hacts, hw]; rfl)
    rw [hdone.obj]
    exact ⟨hdone.version, rfl, rfl, ⟨rfl, hdone.ended⟩, hdone.others⟩
  | grow n d ref =>
    rw [hw] at hwork
    have hdone := worked (g := grownObj d n) (by unfold objectFillDone; dsimp only; rw [if_neg hacts, hw]; exact if_neg (of_decide_eq_true hwork))
    rw [hdone.obj]
    exact ⟨hdone.version, rfl, rfl, ⟨rfl, rfl, hdone.ended⟩, hdone.others⟩
  | _ => rw [hw] at hwork; cases hwork

/-- An object after an object-write. -/
def writtenObj (off : Nat) (bytes : Bytes) (x : Obj) : Obj := { x with work := .none, content := mstore x.content off bytes }

/-- An object after an object-read. -/
def idleObj (x : Obj) : Obj := { x with work := .none }

theorem objectTransferDone_done (h : roomCompletes (.objectTransferDone o b) s = true) :
    roomDone (.objectTransferDone o b) s (objectTransferDone o b s) := by
  simp only [roomCompletes, Bool.and_eq_true, decide_eq_true_eq] at h
  obtain ⟨⟨⟨-, hup⟩, hlive⟩, hwork⟩ := h
  have hacts : ¬((!(s.obj o).live || !s.keeper.up) = true) := by simp [hlive, hup]
  have worked {g : Obj → Obj} {ref : CmdRef} {n : Nat}
      (heq : objectTransferDone o b s = finishIn (chargeBytes (s.bump.modObj o g) (s.obj o).owner n) ref .ok []) :
      Worked o g ref s (objectTransferDone o b s) := heq ▸ worked_of_reply hup (chargeBytes_rest (by decide) _ _ _) ref []
  unfold roomDone
  dsimp only
  cases hw : (s.obj o).work with
  | write off len host ref =>
    rw [hw] at hwork
    have hlen : b.length = len := of_decide_eq_true hwork
    have hdone := worked (g := writtenObj off b) (by unfold objectTransferDone; dsimp only; rw [if_neg hacts, hw]; exact if_pos hlen)
    rw [hdone.obj]
    refine ⟨hdone.version, rfl, hdone.others, hdone.ended, fun a ha => ?_, fun a ha => mread_mstore_out _ off a b (by omega)⟩
    rw [List.getElem?_eq_getElem (by omega)]
    exact mread_mstore_in _ off b a (by omega)
  | read off len host ref =>
    have hdone := worked (g := idleObj) (by unfold objectTransferDone; dsimp only; rw [if_neg hacts, hw]; rfl)
    rw [hdone.obj]
    exact ⟨hdone.version, rfl, hdone.others, hdone.ended, rfl⟩
  | _ => rw [hw] at hwork; cases hwork

end

/-! #### The rows of moves -/

/-- A row of the family that has its effect names a part that the module has (Table 0.5). -/
theorem wf_of_move_completes {i : Instr} {s : State} (hi : familyOf i = .move) (h : roomCompletes i s = true) : i.wf = true := by
  cases i with
  | pointArrival | replacementCommit | checkoutMoveCommit | adapterReadDone | objectMoveCommit | objectFillDone | objectTransferDone =>
    simp only [roomCompletes, Bool.and_assoc] at h
    exact Bool.and_elim_left h
  | _ => cases hi

/-- Where the table of wings is canonical, each of the rows leaves what roomDone says of it. -/
theorem moveRows_of_canonicalWings {i : Instr} {s : State} (hwings : twf default s.led.wings = true) (hi : familyOf i = .move)
    (h : roomCompletes i s = true) : ∃ t, exec i s = .next t ∧ roomDone i s t := by
  have hwf := wf_of_move_completes hi h
  cases i with
  | pointArrival => exact ⟨_, onPart_of_partIn hwf _ _, pointArrival_done h⟩
  | replacementCommit => exact ⟨_, onPart_of_partIn hwf _ _, replacementCommit_done hwings h⟩
  | checkoutMoveCommit => exact ⟨_, onPart_of_partIn hwf _ _, checkoutMoveCommit_done h⟩
  | adapterReadDone => exact ⟨_, onPart_of_partIn hwf _ _, adapterReadDone_done h⟩
  | objectMoveCommit => exact ⟨_, onPart_of_partIn hwf _ _, objectMoveCommit_done h⟩
  | objectFillDone => exact ⟨_, onPart_of_partIn hwf _ _, objectFillDone_done h⟩
  | objectTransferDone => exact ⟨_, onPart_of_partIn hwf _ _, objectTransferDone_done h⟩
  | _ => cases hi

/-- A running module whose table of wings lists wing 0 twice: it is read as the first entry, which stays, and the second is being
removed. Handle 0 is RESIDENT in room 0, and its replacement has arrived in room 1. -/
def wingListedTwice : State :=
  { State.reset with
    keeper := { State.reset.keeper with up := true }
    led := { Led.blank with
      wings := [(0, default), (0, { (default : Wing) with leaving := true })]
      rooms := [(0, { (default : Room) with st := .ready }), (1, { (default : Room) with st := .loading })]
      handles := [(0, { (default : Handle) with
        st := .resident
        load := some { (default : Load) with room := 1, image := { (default : Image) with points := [default] }, blocks := [[]] } })] } }

/-- Rebinding the handle's sessions leaves one entry of wing 0, the one that is being removed, so the new room is checked out at once. -/
theorem wingListedTwice_leaves : ((replacementCommit 0 wingListedTwice).room 1).st = .leaving := by decide +kernel

theorem wingListedTwice_completes : roomCompletes (.replacementCommit 0) wingListedTwice = true := by decide +kernel

/-- Refutes O10: the sessions rebound at a replacement's commit write every wing anew, so a wing that the table lists twice is read as
its second entry from then on; where that one is being removed the new room is LEAVING, and roomDone has it READY. With a canonical table
of wings the rows do what roomDone says (`moveRows_of_canonicalWings`). -/
theorem not_moveRows : ¬ Obligations.MoveRows := by
  intro h
  obtain ⟨t, hnext, hdone⟩ := h (.replacementCommit 0) wingListedTwice rfl wingListedTwice_completes
  have hexec : exec (.replacementCommit 0) wingListedTwice = .next (replacementCommit 0 wingListedTwice) :=
    onPart_of_partIn (number := 0) (count := 65536) rfl _ _
  obtain ⟨-, -, -, -, -, -, hready, -⟩ := hdone _ rfl (by decide) rfl rfl
  rw [← Host.Outcome.next.inj (hexec.symm.trans hnext)] at hready
  exact absurd (wingListedTwice_leaves.symm.trans hready) (by decide)

end Sys2Proof.Machine
/-! ### Base shards (chapter 9) -/

namespace Sys2Proof.Machine

open Sys2Proof Sys2Proof.Safety

/-! #### Entries of a table changed one after the other -/

/-- What holds of the value read at a number, and of every entry listed there, still holds once a list of such entries has been written. -/
theorem holds_of_foldl_tput {α : Type} [DecidableEq α] [Inhabited α] {i : Nat} {Q : α → Prop} (c : Nat × α → Prop) [DecidablePred c]
    (f : Nat × α → α) (hf : ∀ p, p.1 = i → Q p.2 → Q (f p)) {l : Tbl α} (hl : ∀ p, p ∈ l → p.1 = i → Q p.2) {t : Tbl α} (ht : Q (tget t i)) :
    Q (tget (l.foldl (fun t p => if c p then tput t p.1 (f p) else t) t) i) := by
  refine List.foldlRecOn (motive := fun u => Q (tget u i)) l _ ht fun u hu p hp => ?_
  split
  · by_cases hi : i = p.1
    · subst hi
      rw [tget_tput_self]
      exact hf p rfl (hl p hp rfl)
    · rw [tget_tput_ne _ _ hi]
      exact hu
  · exact hu

/-- After a change every entry at the number is the changed one. -/
theorem eq_of_mem_tmod {α : Type} [DecidableEq α] [Inhabited α] {t : Tbl α} {i : Nat} {g : α → α} {p : Nat × α} (hp : p ∈ tmod t i g)
    (hi : p.1 = i) : p.2 = g (tget t i) := eq_of_mem_tputD hp hi

/-! #### What the steps of the Cellar leave of shards, bases and requests -/

section
variable {s t : State} {k : Nat}

theorem cellar_of_rest {M : List Component} (h : rest M t = rest M s) (hM : Component.cellar ∉ M) : t.cellar = s.cellar :=
  same_of_rest (c := .cellar) h hM

theorem shard_of_cellar {t : State} (h : t.cellar.shards = s.cellar.shards) (k : Nat) : t.shard k = s.shard k := congrArg (tget · k) h

/-- The next holder of a shard's base that is asked under a request of a kind. -/
def askedRequest (s : State) (k : Nat) (paced : Bool) (asked : List Nat) (i : Nat) : Request :=
  { shard := k, asked := asked ++ [i], last := some i, since := s.clock.count, paced := paced }

theorem askNext_cellar_some {paced : Bool} {asked : List Nat} {i : Nat} (h : nextHolder s (s.shard k).base asked = some i) :
    (askNext s k paced asked).cellar =
      { s.cellar with requests := otherRequests s k paced ++ [askedRequest s k paced asked i]
                      lastHolder := tput s.cellar.lastHolder (s.shard k).base i } := by
  unfold askNext
  dsimp only
  rw [h]
  exact cellar_of_rest (sendRouted_rest (M := [.ports]) (by decide) _ _) (by decide)

theorem askNext_cellar_none {paced : Bool} {asked : List Nat} (h : nextHolder s (s.shard k).base asked = none) :
    (askNext s k paced asked).cellar = { s.cellar with requests := otherRequests s k paced } := by
  unfold askNext
  dsimp only
  rw [h]
  dsimp only
  split
  · rfl
  · exact cellar_of_rest (loseShard_rest (List.Subset.refl _) _ _) (by decide)

/-- A holder asked for a shard is told by the requests and by the last holder asked. -/
theorem askNext_cellar (s : State) (k : Nat) (paced : Bool) (asked : List Nat) :
    (askNext s k paced asked).cellar = { s.cellar with
      requests := (askNext s k paced asked).cellar.requests, lastHolder := (askNext s k paced asked).cellar.lastHolder } := by
  cases h : nextHolder s (s.shard k).base asked with
  | some i => rw [askNext_cellar_some h]
  | none => rw [askNext_cellar_none h]

theorem askShard_cellar (s : State) (k : Nat) :
    (askShard s k).cellar = { s.cellar with
      requests := (askShard s k).cellar.requests, lastHolder := (askShard s k).cellar.lastHolder } := by
  unfold askShard
  split
  · rfl
  · exact askNext_cellar s k false []

theorem askRewrite_cellar (s : State) (k : Nat) :
    (askRewrite s k).cellar = { s.cellar with
      requests := (askRewrite s k).cellar.requests, lastHolder := (askRewrite s k).cellar.lastHolder } := by
  unfold askRewrite
  split
  · rfl
  · exact askNext_cellar s k true []

/-- A request for a shard's rewrite loses no pass: outside the Cellar it is a message (R228). -/
theorem askRewrite_rest_send (s : State) (k : Nat) : rest [.cellar, .ports] (askRewrite s k) = rest [.cellar, .ports] s := by
  unfold askRewrite
  split
  · rfl
  · unfold askNext
    dsimp only
    split
    · exact (sendRouted_rest (by decide) _ _).trans (State.modCellar_rest (by decide) _ _)
    · exact State.modCellar_rest (by decide) _ _

/-! #### Requests to holders (R227, R228) -/

theorem find?_otherRequests (s : State) (k : Nat) (paced : Bool) :
    (otherRequests s k paced).find? (fun r => decide (r.shard = k ∧ r.paced = paced)) = none := by
  refine List.find?_eq_none.mpr fun r hr => ?_
  have hother := of_decide_eq_true (List.mem_filter.mp hr).2
  simpa [Classical.or_iff_not_imp_left] using hother

theorem requestOf_askNext_some {paced : Bool} {asked : List Nat} {i : Nat} (h : nextHolder s (s.shard k).base asked = some i) :
    requestOf (askNext s k paced asked) k paced = some (askedRequest s k paced asked i) := by
  unfold requestOf
  rw [askNext_cellar_some h, List.find?_append, find?_otherRequests]
  simp [askedRequest]

theorem requestOf_askNext_none {paced : Bool} {asked : List Nat} (h : nextHolder s (s.shard k).base asked = none) :
    requestOf (askNext s k paced asked) k paced = none := by
  unfold requestOf
  rw [askNext_cellar_none h]
  exact find?_otherRequests s k paced

theorem holderTimeout_done (h : roomCompletes (.holderTimeout k) s = true) : roomDone (.holderTimeout k) s (holderTimeout k s) := by
  simp only [roomCompletes, Bool.and_eq_true, decide_eq_true_eq] at h
  obtain ⟨-, hany⟩ := h
  rw [List.any_eq_true, ← List.find?_isSome] at hany
  obtain ⟨r, hr⟩ := Option.isSome_iff_exists.mp hany
  have heq : holderTimeout k s = askNext s k r.paced r.asked := by
    unfold holderTimeout skipHolder; rw [hr]
  rw [heq]
  refine ⟨r, hr, fun i hi => ?_, fun hnone => requestOf_askNext_none hnone⟩
  exact ⟨_, requestOf_askNext_some hi, rfl, rfl, rfl⟩

/-! #### One shard changed (R206, R215, R219, R226) -/

/-- One shard is as told, and every other as it was. -/
structure ShardPut (k : Nat) (x : Shard) (s t : State) : Prop where
  self : t.shard k = x
  others : ∀ j, j ≠ k → t.shard j = s.shard j

theorem modShard_put (s : State) (k : Nat) (g : Shard → Shard) : ShardPut k (g (s.shard k)) s (s.modShard k g) :=
  ⟨State.modShard_self _ _ _, fun _ hj => State.modShard_ne _ _ hj⟩

namespace ShardPut

variable {x : Shard} {u : State}

theorem of_shards (h : ShardPut k x s t) (hu : u.cellar.shards = t.cellar.shards) : ShardPut k x s u :=
  ⟨(shard_of_cellar hu k).trans h.self, fun j hj => (shard_of_cellar hu j).trans (h.others j hj)⟩

theorem put {y : Shard} (h : ShardPut k x s t) (hu : ShardPut k y t u) : ShardPut k y s u :=
  ⟨hu.self, fun j hj => (hu.others j hj).trans (h.others j hj)⟩

end ShardPut

theorem askShard_shards (s : State) (k : Nat) : (askShard s k).cellar.shards = s.cellar.shards := by rw [askShard_cellar]

theorem askRewrite_shards (s : State) (k : Nat) : (askRewrite s k).cellar.shards = s.cellar.shards := by rw [askRewrite_cellar]

theorem notify_cellar (s : State) (n : Notice) (a : At) (b : List Nat) : (notify s n a b).cellar = s.cellar :=
  cellar_of_rest (notify_rest (List.Subset.refl _) s n a b) (by decide)

/-- A VALID shard that failed its check. -/
def quarantinedShard (x : Shard) : Shard := { x with st := .quarantined }

theorem quarantine_put (h : (s.shard k).st = .valid) : ShardPut k (quarantinedShard (s.shard k)) s (quarantine s k) := by
  have hcellar := (askRewrite_shards _ k).trans (congrArg Cellar.shards (notify_cellar (s.modShard k quarantinedShard) .shardQuarantined (atShard k)
    [k, (s.shard k).base, (s.shard k).index]))
  unfold quarantine
  rw [if_pos h]
  exact (modShard_put s k quarantinedShard).of_shards hcellar

theorem quarantine_visiting (s : State) (k : Nat) : (quarantine s k).cellar.visiting = s.cellar.visiting := by
  unfold quarantine
  dsimp only
  split
  · rw [askRewrite_cellar, notify_cellar]; rfl
  · rfl

/-- A shard that has failed twice. -/
def retiredShard (x : Shard) : Shard := { x with st := .retired, incoming := false }

/-- A shard that has failed once. -/
def invalidShard (x : Shard) : Shard := { x with st := .invalid, retried := true, incoming := false }

/-- A shard whose program or read-back failed (R215). -/
def failedShard (x : Shard) : Shard := if x.retried then retiredShard x else invalidShard x

theorem failedShard_retried {x : Shard} (h : x.retried = true) : failedShard x = retiredShard x := if_pos h

theorem failedShard_first {x : Shard} (h : x.retried = false) : failedShard x = invalidShard x := if_neg (by simp [h])

theorem failShard_shards (s : State) (k : Nat) : (failShard s k).cellar.shards = (s.modShard k failedShard).cellar.shards := by
  have hmod {g : Shard → Shard} (hg : failedShard (s.shard k) = g (s.shard k)) :
      (s.modShard k g).cellar.shards = (s.modShard k failedShard).cellar.shards := congrArg (tput s.cellar.shards k) hg.symm
  unfold failShard
  split
  next hretried =>
    rw [notify_cellar]
    exact hmod (failedShard_retried hretried)
  next hfirst =>
    rw [askRewrite_shards]
    exact hmod (failedShard_first (by simpa using hfirst))

/-- A shard that was programmed once more. -/
def programmedShard (x : Shard) : Shard := { x with programs := x.programs + 1, incoming := false }

/-- A shard programmed that waits for its read-back. -/
def writingShard (digest : Nat) (x : Shard) : Shard :=
  { x with st := .writing, digest := digest, rewrite := decide (x.st = .quarantined ∨ x.st = .invalid) }

/-- One more program of a shard counted, and its region's wear told where it is due (R219). -/
def programCounted (k : Nat) (s : State) : State :=
  let u := s.modShard k programmedShard
  if (u.shard k).programs = 2701 then notify u .cellarWear (atShard k) [(s.shard k).base, highestCount u (s.shard k).base] else u

theorem programCounted_put (s : State) (k : Nat) : ShardPut k (programmedShard (s.shard k)) s (programCounted k s) := by
  have hput := modShard_put s k programmedShard
  unfold programCounted
  dsimp only
  split
  · exact hput.of_shards (congrArg Cellar.shards (notify_cellar _ _ _ _))
  · exact hput

theorem shardProgramDone_eq (h : programmable s k = true) (ok : Bool) (digest : Nat) : shardProgramDone k ok digest s =
    if ok then sourceShard ((programCounted k s).modShard k (writingShard digest)) k else failShard (programCounted k s) k :=
  if_neg (by simp [h])

theorem sourceShard_shards (s : State) (k : Nat) : (sourceShard s k).cellar.shards = s.cellar.shards := by
  have hsent (u : State) (i source j digest : Nat) : (sendDown u i source j digest).cellar = u.cellar :=
    cellar_of_rest (sendDown_rest (M := [.ports]) (by decide) _ _ _ _ _) (by decide)
  unfold sourceShard
  dsimp only
  split
  · split
    · rw [hsent]; rfl
    · rfl
  · rfl

theorem shardProgramDone_put (h : programmable s k = true) (ok : Bool) (digest : Nat) :
    ShardPut k (if ok then writingShard digest (programmedShard (s.shard k)) else failedShard (programmedShard (s.shard k))) s
      (shardProgramDone k ok digest s) := by
  have hcounted := programCounted_put s k
  have hnext (g : Shard → Shard) : ShardPut k (g (programmedShard (s.shard k))) s ((programCounted k s).modShard k g) :=
    hcounted.put (hcounted.self ▸ modShard_put _ k g)
  rw [shardProgramDone_eq h]
  cases ok with
  | true => exact (hnext (writingShard digest)).of_shards (sourceShard_shards _ k)
  | false => exact (hnext failedShard).of_shards (failShard_shards _ k)

theorem shardProgramDone_done {ok : Bool} {digest : Nat} (h : roomCompletes (.shardProgramDone k ok digest) s = true) :
    roomDone (.shardProgramDone k ok digest) s (shardProgramDone k ok digest s) := by
  simp only [roomCompletes, Bool.and_eq_true] at h
  obtain ⟨hself, hothers⟩ := shardProgramDone_put h.2 ok digest
  unfold roomDone
  dsimp only
  cases ok with
  | true =>
    rw [hself]
    exact ⟨rfl, rfl, rfl, fun _ => ⟨rfl, rfl⟩, nofun, nofun, hothers⟩
  | false =>
    rw [hself, if_neg Bool.false_ne_true]
    cases hretried : (s.shard k).retried with
    | true =>
      rw [failedShard_retried (x := programmedShard (s.shard k)) hretried]
      exact ⟨rfl, rfl, rfl, nofun, nofun, fun _ _ => rfl, hothers⟩
    | false =>
      rw [failedShard_first (x := programmedShard (s.shard k)) hretried]
      exact ⟨rfl, rfl, rfl, nofun, fun _ _ => ⟨rfl, rfl⟩, nofun, hothers⟩

/-- A shard once its erase is over (R219). -/
def erasedShard (x : Shard) : Shard := { x with erasing := false, st := if 3000 ≤ x.programs then .retired else x.st }

theorem shardEraseDone_shards (h : (s.shard k).erasing = true) :
    (shardEraseDone k s).cellar.shards = (s.modShard k erasedShard).cellar.shards := by
  have hmod {g : Shard → Shard} (hg : g (s.shard k) = erasedShard (s.shard k)) :
      (s.modShard k g).cellar.shards = (s.modShard k erasedShard).cellar.shards := congrArg (tput s.cellar.shards k) hg
  refine (congrArg (fun u : State => u.cellar.shards) (if_neg (by simp [h]))).trans ?_
  split
  next hworn =>
    rw [notify_cellar]
    exact hmod (by rw [erasedShard, if_pos hworn])
  next hgood => exact hmod (by rw [erasedShard, if_neg hgood])

theorem shardEraseDone_done (h : roomCompletes (.shardEraseDone k) s = true) : roomDone (.shardEraseDone k) s (shardEraseDone k s) := by
  simp only [roomCompletes, Bool.and_eq_true] at h
  obtain ⟨hself, hothers⟩ := (modShard_put s k erasedShard).of_shards (shardEraseDone_shards h.2)
  unfold roomDone
  dsimp only
  rw [hself]
  exact ⟨rfl, rfl, rfl, hothers⟩

theorem sweepReadDone_done {digest : Nat} (h : roomCompletes (.sweepReadDone k digest) s = true) :
    roomDone (.sweepReadDone k digest) s (sweepReadDone k digest s) := by
  simp only [roomCompletes, Bool.and_eq_true, decide_eq_true_eq] at h
  have heq : sweepReadDone k digest s =
      if (s.shard k).st = .valid ∧ wantDigest s k ≠ some digest then quarantine { s with cellar := { s.cellar with visiting := none } } k
      else { s with cellar := { s.cellar with visiting := none } } := if_neg (by simp [h.2])
  rw [heq]
  refine ⟨?_, fun hvalid hbad => ?_, fun hfine => if_neg fun hboth => ?_⟩
  · split
    · exact quarantine_visiting _ k
    · rfl
  · rw [if_pos ⟨hvalid, hbad⟩, (quarantine_put (s := { s with cellar := { s.cellar with visiting := none } }) hvalid).self]
    rfl
  · exact hfine.elim (fun hne => hne hboth.1) hboth.2

/-! #### Read-backs and what follows them (R215, R216, R228) -/

/-- A step of an installation that changes no shard and makes no record. -/
structure KeepsShards (s t : State) : Prop where
  shards : t.cellar.shards = s.cellar.shards
  version : t.led.version = s.led.version

namespace KeepsShards

variable {u : State}

theorem refl (s : State) : KeepsShards s s := ⟨rfl, rfl⟩

theorem trans (h : KeepsShards s t) (h' : KeepsShards t u) : KeepsShards s u :=
  ⟨h'.shards.trans h.shards, h'.version.trans h.version⟩

theorem of_rest {M : List Component} (h : rest M t = rest M s) (hcellar : Component.cellar ∉ M) (hversion : Component.version ∉ M) :
    KeepsShards s t :=
  ⟨congrArg Cellar.shards (cellar_of_rest h hcellar), version_of_rest h hversion⟩

theorem foldl {α : Type} {g : State → α → State} (hg : ∀ s a, KeepsShards s (g s a)) (l : List α) (s : State) : KeepsShards s (l.foldl g s) :=
  List.foldlRecOn l g (refl s) fun _ hs a _ => hs.trans (hg _ a)

end KeepsShards

theorem notify_keepsShards (s : State) (n : Notice) (a : At) (b : List Nat) : KeepsShards s (notify s n a b) :=
  .of_rest (notify_rest (List.Subset.refl _) s n a b) (by decide) (by decide)

theorem finishIn_keepsShards (s : State) (ref : CmdRef) (st : Status) (b : Bytes) : KeepsShards s (finishIn s ref st b) :=
  .of_rest (finishIn_rest (List.Subset.refl _) s ref st b) (by decide) (by decide)

theorem finishOpt_keepsShards (s : State) (ref : Option CmdRef) (st : Status) (b : Bytes) : KeepsShards s (finishOpt s ref st b) :=
  .of_rest (finishOpt_rest (List.Subset.refl _) s ref st b) (by decide) (by decide)

theorem modBase_keepsShards (s : State) (b : Nat) (g : Base → Base) : KeepsShards s (s.modBase b g) := ⟨rfl, rfl⟩

theorem askRewrite_keepsShards (s : State) (k : Nat) : KeepsShards s (askRewrite s k) :=
  ⟨askRewrite_shards s k, version_of_rest (askRewrite_rest_send s k) (by decide)⟩

theorem fillNext_keepsShards (s : State) (b : Nat) : KeepsShards s (fillNext s b) := by
  unfold fillNext
  split
  · exact .refl s
  split
  · exact .refl s
  · refine .foldl (fun s stack => ?_) _ s
    dsimp only
    split
    · exact .refl s
    split
    · exact askRewrite_keepsShards s _
    · exact .refl s

theorem settleInstall_keepsShards (s : State) (b : Nat) : KeepsShards s (settleInstall s b) := by
  unfold settleInstall
  dsimp only
  split
  · exact .refl s
  split
  · split
    · exact (modBase_keepsShards s b _).trans (finishIn_keepsShards _ _ _ _)
    · exact .refl s
  split
  · exact (modBase_keepsShards s b _).trans ((notify_keepsShards _ _ _ _).trans (finishOpt_keepsShards _ _ _ _))
  · exact .refl s

/-- A shard is in a state, with a digest, and has failed before or not, as another is. -/
structure LikeShard (y x : Shard) : Prop where
  st : x.st = y.st
  digest : x.digest = y.digest
  retried : x.retried = y.retried

/-- An installation cut short leaves a shard that is not being written, and that the table lists once, in its state (R216). -/
theorem cutInstall_like {v : State} {y : Shard} (hst : y.st ≠ .writing) (hread : LikeShard y (v.shard k))
    (hlisted : ∀ p, p ∈ v.cellar.shards → p.1 = k → LikeShard y p.2) (b : Nat) (st : Status) : LikeShard y ((cutInstall v b st).shard k) := by
  unfold cutInstall
  split
  · exact hread
  · rw [shard_of_cellar (finishIn_keepsShards _ _ _ _).shards]
    refine holds_of_foldl_tput (Q := LikeShard y) _ _ (fun p _ hp => ?_) hlisted hread
    exact ⟨(if_neg (by rw [hp.st]; exact hst)).trans hp.st, hp.digest, hp.retried⟩

/-- A shard read back keeps its new state through the settling of its installation. -/
theorem settleSink_like {v w : State} {g : Shard → Shard} (hv : v.cellar.shards = (w.modShard k g).cellar.shards)
    (hst : (g (w.shard k)).st ≠ .writing) (b j : Nat) : LikeShard (g (w.shard k)) ((settleSink v b j).shard k) := by
  have hread : v.shard k = g (w.shard k) := (shard_of_cellar hv k).trans (State.modShard_self _ _ _)
  have hlike : LikeShard (g (w.shard k)) (v.shard k) := by rw [hread]; exact ⟨rfl, rfl, rfl⟩
  unfold settleSink
  dsimp only
  split
  · exact hlike
  split
  · refine cutInstall_like hst hlike (fun p hp hk => ?_) b _
    rw [hv] at hp
    rw [show p.2 = g (w.shard k) from eq_of_mem_tmod hp hk]
    exact ⟨rfl, rfl, rfl⟩
  · exact hlike

theorem settleSink_version (s : State) (b j : Nat) : (settleSink s b j).led.version = s.led.version :=
  version_of_rest (settleSink_rest (List.Subset.refl _) s b j) (by decide)

/-- A shard whose digest was read back as its manifest gives it. -/
def validShard (digest : Nat) (x : Shard) : Shard := { x with st := .valid, digest := digest, retried := false, rewrite := false }

/-- The notice of a shard rewritten in service (R228). -/
def restoredTold (k : Nat) (x : Shard) (s : State) : State :=
  if x.rewrite then notify s .shardRestored (atShard k) [k, x.base, x.index] else s

/-- A SINK's acknowledgement of an image shard that has become VALID (R285). -/
def sinkAck (ins : Option Install) (j : Nat) (s : State) : State :=
  match ins with
  | some i => (match i.source with
    | some src => tryAck s i.ident src j
    | none => s)
  | none => s

/-- A base whose outlier lists have been read (R211): a bad one ends its installation. -/
def listsJudged (ins : Option Install) (b : Nat) (listsOk : Bool) (s : State) : State :=
  if listsOk then s
  else
    let s := s.modBase b (fun y => { y with outlierBad := true })
    match ins with
    | some i => finishIn (s.modBase b (fun y => { y with install := none })) i.ref .outlierListBad (neededBytes s b)
    | none => s

theorem restoredTold_keepsShards (k : Nat) (x : Shard) (s : State) : KeepsShards s (restoredTold k x s) := by
  unfold restoredTold
  split
  · exact notify_keepsShards s _ _ _
  · exact .refl s

theorem sinkAck_keepsShards (ins : Option Install) (j : Nat) (s : State) : KeepsShards s (sinkAck ins j s) := by
  unfold sinkAck
  split
  · split
    · exact .of_rest (tryAck_rest (M := [.ports]) (by decide) s _ _ j) (by decide) (by decide)
    · exact .refl s
  · exact .refl s

theorem listsJudged_keepsShards (ins : Option Install) (b : Nat) (listsOk : Bool) (s : State) : KeepsShards s (listsJudged ins b listsOk s) := by
  unfold listsJudged
  split
  · exact .refl s
  · dsimp only
    split
    · exact (modBase_keepsShards s b _).trans ((modBase_keepsShards _ b _).trans (finishIn_keepsShards _ _ _ _))
    · exact modBase_keepsShards s b _

/-- A base's installation once one of its shards has been judged: the next shards asked for, and its end where they were the last. -/
def installMoved (b : Nat) (s : State) : State := settleInstall (fillNext s b) b

theorem installMoved_keepsShards (b : Nat) (s : State) : KeepsShards s (installMoved b s) :=
  (fillNext_keepsShards s b).trans (settleInstall_keepsShards _ b)

/-- What a read-back that matches leaves before the SINK's end. -/
def readBack (k digest : Nat) (listsOk : Bool) (s : State) : State :=
  let x := s.shard k
  let ins := (s.base x.base).install
  installMoved x.base (listsJudged ins x.base listsOk (sinkAck ins x.index (restoredTold k x (s.bump.modShard k (validShard digest)))))

theorem readBack_keepsShards (k digest : Nat) (listsOk : Bool) (s : State) :
    KeepsShards (s.bump.modShard k (validShard digest)) (readBack k digest listsOk s) :=
  (restoredTold_keepsShards k _ _).trans ((sinkAck_keepsShards _ _ _).trans ((listsJudged_keepsShards _ _ listsOk _).trans
    (installMoved_keepsShards _ _)))

theorem bump_cellar (s : State) : s.bump.cellar = s.cellar := cellar_of_rest (State.bump_rest (List.Subset.refl _) s) (by decide)

theorem wantDigest_bump (s : State) (k : Nat) : wantDigest s.bump k = wantDigest s k := by
  unfold wantDigest State.base State.shard; rw [bump_cellar]

section
variable {digest : Nat} {listsOk : Bool}

theorem shardReadbackDone_valid (hst : (s.shard k).st = .writing) (him : inImage s k = true) (hwant : wantDigest s k = some digest) :
    shardReadbackDone k digest listsOk s = settleSink (readBack k digest listsOk s) (s.shard k).base (s.shard k).index := by
  refine (if_neg (by simp [hst, him])).trans ((if_pos ((wantDigest_bump s k).trans hwant)).trans ?_)
  cases listsOk with
  | true => rfl
  | false => rfl

theorem shardReadbackDone_failed (hst : (s.shard k).st = .writing) (him : inImage s k = true) (hwant : wantDigest s k ≠ some digest) :
    shardReadbackDone k digest listsOk s = settleSink (fillNext (failShard s.bump k) (s.shard k).base) (s.shard k).base (s.shard k).index :=
  (if_neg (by simp [hst, him])).trans (if_neg (by rw [wantDigest_bump]; exact hwant))

theorem failShard_version (s : State) (k : Nat) : (failShard s k).led.version = s.led.version := by
  unfold failShard
  split
  · exact (notify_keepsShards _ _ _ _).version
  · exact (askRewrite_keepsShards _ _).version

theorem failedShard_settled (x : Shard) : (failedShard x).st ≠ .writing := by
  unfold failedShard
  split
  · exact nofun
  · exact nofun

theorem shardReadbackDone_done (h : roomCompletes (.shardReadbackDone k digest listsOk) s = true) :
    roomDone (.shardReadbackDone k digest listsOk) s (shardReadbackDone k digest listsOk s) := by
  simp only [roomCompletes, Bool.and_eq_true, decide_eq_true_eq] at h
  obtain ⟨⟨-, hst⟩, him⟩ := h
  have hbump : s.bump.shard k = s.shard k := shard_of_cellar (congrArg Cellar.shards (bump_cellar s)) k
  have hrecord (hup : s.keeper.up = true) : s.bump.led.version = s.led.version + 1 := by rw [bump_version, if_pos hup]
  by_cases hwant : wantDigest s k = some digest
  · have hkept := readBack_keepsShards k digest listsOk s
    have hlike := settleSink_like hkept.shards (by exact nofun) (s.shard k).base (s.shard k).index
    rw [shardReadbackDone_valid hst him hwant]
    refine ⟨fun _ _ => ⟨hlike.st, hlike.digest, hlike.retried⟩, fun hne => absurd hwant hne, fun hne => absurd hwant hne, fun hup => ?_⟩
    rw [settleSink_version, hkept.version]
    exact (hrecord hup).ge
  · have hkept := fillNext_keepsShards (failShard s.bump k) (s.shard k).base
    have hlike := settleSink_like (hkept.shards.trans (failShard_shards _ k)) (failedShard_settled _) (s.shard k).base (s.shard k).index
    rw [hbump] at hlike
    rw [shardReadbackDone_failed hst him hwant]
    refine ⟨fun _ hw => absurd hw hwant, fun _ hretried => ?_, fun _ hfirst => ?_, fun hup => ?_⟩
    · rw [failedShard_retried hretried] at hlike; exact hlike.st
    · rw [failedShard_first hfirst] at hlike; exact hlike.st
    · rw [settleSink_version, hkept.version, failShard_version]
      exact (hrecord hup).ge

end

/-! #### Fetches and arrivals (R194, R220, R226, R227) -/

section
variable {w j digest : Nat}

/-- A window's slot that has its shard, checked. -/
def filledSlot (b j : Nat) (r : Slot) : Slot := if r.base = b ∧ r.shard = j then { r with arrived := true, verified := true } else r

theorem noteAhead_window (s : State) (w : Nat) : ((noteAhead s w).wing w).window = (s.wing w).window := by
  unfold noteAhead; dsimp only; rw [State.modWing_self]

theorem noteAhead_fetched (s : State) (w : Nat) : ((noteAhead s w).wing w).stall.fetched = (s.wing w).stall.fetched := by
  unfold noteAhead; dsimp only; rw [State.modWing_self]

theorem fillSlot_ring (s : State) (w b j : Nat) (again : Bool) :
    ((fillSlot s w b j again).wing w).window.ring = (s.wing w).window.ring.map (filledSlot b j) := by
  unfold fillSlot
  rw [noteAhead_window]
  exact congrArg (fun x : Wing => x.window.ring) (State.modWing_self _ _ _)

theorem fillSlot_fetched (s : State) (w b j : Nat) (again : Bool) :
    ((fillSlot s w b j again).wing w).stall.fetched = wrapAdd (s.wing w).stall.fetched 1 := by
  unfold fillSlot
  rw [noteAhead_fetched]
  exact congrArg (fun x : Wing => x.stall.fetched) (State.modWing_self _ _ _)

theorem shardArrival_done (h : roomCompletes (.shardArrival w j digest) s = true) :
    roomDone (.shardArrival w j digest) s (shardArrival w j digest s) := by
  simp only [roomCompletes, Bool.and_eq_true, List.any_eq_true, decide_eq_true_eq, Bool.not_eq_true', Option.isNone_iff_eq_none] at h
  obtain ⟨⟨-, r, hr, ⟨hbase, hshard⟩, hwaits⟩, hnone⟩ := h
  have heq : shardArrival w j digest s =
      if (s.base (s.wing w).window.base).digests[j]? = some digest then fillSlot s w (s.wing w).window.base j false
      else askShard (quarantine s ((s.base (s.wing w).window.base).shardOf j)) ((s.base (s.wing w).window.base).shardOf j) := by
    refine if_neg ?_
    rw [hnone]
    simp only [Bool.not_eq_true', Option.isSome_none, Bool.false_eq_true, or_false, Bool.not_eq_false, List.any_eq_true]
    exact ⟨r, hr, by simp [hbase, hshard, hwaits]⟩
  rw [heq]
  refine ⟨fun hgood => ?_, fun hbad hvalid => ?_⟩
  · rw [if_pos hgood]
    refine ⟨⟨{ r with arrived := true, verified := true }, ?_, hbase, hshard, rfl, rfl⟩, fillSlot_fetched _ _ _ _ _, rfl⟩
    rw [fillSlot_ring]
    exact List.mem_map.mpr ⟨r, hr, if_pos ⟨hbase, hshard⟩⟩
  · rw [if_neg hbad, shard_of_cellar (askShard_shards _ _), (quarantine_put hvalid).self]
    rfl

/-- Asked for a shard that it can have, a module gives no fetch up (R227, R229). -/
theorem askShard_rest_send (h : (requestOf s k false).isSome = true ∨ (nextHolder s (s.shard k).base []).isSome = true) :
    rest [.cellar, .ports] (askShard s k) = rest [.cellar, .ports] s := by
  unfold askShard
  split
  · rfl
  next hask =>
    simp only [not_or] at hask
    obtain ⟨i, hi⟩ := Option.isSome_iff_exists.mp (h.resolve_left hask.1)
    unfold askNext
    dsimp only
    rw [hi]
    exact (sendRouted_rest (by decide) _ _).trans (State.modCellar_rest (by decide) _ _)

theorem askShard_requested (hclock : s.clock.st ≠ .adrift)
    (h : (requestOf s k false).isSome = true ∨ (nextHolder s (s.shard k).base []).isSome = true) :
    (requestOf (askShard s k) k false).isSome = true := by
  unfold askShard
  split
  next hask => exact hask.resolve_right hclock
  next hask =>
    simp only [not_or] at hask
    obtain ⟨i, hi⟩ := Option.isSome_iff_exists.mp (h.resolve_left hask.1)
    rw [requestOf_askNext_some hi]
    rfl

/-- A window with its next slot given to an image shard. -/
def slotGiven (v : Window) (b j : Nat) (x : Wing) : Wing :=
  { x with window := { v with ring := v.ring ++ [{ base := b, shard := j, arrived := false, verified := false }] } }

theorem slotRange_ring {v x : Window} (h : slotRange s w x = some v) : v.ring = x.ring := by
  unfold slotRange at h
  split at h
  · cases h; rfl
  · obtain ⟨p, -, rfl⟩ := Option.map_eq_some_iff.mp h
    rfl

theorem shardFetch_eq {v : Window} (hmay : mayFetch (s.wing w) = true) (hnext : nextFetch (passOn s w) w = some j)
    (hroom : ((passOn s w).wing w).window.ring.length < ((passOn s w).wing w).window.slots) (hfree : stackBusy ((passOn s w).wing w) j = false)
    (hrange : slotRange (passOn s w) w ((passOn s w).wing w).window = some v) :
    shardFetch w s =
      let u := passOn s w
      let b := (u.wing w).window.base
      let k := (u.base b).shardOf j
      let t := u.modWing w (slotGiven v b j)
      if (u.shard k).st = .valid then t else askShard t k := by
  unfold shardFetch
  rw [if_neg (by simp [hmay])]
  dsimp only
  rw [hnext]
  dsimp only
  rw [if_neg (by simp [hfree]; omega), hrange]
  rfl

theorem shardFetch_done (h : roomCompletes (.shardFetch w) s = true) : roomDone (.shardFetch w) s (shardFetch w s) := by
  simp only [roomCompletes, Bool.and_eq_true] at h
  obtain ⟨⟨-, hmay⟩, hnext⟩ := h
  split at hnext
  next j hj =>
    simp only [Bool.and_eq_true, Bool.not_eq_true', decide_eq_true_eq] at hnext
    obtain ⟨⟨⟨hroom, hfree⟩, hrange⟩, hfetch⟩ := hnext
    obtain ⟨v, hv⟩ := Option.isSome_iff_exists.mp hrange
    have hpassed : rest [.wings] (passOn s w) = rest [.wings] s := passOn_rest (by decide) s w
    have hshard (k : Nat) : (passOn s w).shard k = s.shard k := shard_of_cellar (congrArg Cellar.shards (cellar_of_rest hpassed (by decide))) k
    have hclock : (passOn s w).clock = s.clock := clock_of_rest hpassed (by decide)
    rw [shardFetch_eq hmay hj hroom hfree hv]
    unfold roomDone
    dsimp only
    generalize passOn s w = u at *
    simp only [fetchable, Bool.or_eq_true, Bool.and_eq_true, decide_eq_true_eq, or_assoc] at hfetch
    have hask (hinvalid : (u.shard ((u.base (u.wing w).window.base).shardOf j)).st ≠ .valid) :=
      (hfetch.resolve_left hinvalid).imp_right And.right
    refine ⟨j, hj, ?_, fun k hk hinvalid hcount => ?_⟩
    · have hring : ((u.modWing w (slotGiven v (u.wing w).window.base j)).wing w).window.ring = v.ring ++
          [{ base := (u.wing w).window.base, shard := j, arrived := false, verified := false }] :=
        congrArg (fun x : Wing => x.window.ring) (State.modWing_self _ _ _)
      rw [← slotRange_ring hv, ← hring]
      split
      · rfl
      next hinvalid =>
        rw [wing_of_rest (askShard_rest_send ?_) (by decide)]
        exact hask hinvalid
    · subst hk
      rw [← hshard] at hinvalid
      rw [if_neg hinvalid]
      refine askShard_requested ?_ ?_
      · exact hclock ▸ hcount
      · exact hask hinvalid
  · cases hnext

end

end

/-! #### The rows of shards -/

/-- A row of the family that has its effect names a part that the module has (Table 0.5). -/
theorem wf_of_shard_completes {i : Instr} {s : State} (hi : familyOf i = .shard) (h : roomCompletes i s = true) : i.wf = true := by
  cases i with
  | shardFetch | shardArrival | shardProgramDone | shardReadbackDone | sweepReadDone | shardEraseDone | holderTimeout =>
    simp only [roomCompletes, Bool.and_assoc] at h
    exact Bool.and_elim_left h
  | _ => cases hi

/-- Settles O11: each of the rows changes a window's slot, one shard or one request, and what follows it keeps that change. -/
theorem shardRows : Obligations.ShardRows := by
  intro i s hi h
  have hwf := wf_of_shard_completes hi h
  cases i with
  | shardFetch => exact ⟨_, onPart_of_partIn hwf _ _, shardFetch_done h⟩
  | shardArrival => exact ⟨_, onPart_of_partIn hwf _ _, shardArrival_done h⟩
  | shardProgramDone => exact ⟨_, onPart_of_partIn hwf _ _, shardProgramDone_done h⟩
  | shardReadbackDone => exact ⟨_, onPart_of_partIn hwf _ _, shardReadbackDone_done h⟩
  | sweepReadDone => exact ⟨_, onPart_of_partIn hwf _ _, sweepReadDone_done h⟩
  | shardEraseDone => exact ⟨_, onPart_of_partIn hwf _ _, shardEraseDone_done h⟩
  | holderTimeout => exact ⟨_, onPart_of_partIn hwf _ _, holderTimeout_done h⟩
  | _ => cases hi

end Sys2Proof.Machine
/-! ### Configuration, decoders, the region and registers (chapter 14) -/

namespace Sys2Proof.Machine

open Sys2Proof Sys2Proof.Safety

/-- Bytes just stored load back. -/
theorem mload_mstore (m : Mem) (a : Nat) (bs : Bytes) : mload (mstore m a bs) a bs.length = bs := by
  refine List.ext_getElem (by simp [mload]) fun i _ hi => ?_
  simp only [mload, List.getElem_map, List.getElem_range]
  exact mread_mstore_in m a bs i hi

section
variable {s : State} {fn : Nat}

/-! #### Configuration and the translation cache (R369, R375) -/

/-- How a configuration request is answered (R369). -/
def configAnswer (fn : Nat) (s : State) : Nat :=
  if !s.link.up || !mainOn s then 0
  else if s.power.bootStep < 2 ∧ !s.power.minimal then 1
  else if fn = 0 ∨ (s.fn fn).st ≠ .absent then 2
  else 3

/-- A function whose ATS Enable bit is written (R375). -/
def atsWritten (b : Bool) (f : Fn) : Fn := { f with ats := b, atc := if b = true ∧ f.ats = false then [] else f.atc }

/-- A link whose last configuration request has its answer. -/
def linkAnswered (n : Nat) (l : Link) : Link := { l with cfgAnswer := n }

theorem configRequest_some (b : Bool) : configRequest fn (some b) s =
    if configAnswer fn s = 2 then (s.modLink (linkAnswered (configAnswer fn s))).modFn fn (atsWritten b)
    else s.modLink (linkAnswered (configAnswer fn s)) := rfl

theorem configRequest_link (ats : Option Bool) : (configRequest fn ats s).link = linkAnswered (configAnswer fn s) s.link := by
  cases ats with
  | none => rfl
  | some b =>
    rw [configRequest_some]
    split
    · rfl
    · rfl

theorem configRequest_fns (b : Bool) : if configAnswer fn s = 2 then (configRequest fn (some b) s).fns = (s.modFn fn (atsWritten b)).fns
    else (configRequest fn (some b) s).fns = s.fns := by
  rw [configRequest_some]
  split
  · rfl
  · rfl

theorem configRequest_done (ats : Option Bool) : hostDone (.configRequest fn ats) s (configRequest fn ats s) := by
  have hanswer : (configRequest fn ats s).link.cfgAnswer = configAnswer fn s := congrArg Link.cfgAnswer (configRequest_link ats)
  unfold hostDone
  dsimp only
  rw [hanswer]
  refine ⟨?_, ?_, fun hoff => ?_, fun hup hmain hboot hmin => ?_, fun hup hmain hready => ?_⟩
  · cases ats with
    | none => rfl
    | some b =>
      rw [configRequest_some]
      split
      · rfl
      · rfl
  · cases ats with
    | none => rfl
    | some b => exact configRequest_fns b
  · exact if_pos (by simpa using hoff)
  · exact (if_neg (by simp [hup, hmain])).trans (if_pos (by simp [hboot, hmin]))
  · refine (if_neg (by simp [hup, hmain])).trans (if_neg fun hearly => ?_)
    simp only [Bool.not_eq_true'] at hearly
    exact hready.elim (fun h2 => by omega) (fun hm => by rw [hm] at hearly; cases hearly.2)

theorem atsInvalidate_done (page : Nat) : hostDone (.atsInvalidate fn page) s (atsInvalidate fn page s) := by
  have hfn : (atsInvalidate fn page s).fn fn = { s.fn fn with atc := (s.fn fn).atc.filter (fun p => decide (p ≠ page)) } :=
    State.modFn_self _ _ _
  unfold hostDone
  dsimp only
  rw [hfn]
  exact ⟨by simp, fun q hq => by simp [hq], rfl⟩

/-! #### HDM decoders (R368, R388) -/

theorem modDecoder_self (s : State) (d : Nat) (g : Decoder → Decoder) : (s.modDecoder d g).decoder d = g (s.decoder d) := tget_tmod_self _ _ _

theorem modDecoder_ne (s : State) {d e : Nat} (g : Decoder → Decoder) (h : e ≠ d) : (s.modDecoder d g).decoder e = s.decoder e :=
  tget_tmod_ne _ _ h

theorem bump_decoder (s : State) (d : Nat) : s.bump.decoder d = s.decoder d := by
  unfold State.decoder
  rw [same_of_rest (c := .link) (State.bump_rest (M := [.keeper, .version]) (by decide) s) (by decide)]

section
variable {d base size : Nat} {lock : Bool}

/-- A decoder that has committed. -/
def committedDecoder (base size : Nat) (lock : Bool) (x : Decoder) : Decoder :=
  { x with base := base, size := size, committed := true, error := false, locked := lock }

/-- A decoder whose commit failed. -/
def failedDecoder (base size : Nat) (x : Decoder) : Decoder := { x with base := base, size := size, error := true }

theorem decoderCommit_eq (h : hostCompletes (.decoderCommit d base size lock) s = true) : decoderCommit d base size lock s =
    if commitOk s d base size then s.bump.modDecoder d (committedDecoder base size lock) else s.modDecoder d (failedDecoder base size) := by
  simp only [hostCompletes, Bool.and_eq_true, Bool.not_eq_true', decide_eq_true_eq] at h
  obtain ⟨⟨-, hup⟩, hfree⟩ := h
  exact if_neg (by simp [hup, hfree])

theorem decoderCommit_done (h : hostCompletes (.decoderCommit d base size lock) s = true) :
    hostDone (.decoderCommit d base size lock) s (decoderCommit d base size lock s) := by
  rw [decoderCommit_eq h]
  unfold hostDone
  dsimp only
  by_cases hok : commitOk s d base size = true
  · rw [if_pos hok, if_pos hok]
    refine ⟨fun e he => ?_, ⟨?_, fun hup => ?_⟩, ?_⟩
    · rw [modDecoder_ne _ _ he, bump_decoder]
    · rw [modDecoder_self, bump_decoder]; rfl
    · exact (bump_version s).trans (if_pos hup)
    · unfold State.bump
      split
      · rfl
      · rfl
  · rw [if_neg hok, if_neg hok]
    exact ⟨fun e he => modDecoder_ne _ _ he, ⟨modDecoder_self _ _ _, rfl⟩, rfl⟩

/-- A decoder released. -/
def uncommittedDecoder (x : Decoder) : Decoder := { x with committed := false }

/-- The lines outside a run of region bytes. -/
def lineOutside (a n line : Nat) : Bool := decide (line * 64 < a ∨ a + n ≤ line * 64)

/-- A region without a part of it. -/
def regionReleased (a n : Nat) (l : Link) : Link :=
  { l with region := mclear l.region a n, written := l.written.filter (lineOutside a n), poisoned := l.poisoned.filter (lineOutside a n) }

theorem decoderUncommit_eq (h : hostCompletes (.decoderUncommit d) s = true) : decoderUncommit d s =
    (s.bump.modDecoder d uncommittedDecoder).modLink (regionReleased (regionStart s d) (s.decoder d).size) := by
  simp only [hostCompletes, Bool.and_eq_true, Bool.not_eq_true', decide_eq_true_eq] at h
  obtain ⟨⟨-, hcommitted⟩, hunlocked⟩ := h
  exact if_neg (by simp [hcommitted, hunlocked])

theorem decoderUncommit_done (h : hostCompletes (.decoderUncommit d) s = true) : hostDone (.decoderUncommit d) s (decoderUncommit d s) := by
  have hlink : s.bump.link = s.link := same_of_rest (c := .link) (State.bump_rest (M := [.keeper, .version]) (by decide) s) (by decide)
  rw [decoderUncommit_eq h]
  unfold hostDone
  dsimp only
  generalize regionStart s d = a
  generalize (s.decoder d).size = n
  have hregion : ((s.bump.modDecoder d uncommittedDecoder).modLink (regionReleased a n)).link.region = mclear s.link.region a n := by
    rw [← hlink]; rfl
  refine ⟨?_, fun e he => ?_, fun l hlo hhi => ?_, fun b hlo hhi => ?_, fun b hout => ?_⟩
  · exact congrArg Decoder.committed (modDecoder_self s.bump d uncommittedDecoder)
  · exact (modDecoder_ne s.bump uncommittedDecoder he).trans (bump_decoder s e)
  · have hnot (ls : List Nat) : l ∉ ls.filter (lineOutside a n) := by
      simp only [List.mem_filter, lineOutside, decide_eq_true_eq]; omega
    exact ⟨hnot _, hnot _⟩
  · rw [hregion, mread_mclear, if_pos ⟨hlo, hhi⟩]
  · rw [hregion, mread_mclear, if_neg (by omega)]

end

/-! #### CXL.mem accesses (R389, R401) -/

theorem tellDown_frame (c : Nat) (s : State) : tellDown c s = { s with
    led := { s.led with lofts := (tellDown c s).led.lofts }, fns := (tellDown c s).fns, keeper := (tellDown c s).keeper } := by
  unfold tellDown
  split
  · rfl
  · rw [notify_frame]; rfl

theorem tellDown_noticed (c : Nat) (s : State) : ((tellDown c s).loft c).downNoticed = true := by
  unfold tellDown
  split
  next h => exact h
  · rw [loft_of_rest (notify_rest (List.Subset.refl _) _ _ _ _) (by decide), State.modLoft_self]

theorem cxlMemRead_eq {addr o : Nat} (hup : s.link.up = true) (hmem : s.link.mem = true) (ho : regionOffset s addr = some o) : cxlMemRead addr s =
    if lineDown s (o / 64) then returned (tellDown (lineChannel (o / 64)) (s.modLink (fun l => { l with poison := true }))) []
    else if o / 64 ∈ s.link.poisoned ∨ (s.link.poisonAll ∧ o / 64 ∉ s.link.written) then returned (s.modLink (fun l => { l with poison := true })) []
    else returned (s.modLink (fun l => { l with poison := false })) (regionLine s (o / 64)) := by
  refine (if_neg (by simp [hup, hmem])).trans ?_
  rw [ho]

theorem cxlMemRead_done {addr : Nat} (h : hostCompletes (.cxlMemRead addr) s = true) : hostDone (.cxlMemRead addr) s (cxlMemRead addr s) := by
  simp only [hostCompletes, Bool.and_eq_true] at h
  obtain ⟨⟨hup, hmem⟩, -⟩ := h
  intro o ho
  rw [cxlMemRead_eq hup hmem ho]
  by_cases hdown : lineDown s (o / 64) = true
  · rw [if_pos hdown, if_pos hdown]
    refine ⟨⟨?_, rfl⟩, tellDown_noticed _ _⟩
    exact congrArg (fun t : State => t.link.poison) (tellDown_frame _ _)
  · rw [if_neg hdown, if_neg hdown]
    by_cases hpoison : o / 64 ∈ s.link.poisoned ∨ (s.link.poisonAll = true ∧ o / 64 ∉ s.link.written)
    · rw [if_pos hpoison, if_pos hpoison]
      exact ⟨rfl, rfl, rfl⟩
    · rw [if_neg hpoison, if_neg hpoison]
      exact ⟨rfl, rfl, fun hwritten => if_pos hwritten⟩

theorem mem_insertBy {α : Type} (lt : α → α → Bool) (x : α) (l : List α) : x ∈ insertBy lt x l := by
  induction l with
  | nil => exact List.mem_singleton.mpr rfl
  | cons y l ih =>
    unfold insertBy
    split
    · exact List.mem_cons_self
    · exact List.mem_cons_of_mem _ ih

/-- A region with 64 bytes written at an offset. -/
def regionWritten (o : Nat) (data : Bytes) (l : Link) : Link :=
  { l with
    region := mstore l.region o data
    written := if o / 64 ∈ l.written then l.written else insertBy (fun a b => decide (a < b)) (o / 64) l.written
    poisoned := l.poisoned.filter (fun x => decide (x ≠ o / 64)) }

theorem mem_regionWritten (o : Nat) (data : Bytes) (l : Link) : o / 64 ∈ (regionWritten o data l).written := by
  unfold regionWritten
  dsimp only
  split
  next hin => exact hin
  · exact mem_insertBy _ _ _

theorem cxlMemWrite_done {addr : Nat} {data : Bytes} (h : hostCompletes (.cxlMemWrite addr data) s = true) :
    hostDone (.cxlMemWrite addr data) s (cxlMemWrite addr data s) := by
  simp only [hostCompletes, Bool.and_eq_true, decide_eq_true_eq] at h
  obtain ⟨⟨⟨hup, hmem⟩, haligned, hlength⟩, -⟩ := h
  intro o ho
  have heq : cxlMemWrite addr data s =
      if lineDown s (o / 64) then tellDown (lineChannel (o / 64)) s else s.modLink (regionWritten o data) := by
    refine (if_neg (by simp [hup, hmem, haligned, hlength])).trans ?_
    rw [ho]
    rfl
  rw [heq]
  by_cases hdown : lineDown s (o / 64) = true
  · rw [if_pos hdown, if_pos hdown]
    exact ⟨(congrArg State.link (tellDown_frame _ s)).trans rfl, tellDown_noticed _ s, tellDown_frame _ s⟩
  · rw [if_neg hdown, if_neg hdown]
    refine ⟨?_, mem_regionWritten _ _ _, fun hpoisoned => ?_, fun b hb => ?_, rfl⟩
    · exact hlength ▸ mload_mstore s.link.region o data
    · exact of_decide_eq_true (List.mem_filter.mp hpoisoned).2 rfl
    · exact mread_mstore_out _ _ _ _ (by omega)

/-! #### Registers without a row of their own (R382, R385, Table 14.12) -/

theorem mpCountRead_frame (s : State) :
    mpCountRead s = { s with snapshot := (mpCountRead s).snapshot, mgmt := (mpCountRead s).mgmt } := by
  unfold mpCountRead
  split
  · rfl
  · rfl

/-- A function with the high half of a register latched at a count (R382). -/
def halfLatched (off v count : Nat) (f : Fn) : Fn := { f with latch := some (off, v / 2 ^ 32, count) }

/-- What a read of a low half changes before the high half is latched. -/
def halfCounted (fn off : Nat) (s : State) : State := if fn = 0 ∧ off = 0x1000 then mpCountRead s else s

theorem halfCounted_frame (fn off : Nat) (s : State) :
    halfCounted fn off s = { s with snapshot := (halfCounted fn off s).snapshot, mgmt := (halfCounted fn off s).mgmt } := by
  unfold halfCounted
  split
  · exact mpCountRead_frame s
  · rfl

theorem lowHalfRead_eq {off v : Nat} (hup : s.link.up = true) (hmain : mainOn s = true) (hv : wideRegister s fn off = some v) :
    lowHalfRead fn off s =
      returned ((halfCounted fn off s).modFn fn (halfLatched off v (halfCounted fn off s).clock.count)) (leBytes 4 v) := by
  refine (if_neg (by simp [hup, hmain])).trans ?_
  rw [hv]
  rfl

theorem lowHalfRead_done {off : Nat} (h : hostCompletes (.lowHalfRead fn off) s = true) :
    hostDone (.lowHalfRead fn off) s (lowHalfRead fn off s) := by
  simp only [hostCompletes, Bool.and_eq_true, decide_eq_true_eq] at h
  obtain ⟨⟨⟨-, hup⟩, hmain⟩, hwide⟩ := h
  obtain ⟨v, hv⟩ := Option.isSome_iff_exists.mp hwide
  have hclock : (halfCounted fn off s).clock = s.clock := (congrArg State.clock (halfCounted_frame fn off s)).trans rfl
  rw [lowHalfRead_eq hup hmain hv, hclock]
  refine ⟨fun v' hv' => ?_, ?_⟩
  · cases hv.symm.trans hv'
    refine ⟨rfl, ?_⟩
    exact congrArg Fn.latch (State.modFn_self (halfCounted fn off s) fn (halfLatched off v s.clock.count))
  · rw [halfCounted_frame]; rfl

theorem writeMsix_frame (off v : Nat) (f : Fn) : writeMsix off v f =
    { f with msix := mstore f.msix (off - 0x800) (leBytes 4 v), msixPending := (writeMsix off v f).msixPending } := by
  unfold writeMsix
  dsimp only
  refine List.foldlRecOn (motive := fun g : Fn =>
    g = { f with msix := mstore f.msix (off - 0x800) (leBytes 4 v), msixPending := g.msixPending }) _ _ rfl fun g hg i _ => ?_
  split
  · rw [hg]
  · exact hg

theorem writeFn4_st (off v : Nat) (f : Fn) : (writeFn4 off v f).st = f.st := by
  unfold writeFn4
  rw [writeMsix_frame]
  repeat' split
  all_goals rfl

theorem takesWrites_writeFn4 (off v : Nat) : takesWrites (s.modFn fn (writeFn4 off v)) fn = takesWrites s fn := by
  unfold takesWrites; rw [State.modFn_self, writeFn4_st]

/-- A 4-byte write to a register of a function's own block. -/
theorem writeBar4_block {r : Nat} (hr : r < 0x1000) (v : Nat) (hw : takesWrites s fn = true) :
    writeBar4 fn (blockBase fn + r) v s = s.modFn fn (writeFn4 r v) := by
  have hbase : fn = 0 → blockBase fn = 0x2000 := fun h => if_pos h
  unfold writeBar4
  rw [if_neg (by omega), if_neg (by omega), if_pos ⟨by omega, by omega, hw⟩, Nat.add_sub_cancel_left]

/-- A write to BAR0 reaches functions, FLOG_INDEX and the Porter alone. -/
theorem writeBar4_frame (off v : Nat) (s : State) : writeBar4 fn off v s =
    { s with fns := (writeBar4 fn off v s).fns, mgmt := (writeBar4 fn off v s).mgmt, porter := (writeBar4 fn off v s).porter } := by
  unfold writeBar4 porterWrite
  dsimp only
  repeat' split
  all_goals rfl

theorem writeBar4_refused (off v : Nat) (hw : takesWrites s fn = false) : (writeBar4 fn off v s).fns = s.fns := by
  unfold writeBar4 porterWrite
  rw [if_neg (show ¬(blockBase fn ≤ off ∧ off < blockBase fn + 0x1000 ∧ takesWrites s fn = true) by simp [hw])]
  repeat' split
  all_goals rfl

theorem registerWrite_word {off : Nat} (h : barWrite s off 4 = true) (v : Nat) :
    registerWrite .bar0 fn off 4 v s = writeBar4 fn off (v % 2 ^ 32) s := by
  simp only [barWrite, Bool.and_eq_true, decide_eq_true_eq] at h
  obtain ⟨⟨⟨hup, hmain⟩, -⟩, haligned⟩ := h
  exact if_neg (by simp [hup, hmain, haligned])

theorem registerWrite_double {off : Nat} (h : barWrite s off 8 = true) (v : Nat) :
    registerWrite .bar0 fn off 8 v s = writeBar4 fn (off + 4) (v / 2 ^ 32 % 2 ^ 32) (writeBar4 fn off (v % 2 ^ 32) s) := by
  simp only [barWrite, Bool.and_eq_true, decide_eq_true_eq] at h
  obtain ⟨⟨⟨hup, hmain⟩, -⟩, haligned⟩ := h
  exact if_neg (by simp [hup, hmain, haligned])

/-- A 4-byte write to a register of the block. -/
theorem registerWrite_word_fn {r : Nat} (hr : r < 0x1000) (h : barWrite s (blockBase fn + r) 4 = true) (v : Nat) (hw : takesWrites s fn = true) :
    (registerWrite .bar0 fn (blockBase fn + r) 4 v s).fn fn = writeFn4 r (v % 2 ^ 32) (s.fn fn) := by
  rw [registerWrite_word h, writeBar4_block hr _ hw, State.modFn_self]

/-- An 8-byte write to a register of the block: its low half, then its high half. -/
theorem registerWrite_double_fn {r : Nat} (hr : r + 4 < 0x1000) (h : barWrite s (blockBase fn + r) 8 = true) (v : Nat)
    (hw : takesWrites s fn = true) : (registerWrite .bar0 fn (blockBase fn + r) 8 v s).fn fn =
      writeFn4 (r + 4) (v / 2 ^ 32 % 2 ^ 32) (writeFn4 r (v % 2 ^ 32) (s.fn fn)) := by
  rw [registerWrite_double h, writeBar4_block (by omega) _ hw, Nat.add_assoc, writeBar4_block hr _ ((takesWrites_writeFn4 r _).trans hw),
    State.modFn_self, State.modFn_self]

/-- Both halves of a ring base written, it is the value less its reserved bits (Table 14.13). -/
theorem setBase_halves (old v : Nat) :
    setBase (setBase old (v % 2 ^ 32) false) (v / 2 ^ 32 % 2 ^ 32) true = v % 2 ^ 64 / 4096 * 4096 := by
  simp only [setBase, setHalf, Bool.false_eq_true, if_false, if_true]
  omega

theorem registerWrite_frame (off width v : Nat) (s : State) : registerWrite .bar0 fn off width v s =
    { s with fns := (registerWrite .bar0 fn off width v s).fns, mgmt := (registerWrite .bar0 fn off width v s).mgmt
             porter := (registerWrite .bar0 fn off width v s).porter } := by
  unfold registerWrite
  dsimp only
  split
  · rfl
  split
  · exact writeBar4_frame _ _ s
  split
  · exact (writeBar4_frame _ _ _).trans (by rw [writeBar4_frame off])
  · rfl

theorem registerWrite_refused {off width : Nat} (v : Nat) (hw : takesWrites s fn = false) :
    (registerWrite .bar0 fn off width v s).fns = s.fns := by
  have hfirst := writeBar4_refused off (v % 2 ^ 32) hw
  have hstill : takesWrites (writeBar4 fn off (v % 2 ^ 32) s) fn = false := by
    unfold takesWrites State.fn at *; rw [hfirst]; exact hw
  unfold registerWrite
  dsimp only
  split
  · rfl
  split
  · exact hfirst
  split
  · exact (writeBar4_refused _ _ hstill).trans hfirst
  · rfl

theorem barWritten_of_barWrite {off width : Nat} (v : Nat) (h : barWrite s off width = true) :
    barWritten s (registerWrite .bar0 fn off width v s) fn off width v := by
  have hbit (i : Nat) (hi : i < 32) : (v % 2 ^ 32).testBit i = v.testBit i := by
    rw [Nat.testBit_mod_two_pow, decide_eq_true hi, Bool.true_and]
  refine ⟨registerWrite_frame off width v s, fun hw hwidth hoff happly => ?_, fun hw hwidth hoff => ?_, fun hw hwidth hoff => ?_,
    fun hw hwidth hoff => ?_, fun hw hwidth hoff => ?_, fun hw hwidth hlo hhi => ?_, fun hw => registerWrite_refused v hw, fun hfn hwidth hoff => ?_,
    fun hfn hwidth hoff hkey hop => ?_⟩
  · subst hwidth hoff
    have hfn : (registerWrite .bar0 fn (blockBase fn) 4 v s).fn fn = writeFn4 0 (v % 2 ^ 32) (s.fn fn) :=
      registerWrite_word_fn (r := 0) (by omega) h v hw
    rw [hfn]
    unfold writeFn4
    rw [if_pos rfl, hbit 1 (by omega), if_neg (by simp [happly]), hbit 0 (by omega)]
    exact ⟨rfl, rfl⟩
  · subst hwidth hoff
    rw [registerWrite_word_fn (r := 0x0C) (by omega) h v hw]
    rfl
  · subst hwidth hoff
    rw [registerWrite_double_fn (r := 0x10) (by omega) h v hw]
    exact setBase_halves _ v
  · subst hwidth hoff
    rw [registerWrite_double_fn (r := 0x18) (by omega) h v hw]
    exact setBase_halves _ v
  · subst hwidth hoff
    rw [registerWrite_double_fn (r := 0x20) (by omega) h v hw]
    exact setBase_halves _ v
  · subst hwidth
    obtain ⟨r, rfl⟩ := Nat.exists_eq_add_of_le (Nat.le_trans (Nat.le_add_right _ _) hlo)
    rw [registerWrite_word_fn (by omega) h v hw, Nat.add_sub_cancel_left]
    unfold writeFn4
    rw [if_neg (by omega), if_neg (by omega), if_neg (by omega), if_neg (by omega), if_neg (by omega), if_pos (by omega), writeMsix_frame]
    exact mload_mstore _ _ (leBytes 4 (v % 2 ^ 32))
  · subst hwidth
    rw [registerWrite_word h]
    exact if_pos ⟨hfn, hoff⟩
  · subst hwidth
    rw [registerWrite_word h]
    simp only [barWrite, Bool.and_eq_true, decide_eq_true_eq] at h
    obtain ⟨⟨⟨-, hmain⟩, -⟩, -⟩ := h
    refine (if_neg (by omega)).trans ((if_pos ⟨hfn, hoff⟩).trans ?_)
    rw [hop, hkey]
    exact (if_neg (by simp)).trans ((if_neg (by simp [hmain])).trans ((if_neg (by simp)).trans (if_pos rfl)))

theorem registerWrite_done {space : RegSpace} {off width v : Nat} (h : hostCompletes (.registerWrite space fn off width v) s = true) :
    hostDone (.registerWrite space fn off width v) s (registerWrite space fn off width v s) := by
  simp only [hostCompletes, Bool.and_eq_true] at h
  cases space with
  | i3c =>
    simp only [Bool.and_eq_true, decide_eq_true_eq] at h
    exact if_pos ⟨h.2.1, h.2.2⟩
  | bar0 => exact barWritten_of_barWrite v h.2

end

/-! #### The rows -/

/-- A row of the family that has its effect names a part that the module has (Table 0.5). -/
theorem wf_of_memory_completes {i : Instr} {s : State} (hi : familyOf i = .memory) (h : hostCompletes i s = true) : i.wf = true := by
  cases i with
  | configRequest | atsInvalidate => exact h
  | decoderCommit | decoderUncommit | lowHalfRead | registerWrite =>
    simp only [hostCompletes, Bool.and_assoc] at h
    exact Bool.and_elim_left h
  | cxlMemRead | cxlMemWrite | snoop => rfl
  | _ => cases hi

/-- Settles O28: each of the rows comes to one change of a function, a decoder, the region or what was read last. -/
theorem memoryRows : Obligations.MemoryRows := by
  intro i s hi h
  have hwf := wf_of_memory_completes hi h
  cases i with
  | configRequest fn ats => exact ⟨_, onPart_of_partIn hwf _ _, configRequest_done ats⟩
  | atsInvalidate fn page => exact ⟨_, onPart_of_partIn hwf _ _, atsInvalidate_done page⟩
  | decoderCommit => exact ⟨_, onPart_of_partIn hwf _ _, decoderCommit_done h⟩
  | decoderUncommit => exact ⟨_, onPart_of_partIn hwf _ _, decoderUncommit_done h⟩
  | cxlMemRead => exact ⟨_, rfl, cxlMemRead_done h⟩
  | cxlMemWrite => exact ⟨_, rfl, cxlMemWrite_done h⟩
  | lowHalfRead => exact ⟨_, onPart_of_partIn hwf _ _, lowHalfRead_done h⟩
  | registerWrite => exact ⟨_, onPart_of_partIn hwf _ _, registerWrite_done h⟩
  | snoop => exact ⟨_, rfl, if_pos h⟩
  | _ => cases hi

end Sys2Proof.Machine
/-! ### The object and window commands (R183 to R197, R353, R354) -/

namespace Sys2Proof.Machine

open Sys2Proof Sys2Proof.Safety

section
variable {c : KCmd} {h : CmdHdr} {p : Bytes} {k : Packet} {s u : State} {b : Bytes}

/-! #### Commands whose work an object then does -/

/-- A long command that changes one object and goes on is accepted, and every other object is as it was. -/
theorem kExecute_long_modObj {o : Nat} {g : Obj → Obj} (hr : Ready c h p k u) (hn : Numbered h u) (hl : (u.sess (ownKey h)).longs < 64)
    (hb : c.body u h p = .long (fun s => s.modObj o g) .accepted b none) :
    accepted1 c h u (kExecute c k true u) b ∧ (kExecute c k true u).obj o = g (u.obj o) ∧ otherObjsKept o u (kExecute c k true u) := by
  have hrest := kExecute_long_rest (M := [.sessions, .stamped]) hr hn hl hb (by decide)
  have hbefore : rest [.version, .sessions, .longs, .fns] (accepting c h u .accepted b) = rest _ u := accepting_rest hr (List.Subset.refl _)
  refine ⟨accepted1_of_long (M := [.objects]) hr hn hl hb (State.modObj_rest (by decide) _ _ _) (by decide), ?_, fun j hj => ?_⟩
  · rw [obj_of_rest hrest (by decide), State.modObj_self, obj_of_rest hbefore (by decide)]
  · rw [obj_of_rest hrest (by decide), State.modObj_ne _ _ hj, obj_of_rest hbefore (by decide)]

/-- The object that an object-create makes, but for its generation. -/
def createdObj (h : CmdHdr) (p : Bytes) (place : Place) : Obj :=
  { (default : Obj) with
    kind := kindOf (field p 0 1), owner := ownerOf (field p 8 2), wing := field p 2 1, size := field p 16 8, st := .moving, place := place
    work := .create (refOf h 0x0501), base := field p 96 1, firstShard := field p 100 4, shards := field p 104 4 }

theorem objectCreate_body (hrules : passRules (.objectCreate h p) u = true) : ∃ place, createPlace h p u = some place
    ∧ objectCreateCmd.body u h p = .long (fun s => newObj s (freeObjNumber u) (createdObj h p place)) .accepted
        (leBytes 4 (freeObjNumber u) ++ leBytes 4 ((u.obj (freeObjNumber u)).gen + 1)) none := by
  simp only [passRules, Bool.and_eq_true, Bool.or_eq_true, Bool.not_eq_true', decide_eq_true_eq] at hrules
  obtain ⟨⟨⟨⟨⟨⟨hkind, hdenied⟩, hcopy⟩, hkey⟩, hready⟩, hplace⟩, hlimit⟩ := hrules
  obtain ⟨place, hplace⟩ := Option.isSome_iff_exists.mp hplace
  refine ⟨place, hplace, ?_⟩
  refine (if_neg (by tauto)).trans ((if_neg (by simp only [hdenied, hcopy]; decide)).trans ?_)
  refine (if_neg (by simp [hkey])).trans ((if_neg (by tauto)).trans ?_)
  unfold createPlace at hplace
  dsimp only at hplace
  rw [hplace]
  exact if_neg (by omega)

theorem objectCreate_done (hst : starts objectCreateCmd h p s = true) (hrules : passRules (.objectCreate h p) (taken objectCreateCmd h s) = true) :
    passCmdDone objectCreateCmd (.objectCreate h p) (taken objectCreateCmd h s) (kcp objectCreateCmd h p s) := by
  obtain ⟨k, hr, hn, hl, hx, -⟩ := kcp_of_starts hst rfl
  rw [hx]
  generalize taken objectCreateCmd h s = u at *
  obtain ⟨place, hplace, hb⟩ := objectCreate_body hrules
  obtain ⟨haccepted, hobj, hothers⟩ := kExecute_long_modObj hr hn (hl rfl) hb
  unfold passCmdDone
  dsimp only
  rw [hobj]
  exact ⟨haccepted, hothers, rfl, rfl, rfl, rfl, rfl, rfl, rfl, rfl, rfl, hplace.symm, rfl⟩

/-- An object that begins to move. -/
def departingObj (d : Place) (ref : CmdRef) (x : Obj) : Obj := { x with st := .moving, work := .move d x.size (some ref) }

theorem objectMove_body (hrules : passRules (.objectMove h p) u = true) : ∃ d, moveDest h p u = some d
    ∧ objectMoveCmd.body u h p = .long (fun s => s.modObj (field p 0 4) (departingObj d (refOf h 0x0502))) .accepted [] none := by
  simp only [passRules, Bool.and_eq_true, Bool.not_eq_true', decide_eq_true_eq] at hrules
  obtain ⟨⟨⟨⟨hdenied, hkey⟩, hkeyNow⟩, hrefused⟩, hdest⟩ := hrules
  obtain ⟨d, hdest⟩ := Option.isSome_iff_exists.mp hdest
  refine ⟨d, hdest, ?_⟩
  refine (if_neg (by simp [hdenied])).trans ((if_neg (by simp [hkey, hkeyNow])).trans ?_)
  unfold moveDest at hdest
  dsimp only at hdest
  rw [hrefused, hdest]
  rfl

theorem objectMove_done (hst : starts objectMoveCmd h p s = true) (hrules : passRules (.objectMove h p) (taken objectMoveCmd h s) = true) :
    passCmdDone objectMoveCmd (.objectMove h p) (taken objectMoveCmd h s) (kcp objectMoveCmd h p s) := by
  obtain ⟨k, hr, hn, hl, hx, -⟩ := kcp_of_starts hst rfl
  rw [hx]
  generalize taken objectMoveCmd h s = u at *
  obtain ⟨d, hdest, hb⟩ := objectMove_body hrules
  obtain ⟨haccepted, hobj, hothers⟩ := kExecute_long_modObj hr hn (hl rfl) hb
  exact ⟨d, hdest, haccepted, hobj, hothers⟩

theorem objectStatus_done (hst : starts objectStatusCmd h p s = true) :
    passCmdDone objectStatusCmd (.objectStatus h p) (taken objectStatusCmd h s) (kcp objectStatusCmd h p s) := by
  obtain ⟨k, hr, hn, -, hx, -⟩ := kcp_of_starts hst rfl
  rw [hx]
  exact answered_of_query hr hn rfl

/-- A transfer that the object does not refuse becomes its work, and nothing else of it changes (R354). -/
theorem transfer_done {code : Nat} {work : Nat → Nat → Nat → CmdRef → ObjWork} (hst : starts (transferCmd code work) h p s = true)
    (hfree : transferRefused ((taken (transferCmd code work) h s).obj (field p 0 4)) (field p 8 8) (field p 16 8) = none) :
    accepted1 (transferCmd code work) h (taken (transferCmd code work) h s) (kcp (transferCmd code work) h p s) []
      ∧ workBegun (field p 0 4) (taken (transferCmd code work) h s) (kcp (transferCmd code work) h p s)
          ((taken (transferCmd code work) h s).obj (field p 0 4)).st (work (field p 8 8) (field p 16 8) (field p 24 8) (refOf h code)) := by
  obtain ⟨k, hr, hn, hl, hx, -⟩ := kcp_of_starts hst rfl
  rw [hx]
  generalize taken (transferCmd code work) h s = u at *
  have hb : (transferCmd code work).body u h p = .long (fun s => s.modObj (field p 0 4) (fun x =>
      { x with work := work (field p 8 8) (field p 16 8) (field p 24 8) (refOf h code) })) .accepted [] none := by
    unfold transferCmd
    dsimp only
    rw [hfree]
  exact kExecute_long_modObj hr hn (hl rfl) hb

theorem objectWrite_done (hst : starts objectWriteCmd h p s = true) (hrules : passRules (.objectWrite h p) (taken objectWriteCmd h s) = true) :
    passCmdDone objectWriteCmd (.objectWrite h p) (taken objectWriteCmd h s) (kcp objectWriteCmd h p s) :=
  transfer_done hst (of_decide_eq_true hrules)

theorem objectRead_done (hst : starts objectReadCmd h p s = true) (hrules : passRules (.objectRead h p) (taken objectReadCmd h s) = true) :
    passCmdDone objectReadCmd (.objectRead h p) (taken objectReadCmd h s) (kcp objectReadCmd h p s) :=
  transfer_done hst (of_decide_eq_true hrules)

/-! #### object-resize to a greater size (R185) -/

/-- An object that begins to grow, in place or at another. -/
def growingObj (n : Nat) (ref : CmdRef) (g : Bool × Place) (x : Obj) : Obj :=
  { x with st := if g.1 then .moving else x.st, work := .grow n g.2 ref }

/-- Where a resize grows an object, the change is that of `growingObj`, whichever of the three ways its place is found (R185). -/
theorem objectResize_grow_body (hfree : moveRefused (u.obj (field p 0 4)) = none) (hsize : (u.obj (field p 0 4)).size < field p 8 8)
    {g : Bool × Place} (hg : growPlace p u = some g) : ∃ f : Obj → Obj,
      objectResizeCmd.body u h p = .long (fun s => s.modObj (field p 0 4) f) .accepted [] none
        ∧ f (u.obj (field p 0 4)) = growingObj (field p 8 8) (refOf h 0x0503) g (u.obj (field p 0 4)) := by
  unfold objectResizeCmd
  dsimp only
  rw [hfree]
  dsimp only
  rw [if_neg (by omega)]
  unfold growPlace at hg
  dsimp only at hg
  by_cases htier : (u.obj (field p 0 4)).place.tier = .host
  · rw [if_pos htier] at hg ⊢
    cases hg
    exact ⟨_, rfl, rfl⟩
  · rw [if_neg htier] at hg ⊢
    cases hextend : extendPlace u (u.obj (field p 0 4)).place (field p 8 8) with
    | some d =>
      rw [hextend] at hg
      cases hg
      exact ⟨_, rfl, rfl⟩
    | none =>
      rw [hextend] at hg
      obtain ⟨d, hd, rfl⟩ := Option.map_eq_some_iff.mp hg
      rw [hd]
      exact ⟨_, rfl, rfl⟩

theorem objectResize_grows (hr : Ready objectResizeCmd h p k u) (hn : Numbered h u) (hl : (u.sess (ownKey h)).longs < 64)
    (hrules : passRules (.objectResize h p) u = true) (hsize : (u.obj (field p 0 4)).size < field p 8 8) :
    ∃ m d, growPlace p u = some (m, d) ∧ accepted1 objectResizeCmd h u (kExecute objectResizeCmd k true u) []
      ∧ workBegun (field p 0 4) u (kExecute objectResizeCmd k true u) (if m then .moving else (u.obj (field p 0 4)).st)
          (.grow (field p 8 8) d (refOf h objectResizeCmd.code)) := by
  simp only [passRules, Bool.and_eq_true, Bool.or_eq_true, decide_eq_true_eq] at hrules
  obtain ⟨hfree, hroom⟩ := hrules
  obtain ⟨⟨m, d⟩, hg⟩ := Option.isSome_iff_exists.mp (hroom.resolve_left (by omega))
  obtain ⟨f, hb, hf⟩ := objectResize_grow_body (h := h) hfree hsize hg
  obtain ⟨haccepted, hobj, hothers⟩ := kExecute_long_modObj hr hn hl hb
  exact ⟨m, d, hg, haccepted, hobj.trans hf, hothers⟩

/-! #### Objects tried again once space is freed (R428, R433) -/

/-- The objects of a wing that a move has blocked, set to be tried again. -/
def unblocked (s : State) (w : Nat) : State :=
  { s with led := { s.led with objects := s.led.objects.foldl (fun t p =>
      if p.2.blocked ∧ p.2.wing = w then tput t p.1 { p.2 with blocked := false } else t) s.led.objects } }

theorem retryBlocked_eq (s : State) (w : Nat) : retryBlocked s w = carryMoves (unblocked s w) := rfl

theorem unblocked_rest (s : State) (w : Nat) : rest [.objects] (unblocked s w) = rest [.objects] s := rest_objects (by decide) _ _

/-- An object just changed is, when blocked objects are tried again, as it was but for its mark of being blocked. -/
theorem unblocked_obj {t : State} {o : Nat} {g : Obj → Obj} (ht : t.led.objects = (s.modObj o g).led.objects) (w : Nat) :
    ∃ v, (unblocked t w).obj o = { g (s.obj o) with blocked := v } := by
  refine holds_of_foldl_tput (Q := fun x => ∃ v, x = { g (s.obj o) with blocked := v }) (fun p => p.2.blocked ∧ p.2.wing = w)
    (fun p => { p.2 with blocked := false }) (fun p _ hp => ?_) (fun p hp ho => ?_) ?_
  · obtain ⟨v, hv⟩ := hp
    exact ⟨false, by rw [hv]⟩
  · rw [ht] at hp
    exact ⟨_, eq_of_mem_tmod hp ho⟩
  · rw [ht]
    exact ⟨_, State.modObj_self s o g⟩

/-! #### object-resize to a smaller size (R185) -/

/-- An object cut to a smaller size. -/
def shrunkObj (n : Nat) (x : Obj) : Obj :=
  { x with size := n, place := shrinkPlace x.place n, content := x.content.filter (fun c => decide (c.1 < n)) }

/-- The state at which a resize to a smaller size gives its final reply. -/
def shrunkState (o n : Nat) (s : State) : State := s.bump.modObj o (shrunkObj n)

theorem mread_shrunk (n : Nat) (x : Obj) (a : Nat) : mread (shrunkObj n x).content a = if a < n then mread x.content a else 0 := by
  unfold mread tgetD shrunkObj
  dsimp only
  rw [tlook_filter (fun i => decide (i < n))]
  by_cases ha : a < n
  · rw [if_pos ha, if_pos (by simp [ha])]
  · rw [if_neg ha, if_neg (by simp [ha])]; rfl

theorem shrunkState_rest (o n : Nat) (s : State) :
    rest [.keeper, .version, .objects] (shrunkState o n s) = rest [.keeper, .version, .objects] s :=
  (State.modObj_rest (by decide) _ _ _).trans (State.bump_rest (by decide) _)

theorem objectResize_shrink_body (hfree : moveRefused (u.obj (field p 0 4)) = none) (hsize : field p 8 8 ≤ (u.obj (field p 0 4)).size) :
    objectResizeCmd.body u h p = .long (fun s => s) .accepted [] (some (fun s =>
      retryBlocked (finishIn (shrunkState (field p 0 4) (field p 8 8) s) (refOf h 0x0503) .ok []) (u.obj (field p 0 4)).wing)) := by
  unfold objectResizeCmd
  dsimp only
  rw [hfree]
  exact if_pos hsize

/-- A long command that ends at once is finished also where what follows its final reply leaves host sessions and outstanding commands
alone. -/
theorem finished_of_reply {M : List Component} {f g : State → State} {st : Status} (hr : Ready c h p k u) (hn : Numbered h u)
    (hl : (u.sess (ownKey h)).longs < 64) (hb : c.body u h p = .long f st b (some g)) {w : State} {st' : Status} {b' : Bytes}
    (hg : rest M (g (f (accepting c h u st b))) = rest M (finishIn w (refOf h c.code) st' b'))
    (hM : ∀ x, x ∈ [Component.sessions, .longs] → x ∉ M) (hends : EndsOnly (accepting c h u st b) w) :
    finished c h (kExecute c k true u) st' b' := by
  obtain ⟨m, hne, hm⟩ := hends.marked h _ (by simp) (marked_accepting hn)
  have hreply := finishIn_marked c.code st' b' hm hne
  rw [← sess_of_rest hg (hM _ (by decide))] at hreply
  obtain ⟨hlt, hmark⟩ := afterNumber_mark hn.positive hreply
  rw [kExecute_long_done hr hn hl hb]
  refine ⟨?_, hlt, _, hmark, rfl, rfl, rfl, rfl⟩
  rw [longs_of_rest (M := [.sessions, .stamped]) (afterNumber_rest (by decide) _ _) (by decide), longs_of_rest hg (hM _ (by decide))]
  exact finishIn_not_long _ _ _ _

theorem objectResize_shrinks (hr : Ready objectResizeCmd h p k u) (hn : Numbered h u) (hl : (u.sess (ownKey h)).longs < 64)
    (hfree : moveRefused (u.obj (field p 0 4)) = none) (hsize : field p 8 8 ≤ (u.obj (field p 0 4)).size) (hquiet : noMovesWaiting u = true) :
    finished objectResizeCmd h (kExecute objectResizeCmd k true u) .ok []
      ∧ ∃ v, (kExecute objectResizeCmd k true u).obj (field p 0 4) = { shrunkObj (field p 8 8) (u.obj (field p 0 4)) with blocked := v } := by
  have hb := objectResize_shrink_body (h := h) hfree hsize
  have hbefore : rest [.version, .sessions, .longs, .fns] (accepting objectResizeCmd h u .accepted []) = rest _ u :=
    accepting_rest hr (List.Subset.refl _)
  generalize hacc : accepting objectResizeCmd h u .accepted [] = a at hbefore
  generalize hend : finishIn (shrunkState (field p 0 4) (field p 8 8) a) (refOf h 0x0503) .ok [] = e at *
  have hreply : rest finalParts e = rest finalParts (shrunkState (field p 0 4) (field p 8 8) a) :=
    hend ▸ finishIn_rest (List.Subset.refl _) _ _ _ _
  have hretry : retryBlocked e (u.obj (field p 0 4)).wing = unblocked e (u.obj (field p 0 4)).wing := by
    rw [retryBlocked_eq]
    refine carryMoves_of_noMovesWaiting ?_
    rw [noMovesWaiting_of_rest (unblocked_rest _ _) (by decide) (by decide) (by decide),
      noMovesWaiting_of_rest hreply (by decide) (by decide) (by decide),
      noMovesWaiting_of_rest (shrunkState_rest _ _ _) (by decide) (by decide) (by decide),
      noMovesWaiting_of_rest hbefore (by decide) (by decide) (by decide)]
    exact hquiet
  refine ⟨finished_of_reply (M := [.objects]) (w := shrunkState (field p 0 4) (field p 8 8) a) hr hn hl hb ?_ (by decide) ?_, ?_⟩
  · rw [hacc, hend, hretry]
    exact (unblocked_rest _ _).trans (congrArg _ hend.symm)
  · rw [hacc]
    exact .of_rest (shrunkState_rest _ _ _) (by decide) (by decide)
  · rw [obj_of_rest (kExecute_long_done_rest (M := [.sessions, .stamped]) hr hn hl hb (by decide)) (by decide)]
    dsimp only
    rw [hacc, hend, hretry]
    obtain ⟨v, hv⟩ := unblocked_obj (same_of_rest (c := .objects) hreply (by decide)) (u.obj (field p 0 4)).wing
    refine ⟨v, hv.trans ?_⟩
    rw [obj_of_rest (State.bump_rest (M := [.keeper, .version]) (by decide) a) (by decide), obj_of_rest hbefore (by decide)]

theorem objectResize_done (hst : starts objectResizeCmd h p s = true) (hrules : passRules (.objectResize h p) (taken objectResizeCmd h s) = true) :
    passCmdDone objectResizeCmd (.objectResize h p) (taken objectResizeCmd h s) (kcp objectResizeCmd h p s) := by
  obtain ⟨k, hr, hn, hl, hx, -⟩ := kcp_of_starts hst rfl
  rw [hx]
  generalize taken objectResizeCmd h s = u at *
  refine ⟨fun hsize hquiet => ?_, objectResize_grows hr hn (hl rfl) hrules⟩
  have hfree : moveRefused (u.obj (field p 0 4)) = none := of_decide_eq_true (Bool.and_elim_left hrules)
  obtain ⟨hdone, v, hobj⟩ := objectResize_shrinks hr hn (hl rfl) hfree hsize hquiet
  rw [hobj]
  refine ⟨hdone, rfl, rfl, fun a ha => ?_, fun a ha => ?_⟩
  · exact (mread_shrunk _ _ a).trans (if_pos ha)
  · exact (mread_shrunk _ _ a).trans (if_neg (by omega))

/-! #### What carrying moves on leaves: replies, and which objects live -/

theorem endRemoval_ends (s : State) (r : KeyRemoval) : EndsOnly s (endRemoval s r) := by
  unfold endRemoval finish
  refine .trans (.of_rest (M := [.secure, .keeper, .version]) ?_ (by decide) (by decide)) (finishIn_ends _ _ _ _)
  exact (State.bump_rest (by decide) _).trans (State.modSecure_rest (by decide) _ _)

theorem settleRemovals_ends (s : State) : EndsOnly s (settleRemovals s) := by
  unfold settleRemovals
  split
  · exact .refl s
  · exact .foldl endRemoval_ends _ s

theorem carryMoves_ends (s : State) : EndsOnly s (carryMoves s) :=
  (settleRemovals_ends s).trans (.of_rest (carryMoves_settled (List.Subset.refl _) s) (by decide) (by decide))

theorem retryBlocked_ends (s : State) (w : Nat) : EndsOnly s (retryBlocked s w) :=
  .trans (.of_rest (unblocked_rest s w) (by decide) (by decide)) (carryMoves_ends _)

/-- Which objects live, and under what generations, a step leaves as it was. -/
def KeepsLife (s t : State) : Prop := ∀ i, (t.obj i).live = (s.obj i).live ∧ (t.obj i).gen = (s.obj i).gen

namespace KeepsLife

theorem trans {s t u : State} (hst : KeepsLife s t) (htu : KeepsLife t u) : KeepsLife s u := fun i =>
  ⟨(htu i).1.trans (hst i).1, (htu i).2.trans (hst i).2⟩

theorem of_rest {M : List Component} {s t : State} (hr : rest M t = rest M s) (hM : Component.objects ∉ M) : KeepsLife s t := fun i =>
  ⟨congrArg Obj.live (obj_of_rest hr hM i), congrArg Obj.gen (obj_of_rest hr hM i)⟩

theorem foldl {α : Type} {g : State → α → State} (hg : ∀ s a, KeepsLife s (g s a)) (l : List α) (s : State) : KeepsLife s (l.foldl g s) :=
  List.foldlRecOn l g (fun _ => ⟨rfl, rfl⟩) fun _ hs a _ => hs.trans (hg _ a)

theorem modObj (s : State) (o : Nat) (g : Obj → Obj) (hg : ∀ x, (g x).live = x.live ∧ (g x).gen = x.gen) : KeepsLife s (s.modObj o g) := by
  intro i
  by_cases hi : i = o
  · rw [hi, State.modObj_self]; exact hg _
  · rw [State.modObj_ne _ _ hi]; exact ⟨rfl, rfl⟩

end KeepsLife

theorem retireStep_keepsLife (s : State) (pc i : Nat) : KeepsLife s (retireStep s pc i) := by
  unfold retireStep
  dsimp only
  split
  · exact .modObj _ _ _ fun _ => ⟨rfl, rfl⟩
  · refine .trans (.modObj s i (fun x => { x with blocked := true }) fun _ => ⟨rfl, rfl⟩) ?_
    exact .of_rest (M := [.fns, .keeper]) (notify_rest (by decide) _ _ _ _) (by decide)

theorem retireNext_keepsLife (pc : Nat) (s : State) : KeepsLife s (retireNext pc s) := by
  refine .foldl (fun s i => ?_) _ _
  split
  · exact fun _ => ⟨rfl, rfl⟩
  · exact retireStep_keepsLife s pc i

theorem evacuateNext_keepsLife (ch : Nat) (s : State) : KeepsLife s (evacuateNext ch s) := by
  refine .foldl (fun s i => ?_) _ _
  split
  · exact fun _ => ⟨rfl, rfl⟩
  · split
    · exact .modObj _ _ _ fun _ => ⟨rfl, rfl⟩
    · exact .modObj _ _ _ fun _ => ⟨rfl, rfl⟩

theorem carryMoves_keepsLife (s : State) : KeepsLife s (carryMoves s) := by
  have hsettle : KeepsLife s (settleRemovals s) :=
    .of_rest (M := [.fns, .secure, .keeper, .version, .sessions, .longs]) (settleRemovals_rest (by decide) s) (by decide)
  refine hsettle.trans (.trans (.foldl (fun s pc => ?_) _ _) (.foldl (fun s ch => ?_) _ _))
  · exact (retireNext_keepsLife pc s).trans (.of_rest (M := [.rooms]) (retireRooms_rest (by decide) _ _) (by decide))
  · exact (evacuateNext_keepsLife ch s).trans (.of_rest (M := [.handles]) (evacuateImages_rest (by decide) _ _) (by decide))

/-! #### The serving sessions of a KV object (R189) -/

/-- A serving session's record, by wing, context and number. -/
def serveAt (w n k : Nat) (s : State) : Serve := tget (s.ctx w n).serves k

/-- Of serving sessions, a step ends some at most. -/
def EndsServes (s t : State) : Prop := ∀ w n k, serveAt w n k t = serveAt w n k s ∨ (serveAt w n k t).live = false

namespace EndsServes

theorem trans {s t u : State} (hst : EndsServes s t) (htu : EndsServes t u) : EndsServes s u := fun w n k =>
  (htu w n k).elim (fun heq => heq ▸ hst w n k) .inr

theorem foldl {α : Type} {g : State → α → State} (hg : ∀ s a, EndsServes s (g s a)) (l : List α) (s : State) : EndsServes s (l.foldl g s) :=
  List.foldlRecOn l g (fun _ _ _ => .inl rfl) fun _ hs a _ => hs.trans (hg _ a)

/-- A session that has ended stays so. -/
theorem ended {s t : State} (h : EndsServes s t) {w n k : Nat} (hs : (serveAt w n k s).live = false) : (serveAt w n k t).live = false :=
  (h w n k).elim (fun heq => heq ▸ hs) id

/-- What one step of a fold ends, the fold leaves ended. -/
theorem foldl_ended {α : Type} {g : State → α → State} (hg : ∀ s a, EndsServes s (g s a)) {w n k : Nat} {l : List α} {a : α} (ha : a ∈ l)
    (hself : ∀ s, (serveAt w n k (g s a)).live = false) (s : State) : (serveAt w n k (l.foldl g s)).live = false := by
  obtain ⟨before, after, rfl⟩ := List.append_of_mem ha
  rw [List.foldl_append]
  exact (EndsServes.foldl hg after _).ended (hself _)

end EndsServes

theorem serveAt_endServe (s : State) (w n k : Nat) (st : Status) : (serveAt w n k (endServe s w n k st)).live = false := by
  unfold serveAt endServe
  rw [State.modCtx_self]
  dsimp only
  rw [tget_tmod_self]

theorem endServe_endsServes (s : State) (w n k : Nat) (st : Status) : EndsServes s (endServe s w n k st) := by
  intro v m j
  by_cases hself : v = w ∧ m = n ∧ j = k
  · obtain ⟨rfl, rfl, rfl⟩ := hself
    exact .inr (serveAt_endServe s v m j st)
  · refine .inl ?_
    unfold serveAt endServe
    by_cases hctx : v = w ∧ m = n
    · obtain ⟨rfl, rfl⟩ := hctx
      have hj : j ≠ k := fun hj => hself ⟨rfl, rfl, hj⟩
      rw [State.modCtx_self]
      dsimp only
      rw [tget_tmod_ne _ _ hj]
    · rw [State.modCtx_ne _ _ (by tauto)]

/-- A serving session of a context ended for its KV object. -/
def endOneKv (w n : Nat) (s : State) (v : Nat × Serve) : State := endServe s w n v.1 .kvLost

/-- The serving sessions of a context that use a KV object, ended. -/
def endCtxKv (i w : Nat) (s : State) (c : Nat × Ctx) : State :=
  (c.2.serves.filter (fun v => v.2.live && decide (v.2.kv = i))).foldl (endOneKv w c.1) s

/-- The serving sessions of a wing that use a KV object, ended. -/
def endWingKv (i : Nat) (s : State) (w : Nat × Wing) : State := w.2.contexts.foldl (endCtxKv i w.1) s

theorem endKvSessions_eq (s : State) (i : Nat) : endKvSessions s i = s.led.wings.foldl (endWingKv i) s := rfl

theorem endOneKv_endsServes (w n : Nat) (s : State) (v : Nat × Serve) : EndsServes s (endOneKv w n s v) :=
  endServe_endsServes s w n v.1 .kvLost

theorem endCtxKv_endsServes (i w : Nat) (s : State) (c : Nat × Ctx) : EndsServes s (endCtxKv i w s c) :=
  .foldl (endOneKv_endsServes w c.1) _ _

theorem endWingKv_endsServes (i : Nat) (s : State) (w : Nat × Wing) : EndsServes s (endWingKv i s w) :=
  .foldl (endCtxKv_endsServes i w.1) _ _

/-- An entry that is not blank stands in its table. -/
theorem mem_of_tget_ne {α : Type} [Inhabited α] {t : Tbl α} {n : Nat} (hne : tget t n ≠ default) : (n, tget t n) ∈ t := by
  unfold tget tgetD at hne ⊢
  cases hlook : tlook t n with
  | none => rw [hlook] at hne; exact absurd rfl hne
  | some x => exact tlook_mem hlook

/-- When a KV object's sessions are ended, no session that uses it is left live. -/
theorem endKvSessions_ended (s : State) (i w n k : Nat) (hlive : (serveAt w n k (endKvSessions s i)).live = true) :
    (serveAt w n k (endKvSessions s i)).kv ≠ i := by
  intro hkv
  have hends : EndsServes s (endKvSessions s i) := .foldl (endWingKv_endsServes i) _ _
  have hsame : serveAt w n k (endKvSessions s i) = serveAt w n k s := (hends w n k).resolve_right (by rw [hlive]; decide)
  have hserve : (k, serveAt w n k s) ∈ (s.ctx w n).serves := mem_of_tget_ne fun hblank => by
    rw [hsame, serveAt, hblank] at hlive; cases hlive
  have hctx : (n, s.ctx w n) ∈ (s.wing w).contexts := mem_of_tget_ne fun hblank => by
    rw [show s.ctx w n = default from hblank] at hserve; cases hserve
  have hwing : (w, s.wing w) ∈ s.led.wings := mem_of_tget_ne fun hblank => by
    rw [show s.wing w = default from hblank] at hctx; cases hctx
  have hused : (k, serveAt w n k s) ∈ (s.ctx w n).serves.filter (fun v => v.2.live && decide (v.2.kv = i)) := by
    rw [hsame] at hlive hkv
    exact List.mem_filter.mpr ⟨hserve, by simp [hlive, hkv]⟩
  have hended : (serveAt w n k (endKvSessions s i)).live = false := by
    rw [endKvSessions_eq]
    refine EndsServes.foldl_ended (endWingKv_endsServes i) hwing (fun s => ?_) s
    refine EndsServes.foldl_ended (endCtxKv_endsServes i w) hctx (fun s => ?_) s
    exact EndsServes.foldl_ended (endOneKv_endsServes w n) hused (fun s => serveAt_endServe s w n k .kvLost) s
  rw [hended] at hlive
  cases hlive

/-! #### object-free (R186, R189) -/

/-- The state with the sessions ended that use an object, if it is a KV object. -/
def kvEnded (o : Nat) (s : State) : State := if (s.obj o).kind = .kv then endKvSessions s o else s

/-- The state with an object freed and the command that it was under stopped. -/
def freedState (o : Nat) (s : State) : State := finishOpt (freeObj (kvEnded o s) o) (workRef (s.obj o).work) .staleGeneration []

/-- An object freed: its generation is all that stays. -/
def freedObj (x : Obj) : Obj := { (default : Obj) with gen := x.gen }

theorem freeByCommand_eq (o : Nat) (s : State) : freeByCommand o s = retryBlocked (freedState o s) (s.obj o).wing := rfl

theorem kvEnded_rest (o : Nat) (s : State) : rest [.wings] (kvEnded o s) = rest [.wings] s := by
  unfold kvEnded
  split
  · exact endKvSessions_rest (by decide) _ _
  · rfl

theorem freedState_replies (o : Nat) (s : State) : rest finalParts (freedState o s) = rest finalParts (freeObj (kvEnded o s) o) :=
  finishOpt_rest (List.Subset.refl _) _ _ _ _

theorem freeObj_kvEnded_rest (o : Nat) (s : State) : rest [.wings, .objects] (freeObj (kvEnded o s) o) = rest [.wings, .objects] s :=
  (freeObj_rest (by decide) _ _).trans (rest_mono (kvEnded_rest o s) (by decide))

theorem freedState_ends (o : Nat) (s : State) : EndsOnly s (freedState o s) :=
  .trans (.of_rest (freeObj_kvEnded_rest o s) (by decide) (by decide)) (finishOpt_ends _ _ _ _)

theorem freeByCommand_ends (o : Nat) (s : State) : EndsOnly s (freeByCommand o s) := by
  rw [freeByCommand_eq]
  exact (freedState_ends o s).trans (retryBlocked_ends _ _)

/-- What a retry and the moves carried on with it may change. -/
def carryParts : List Component := [.fns, .secure, .keeper, .version, .sessions, .longs, .objects, .rooms, .handles]

theorem retryBlocked_carry (s : State) (w : Nat) : rest carryParts (retryBlocked s w) = rest carryParts s :=
  (carryMoves_rest (List.Subset.refl _) _).trans (rest_mono (unblocked_rest s w) (by decide))

theorem le_retryBlocked_version (s : State) (w : Nat) : s.led.version ≤ (retryBlocked s w).led.version :=
  (version_of_rest (unblocked_rest s w) (by decide)).ge.trans (le_carryMoves_version _)

theorem freeByCommand_carry (o : Nat) (s : State) : rest carryParts (freeByCommand o s) = rest carryParts (kvEnded o s) := by
  rw [freeByCommand_eq, retryBlocked_carry]
  exact (rest_mono (freedState_replies o s) (by decide)).trans (freeObj_rest (by decide) _ _)

theorem le_freeByCommand_version (o : Nat) (s : State) : s.led.version ≤ (freeByCommand o s).led.version := by
  have hfreed : (freedState o s).led.version = s.led.version :=
    (version_of_rest (freedState_replies o s) (by decide)).trans (version_of_rest (freeObj_kvEnded_rest o s) (by decide))
  rw [freeByCommand_eq, ← hfreed]
  exact le_retryBlocked_version _ _

/-- An object freed by command is dead, under the generation it had. -/
theorem freeByCommand_dead (o : Nat) (s : State) : ((freeByCommand o s).obj o).live = false ∧ ((freeByCommand o s).obj o).gen = (s.obj o).gen := by
  obtain ⟨v, hv⟩ := unblocked_obj (s := kvEnded o s) (o := o) (g := freedObj) (same_of_rest (c := .objects) (freedState_replies o s) (by decide))
    (s.obj o).wing
  obtain ⟨hlive, hgen⟩ := carryMoves_keepsLife (unblocked (freedState o s) (s.obj o).wing) o
  rw [hv] at hlive hgen
  rw [freeByCommand_eq, retryBlocked_eq]
  exact ⟨hlive, hgen.trans (congrArg Obj.gen (obj_of_rest (kvEnded_rest o s) (by decide) o) :)⟩

/-- The command that an object freed was under is outstanding no more. -/
theorem freeByCommand_not_long {o : Nat} {s : State} {ref : CmdRef} (href : workRef (s.obj o).work = some ref) :
    ref ∉ (freeByCommand o s).led.longs := by
  rw [freeByCommand_eq]
  exact (retryBlocked_ends _ _).not_long (finishOpt_not_long _ _ _ href)

/-- Of a KV object freed no serving session is left live. -/
theorem freeByCommand_kv {o : Nat} {s : State} (hkind : (s.obj o).kind = .kv) (w n k : Nat)
    (hlive : (serveAt w n k (freeByCommand o s)).live = true) : (serveAt w n k (freeByCommand o s)).kv ≠ o := by
  have hsame : serveAt w n k (freeByCommand o s) = serveAt w n k (endKvSessions s o) := by
    have hended : kvEnded o s = endKvSessions s o := if_pos hkind
    exact congrArg (fun x : Ctx => tget x.serves k) (hended ▸ ctx_of_rest (freeByCommand_carry o s) (by decide) w n)
  rw [hsame] at hlive ⊢
  exact endKvSessions_ended s o w n k hlive

theorem objectFree_done (hst : starts objectFreeCmd h p s = true) (hrules : passRules (.objectFree h p) (taken objectFreeCmd h s) = true) :
    passCmdDone objectFreeCmd (.objectFree h p) (taken objectFreeCmd h s) (kcp objectFreeCmd h p s) := by
  obtain ⟨k, hr, hn, -, hx, -⟩ := kcp_of_starts hst rfl
  rw [hx]
  generalize taken objectFreeCmd h s = u at *
  simp only [passRules, Bool.and_eq_true, decide_eq_true_eq] at hrules
  obtain ⟨hkind, hrefs⟩ := hrules
  have hb : objectFreeCmd.body u h p = .commit (freeByCommand (field p 0 4)) .ok [] := (if_neg hkind).trans (if_neg (by omega))
  have hrest := kExecute_commit_rest (M := [.sessions, .stamped]) hr hn hb rfl (by decide)
  have hobj : (committing objectFreeCmd h u .ok []).obj (field p 0 4) = u.obj (field p 0 4) :=
    obj_of_rest (committing_rest (M := [.version, .sessions, .fns]) hr (List.Subset.refl _)) (by decide) _
  obtain ⟨hdead, hgen⟩ := freeByCommand_dead (field p 0 4) (committing objectFreeCmd h u .ok [])
  refine ⟨?_, concluded_of_ends hr hn hb rfl (freeByCommand_ends _ _), ?_, ?_, fun ref href => ?_, fun hkv w n k => ?_⟩
  · rw [version_of_rest hrest (by decide), ← committing_version hr]
    exact le_freeByCommand_version _ _
  · rw [obj_of_rest hrest (by decide)]; exact hdead
  · rw [obj_of_rest hrest (by decide), hgen, hobj]
  · rw [longs_of_rest hrest (by decide)]
    exact freeByCommand_not_long (hobj ▸ href)
  · rw [ctx_of_rest hrest (by decide)]
    exact freeByCommand_kv (hobj ▸ hkv) w n k

/-! #### window-set (R191, R197) -/

/-- The window that a window-set leaves has the slots and the set asked for, and the base it had. -/
theorem resizedWindow_fields {w slots set : Nat} {v : Window} (hv : resizedWindow u w slots set = some v) :
    v.nextSlots = slots ∧ v.set = set ∧ v.base = (u.wing w).window.base := by
  unfold resizedWindow at hv
  dsimp only at hv
  split at hv
  next hkeep =>
    cases hv
    exact ⟨rfl, (of_decide_eq_true hkeep.1).symm, rfl⟩
  next =>
    obtain ⟨l, -, rfl⟩ := Option.map_eq_some_iff.mp hv
    exact ⟨rfl, rfl, rfl⟩

theorem windowSet_body (hrules : passRules (.windowSet h p) u = true) : ∃ v,
    resizedWindow u (field p 0 1) (slotsWanted p u) (windowUnits u (field p 0 1) (field p 8 64)) = some v
      ∧ windowSetCmd.body u h p =
          .commit (fun s => retryBlocked (s.modWing (field p 0 1) (fun x => { x with window := v })) (field p 0 1)) .ok [] := by
  simp only [passRules, Bool.and_eq_true, decide_eq_true_eq] at hrules
  obtain ⟨⟨⟨hwithin, htake⟩, hslots⟩, hresized⟩ := hrules
  obtain ⟨v, hv⟩ := Option.isSome_iff_exists.mp hresized
  refine ⟨v, hv, (if_neg (by simp [hwithin, htake])).trans ((if_neg ?_).trans ?_)⟩
  · unfold slotsWanted at hslots; omega
  · unfold slotsWanted at hv; rw [hv]

theorem windowSet_done (hst : starts windowSetCmd h p s = true) (hrules : passRules (.windowSet h p) (taken windowSetCmd h s) = true) :
    passCmdDone windowSetCmd (.windowSet h p) (taken windowSetCmd h s) (kcp windowSetCmd h p s) := by
  obtain ⟨k, hr, hn, -, hx, -⟩ := kcp_of_starts hst rfl
  rw [hx]
  generalize taken windowSetCmd h s = u at *
  obtain ⟨v, hv, hb⟩ := windowSet_body hrules
  obtain ⟨hslots, hset, hbase⟩ := resizedWindow_fields hv
  have hrest := kExecute_commit_rest (M := [.sessions, .stamped]) hr hn hb rfl (by decide)
  have hbefore : rest [.version, .sessions, .fns] (committing windowSetCmd h u .ok []) = rest _ u := committing_rest hr (List.Subset.refl _)
  generalize hcommit : committing windowSetCmd h u .ok [] = a at hrest hbefore
  have hresized : rest [.wings] (a.modWing (field p 0 1) (fun x => { x with window := v })) = rest [.wings] a := State.modWing_rest (by decide) _ _ _
  have hwing (q : Nat) := (wing_of_rest hrest (by decide) q).trans (wing_of_rest (retryBlocked_carry _ (field p 0 1)) (by decide) q)
  have hhere : ((kExecute windowSetCmd k true u).wing (field p 0 1)).window = v := by rw [hwing, State.modWing_self]
  refine ⟨?_, concluded_of_ends hr hn hb rfl ?_, (congrArg Window.nextSlots hhere).trans hslots, (congrArg Window.set hhere).trans hset,
    (congrArg Window.base hhere).trans hbase, fun q hq => ?_⟩
  · rw [version_of_rest hrest (by decide), ← committing_version hr (st := .ok) (b := []), hcommit]
    exact (version_of_rest hresized (by decide)).ge.trans (le_retryBlocked_version _ _)
  · rw [hcommit]
    exact .trans (.of_rest hresized (by decide) (by decide)) (retryBlocked_ends _ _)
  · rw [hwing, State.modWing_ne _ _ hq, wing_of_rest hbefore (by decide)]

end

/-- Settles O21: each of the commands goes through the keeper's own steps, and what it leaves is read off the object or window that it
changes, and off what a retry of blocked moves keeps. -/
theorem objectCommands : Obligations.ObjectCommands := by
  intro i c h p s hi hc hst hrules
  cases i with
  | objectCreate => cases hc; exact ⟨_, rfl, objectCreate_done hst hrules⟩
  | objectMove => cases hc; exact ⟨_, rfl, objectMove_done hst hrules⟩
  | objectResize => cases hc; exact ⟨_, rfl, objectResize_done hst hrules⟩
  | objectFree => cases hc; exact ⟨_, rfl, objectFree_done hst hrules⟩
  | objectStatus => cases hc; exact ⟨_, rfl, objectStatus_done hst⟩
  | objectWrite => cases hc; exact ⟨_, rfl, objectWrite_done hst hrules⟩
  | objectRead => cases hc; exact ⟨_, rfl, objectRead_done hst hrules⟩
  | windowSet => cases hc; exact ⟨_, rfl, windowSet_done hst hrules⟩
  | _ => cases hi

end Sys2Proof.Machine
/-! ### What happens at and after a wing's boundary (chapters 10 and 15) -/

namespace Sys2Proof.Machine

open Sys2Proof Sys2Proof.Safety

/-! #### Switches between boundaries (R249, R250) -/

/-- A choice moves the wing's pointers: its contexts and the one that runs stay. -/
theorem chooseIn_keeps {x y : Wing} {latency : Ctx → Bool} {runLen : Ctx → Nat} {cls : Bool} {c : Nat}
    (h : chooseIn x latency runLen cls = some (c, y)) : y.contexts = x.contexts ∧ y.running = x.running := by
  unfold chooseIn at h
  dsimp only at h
  split at h
  · cases h; exact ⟨rfl, rfl⟩
  · obtain ⟨d, -, hd⟩ := Option.map_eq_some_iff.mp h
    cases hd
    split
    · exact ⟨rfl, rfl⟩
    · exact ⟨rfl, rfl⟩

theorem choose_keeps (x : Wing) (latency : Ctx → Bool) (runLen : Ctx → Nat) :
    (choose x latency runLen).2.contexts = x.contexts ∧ (choose x latency runLen).2.running = x.running := by
  unfold choose
  split
  next c y h =>
    cases hl : chooseIn x latency runLen true with
    | some r => rw [hl] at h; cases h; exact chooseIn_keeps hl
    | none => rw [hl] at h; exact chooseIn_keeps h
  · exact ⟨rfl, rfl⟩

/-- The context chosen among one class. -/
def chosenIn (x : Wing) (latency : Ctx → Bool) (runLen : Ctx → Nat) (cls : Bool) : Option Nat := (chooseIn x latency runLen cls).map (·.1)

theorem choose_fst (x : Wing) (latency : Ctx → Bool) (runLen : Ctx → Nat) :
    (choose x latency runLen).1 = (chosenIn x latency runLen true).orElse (fun _ => chosenIn x latency runLen false) := by
  unfold choose chosenIn
  cases chooseIn x latency runLen true with
  | some r => rfl
  | none =>
    cases chooseIn x latency runLen false with
    | some r => rfl
    | none => rfl

theorem chosenIn_wantSwitch (x : Wing) (b : Bool) (latency : Ctx → Bool) (runLen : Ctx → Nat) (cls : Bool) :
    chosenIn { x with wantSwitch := b } latency runLen cls = chosenIn x latency runLen cls := by
  unfold chosenIn chooseIn candidates
  dsimp only
  split
  next r hr => rw [hr]; rfl
  next hr => rw [hr, Option.map_map, Option.map_map]; rfl

/-- That a switch is asked for has no part in the choice. -/
theorem choose_wantSwitch (x : Wing) (b : Bool) (latency : Ctx → Bool) (runLen : Ctx → Nat) :
    (choose { x with wantSwitch := b } latency runLen).1 = (choose x latency runLen).1 := by
  simp only [choose_fst, chosenIn_wantSwitch]

/-- Whether a target keeps its pass is read off the wing's contexts and the one that runs. -/
theorem plainTarget_congr {s t : State} {w : Nat} (hctx : (t.wing w).contexts = (s.wing w).contexts)
    (hrun : (t.wing w).running = (s.wing w).running) (c : Option Nat) : plainTarget t w c = plainTarget s w c := by
  unfold plainTarget plainResume State.ctx
  rw [hctx, hrun]

/-- The wing as it stands before a switch at an edge: the request is taken, and the choice has moved the pointers. -/
def switchChosen (s : State) (w : Nat) : State :=
  (s.modWing w (fun x => { x with wantSwitch := false })).modWing w
    (fun _ => (choose { s.wing w with wantSwitch := false } (·.latency) (·.runLen)).2)

theorem switchChosen_keeps (s : State) (w : Nat) :
    ((switchChosen s w).wing w).contexts = (s.wing w).contexts ∧ ((switchChosen s w).wing w).running = (s.wing w).running := by
  unfold switchChosen
  rw [State.modWing_self]
  exact choose_keeps _ _ _

theorem switchEdge_eq {s : State} {w : Nat} (h : stageCompletes (.switchEdge w) s = true) :
    switchEdge w s = switchTo (switchChosen s w) w (switchTarget s w) := by
  simp only [stageCompletes, Bool.and_eq_true, decide_eq_true_eq] at h
  obtain ⟨⟨⟨⟨⟨⟨⟨-, hlive⟩, hwant⟩, hup⟩, hremoving⟩, hmap⟩, hmay⟩, -⟩ := h
  have hmap' : mappingTiles (s.modWing w (fun x => { x with wantSwitch := false })) w = [] := by
    unfold mappingTiles at hmap ⊢
    rw [modWing_wingTiles s w (by exact fun _ => rfl)]
    exact hmap
  have hmay' : mayStage (s.modWing w (fun x => { x with wantSwitch := false })) (s.wing w) = true := hmay
  unfold switchEdge switchTarget
  dsimp only
  rw [if_neg (by simp [hlive, hwant, hup]), if_neg (by simp [Option.isNone_iff_eq_none.mp hremoving]), if_neg (by simp [hmap']),
    if_neg (by simp [hmay']), State.modWing_self, choose_wantSwitch]
  rfl

theorem switchEdge_done {s : State} {w : Nat} (h : stageCompletes (.switchEdge w) s = true) :
    stageDone (.switchEdge w) s (switchEdge w s) := by
  rw [switchEdge_eq h]
  simp only [stageCompletes, Bool.and_eq_true] at h
  obtain ⟨⟨⟨⟨⟨-, hup⟩, -⟩, -⟩, -⟩, hplain⟩ := h
  obtain ⟨hctx, hrun⟩ := switchChosen_keeps s w
  rw [← plainTarget_congr hctx hrun] at hplain
  obtain ⟨hrunning, -, hruns, -, hrecorded⟩ := switchTo_switched hplain
  rw [hrun] at hruns hrecorded
  exact ⟨hrunning, hruns, fun hne => hrecorded hne hup⟩

/-! #### Parking (R255) -/

theorem parkThreshold_done {s : State} {w : Nat} (h : stageCompletes (.parkThreshold w) s = true) :
    stageDone (.parkThreshold w) s (parkThreshold w s) := by
  simp only [stageCompletes, Bool.and_eq_true] at h
  obtain ⟨⟨-, hup⟩, hwaits⟩ := h
  split at hwaits
  next c hc =>
    simp only [Bool.and_eq_true, decide_eq_true_eq] at hwaits
    obtain ⟨htickets, hst⟩ := hwaits
    unfold parkThreshold
    rw [hc]
    dsimp only
    rw [if_pos ⟨htickets, hst, hup⟩]
    refine ⟨c, hc, ?_, ?_, ?_, ?_⟩
    · rw [askSwitch_ctx, State.modCtx_self]
    · rw [askSwitch_ctx, State.modCtx_self]
    · exact congrArg Wing.wantSwitch (State.modWing_self _ _ _)
    · exact (bump_version s).trans (if_pos hup)
  · cases hwaits

/-! #### Swaps begun (R258 to R260) -/

section
variable {s : State} {w : Nat}

/-- A swap begun is a record of the wing's own. -/
theorem startSwap_eq (hup : s.keeper.up = true) (c : Nat) (out : Bool) : startSwap s w c out =
    { s with led := { s.led with version := s.led.version + 1 } }.modWing w (fun x =>
      { x with swap := some { context := c, out := out, bytes := (s.obj (tget x.contexts c).saveObj).size } }) := by
  unfold startSwap; rw [bump_up hup]

theorem startSwap_swap (hup : s.keeper.up = true) (c : Nat) (out : Bool) (g : Ctx → Ctx) :
    ∃ p, (((startSwap s w c out).modCtx w c g).wing w).swap = some p ∧ p.context = c ∧ p.out = out := by
  rw [startSwap_eq hup]
  unfold State.modCtx
  rw [State.modWing_self, State.modWing_self]
  exact ⟨_, rfl, rfl, rfl⟩

theorem startSwap_version (hup : s.keeper.up = true) (c : Nat) (out : Bool) (g : Ctx → Ctx) :
    ((startSwap s w c out).modCtx w c g).led.version = s.led.version + 1 := by rw [startSwap_eq hup]; rfl

theorem startSwap_frame (hup : s.keeper.up = true) (c : Nat) (out : Bool) (g : Ctx → Ctx) : (startSwap s w c out).modCtx w c g =
    { s with led := { s.led with wings := ((startSwap s w c out).modCtx w c g).led.wings
                                 version := ((startSwap s w c out).modCtx w c g).led.version } } := by
  rw [startSwap_eq hup]; rfl

theorem up_of_maySwap {x : Wing} (h : maySwap s x = true) : s.keeper.up = true := by
  simp only [maySwap, Bool.and_eq_true] at h
  exact h.1.1.1.2

theorem swapOutStart_done (h : stageCompletes (.swapOutStart w) s = true) : stageDone (.swapOutStart w) s (swapOutStart w s) := by
  simp only [stageCompletes, Bool.and_eq_true] at h
  obtain ⟨⟨⟨⟨-, hmay⟩, hblocked⟩, hvictim⟩, hwaits⟩ := h
  obtain ⟨⟨c, y⟩, hvictim⟩ := Option.isSome_iff_exists.mp hvictim
  have hup := up_of_maySwap hmay
  split at hwaits
  next d z l hl =>
    unfold swapOutStart
    dsimp only
    rw [hl]
    dsimp only
    rw [if_pos (by simp only [hmay, hwaits, hblocked, Bool.and_self]), hvictim]
    obtain ⟨p, hp, hcontext, hout⟩ := startSwap_swap (w := w) hup c true (fun x => { x with st := .swappingOut })
    exact ⟨c, p, congrArg (Option.map Prod.fst) hvictim, hp, hcontext, hout, by rw [State.modCtx_self], startSwap_version hup _ _ _,
      startSwap_frame hup _ _ _⟩
  · cases hwaits

theorem swapInStart_done (h : stageCompletes (.swapInStart w) s = true) : stageDone (.swapInStart w) s (swapInStart w s) := by
  simp only [stageCompletes, Bool.and_eq_true] at h
  obtain ⟨⟨-, hmay⟩, hwaits⟩ := h
  have hup := up_of_maySwap hmay
  split at hwaits
  next c y l hl =>
    simp only [Bool.and_eq_true, decide_eq_true_eq] at hwaits
    obtain ⟨hhome, hfits⟩ := hwaits
    obtain ⟨g, hg⟩ := Option.isSome_iff_exists.mp hfits
    unfold swapInStart
    dsimp only
    rw [hl]
    dsimp only
    rw [if_neg (by simp [hhome]), if_pos (by simp [hmay, hhome]), hg]
    obtain ⟨p, hp, hcontext, hout⟩ := startSwap_swap (w := w) hup c false
      (fun x => { x with st := .swappingIn, resident := true, granule := g })
    exact ⟨c, y, g, p, congrArg List.head? hl, hg, hp, hcontext, hout, by rw [State.modCtx_self], by rw [State.modCtx_self],
      by rw [State.modCtx_self], startSwap_version hup _ _ _, startSwap_frame hup _ _ _⟩
  · cases hwaits

end

/-! #### The contents of a SAVE object (R258) -/

section
variable {α β : Type} {k : Nat}

theorem tlook_append (l m : Tbl α) (k : Nat) : tlook (l ++ m) k = (tlook l k).or (tlook m k) := by
  induction l with
  | nil => rfl
  | cons p l ih =>
    obtain ⟨j, x⟩ := p
    simp only [List.cons_append, tlook]
    split
    · rfl
    · exact ih

theorem tlook_none {l : Tbl α} (h : ∀ p ∈ l, p.1 ≠ k) : tlook l k = none := by
  cases hl : tlook l k with
  | none => rfl
  | some x => exact absurd rfl (h _ (tlook_mem hl))

/-- Of pieces laid end to end, a number that one of them alone may hold is read in that one. -/
theorem tlook_flatMap [DecidableEq β] {l : List β} {f : β → Tbl α} {a : β} (hothers : ∀ b ∈ l, b ≠ a → tlook (f b) k = none) :
    tlook (l.flatMap f) k = if a ∈ l then tlook (f a) k else none := by
  induction l with
  | nil => rfl
  | cons b l ih =>
    rw [List.flatMap_cons, tlook_append, ih fun c hc => hothers c (List.mem_cons_of_mem b hc)]
    by_cases hb : b = a
    · subst hb
      cases tlook (f b) k <;> simp
    · rw [hothers b List.mem_cons_self hb]
      simp [Ne.symm hb]

end

/-- A part of a memory put at another place, read inside it. -/
theorem tlook_moved_mslice (m : Mem) {a n d b : Nat} (hb : b < n) :
    tlook ((mslice m a n).map (fun c => (d + c.1, c.2))) (d + b) = tlook m (a + b) := by
  unfold mslice
  rw [List.map_map]
  induction m with
  | nil => rfl
  | cons p m ih =>
    obtain ⟨j, x⟩ := p
    by_cases hj : a ≤ j ∧ j < a + n
    · rw [List.filter_cons_of_pos (by simpa using hj), List.map_cons]
      simp only [tlook, Function.comp]
      by_cases hab : j = a + b
      · rw [if_pos (by omega), if_pos hab]
      · rw [if_neg (by omega), if_neg hab]; exact ih
    · rw [List.filter_cons_of_neg (by simpa using hj), ih]
      simp only [tlook]
      rw [if_neg (by omega)]

theorem mem_moved_mslice {m : Mem} {a n d : Nat} {p : Nat × BitVec 8} (hp : p ∈ (mslice m a n).map (fun c => (d + c.1, c.2))) :
    d ≤ p.1 ∧ p.1 < d + n := by
  simp only [mslice, List.map_map, List.mem_map, List.mem_filter, Function.comp, Bool.and_eq_true, decide_eq_true_eq] at hp
  obtain ⟨c, ⟨-, hlo, hhi⟩, rfl⟩ := hp
  dsimp only
  omega

/-- A tile's place among a context's pieces, and the piece its store gives. -/
def savedTile (s : State) (x : Ctx) (p : Nat × Nat) : Mem :=
  match physTile s p.2 with
  | some q => (mslice (s.tile q).store (regionBase x) (x.region * 32768)).map (fun c => (p.1 * (x.region * 32768) + c.1, c.2))
  | none => []

/-- A slice's piece, behind those of the tiles. -/
def savedSlice (s : State) (w : Nat) (x : Ctx) (p : Nat × Nat) : Mem :=
  (mslice s.qmem (p.2 * 2 ^ 20) (2 ^ 20)).map (fun c =>
    ((maskList 128 (s.wing w).tiles).length * (x.region * 32768) + p.1 * 2 ^ 20 + c.1, c.2))

theorem swappedOut_eq (s : State) (w : Nat) (x : Ctx) : swappedOut s w x =
    ((List.range (maskList 128 (s.wing w).tiles).length).zip (maskList 128 (s.wing w).tiles)).flatMap (savedTile s x)
      ++ ((List.range (maskList 256 x.slices).length).zip (maskList 256 x.slices)).flatMap (savedSlice s w x) := rfl

theorem mem_savedTile {s : State} {x : Ctx} {i : Nat × Nat} {p : Nat × BitVec 8} (hp : p ∈ savedTile s x i) :
    i.1 * (x.region * 32768) ≤ p.1 ∧ p.1 < i.1 * (x.region * 32768) + x.region * 32768 := by
  unfold savedTile at hp
  split at hp
  · exact mem_moved_mslice hp
  · cases hp

theorem mem_zip_range {l : List β} {i : Nat} {y : β} (h : (i, y) ∈ (List.range l.length).zip l) : l[i]? = some y := by
  obtain ⟨j, hj, hjy⟩ := List.mem_iff_getElem.mp h
  simp only [List.getElem_zip, List.getElem_range, Prod.mk.injEq] at hjy
  obtain ⟨rfl, rfl⟩ := hjy
  exact List.getElem?_eq_getElem _

/-- A context's state gathered for its SAVE object: its region of each tile lies at the tile's place in logical order (R258). -/
theorem mread_swappedOut {s : State} {w : Nat} {x : Ctx} {k n q b : Nat} (hk : (maskList 128 (s.wing w).tiles)[k]? = some n)
    (hq : physTile s n = some q) (hb : b < x.region * 32768) :
    mread (swappedOut s w x) (k * (x.region * 32768) + b) = mread (s.tile q).store (regionBase x + b) := by
  obtain ⟨hlt, hget⟩ := List.getElem?_eq_some_iff.mp hk
  have hin : (k, n) ∈ (List.range (maskList 128 (s.wing w).tiles).length).zip (maskList 128 (s.wing w).tiles) :=
    List.mem_iff_getElem.mpr ⟨k, by simpa using hlt, by simp [hget]⟩
  have hother : ∀ i ∈ (List.range (maskList 128 (s.wing w).tiles).length).zip (maskList 128 (s.wing w).tiles), i ≠ (k, n) →
      tlook (savedTile s x i) (k * (x.region * 32768) + b) = none := by
    refine fun i hi hne => tlook_none fun p hp heq => hne ?_
    obtain ⟨hlo, hhi⟩ := mem_savedTile hp
    have hik : i.1 = k := by
      have hle : i.1 < k + 1 := Nat.lt_of_mul_lt_mul_right (a := x.region * 32768) (by rw [Nat.add_mul, Nat.one_mul]; omega)
      have hge : k < i.1 + 1 := Nat.lt_of_mul_lt_mul_right (a := x.region * 32768) (by rw [Nat.add_mul, Nat.one_mul]; omega)
      omega
    refine Prod.ext hik ?_
    have hi2 := mem_zip_range (i := i.1) (y := i.2) hi
    rw [hik, hk] at hi2
    exact (Option.some.inj hi2).symm
  have hslices : tlook (((List.range (maskList 256 x.slices).length).zip (maskList 256 x.slices)).flatMap (savedSlice s w x))
      (k * (x.region * 32768) + b) = none := by
    refine tlook_none fun p hp heq => ?_
    obtain ⟨i, -, hi⟩ := List.mem_flatMap.mp hp
    obtain ⟨hlo, -⟩ := mem_moved_mslice hi
    have := Nat.mul_le_mul_right (x.region * 32768) (Nat.succ_le_of_lt hlt)
    rw [Nat.succ_mul] at this
    omega
  have htile : tlook (savedTile s x (k, n)) (k * (x.region * 32768) + b) = tlook (s.tile q).store (regionBase x + b) := by
    unfold savedTile
    rw [hq]
    exact tlook_moved_mslice _ hb
  unfold mread tgetD
  rw [swappedOut_eq, tlook_append, tlook_flatMap hother, if_pos hin, hslices, htile, Option.or_none]

/-! #### Swaps committed (R258, R261) -/

section
variable {s : State} {w : Nat} {p : Swap}

/-- A swap's end recorded and counted, before the context's state moves. -/
def swapCounted (s : State) (w : Nat) (p : Swap) : State :=
  s.bump.modWing w (fun v => { v with swap := none, counters := countSwap p.out p.bytes v.counters })

/-- The context of a swap out, with its state in its SAVE object. -/
def movedOut (s : State) (w : Nat) (p : Swap) : State :=
  ((swapCounted s w p).modObj (s.ctx w p.context).saveObj (fun y => { y with content := swappedOut (swapCounted s w p) w (s.ctx w p.context) })).modCtx
    w p.context (fun y => { y with st := .out, resident := false, granule := 0 })

/-- The context of a swap in, with its state in its region. -/
def movedIn (s : State) (w : Nat) (p : Swap) : State :=
  ((swappedIn (swapCounted s w p) w (s.ctx w p.context) ((swapCounted s w p).obj (s.ctx w p.context).saveObj).content).modObj
    (s.ctx w p.context).saveObj (fun y => { y with content := [] })).modCtx w p.context (fun y => { y with st := .runnable })

theorem swapCommit_eq (hp : (s.wing w).swap = some p) (hup : s.keeper.up = true) :
    swapCommit w s = if p.out then movedOut s w p else noteRunnable (movedIn s w p) w p.context := by
  unfold swapCommit
  rw [hp]
  exact if_neg (by simp [hup])

/-- What the record of a swap's end leaves of its wing: the swap is over, and counted. -/
structure SwapEnded (s t : State) (w : Nat) (p : Swap) : Prop where
  swap : (t.wing w).swap = none
  counters : (t.wing w).counters = countSwap p.out p.bytes (s.wing w).counters
  version : t.led.version = s.led.version + 1

theorem swapCounted_ended (hup : s.keeper.up = true) (p : Swap) : SwapEnded s (swapCounted s w p) w p := by
  unfold swapCounted
  exact ⟨by rw [State.modWing_self], by rw [State.modWing_self, bump_wing], (bump_version s).trans (if_pos hup)⟩

theorem SwapEnded.of_rest {M : List Component} {t u : State} (h : SwapEnded s t w p) (hr : rest M u = rest M t)
    (hw : Component.wings ∉ M) (hv : Component.version ∉ M) : SwapEnded s u w p :=
  ⟨by rw [wing_of_rest hr hw, h.swap], by rw [wing_of_rest hr hw, h.counters], by rw [version_of_rest hr hv, h.version]⟩

theorem SwapEnded.modWing {t : State} (h : SwapEnded s t w p) (v : Nat) {g : Wing → Wing} (hswap : ∀ x, (g x).swap = x.swap)
    (hcounters : ∀ x, (g x).counters = x.counters) : SwapEnded s (t.modWing v g) w p :=
  ⟨(modWing_keeps Wing.swap t v hswap w).trans h.swap, (modWing_keeps Wing.counters t v hcounters w).trans h.counters, h.version⟩

theorem movedOut_ended (hup : s.keeper.up = true) (p : Swap) : SwapEnded s (movedOut s w p) w p :=
  SwapEnded.modWing (.of_rest (M := [.objects]) (swapCounted_ended hup p) (State.modObj_rest (by decide) _ _ _) (by decide) (by decide))
    w (by exact fun _ => rfl) (by exact fun _ => rfl)

theorem movedIn_ended (hup : s.keeper.up = true) (p : Swap) : SwapEnded s (movedIn s w p) w p :=
  SwapEnded.modWing (.of_rest (M := [.tiles, .qmem, .objects]) (swapCounted_ended hup p)
    ((State.modObj_rest (by decide) _ _ _).trans (swappedIn_rest (by decide) _ _ _ _)) (by decide) (by decide))
    w (by exact fun _ => rfl) (by exact fun _ => rfl)

theorem noteRunnable_cases (t : State) (w c : Nat) : noteRunnable t w c = askSwitch t w ∨ noteRunnable t w c = t :=
  ite_eq_or_eq _ _ _

theorem noteRunnable_ended {t : State} (h : SwapEnded s t w p) (c : Nat) : SwapEnded s (noteRunnable t w c) w p := by
  rcases noteRunnable_cases t w c with hasks | hsame
  · rw [hasks]; exact h.modWing w (by exact fun _ => rfl) (by exact fun _ => rfl)
  · rw [hsame]; exact h

/-- The SAVE object after a swap out holds the context's region of each tile. -/
theorem movedOut_content {k n q b : Nat} (hk : (maskList 128 (s.wing w).tiles)[k]? = some n) (hq : physTile s n = some q)
    (hb : b < (s.ctx w p.context).region * 32768) :
    mread ((movedOut s w p).obj (s.ctx w p.context).saveObj).content (k * ((s.ctx w p.context).region * 32768) + b)
      = mread (s.tile q).store (regionBase (s.ctx w p.context) + b) := by
  have hcounted : rest [.keeper, .version, .wings] (swapCounted s w p) = rest [.keeper, .version, .wings] s :=
    (State.modWing_rest (by decide) _ _ _).trans (State.bump_rest (by decide) s)
  have hk' : (maskList 128 ((swapCounted s w p).wing w).tiles)[k]? = some n := by
    unfold swapCounted; rw [State.modWing_self, bump_wing]; exact hk
  have hmoved : (movedOut s w p).obj (s.ctx w p.context).saveObj =
      { (swapCounted s w p).obj (s.ctx w p.context).saveObj with content := swappedOut (swapCounted s w p) w (s.ctx w p.context) } := by
    unfold movedOut
    rw [obj_of_rest (M := [.wings]) (State.modCtx_rest (by decide) _ _ _ _) (by decide), State.modObj_self]
  rw [hmoved]
  dsimp only
  rw [mread_swappedOut hk' ((physTile_of_rest hcounted (by decide) n).trans hq) hb, tile_of_rest hcounted (by decide)]

theorem swapCommit_done (h : stageCompletes (.swapCommit w) s = true) : stageDone (.swapCommit w) s (swapCommit w s) := by
  simp only [stageCompletes, Bool.and_eq_true] at h
  obtain ⟨⟨-, hswap⟩, hup⟩ := h
  obtain ⟨p, hp⟩ := Option.isSome_iff_exists.mp hswap
  rw [swapCommit_eq hp hup]
  cases hout : p.out with
  | true =>
    obtain ⟨hnone, hcounters, hversion⟩ := movedOut_ended (w := w) hup p
    refine ⟨p, hp, hnone, hversion, by rw [if_pos rfl, hcounters]; rfl, fun _ => ⟨?_, ?_, ?_, ?_⟩, fun hin => by simp [hout] at hin⟩
    · exact congrArg Ctx.st (State.modCtx_self _ _ _ _)
    · exact congrArg Ctx.resident (State.modCtx_self _ _ _ _)
    · rw [if_pos rfl, hcounters, hout]; rfl
    · exact fun k n q b => movedOut_content
  | false =>
    obtain ⟨hnone, hcounters, hversion⟩ := noteRunnable_ended (movedIn_ended (w := w) hup p) p.context
    refine ⟨p, hp, hnone, hversion, by rw [if_neg (by simp), hcounters]; rfl, fun ho => by simp [hout] at ho, fun _ => ⟨?_, ?_⟩⟩
    · rw [if_neg (by simp), noteRunnable_ctx]
      exact congrArg Ctx.st (State.modCtx_self _ _ _ _)
    · rw [if_neg (by simp), hcounters, hout]; rfl

end

/-! #### The end of a removal (R240) -/

section
variable {s : State} {w : Nat}

/-- A wing's number as it stands once the wing is gone: only its generation stays. -/
def freedWing (x : Wing) : Wing := { (default : Wing) with gen := x.gen }

/-- A wing released, before the final reply of its removal. -/
def wingReleased (s : State) (w : Nat) : State :=
  let t := settleGates ((notify s.bump .wingRemoved (atWing s w) [w, (s.wing w).gen]).modWing w freedWing)
  { t with tt := { t.tt with entries := t.tt.entries.filter (fun e => decide (e.wing ≠ some w)) } }

theorem wingRemoveDone_eq (h : stageCompletes (.wingRemoveDone w) s = true) :
    s.keeper.up = true ∧ ∃ ref, (s.wing w).removing = some ref ∧ wingRemoveDone w s = finishIn (wingReleased s w) ref .ok [] := by
  simp only [stageCompletes, Bool.and_eq_true] at h
  obtain ⟨⟨⟨⟨⟨⟨-, hlive⟩, hremoving⟩, hremoved⟩, hclean⟩, hscrub⟩, hup⟩ := h
  obtain ⟨ref, href⟩ := Option.isSome_iff_exists.mp hremoving
  refine ⟨hup, ref, href, ?_⟩
  unfold wingRemoveDone releaseWing wingReleased freedWing
  dsimp only
  rw [if_pos ⟨hlive, hremoving, hremoved, by simpa using hclean, hscrub, hup⟩, href]

theorem wingReleased_rest (s : State) (w : Nat) : rest [.tt, .tiles] (wingReleased s w) =
    rest [.tt, .tiles] ((notify s.bump .wingRemoved (atWing s w) [w, (s.wing w).gen]).modWing w freedWing) := by
  unfold wingReleased
  exact (rest_tt (by decide) _ _).trans (settleGates_rest (by decide) _)

theorem wingReleased_wing (s : State) (w : Nat) : (wingReleased s w).wing w = freedWing (s.wing w) := by
  rw [wing_of_rest (wingReleased_rest s w) (by decide), State.modWing_self, wing_of_rest (notify_rest (List.Subset.refl _) _ _ _ _) (by decide),
    bump_wing]

theorem wingReleased_version (hup : s.keeper.up = true) (w : Nat) : (wingReleased s w).led.version = s.led.version + 1 := by
  rw [version_of_rest (wingReleased_rest s w) (by decide), version_of_rest (M := [.wings]) (State.modWing_rest (by decide) _ _ _) (by decide),
    version_of_rest (notify_rest (List.Subset.refl _) _ _ _ _) (by decide), bump_version, if_pos hup]

theorem not_mem_wingReleased {e : TtEntry} (he : e ∈ (wingReleased s w).tt.entries) : e.wing ≠ some w := by
  unfold wingReleased at he
  dsimp only at he
  exact of_decide_eq_true (List.mem_filter.mp he).2

theorem wingRemoveDone_done (h : stageCompletes (.wingRemoveDone w) s = true) : stageDone (.wingRemoveDone w) s (wingRemoveDone w s) := by
  obtain ⟨hup, ref, href, heq⟩ := wingRemoveDone_eq h
  have hreply := finishIn_rest (List.Subset.refl _) (wingReleased s w) ref .ok []
  rw [heq]
  refine ⟨?_, ?_, ?_, fun r hr => ?_, fun e he => ?_⟩
  · rw [wing_of_rest hreply (by decide), wingReleased_wing]; rfl
  · rw [wing_of_rest hreply (by decide), wingReleased_wing]; rfl
  · rw [version_of_rest hreply (by decide), wingReleased_version hup]
  · cases href.symm.trans hr
    exact finishIn_not_long _ _ _ _
  · rw [same_of_rest (c := .tt) hreply (by decide)] at he
    exact not_mem_wingReleased he

end

/-! #### The end of a scrub (R241, R411, R416) -/

section
variable {s t : State} {w : Nat}

/-- A wing's scrub, its reassignment and its party. -/
def scrubPart (x : Wing) : Option Scrub × Option (Nat × CmdRef) × Nat := (x.scrub, x.reassign, x.party)

/-- No wing's scrub, reassignment or party has changed, and final replies are given at most. -/
structure KeepsScrubs (s t : State) : Prop where
  part : ∀ v, scrubPart (t.wing v) = scrubPart (s.wing v)
  ends : EndsOnly s t

namespace KeepsScrubs

theorem refl (s : State) : KeepsScrubs s s := ⟨fun _ => rfl, .refl s⟩

theorem trans {u : State} (hst : KeepsScrubs s t) (htu : KeepsScrubs t u) : KeepsScrubs s u :=
  ⟨fun v => (htu.part v).trans (hst.part v), hst.ends.trans htu.ends⟩

theorem of_rest {M : List Component} (hr : rest M t = rest M s) (hwings : Component.wings ∉ M) (hsess : Component.sessions ∉ M)
    (hlongs : Component.longs ∉ M) : KeepsScrubs s t :=
  ⟨fun v => congrArg scrubPart (wing_of_rest hr hwings v), .of_rest hr hsess hlongs⟩

theorem modWing (s : State) (w : Nat) {g : Wing → Wing} (hg : ∀ x, scrubPart (g x) = scrubPart x) : KeepsScrubs s (s.modWing w g) :=
  ⟨fun v => modWing_keeps scrubPart s w hg v, .of_rest (State.modWing_rest (List.mem_singleton_self _) s w g) (by decide) (by decide)⟩

theorem foldl {α : Type} {g : State → α → State} (hg : ∀ s a, KeepsScrubs s (g s a)) (l : List α) (s : State) :
    KeepsScrubs s (l.foldl g s) :=
  List.foldlRecOn l g (refl s) fun _ hs a _ => hs.trans (hg _ a)

theorem finishOpt (s : State) (ref : Option CmdRef) (st : Status) (b : Bytes) : KeepsScrubs s (finishOpt s ref st b) :=
  ⟨fun v => congrArg scrubPart (wing_of_rest (finishOpt_rest (List.Subset.refl _) s ref st b) (by decide) v), finishOpt_ends s ref st b⟩

theorem notify (s : State) (type : Notice) (at_ : At) (body : List Nat) : KeepsScrubs s (notify s type at_ body) :=
  of_rest (notify_rest (List.Subset.refl _) s type at_ body) (by decide) (by decide) (by decide)

theorem bump (s : State) : KeepsScrubs s s.bump := of_rest (State.bump_rest (List.Subset.refl _) s) (by decide) (by decide) (by decide)

end KeepsScrubs

/-- The tile that serves a logical tile stopped and mapped out for good (R426). -/
def tileStopped (s : State) (n : Nat) : State :=
  match physTile s n with
  | some p => (s.modTile p (fun t => { t with stopped := true })).modLed (fun l => { l with faultMap := tput l.faultMap p true })
  | none => s

theorem tileStopped_keepsScrubs (s : State) (n : Nat) : KeepsScrubs s (tileStopped s n) := by
  unfold tileStopped
  split
  · exact .of_rest (M := [.tiles, .faultMap]) ((modLed_faultMap_rest (by decide) _ _).trans (State.modTile_rest (by decide) _ _ _))
      (by decide) (by decide) (by decide)
  · exact .refl s

theorem loseTile_keepsScrubs (s : State) (n : Nat) : KeepsScrubs s (loseTile s n) := by
  have hmap (u : State) : KeepsScrubs u (settleGates (u.modLed (fun l => { l with tileMap := tput l.tileMap n .unavailable }))) :=
    .of_rest (M := [.tiles, .tileMap]) ((settleGates_rest (by decide) _).trans (modLed_tileMap_rest (by decide) u _))
      (by decide) (by decide) (by decide)
  have hlost := (tileStopped_keepsScrubs s n).trans (hmap _)
  unfold loseTile
  dsimp only
  split
  · exact hlost.trans (.notify _ _ _ _)
  · refine (hlost.trans (.modWing _ _ ?_)).trans (.notify _ _ _ _)
    exact fun _ => rfl

theorem startMapping_keepsScrubs (s : State) (n spare : Nat) (ref : Option CmdRef) : KeepsScrubs s (startMapping s n spare ref) := by
  have hgates (u : State) : KeepsScrubs u (settleGates u) :=
    .of_rest (settleGates_rest (List.mem_singleton_self _) u) (by decide) (by decide) (by decide)
  unfold startMapping
  split
  next w p _ _ =>
    have htile := KeepsScrubs.of_rest (State.modTile_rest (List.mem_singleton_self _) s p (fun t => { t with spare := some spare, mapRef := ref }))
      (by decide) (by decide) (by decide)
    exact (htile.trans (hgates _)).trans (.modWing _ w (g := fun x => { x with wantSwitch := true }) (fun _ => rfl))
  · have hswitch := KeepsScrubs.of_rest (switchMap_rest (List.Subset.refl _) s n (physTile s n) spare) (by decide) (by decide) (by decide)
    have htold (u : State) : KeepsScrubs u (tileMapped u n spare (physTile s n)) :=
      .of_rest (tileMapped_rest (List.Subset.refl _) u n spare _) (by decide) (by decide) (by decide)
    exact ((hswitch.trans (hgates _)).trans (htold _)).trans (.finishOpt _ _ _ _)

theorem beginMap_keepsScrubs (s : State) (m : MapReq) : KeepsScrubs s (beginMap s m) := by
  unfold beginMap
  split
  · exact .trans ((KeepsScrubs.bump s).trans (loseTile_keepsScrubs _ _)) (.finishOpt _ _ _ _)
  split
  · exact (KeepsScrubs.bump s).trans (startMapping_keepsScrubs _ _ _ _)
  split
  next r hr => exact (KeepsScrubs.bump s).trans (.finishOpt _ (some r) _ _)
  · exact (KeepsScrubs.bump s).trans (loseTile_keepsScrubs _ _)

theorem settleMaps_keepsScrubs (s : State) : KeepsScrubs s (settleMaps s) := by
  have hmaps (u : State) (f : Led → List MapReq) : KeepsScrubs u (u.modLed (fun l => { l with maps := f l })) :=
    .of_rest (modLed_maps_rest (List.mem_singleton_self _) u f) (by decide) (by decide) (by decide)
  unfold settleMaps
  refine (hmaps s (fun _ => [])).trans (.foldl (fun u m => ?_) _ _)
  split
  · exact beginMap_keepsScrubs u m
  · exact hmaps u (fun l => l.maps ++ [m])

theorem dropDeadLofts_keepsScrubs (s : State) (w : Nat) : KeepsScrubs s (dropDeadLofts s w) := by
  unfold dropDeadLofts
  refine .foldl (fun u c => ?_) _ s
  split
  · have hloft := KeepsScrubs.modWing u w (g := fun x => { x with loft := without x.loft (2 ^ c) }) (fun _ => rfl)
    refine hloft.trans (.trans ?_ (.notify _ _ _ _))
    exact .of_rest (State.modLoft_rest (List.mem_singleton_self _) _ _ _) (by decide) (by decide) (by decide)
  · exact .refl u

theorem carryMoves_keepsScrubs (s : State) : KeepsScrubs s (carryMoves s) :=
  ⟨fun v => congrArg scrubPart (wing_of_rest (carryMoves_rest (List.Subset.refl _) s) (by decide) v), carryMoves_ends s⟩

/-- A wing handed on by its reassignment, if it has one (R241). -/
def reassigned (now : Nat) (party : Option Nat) (x : Wing) : Wing :=
  { (match party with
      | some p => { x with party := p, baseStall := x.stall, baseCounters := x.counters, createdAt := now }
      | none => x) with reassign := none }

/-- A scrub's completion recorded, before it is told. -/
def scrubRecorded (s : State) (w : Nat) (sc : Scrub) : State :=
  (s.modWing w (fun x => { x with scrub := none, clean := true })).bump.modWing w (reassigned s.clock.count sc.newParty)

/-- The completion told to the host, and the reply of the reassignment given. -/
def scrubTold (s : State) (w : Nat) (sc : Scrub) : State :=
  finishOpt (notify (scrubRecorded s w sc) .scrubDone (atWing (scrubRecorded s w sc) w) [w, ((scrubRecorded s w sc).wing w).gen]) sc.ref .ok []

theorem scrubDone_eq (h : stageCompletes (.scrubDone w) s = true) : ∃ sc, (s.wing w).scrub = some sc
    ∧ scrubDone w s = carryMoves (settleMaps (dropDeadLofts (scrubTold s w sc) w)) := by
  simp only [stageCompletes, Bool.and_eq_true] at h
  obtain ⟨⟨⟨-, hup⟩, hstays⟩, hends⟩ := h
  split at hends
  next sc hsc =>
    have hdue : ¬(s.clock.count < sc.start + sc.length ∨ (!s.keeper.up) = true) := by
      rw [hup]; simpa using of_decide_eq_true hends
    have hstays' : ¬((s.modWing w (fun x => { x with scrub := none, clean := true })).wing w).leaving = true := by
      rw [State.modWing_self]; simpa using hstays
    refine ⟨sc, hsc, ?_⟩
    unfold scrubDone
    rw [hsc]
    dsimp only
    rw [if_neg hdue, if_neg hstays']
    rfl
  · cases hends

theorem scrubRecorded_part (s : State) (w : Nat) (sc : Scrub) :
    scrubPart ((scrubRecorded s w sc).wing w) = (none, none, sc.newParty.getD (s.wing w).party) := by
  unfold scrubRecorded reassigned
  rw [State.modWing_self, bump_wing, State.modWing_self]
  cases sc.newParty with
  | none => rfl
  | some p => rfl

theorem scrubTold_keepsScrubs (s : State) (w : Nat) (sc : Scrub) : KeepsScrubs (scrubRecorded s w sc) (scrubTold s w sc) :=
  (KeepsScrubs.notify _ _ _ _).trans (.finishOpt _ _ _ _)

theorem scrubDone_done (h : stageCompletes (.scrubDone w) s = true) : stageDone (.scrubDone w) s (scrubDone w s) := by
  obtain ⟨sc, hsc, heq⟩ := scrubDone_eq h
  have hafter : KeepsScrubs (scrubTold s w sc) (scrubDone w s) := by
    rw [heq]
    exact ((dropDeadLofts_keepsScrubs _ _).trans (settleMaps_keepsScrubs _)).trans (carryMoves_keepsScrubs _)
  have hpart := (((scrubTold_keepsScrubs s w sc).trans hafter).part w).trans (scrubRecorded_part s w sc)
  simp only [scrubPart, Prod.mk.injEq] at hpart
  obtain ⟨hscrub, hreassign, hparty⟩ := hpart
  refine ⟨hscrub, hreassign, fun sc' p hsc' hp => ?_, fun sc' ref hsc' href => ?_⟩
  · cases hsc.symm.trans hsc'
    rw [hparty, hp]; rfl
  · cases hsc.symm.trans hsc'
    exact hafter.ends.not_long (finishOpt_not_long _ _ _ href)

end

/-- A row of the family that has its effect names a wing that the module has (Table 0.5). -/
theorem wf_of_boundary_completes {i : Instr} {s : State} (hi : familyOf i = .boundary) (h : stageCompletes i s = true) : i.wf = true := by
  cases i with
  | switchEdge | parkThreshold | swapOutStart | swapInStart | swapCommit | wingRemoveDone | scrubDone =>
    simp only [stageCompletes, Bool.and_assoc] at h
    exact Bool.and_elim_left h
  | _ => cases hi

/-- Settles O8, row by row. -/
theorem boundaryRows : Obligations.BoundaryRows := by
  intro i s hi h
  have hwf := wf_of_boundary_completes hi h
  cases i with
  | switchEdge => exact ⟨_, onPart_of_partIn hwf _ _, switchEdge_done h⟩
  | parkThreshold => exact ⟨_, onPart_of_partIn hwf _ _, parkThreshold_done h⟩
  | swapOutStart => exact ⟨_, onPart_of_partIn hwf _ _, swapOutStart_done h⟩
  | swapInStart => exact ⟨_, onPart_of_partIn hwf _ _, swapInStart_done h⟩
  | swapCommit => exact ⟨_, onPart_of_partIn hwf _ _, swapCommit_done h⟩
  | wingRemoveDone => exact ⟨_, onPart_of_partIn hwf _ _, wingRemoveDone_done h⟩
  | scrubDone => exact ⟨_, onPart_of_partIn hwf _ _, scrubDone_done h⟩
  | _ => cases hi

end Sys2Proof.Machine
/-! ### Messages (chapter 12) -/

namespace Sys2Proof.Machine

open Sys2Proof Sys2Proof.Safety

/-! #### MIRROR_ACK_TIMEOUT (R294, R295) -/

/-- Without a leg that awaits an acknowledgement no pass waits for its mirrors. -/
theorem mirrorWaits_of_none_awaited {s : State} (h : ∀ n i, tget (s.ring n).awaiting i = none) (w : Nat) (p : Pass) :
    mirrorWaits s w p = false := by
  simp [mirrorWaits, h]

/-- A wing with one context: its pass commits where it is done, serves and waits no longer. -/
theorem settleMirrors_of_one_done {s : State} {w c : Nat} {p : Pass} (hcs : (s.wing w).contexts.map (·.1) = [c])
    (hp : (s.ctx w c).pass = some p) (hgo : p.phase = .done ∧ !p.cmd.train ∧ !mirrorWaits s w p ∧ s.keeper.up) :
    settleMirrors s w = commitServe w c s p := by
  simp only [settleMirrors, hcs, List.foldl_cons, List.foldl_nil, hp, if_pos hgo]

/-- A re-mirror begun for a leg whose KV object is empty ends at once. -/
theorem startRemirror_of_empty {s : State} {n i o holder : Nat} (hh : (s.ring n).holder i = some holder) (hl : (s.ring n).live = true)
    (ho : (s.ring n).owner i = some Config.identity) (hm : (s.ring n).mirrored.testBit i = false)
    (hr : tget (s.ring n).remirror i = none) (ht : i ∉ (s.ring n).taking) (hv : holder ∈ s.fabric.view)
    (hkv : legObj s n i = some o) (hsz : (s.obj o).size = 0) : startRemirror n s i = remirrorDone s n i := by
  simp [startRemirror, hh, hl, ho, hm, hr, ht, hv, hkv, hsz]

/-- A leg whose re-mirror is done is mirrored. -/
theorem remirrorDone_mirrored (s : State) (n i : Nat) : ((remirrorDone s n i).ring n).mirrored.testBit i = true := by
  have hrings : (remirrorDone s n i).led.rings
      = (s.modRing n (fun r => { r with mirrored := r.mirrored ||| 2 ^ i, remirror := terase r.remirror i })).led.rings :=
    same_of_rest (c := .rings) (notify_rest (List.Subset.refl _) _ _ _ _) (by decide)
  have hring : (remirrorDone s n i).ring n
      = { s.ring n with mirrored := (s.ring n).mirrored ||| 2 ^ i, remirror := terase (s.ring n).remirror i } := by
    rw [State.ring, hrings]; exact State.modRing_self s n _
  simp [hring]

/-- A KV object of wing 0. -/
def kvObj (size : Nat) : Obj := { (default : Obj) with live := true, gen := 1, kind := .kv, size := size, refs := 1 }

/-- The one pass of a run that serves, done, which holds object 5. -/
def doneServe : Pass := { (default : Pass) with cmd := { (default : PassCmd) with passesLeft := 1 }, phase := .done, objects := [5] }

/-- A ring of wing 0 of two legs: the first owned here, the second by the next identity, which mirrors the first. -/
def twoLegs : Ring :=
  { (default : Ring) with
    live := true
    legs := [{ (default : Leg) with owner := Config.identity }, { (default : Leg) with owner := Config.identity + 1 }] }

/-- A running module whose table of objects lists object 5 before object 3: the first KV object of wing 0 is object 5, of 4,096 bytes,
and the second is object 3, which is empty. A pass of the wing that is done holds object 5 and has waited 20,000 mp for the mirror of leg 0
of ring 0. -/
def objectsOutOfOrder : State :=
  { State.reset with
    clock := { State.reset.clock with count := 20000 }
    keeper := { State.reset.keeper with up := true }
    fabric := { State.reset.fabric with view := [Config.identity + 1] }
    led := { Led.blank with
      wings := [(0, { (default : Wing) with live := true, contexts := [(0, { (default : Ctx) with live := true, pass := some doneServe })] })]
      rings := [(0, { twoLegs with mirrored := 1, awaiting := [(0, some 0)] })]
      objects := [(5, kvObj 4096), (3, kvObj 0)] } }

/-- The same once leg 0 is unmirrored and the host is told, before the pass commits. -/
def outOfOrderTold : State :=
  notify (objectsOutOfOrder.modRing 0 (fun r =>
    { r with mirrored := without r.mirrored (2 ^ 0), awaiting := terase r.awaiting 0, remirror := terase r.remirror 0 }))
    .mirrorLost (atWing objectsOutOfOrder 0) [0, 0]

theorem twoLegs_owner : twoLegs.owner 0 = some Config.identity := rfl

theorem twoLegs_holder : twoLegs.holder 0 = some (Config.identity + 1) := by
  simp [twoLegs, Ring.holder, Ring.indices, Ring.owner, List.range_succ]

theorem twoLegs_own : twoLegs.own = [0] := by
  simp [twoLegs, Ring.own, Ring.indices, Ring.owner, List.range_succ]

theorem objectsOutOfOrder_completes : messageCompletes (.mirrorAckTimeout 0 0) objectsOutOfOrder = true := by decide +kernel

/-- Where a ring owns leg 0 alone and no leg was taken over, the leg's KV object is the first of the wing's. -/
theorem legObj_of_first {s : State} (hown : (s.ring 0).own = [0]) (hkv : (s.ring 0).kv = []) :
    legObj s 0 0 = (wingKvs s (s.ring 0).wing)[0]? := by
  simp [legObj, hown, hkv, show (tget [] 0 : Option Nat) = none from rfl]

theorem objectsOutOfOrder_legObj : legObj objectsOutOfOrder 0 0 = some 5 := by
  rw [legObj_of_first (show (objectsOutOfOrder.ring 0).own = [0] from twoLegs_own) rfl]; decide +kernel

theorem outOfOrderTold_rings : outOfOrderTold.led.rings = [(0, twoLegs)] :=
  same_of_rest (c := .rings) (notify_rest (List.Subset.refl _) _ _ _ _) (by decide)

theorem outOfOrderTold_none_awaited (n i : Nat) : tget (outOfOrderTold.ring n).awaiting i = none := by
  rw [State.ring, outOfOrderTold_rings]
  by_cases hn : n = 0
  · subst hn; rfl
  · rw [show tget [(0, twoLegs)] n = default by simp [tget, tgetD, tlook, Ne.symm hn]]; rfl

theorem outOfOrderTold_settled : settleMirrors outOfOrderTold 0 = commitServe 0 0 outOfOrderTold doneServe :=
  settleMirrors_of_one_done (by decide +kernel) (by decide +kernel)
    ⟨rfl, rfl, by rw [mirrorWaits_of_none_awaited outOfOrderTold_none_awaited]; decide, by decide +kernel⟩

/-- The commit releases object 5, which is listed in order from then on, after object 3. -/
theorem outOfOrderTold_commit_kvs : wingKvs (commitServe 0 0 outOfOrderTold doneServe) 0 = [3, 5] := by decide +kernel

/-- So leg 0 is taken to lie in object 3, which is empty, and its re-mirror ends as it begins. -/
theorem objectsOutOfOrder_mirrored : ((mirrorAckTimeout 0 0 objectsOutOfOrder).ring 0).mirrored.testBit 0 = true := by
  have hun : unmirror objectsOutOfOrder 0 0 = commitServe 0 0 outOfOrderTold doneServe := outOfOrderTold_settled
  have htime : mirrorAckTimeout 0 0 objectsOutOfOrder = startRemirror 0 (commitServe 0 0 outOfOrderTold doneServe) 0 :=
    congrArg (startRemirror 0 · 0) hun
  have hrest := commitServe_rest (List.Subset.refl _) 0 0 outOfOrderTold doneServe
  have hview : (commitServe 0 0 outOfOrderTold doneServe).fabric.view = [Config.identity + 1] :=
    congrArg Fabric.view (same_of_rest (c := .fabric) hrest (by decide))
  have hring : (commitServe 0 0 outOfOrderTold doneServe).ring 0 = twoLegs := by
    rw [State.ring, show _ = [(0, twoLegs)] from (same_of_rest (c := .rings) hrest (by decide)).trans outOfOrderTold_rings]; rfl
  have hobj : legObj (commitServe 0 0 outOfOrderTold doneServe) 0 0 = some 3 := by
    rw [legObj_of_first (by rw [hring, twoLegs_own]) (by rw [hring]; rfl), hring]
    exact congrArg (·[0]?) outOfOrderTold_commit_kvs
  rw [htime, startRemirror_of_empty (hring ▸ twoLegs_holder) (hring ▸ rfl) (hring ▸ twoLegs_owner) (hring ▸ rfl) (hring ▸ rfl)
    (by rw [hring]; exact List.not_mem_nil) (by simp [hview]) hobj (by decide +kernel)]
  exact remirrorDone_mirrored _ _ _

/-- Refutes O14: the commit of a pass that waited for a mirror releases its objects, which writes their entries in order, so in a table of
objects that is not in order the leg's KV object is another one from then on. Where that one is empty the re-mirror begun after
MIRROR_ACK_TIMEOUT ends at once and the leg is mirrored, though its KV object before was not empty; messageDone has it unmirrored. -/
theorem not_messageRows : ¬ Obligations.MessageRows := by
  intro h
  obtain ⟨t, hnext, -, hunmirrored⟩ := h (.mirrorAckTimeout 0 0) objectsOutOfOrder rfl objectsOutOfOrder_completes
  have hfalse := hunmirrored 5 objectsOutOfOrder_legObj (by decide +kernel)
  rw [← Host.Outcome.next.inj (show Host.Outcome.next (mirrorAckTimeout 0 0 objectsOutOfOrder) = _ from hnext)] at hfalse
  exact absurd (objectsOutOfOrder_mirrored.symm.trans hfalse) (by decide)

end Sys2Proof.Machine
/-! ### What links, messages, queues and session timers leave alone (chapters 11 and 12) -/

namespace Sys2Proof.Machine

open Sys2Proof Sys2Proof.Safety

/-! #### Links (R266 to R276) -/

@[simp] theorem resendKept_rest {M : List Component} (h : .ports ∈ M) (s : State) (p : Nat) (peer : Option Nat) (l : List KeptMsg) :
    rest M (resendKept s p peer l) = rest M s := by
  unfold resendKept
  split
  · rfl
  · exact rest_foldl _ _ _ fun s k => by dsimp only; split <;> simp [h]
@[simp] theorem dropPort_rest {M : List Component} (h : .ports ∈ M) (s : State) (p : Nat) (st : PortSt) :
    rest M (dropPort s p st) = rest M s := by
  simp [dropPort, h]
@[simp] theorem settleRetrains_rest {M : List Component} (h : [.fns, .fabric, .keeper, .version, .sessions, .longs] ⊆ M) (s : State) :
    rest M (settleRetrains s) = rest M s := by
  simp only [List.cons_subset, List.nil_subset, and_true] at h
  simp [settleRetrains, h]
@[simp] theorem losePort_rest {M : List Component} (h : [.fns, .ports, .fabric, .keeper, .version, .sessions, .longs] ⊆ M) (s : State) (p : Nat) :
    rest M (losePort s p) = rest M s := by
  simp only [List.cons_subset, List.nil_subset, and_true] at h
  simp [losePort, h]
@[simp] theorem trainingPhaseDone_rest {M : List Component} (h : [.fns, .ports, .keeper] ⊆ M) (p lanes : Nat) (s : State) :
    rest M (trainingPhaseDone p lanes s) = rest M s := by
  simp only [List.cons_subset, List.nil_subset, and_true] at h
  unfold trainingPhaseDone; dsimp only; (repeat' split) <;> simp [h]
@[simp] theorem trainingPhaseOverrun_rest {M : List Component} (h : [.fns, .ports, .fabric, .keeper, .version, .sessions, .longs] ⊆ M)
    (p : Nat) (s : State) : rest M (trainingPhaseOverrun p s) = rest M s := by
  simp only [List.cons_subset, List.nil_subset, and_true] at h
  unfold trainingPhaseOverrun; split <;> simp [h]
@[simp] theorem trainingRetry_rest {M : List Component} (h : .ports ∈ M) (p : Nat) (s : State) :
    rest M (trainingRetry p s) = rest M s := by
  unfold trainingRetry; (repeat' split) <;> simp [h]
@[simp] theorem helloFrame_rest {M : List Component} (h : [.fns, .ports, .fabric, .keeper, .version, .sessions, .longs] ⊆ M)
    (p : Nat) (b : HelloBody) (s : State) : rest M (helloFrame p b s) = rest M s := by
  simp only [List.cons_subset, List.nil_subset, and_true] at h
  unfold helloFrame; dsimp only; (repeat' split) <;> simp [h]
@[simp] theorem degradePort_rest {M : List Component} (h : [.fns, .ports, .fabric, .keeper, .version, .sessions, .longs] ⊆ M)
    (s : State) (p locked : Nat) : rest M (degradePort s p locked) = rest M s := by
  simp only [List.cons_subset, List.nil_subset, and_true] at h
  unfold degradePort; split <;> simp [h]
@[simp] theorem laneLockLoss_rest {M : List Component} (h : [.fns, .ports, .fabric, .keeper, .version, .sessions, .longs] ⊆ M)
    (p lane locked : Nat) (s : State) : rest M (laneLockLoss p lane locked s) = rest M s := by
  simp only [List.cons_subset, List.nil_subset, and_true] at h
  unfold laneLockLoss; dsimp only; split <;> simp [h]
@[simp] theorem uncorrectableCodeword_rest {M : List Component} (h : [.fns, .ports, .fabric, .keeper, .version, .sessions, .longs] ⊆ M)
    (p locked : Nat) (s : State) : rest M (uncorrectableCodeword p locked s) = rest M s := by
  simp only [List.cons_subset, List.nil_subset, and_true] at h
  unfold uncorrectableCodeword; dsimp only; (repeat' split) <;> simp [h]
@[simp] theorem dataFrame_rest {M : List Component} (h : .ports ∈ M) (p : Nat) (f : Frame) (s : State) :
    rest M (dataFrame p f s) = rest M s := by
  unfold dataFrame; dsimp only; split <;> simp [h]
@[simp] theorem idleFrame_rest {M : List Component} (h : .ports ∈ M) (p : Nat) (f : Frame) (s : State) :
    rest M (idleFrame p f s) = rest M s := by
  unfold idleFrame; split <;> simp [h]
@[simp] theorem retryFrame_rest {M : List Component} (h : .ports ∈ M) (p : Nat) (f : Frame) (s : State) :
    rest M (retryFrame p f s) = rest M s := by
  unfold retryFrame; split <;> simp [h]
@[simp] theorem ackTimeout_rest {M : List Component} (h : .ports ∈ M) (p : Nat) (s : State) :
    rest M (ackTimeout p s) = rest M s := by
  unfold ackTimeout; split <;> simp [h]
@[simp] theorem linkRetrainDone_rest {M : List Component} (h : [.fns, .ports, .fabric, .keeper, .version, .sessions, .longs] ⊆ M)
    (p : Nat) (ok : Bool) (s : State) : rest M (linkRetrainDone p ok s) = rest M s := by
  simp only [List.cons_subset, List.nil_subset, and_true] at h
  unfold linkRetrainDone; dsimp only; (repeat' split) <;> simp [h]
@[simp] theorem relayTimeout_rest {M : List Component} (h : [.ports, .fabric] ⊆ M) (p : Nat) (s : State) :
    rest M (relayTimeout p s) = rest M s := by
  simp only [List.cons_subset, List.nil_subset, and_true] at h
  simp [relayTimeout, h]

/-! #### Messages as they arrive (R273, R274, R283) -/

@[simp] theorem accuse_rest {M : List Component} (h : [.fns, .fabric, .keeper] ⊆ M) (s : State) (peer reason : Nat) :
    rest M (accuse s peer reason) = rest M s := by
  simp only [List.cons_subset, List.nil_subset, and_true] at h
  simp [accuse, h]
@[simp] theorem countMalformedMsg_rest {M : List Component} (h : [.fns, .fabric, .keeper] ⊆ M) (s : State) (port : Nat) :
    rest M (countMalformedMsg s port) = rest M s := by
  simp only [List.cons_subset, List.nil_subset, and_true] at h
  unfold countMalformedMsg; split <;> simp [h]
@[simp] theorem remember_rest {M : List Component} (h : .fabric ∈ M) (s : State) (type : Nat) (hd : MsgHdr) :
    rest M (remember s type hd) = rest M s := by
  simp [remember, h]

/-- A message but ENTRY changes what its own rule changes, and the fabric's count and memory of it. -/
theorem receive_rest {M : List Component} (h : [.fns, .fabric, .keeper] ⊆ M) {f : State → State} (hf : ∀ u, rest M (f u) = rest M u)
    (s : State) (type : Nat) (hd : MsgHdr) : rest M (receive s type hd f) = rest M s := by
  unfold receive
  split
  · rfl
  · exact countMalformedMsg_rest h _ _
  · split
    · rfl
    · exact (hf _).trans (remember_rest (h (by decide)) _ _ _)
theorem receiveHere_rest {M : List Component} (h : [.fns, .fabric, .keeper] ⊆ M) {f : State → State} (hf : ∀ u, rest M (f u) = rest M u)
    (s : State) (type : Nat) (hd : MsgHdr) : rest M (receiveHere s type hd f) = rest M s :=
  receive_rest h (fun u => by split; exacts [hf u, rfl]) s type hd

@[simp] theorem relay_rest {M : List Component} (h : [.ports, .fabric] ⊆ M) (s : State) (m : OutMsg) :
    rest M (relay s m) = rest M s := by
  simp only [List.cons_subset, List.nil_subset, and_true] at h
  unfold relay; dsimp only; (repeat' split) <;> simp [h]
theorem receiveRouted_rest {M : List Component} (h : [.fns, .ports, .fabric, .keeper] ⊆ M) {f : State → State}
    (hf : ∀ u, rest M (f u) = rest M u) (s : State) (type : Nat) (hd : MsgHdr) (body : List Nat) :
    rest M (receiveRouted s type hd body f) = rest M s := by
  simp only [List.cons_subset, List.nil_subset, and_true] at h
  exact receive_rest (by simp [h]) (fun u => by split; exacts [hf u, relay_rest (by simp [h]) _ _]) s type hd

/-! #### Tickets completed (R256, R257) -/

@[simp] theorem countLateTicket_rest {M : List Component} (h : .wings ∈ M) (s : State) (w : Nat) :
    rest M (countLateTicket s w) = rest M s := by
  unfold countLateTicket; split <;> simp [h]
@[simp] theorem setFlag_rest {M : List Component} (h : .tiles ∈ M) (s : State) (w c : Nat) (flag : Option Nat) :
    rest M (setFlag s w c flag) = rest M s := by
  unfold setFlag; split <;> simp [h]
@[simp] theorem completeTicket_rest {M : List Component} (h : [.tickets, .tiles, .keeper, .version, .wings] ⊆ M) (s : State) (n : Nat) :
    rest M (completeTicket s n) = rest M s := by
  simp only [List.cons_subset, List.nil_subset, and_true] at h
  unfold completeTicket; dsimp only; (repeat' split) <;> simp [h, ↓rest_tickets]
@[simp] theorem writeRegion_rest {M : List Component} (h : [.tiles, .qmem] ⊆ M) (s : State) (w : Nat) (x : Ctx) (off : Nat) (data : Bytes) :
    rest M (writeRegion s w x off data) = rest M s := by
  simp only [List.cons_subset, List.nil_subset, and_true] at h
  unfold writeRegion
  exact (rest_qmem h.2 _ _).trans (rest_foldl _ _ _ fun s q => by split <;> simp [h])
@[simp] theorem ticketWrite_rest {M : List Component} (h : [.tiles, .qmem, .objects] ⊆ M) (s : State) (t : Ticket) (off : Nat) (data : Bytes) :
    rest M (ticketWrite s t off data) = rest M s := by
  simp only [List.cons_subset, List.nil_subset, and_true] at h
  unfold ticketWrite; dsimp only; (repeat' split) <;> simp [h]
@[simp] theorem complete_rest {M : List Component} (h : [.tickets, .tiles, .qmem, .keeper, .version, .wings, .objects] ⊆ M)
    (s : State) (n peer off : Nat) (data : Bytes) : rest M (complete s n peer off data) = rest M s := by
  simp only [List.cons_subset, List.nil_subset, and_true] at h
  unfold complete; dsimp only; split <;> simp [h]

/-! #### Rings and mirrors (R256, R292 to R295) -/

@[simp] theorem remoteData_rest {M : List Component} (h : [.fns, .tickets, .tiles, .qmem, .fabric, .keeper, .version, .wings, .objects] ⊆ M)
    (hd : MsgHdr) (ticket : Nat) (data : Bytes) (s : State) : rest M (remoteData hd ticket data s) = rest M s := by
  simp only [List.cons_subset, List.nil_subset, and_true] at h
  exact receiveHere_rest (by simp [h]) (fun u => complete_rest (by simp [h]) _ _ _ _ _) _ _ _
@[simp] theorem remoteRead_rest {M : List Component} (h : [.fns, .ports, .fabric, .keeper] ⊆ M)
    (hd : MsgHdr) (o addr len : Nat) (s : State) : rest M (remoteRead hd o addr len s) = rest M s := by
  simp only [List.cons_subset, List.nil_subset, and_true] at h
  exact receiveHere_rest (by simp [h]) (fun u => by dsimp only; split <;> simp [h]) _ _ _
@[simp] theorem ringBlock_rest {M : List Component}
    (h : [.fns, .tickets, .tiles, .qmem, .fabric, .keeper, .version, .wings, .objects, .rings] ⊆ M)
    (hd : MsgHdr) (w ticket leg step : Nat) (data : Bytes) (s : State) : rest M (ringBlock hd w ticket leg step data s) = rest M s := by
  simp only [List.cons_subset, List.nil_subset, and_true] at h
  exact receiveHere_rest (by simp [h]) (fun u => by dsimp only; split <;> simp [h]) _ _ _
@[simp] theorem ringDone_rest {M : List Component}
    (h : [.fns, .tickets, .tiles, .qmem, .fabric, .keeper, .version, .wings, .objects] ⊆ M)
    (hd : MsgHdr) (w ticket leg : Nat) (s : State) : rest M (ringDone hd w ticket leg s) = rest M s := by
  simp only [List.cons_subset, List.nil_subset, and_true] at h
  exact receiveHere_rest (by simp [h]) (fun u => by dsimp only; (repeat' split) <;> simp [h]) _ _ _
@[simp] theorem refuseMirror_rest {M : List Component} (h : [.keeper, .rings] ⊆ M) (s : State) (n i : Nat) (why : List Nat) :
    rest M (refuseMirror s n i why) = rest M s := by
  simp only [List.cons_subset, List.nil_subset, and_true] at h
  simp [refuseMirror, h]
@[simp] theorem newObj_rest {M : List Component} (h : .objects ∈ M) (s : State) (i : Nat) (x : Obj) :
    rest M (newObj s i x) = rest M s := by
  simp [newObj, h]
theorem storeMirror_rest {M : List Component} (h : [.keeper, .version, .objects, .rings] ⊆ M) {s t : State} {n i party off : Nat} {data : Bytes}
    (ht : storeMirror s n i party off data = some t) : rest M t = rest M s := by
  simp only [List.cons_subset, List.nil_subset, and_true] at h
  unfold storeMirror at ht
  dsimp only at ht
  split at ht
  · split at ht
    · cases ht; simp [h]
    · obtain ⟨p, -, rfl⟩ := Option.map_eq_some_iff.mp ht; simp [h]
  · obtain ⟨p, -, rfl⟩ := Option.map_eq_some_iff.mp ht; simp [h]
@[simp] theorem mirrorWrite_rest {M : List Component}
    (h : [.fns, .ports, .fabric, .keeper, .version, .wings, .objects, .rings] ⊆ M)
    (hd : MsgHdr) (i party : Nat) (data : Bytes) (s : State) : rest M (mirrorWrite hd i party data s) = rest M s := by
  simp only [List.cons_subset, List.nil_subset, and_true] at h
  unfold mirrorWrite
  dsimp only
  split
  · rfl
  · refine receiveHere_rest (by simp [h]) (fun u => ?_) _ _ _
    (repeat' split) <;> try simp [h]
    next hs => exact storeMirror_rest (by simp [h]) hs
@[simp] theorem continueRemirror_rest {M : List Component} (h : [.fns, .ports, .keeper, .rings] ⊆ M) (s : State) (n i off : Nat) :
    rest M (continueRemirror s n i off) = rest M s := by
  simp only [List.cons_subset, List.nil_subset, and_true] at h
  unfold continueRemirror; (repeat' split) <;> simp [h]
@[simp] theorem mirrorAck_rest {M : List Component}
    (h : [.fns, .ports, .fabric, .keeper, .version, .sessions, .longs, .wings, .objects, .rooms, .rings, .tally] ⊆ M)
    (hd : MsgHdr) (i : Nat) (s : State) : rest M (mirrorAck hd i s) = rest M s := by
  simp only [List.cons_subset, List.nil_subset, and_true] at h
  exact receiveHere_rest (by simp [h]) (fun u => by dsimp only; (repeat' split) <;> simp [h]) _ _ _
@[simp] theorem mirrorAckTimeout_rest {M : List Component}
    (h : [.fns, .ports, .keeper, .version, .sessions, .longs, .wings, .objects, .rooms, .rings, .tally] ⊆ M) (n i : Nat) (s : State) :
    rest M (mirrorAckTimeout n i s) = rest M s := by
  simp only [List.cons_subset, List.nil_subset, and_true] at h
  unfold mirrorAckTimeout; (repeat' split) <;> simp [h]

/-! #### Roll call (R20 to R28, R277 to R286, R358) -/

@[simp] theorem timeSplit_rest {M : List Component} (h : [.fns, .keeper] ⊆ M) (s : State) (peer stamp : Nat) :
    rest M (timeSplit s peer stamp) = rest M s := by
  simp only [List.cons_subset, List.nil_subset, and_true] at h
  simp [timeSplit, h]
@[simp] theorem hear_rest {M : List Component} (h : .clock ∈ M) (s : State) (peer stamp : Nat) :
    rest M (hear s peer stamp) = rest M s := by
  simp [hear, h]
@[simp] theorem entryTime_rest {M : List Component} (h : [.clock, .fns, .fabric, .keeper] ⊆ M) (s : State) (peer : Nat) (b : EntryBody) (near : Bool) :
    rest M (entryTime s peer b near) = rest M s := by
  simp only [List.cons_subset, List.nil_subset, and_true] at h
  unfold entryTime; dsimp only; (repeat' split) <;> simp [h]
@[simp] theorem forwardEntry_rest {M : List Component} (h : .ports ∈ M) (s : State) (hd : MsgHdr) (b : EntryBody) :
    rest M (forwardEntry s hd b) = rest M s := by
  simp [forwardEntry, h]
@[simp] theorem foreignSelf_rest {M : List Component}
    (h : [.tt, .fns, .tickets, .tiles, .fabric, .keeper, .version, .sessions, .longs, .wings, .objects, .rooms, .rings, .groups, .tally] ⊆ M)
    (s : State) : rest M (foreignSelf s) = rest M s := by
  simp only [List.cons_subset, List.nil_subset, and_true] at h
  simp [foreignSelf, h]
@[simp] theorem freshEntry_rest {M : List Component}
    (h : [.clock, .tt, .fns, .tickets, .tiles, .ports, .fabric, .keeper, .version, .sessions, .longs, .wings, .objects, .rooms, .rings, .groups,
      .tally] ⊆ M) (s : State) (hd : MsgHdr) (b : EntryBody) (near : Bool) : rest M (freshEntry s hd b near) = rest M s := by
  simp only [List.cons_subset, List.nil_subset, and_true] at h
  simp [freshEntry, h]
@[simp] theorem entry_rest {M : List Component}
    (h : [.clock, .tt, .fns, .tickets, .tiles, .ports, .fabric, .keeper, .version, .sessions, .longs, .wings, .objects, .rooms, .rings, .groups,
      .tally] ⊆ M) (hd : MsgHdr) (b : EntryBody) (near : Bool) (s : State) : rest M (entry hd b near s) = rest M s := by
  simp only [List.cons_subset, List.nil_subset, and_true] at h
  unfold entry; (repeat' split) <;> simp [h]
@[simp] theorem retryStuck_rest {M : List Component} (h : [.ports, .fabric] ⊆ M) (s : State) :
    rest M (retryStuck s) = rest M s := by
  simp only [List.cons_subset, List.nil_subset, and_true] at h
  unfold retryStuck
  exact (rest_foldl _ _ _ fun s k => by split <;> simp [h]).trans (State.modFabric_rest (by simp [h]) _ _)
@[simp] theorem retryRewrites_rest {M : List Component}
    (h : [.fns, .tiles, .cellar, .ports, .keeper, .version, .sessions, .longs, .wings, .objects, .rooms, .tally] ⊆ M) (s : State) :
    rest M (retryRewrites s) = rest M s := by
  simp only [List.cons_subset, List.nil_subset, and_true] at h
  simp [retryRewrites, h]
@[simp] theorem viewInstall_rest {M : List Component} (h : [.fns, .cellar, .ports, .keeper, .version, .sessions, .longs] ⊆ M) (s : State) (b : Nat) :
    rest M (viewInstall s b) = rest M s := by
  simp only [List.cons_subset, List.nil_subset, and_true] at h
  unfold viewInstall; dsimp only; (repeat' split) <;> simp [h]
@[simp] theorem viewChanged_rest {M : List Component}
    (h : [.tt, .fns, .tiles, .cellar, .ports, .fabric, .keeper, .version, .sessions, .longs, .wings, .objects, .rooms, .tally] ⊆ M)
    (s : State) (c : Nat) (old : List Nat) : rest M (viewChanged s c old) = rest M s := by
  simp only [List.cons_subset, List.nil_subset, and_true] at h
  simp [viewChanged, h]
@[simp] theorem tellSplits_rest {M : List Component} (h : [.fns, .keeper] ⊆ M) (s : State) (es : List HeardEntry) (old : List Nat) :
    rest M (tellSplits s es old) = rest M s := by
  simp only [List.cons_subset, List.nil_subset, and_true] at h
  simp [tellSplits, h]
@[simp] theorem formView_rest {M : List Component}
    (h : [.tt, .fns, .tiles, .cellar, .ports, .fabric, .keeper, .version, .sessions, .longs, .wings, .objects, .rooms, .tally] ⊆ M)
    (s : State) (es : List HeardEntry) (c : Nat) : rest M (formView s es c) = rest M s := by
  simp only [List.cons_subset, List.nil_subset, and_true] at h
  simp [formView, h]
@[simp] theorem accuseSilent_rest {M : List Component} (h : [.fns, .fabric, .keeper] ⊆ M) (s : State) :
    rest M (accuseSilent s) = rest M s := by
  simp only [List.cons_subset, List.nil_subset, and_true] at h
  simp [accuseSilent, h]
@[simp] theorem rollCallClose_rest {M : List Component}
    (h : [.clock, .tt, .fns, .tickets, .tiles, .cellar, .ports, .fabric, .keeper, .version, .sessions, .longs, .wings, .objects, .rooms, .rings,
      .groups, .tally] ⊆ M) (s : State) : rest M (rollCallClose s) = rest M s := by
  simp only [List.cons_subset, List.nil_subset, and_true] at h
  unfold rollCallClose; dsimp only; (repeat' split) <;> simp [closeHistories, closeRelock, ageRound, h]
@[simp] theorem modLed_fab_rest {M : List Component} (h : .fab ∈ M) (s : State) (f : Led → FabricParams) :
    rest M (s.modLed (fun l => { l with fab := f l })) = rest M s := rest_fab h s _
@[simp] theorem applyAllow_rest {M : List Component} (h : [.fns, .ports, .keeper] ⊆ M) (s : State) :
    rest M (applyAllow s) = rest M s := by
  simp only [List.cons_subset, List.nil_subset, and_true] at h
  unfold applyAllow
  exact rest_foldl _ _ _ fun s p => by (repeat' split) <;> simp [h]
@[simp] theorem applyParams_rest {M : List Component} (h : [.fns, .ports, .keeper, .fab] ⊆ M) (s : State) (n : FabricNext) :
    rest M (applyParams s n) = rest M s := by
  simp only [List.cons_subset, List.nil_subset, and_true] at h
  simp [applyParams, h]
@[simp] theorem fabricParamsApply_rest {M : List Component} (h : [.fns, .ports, .keeper, .fab] ⊆ M) (s : State) :
    rest M (fabricParamsApply s) = rest M s := by
  simp only [List.cons_subset, List.nil_subset, and_true] at h
  unfold fabricParamsApply; (repeat' split) <;> simp [h]

/-! #### Broadcasts, collectives and shards of other modules (R227, R285 to R289) -/

@[simp] theorem sinkData_rest {M : List Component} (h : .cellar ∈ M) (s : State) (ident source j : Nat) (last : Bool) :
    rest M (sinkData s ident source j last) = rest M s := by
  unfold sinkData; dsimp only; (repeat' split) <;> simp [h]
@[simp] theorem bcastData_rest {M : List Component} (h : [.fns, .cellar, .ports, .fabric, .keeper] ⊆ M)
    (hd : MsgHdr) (j : Nat) (last : Bool) (digest : Nat) (s : State) : rest M (bcastData hd j last digest s) = rest M s := by
  simp only [List.cons_subset, List.nil_subset, and_true] at h
  exact receiveHere_rest (by simp [h]) (fun u => by dsimp only; (repeat' split) <;> simp [h]) _ _ _
@[simp] theorem bcastAck_rest {M : List Component} (h : [.fns, .ports, .fabric, .keeper] ⊆ M)
    (hd : MsgHdr) (j : Nat) (s : State) : rest M (bcastAck hd j s) = rest M s := by
  simp only [List.cons_subset, List.nil_subset, and_true] at h
  exact receiveHere_rest (by simp [h]) (fun u => by dsimp only; split <;> simp [h]) _ _ _
@[simp] theorem blockDone_rest {M : List Component} (h : [.tickets, .tiles, .keeper, .version, .wings, .groups] ⊆ M) (s : State) (n : Nat) :
    rest M (blockDone s n) = rest M s := by
  simp only [List.cons_subset, List.nil_subset, and_true] at h
  unfold blockDone; split <;> simp [h]
@[simp] theorem stageBlock_rest {M : List Component} (h : [.objects, .groups] ⊆ M) (s : State) (n at_ count : Nat) (bytes : Bytes) :
    rest M (stageBlock s n at_ count bytes) = rest M s := by
  simp only [List.cons_subset, List.nil_subset, and_true] at h
  simp [stageBlock, h]
@[simp] theorem takeSums_rest {M : List Component} (h : [.tickets, .tiles, .ports, .keeper, .version, .wings, .objects, .groups] ⊆ M)
    (s : State) (n : Nat) (data : Bytes) : rest M (takeSums s n data) = rest M s := by
  simp only [List.cons_subset, List.nil_subset, and_true] at h
  unfold takeSums; dsimp only; split <;> simp [h]
@[simp] theorem takeResult_rest {M : List Component} (h : [.tickets, .tiles, .ports, .keeper, .version, .wings, .objects, .groups] ⊆ M)
    (s : State) (n : Nat) (data : Bytes) : rest M (takeResult s n data) = rest M s := by
  simp only [List.cons_subset, List.nil_subset, and_true] at h
  simp [takeResult, h]
@[simp] theorem reduceData_rest {M : List Component}
    (h : [.fns, .tickets, .tiles, .ports, .fabric, .keeper, .version, .wings, .objects, .groups] ⊆ M)
    (hd : MsgHdr) (back : Bool) (data : Bytes) (s : State) : rest M (reduceData hd back data s) = rest M s := by
  simp only [List.cons_subset, List.nil_subset, and_true] at h
  unfold reduceData
  extract_lets n g from_
  split
  · rfl
  · exact receiveHere_rest (by simp [h]) (fun u => by (repeat' split) <;> simp [h]) _ _ _
@[simp] theorem collectiveCommit_rest {M : List Component} (h : [.fns, .keeper, .version, .sessions, .longs, .objects, .groups] ⊆ M)
    (n : Nat) (s : State) : rest M (collectiveCommit n s) = rest M s := by
  simp only [List.cons_subset, List.nil_subset, and_true] at h
  unfold collectiveCommit; dsimp only; (repeat' split) <;> simp [h]
@[simp] theorem shardRequest_rest {M : List Component} (h : [.fns, .ports, .fabric, .keeper] ⊆ M)
    (hd : MsgHdr) (root j : Nat) (s : State) : rest M (shardRequest hd root j s) = rest M s := by
  simp only [List.cons_subset, List.nil_subset, and_true] at h
  exact receiveRouted_rest (by simp [h]) (fun u => by dsimp only; (repeat' split) <;> simp [h]) _ _ _ _
@[simp] theorem shardData_rest {M : List Component}
    (h : [.fns, .tiles, .cellar, .ports, .fabric, .keeper, .version, .sessions, .longs, .wings, .objects, .rooms, .tally] ⊆ M)
    (hd : MsgHdr) (k : Nat) (paced : Bool) (digest : Nat) (s : State) : rest M (shardData hd k paced digest s) = rest M s := by
  simp only [List.cons_subset, List.nil_subset, and_true] at h
  exact receiveRouted_rest (by simp [h]) (fun u => by dsimp only; (repeat' split) <;> simp [h]) _ _ _ _
@[simp] theorem notHeld_rest {M : List Component}
    (h : [.fns, .tiles, .cellar, .ports, .fabric, .keeper, .version, .sessions, .longs, .wings, .objects, .rooms, .tally] ⊆ M)
    (hd : MsgHdr) (k : Nat) (s : State) : rest M (notHeld hd k s) = rest M s := by
  simp only [List.cons_subset, List.nil_subset, and_true] at h
  exact receiveRouted_rest (by simp [h]) (fun u => by split <;> simp [skipHolder, h]) _ _ _ _

/-! #### Queues (R301 to R317) -/

@[simp] theorem stampPacket_rest {M : List Component} (h : .stamped ∈ M) (s : State) (k : Packet) :
    rest M (stampPacket s k) = rest M s :=
  rest_stamped h _ _
@[simp] theorem stopQueue_rest {M : List Component} (h : [.fns, .keeper, .sessions] ⊆ M) (s : State) (fn : Nat) :
    rest M (stopQueue s fn) = rest M s := by
  simp only [List.cons_subset, List.nil_subset, and_true] at h
  simp [stopQueue, h]
@[simp] theorem countFailure_rest {M : List Component} (h : [.fns, .keeper, .sessions] ⊆ M) (s : State) (fn : Nat) :
    rest M (countFailure s fn) = rest M s := by
  simp only [List.cons_subset, List.nil_subset, and_true] at h
  unfold countFailure; dsimp only; split <;> simp [h]
@[simp] theorem headerFailure_rest {M : List Component} (h : [.fns, .keeper, .sessions] ⊆ M) (s : State) (fn : Nat) :
    rest M (headerFailure s fn) = rest M s := by
  simp only [List.cons_subset, List.nil_subset, and_true] at h
  simp [headerFailure, h]
@[simp] theorem scanWords_rest {M : List Component} (h : [.fns, .stamped, .keeper, .sessions] ⊆ M) (fuel fn : Nat) (s : State) :
    rest M (scanWords fuel fn s) = rest M s := by
  simp only [List.cons_subset, List.nil_subset, and_true] at h
  induction fuel generalizing s with
  | zero => rfl
  | succ fuel ih => unfold scanWords; dsimp only; (repeat' split) <;> simp [ih, h]
@[simp] theorem takeWord_rest {M : List Component} (h : .fns ∈ M) (s : State) (fn v : Nat) :
    rest M (takeWord s fn v) = rest M s := by
  simp [takeWord, h]
@[simp] theorem scan_rest {M : List Component} (h : [.fns, .stamped, .keeper, .sessions] ⊆ M) (s : State) (fn : Nat) :
    rest M (scan s fn) = rest M s := scanWords_rest h _ _ _
@[simp] theorem doorbellFault_rest {M : List Component} (h : [.fns, .keeper] ⊆ M) (s : State) (fn : Nat) :
    rest M (doorbellFault s fn) = rest M s := by
  simp only [List.cons_subset, List.nil_subset, and_true] at h
  simp [doorbellFault, h]
@[simp] theorem ringFault_rest {M : List Component} (h : [.fns, .keeper] ⊆ M) (s : State) (fn : Nat) :
    rest M (ringFault s fn) = rest M s := by
  simp only [List.cons_subset, List.nil_subset, and_true] at h
  simp [ringFault, h]
@[simp] theorem doorbell_rest {M : List Component} (h : [.fns, .stamped, .keeper, .sessions] ⊆ M) (fn value : Nat) (words : List Nat) (s : State) :
    rest M (doorbell fn value words s) = rest M s := by
  simp only [List.cons_subset, List.nil_subset, and_true] at h
  unfold doorbell; dsimp only; (repeat' split) <;> simp [h]
@[simp] theorem replyHead_rest {M : List Component} (h : [.fns, .keeper] ⊆ M) (fn value : Nat) (s : State) :
    rest M (replyHead fn value s) = rest M s := by
  simp only [List.cons_subset, List.nil_subset, and_true] at h
  unfold replyHead; dsimp only; (repeat' split) <;> simp [h]
@[simp] theorem noticeHead_rest {M : List Component} (h : [.fns, .keeper] ⊆ M) (fn value : Nat) (s : State) :
    rest M (noticeHead fn value s) = rest M s := by
  simp only [List.cons_subset, List.nil_subset, and_true] at h
  unfold noticeHead; dsimp only; (repeat' split) <;> simp [h]
@[simp] theorem abandonWord_rest {M : List Component} (h : [.fns, .keeper, .sessions] ⊆ M) (s : State) (fn : Nat) :
    rest M (abandonWord s fn) = rest M s := by
  simp only [List.cons_subset, List.nil_subset, and_true] at h
  unfold abandonWord; dsimp only; (repeat' split) <;> simp [h]
@[simp] theorem windowWord_rest {M : List Component} (h : [.fns, .stamped, .keeper, .sessions] ⊆ M) (s : State) (fn v : Nat) :
    rest M (windowWord s fn v) = rest M s := by
  simp only [List.cons_subset, List.nil_subset, and_true] at h
  unfold windowWord; (repeat' split) <;> simp [h]
@[simp] theorem windowWrite_rest {M : List Component} (h : [.fns, .stamped, .keeper, .sessions] ⊆ M) (fn offset : Nat) (data : Bytes) (s : State) :
    rest M (windowWrite fn offset data s) = rest M s := by
  simp only [List.cons_subset, List.nil_subset, and_true] at h
  unfold windowWrite; dsimp only; (repeat' split) <;> simp [h]
@[simp] theorem returned_rest {M : List Component} (h : .mgmt ∈ M) (s : State) (b : Bytes) : rest M (returned s b) = rest M s :=
  State.modMgmt_rest h _ _
@[simp] theorem returnNotValid_rest {M : List Component} (h : .mgmt ∈ M) (s : State) (next reason : Nat) :
    rest M (returnNotValid s next reason) = rest M s := returned_rest h _ _
@[simp] theorem replyWindow_rest {M : List Component} (h : [.fns, .mgmt] ⊆ M) (fn width : Nat) (s : State) :
    rest M (replyWindow fn width s) = rest M s := by
  simp only [List.cons_subset, List.nil_subset, and_true] at h
  unfold replyWindow; dsimp only; (repeat' split) <;> simp [h]
@[simp] theorem noticeWindow_rest {M : List Component} (h : [.fns, .mgmt] ⊆ M) (fn width : Nat) (s : State) :
    rest M (noticeWindow fn width s) = rest M s := by
  simp only [List.cons_subset, List.nil_subset, and_true] at h
  unfold noticeWindow; dsimp only; (repeat' split) <;> simp [h]
@[simp] theorem arrivalTimeout_rest {M : List Component} (h : [.fns, .stamped, .keeper, .sessions] ⊆ M) (fn : Nat) (s : State) :
    rest M (arrivalTimeout fn s) = rest M s := by
  simp only [List.cons_subset, List.nil_subset, and_true] at h
  unfold arrivalTimeout; (repeat' split) <;> simp [h]

/-! #### Timers of host sessions (R326, R328, R331) -/

@[simp] theorem closeSession_rest {M : List Component} (h : .sessions ∈ M) (s : State) (k : Nat) :
    rest M (closeSession s k) = rest M s := by
  simp [closeSession, h]
@[simp] theorem gapNotice_rest {M : List Component} (h : [.fns, .keeper, .sessions] ⊆ M) (s : State) (k : Nat) (x : Session) :
    rest M (gapNotice s k x) = rest M s := by
  simp only [List.cons_subset, List.nil_subset, and_true] at h
  unfold gapNotice; (repeat' split) <;> simp [h]
@[simp] theorem gapSkip_rest {M : List Component} (h : [.stamped, .sessions] ⊆ M) (s : State) (k : Nat) (x : Session) :
    rest M (gapSkip s k x) = rest M s := by
  simp only [List.cons_subset, List.nil_subset, and_true] at h
  unfold gapSkip; (repeat' split) <;> simp [afterNumber_rest, h]
@[simp] theorem leaseExpiry_rest {M : List Component} (h : [.fns, .keeper, .sessions] ⊆ M) (s : State) (k : Nat) (x : Session) :
    rest M (leaseExpiry s k x) = rest M s := by
  unfold leaseExpiry; split
  · exact lapseSession_rest h _ _
  · rfl
@[simp] theorem lapseHoldExpiry_rest {M : List Component} (h : [.fns, .keeper, .sessions] ⊆ M) (s : State) (k : Nat) (x : Session) :
    rest M (lapseHoldExpiry s k x) = rest M s := by
  simp only [List.cons_subset, List.nil_subset, and_true] at h
  unfold lapseHoldExpiry; split <;> simp [h]
@[simp] theorem probationEnd_rest {M : List Component} (h : .sessions ∈ M) (s : State) (k : Nat) (x : Session) :
    rest M (probationEnd s k x) = rest M s := by
  unfold probationEnd; split <;> simp [h]
theorem rest_onSession {M : List Component} {fn session : Nat} {s t : State} {f : State → Nat → Session → State}
    (h : onSession fn session s (f s) = .next t) (hf : ∀ u k x, rest M (f u k x) = rest M u) : rest M t = rest M s := by
  unfold onSession at h
  split at h
  · rw [(onPart_next h).2]
    split
    · exact hf _ _ _
    · rfl
  · cases h

/-! #### What the rows of these families may change -/

theorem exec_keepsRest_link {i : Instr} {s t : State} (hf : familyOf i = .link) (h : exec i s = .next t) : keepsRest i s t := by
  cases i with
  | trainingPhaseDone p lanes =>
    exact keepsRest_of_rest (familyParts .link) rfl (rest_onPart h fun u => trainingPhaseDone_rest (by decide) _ _ _)
  | trainingPhaseOverrun p =>
    exact keepsRest_of_rest (familyParts .link) rfl (rest_onPart h fun u => trainingPhaseOverrun_rest (by decide) _ _)
  | trainingRetry p => exact keepsRest_of_rest (familyParts .link) rfl (rest_onPart h fun u => trainingRetry_rest (by decide) _ _)
  | hello p b => exact keepsRest_of_rest (familyParts .link) rfl (rest_onPart h fun u => helloFrame_rest (by decide) _ _ _)
  | laneLockLoss p lane locked =>
    exact keepsRest_of_rest (familyParts .link) rfl (rest_onPart h fun u => laneLockLoss_rest (by decide) _ _ _ _)
  | uncorrectableCodeword p locked =>
    exact keepsRest_of_rest (familyParts .link) rfl (rest_onPart h fun u => uncorrectableCodeword_rest (by decide) _ _ _)
  | dataFrame p f => exact keepsRest_of_rest (familyParts .link) rfl (rest_onPart h fun u => dataFrame_rest (by decide) _ _ _)
  | retryFrame p f => exact keepsRest_of_rest (familyParts .link) rfl (rest_onPart h fun u => retryFrame_rest (by decide) _ _ _)
  | idleFrame p f => exact keepsRest_of_rest (familyParts .link) rfl (rest_onPart h fun u => idleFrame_rest (by decide) _ _ _)
  | ackTimeout p => exact keepsRest_of_rest (familyParts .link) rfl (rest_onPart h fun u => ackTimeout_rest (by decide) _ _)
  | linkRetrainDone p ok =>
    exact keepsRest_of_rest (familyParts .link) rfl (rest_onPart h fun u => linkRetrainDone_rest (by decide) _ _ _)
  | relayTimeout p => exact keepsRest_of_rest (familyParts .link) rfl (rest_onPart h fun u => relayTimeout_rest (by decide) _ _)
  | _ => cases hf

theorem exec_keepsRest_message {i : Instr} {s t : State} (hf : familyOf i = .message) (h : exec i s = .next t) : keepsRest i s t := by
  cases i with
  | entry hd b near => exact keepsRest_of_rest (familyParts .message) rfl (rest_of_next h (entry_rest (by decide) _ _ _ _))
  | rollCallClose => exact keepsRest_of_rest (familyParts .message) rfl (rest_of_next h (rollCallClose_rest (by decide) _))
  | fabricParamsApply => exact keepsRest_of_rest (familyParts .message) rfl (rest_of_next h (fabricParamsApply_rest (by decide) _))
  | ringBlock hd w ticket leg step data =>
    exact keepsRest_of_rest (familyParts .message) rfl (rest_onPart h fun u => ringBlock_rest (by decide) _ _ _ _ _ _ _)
  | ringDone hd w ticket leg =>
    exact keepsRest_of_rest (familyParts .message) rfl (rest_onPart h fun u => ringDone_rest (by decide) _ _ _ _ _)
  | remoteData hd ticket data => exact keepsRest_of_rest (familyParts .message) rfl (rest_of_next h (remoteData_rest (by decide) _ _ _ _))
  | remoteRead hd o addr len =>
    exact keepsRest_of_rest (familyParts .message) rfl (rest_of_next h (remoteRead_rest (by decide) _ _ _ _ _))
  | mirrorWrite hd leg party data =>
    exact keepsRest_of_rest (familyParts .message) rfl (rest_of_next h (mirrorWrite_rest (by decide) _ _ _ _ _))
  | mirrorAck hd leg => exact keepsRest_of_rest (familyParts .message) rfl (rest_of_next h (mirrorAck_rest (by decide) _ _ _))
  | mirrorAckTimeout ring leg =>
    exact keepsRest_of_rest (familyParts .message) rfl (rest_of_next h (mirrorAckTimeout_rest (by decide) _ _ _))
  | _ => cases hf

theorem exec_keepsRest_exchange {i : Instr} {s t : State} (hf : familyOf i = .exchange) (h : exec i s = .next t) : keepsRest i s t := by
  cases i with
  | bcastData hd shard last digest =>
    exact keepsRest_of_rest (familyParts .exchange) rfl (rest_of_next h (bcastData_rest (by decide) _ _ _ _ _))
  | bcastAck hd shard => exact keepsRest_of_rest (familyParts .exchange) rfl (rest_of_next h (bcastAck_rest (by decide) _ _ _))
  | reduceData hd back data => exact keepsRest_of_rest (familyParts .exchange) rfl (rest_of_next h (reduceData_rest (by decide) _ _ _ _))
  | collectiveCommit n => exact keepsRest_of_rest (familyParts .exchange) rfl (rest_of_next h (collectiveCommit_rest (by decide) _ _))
  | shardRequest hd root shard =>
    exact keepsRest_of_rest (familyParts .exchange) rfl (rest_of_next h (shardRequest_rest (by decide) _ _ _ _))
  | shardData hd shard paced digest =>
    exact keepsRest_of_rest (familyParts .exchange) rfl (rest_of_next h (shardData_rest (by decide) _ _ _ _ _))
  | notHeld hd shard => exact keepsRest_of_rest (familyParts .exchange) rfl (rest_of_next h (notHeld_rest (by decide) _ _ _))
  | _ => cases hf

theorem exec_keepsRest_queue {i : Instr} {s t : State} (hf : familyOf i = .queue) (h : exec i s = .next t) : keepsRest i s t := by
  cases i with
  | cmdDoorbell fn value words =>
    exact keepsRest_of_rest (familyParts .queue) rfl (rest_onPart h fun u => doorbell_rest (by decide) _ _ _ _)
  | replyHeadWrite fn value => exact keepsRest_of_rest (familyParts .queue) rfl (rest_onPart h fun u => replyHead_rest (by decide) _ _ _)
  | noticeHeadWrite fn value =>
    exact keepsRest_of_rest (familyParts .queue) rfl (rest_onPart h fun u => noticeHead_rest (by decide) _ _ _)
  | cmdWindowWrite fn offset data =>
    exact keepsRest_of_rest (familyParts .queue) rfl (rest_onPart h fun u => windowWrite_rest (by decide) _ _ _ _)
  | replyWindowRead fn width =>
    exact keepsRest_of_rest (familyParts .queue) rfl (rest_onPart h fun u => replyWindow_rest (by decide) _ _ _)
  | noticeWindowRead fn width =>
    exact keepsRest_of_rest (familyParts .queue) rfl (rest_onPart h fun u => noticeWindow_rest (by decide) _ _ _)
  | packetArrivalTimeout fn =>
    exact keepsRest_of_rest (familyParts .queue) rfl (rest_onPart h fun u => arrivalTimeout_rest (by decide) _ _)
  | _ => cases hf

theorem exec_keepsRest_timer {i : Instr} {s t : State} (hf : familyOf i = .timer) (h : exec i s = .next t) : keepsRest i s t := by
  cases i with
  | gapNoticeTimeout fn session => exact keepsRest_of_rest (familyParts .timer) rfl (rest_onSession h (gapNotice_rest (by decide)))
  | gapSkipTimeout fn session => exact keepsRest_of_rest (familyParts .timer) rfl (rest_onSession h (gapSkip_rest (by decide)))
  | leaseExpiry fn session => exact keepsRest_of_rest (familyParts .timer) rfl (rest_onSession h (leaseExpiry_rest (by decide)))
  | lapseHoldExpiry fn session => exact keepsRest_of_rest (familyParts .timer) rfl (rest_onSession h (lapseHoldExpiry_rest (by decide)))
  | probationEnd fn session => exact keepsRest_of_rest (familyParts .timer) rfl (rest_onSession h (probationEnd_rest (by decide)))
  | _ => cases hf

/-- Settles O58. -/
theorem frameFabric : Obligations.FrameFabric := by
  intro i s t hf _ h
  simp only [List.mem_cons, List.not_mem_nil, or_false] at hf
  obtain hf | hf | hf | hf | hf := hf
  · exact exec_keepsRest_link hf h
  · exact exec_keepsRest_message hf h
  · exact exec_keepsRest_exchange hf h
  · exact exec_keepsRest_queue hf h
  · exact exec_keepsRest_timer hf h

end Sys2Proof.Machine
/-! ### Messages that are discarded (R273, R283) -/

namespace Sys2Proof.Machine

open Sys2Proof Sys2Proof.Safety

section
variable {s : State} {type : Nat} {h : MsgHdr}

/-- A message on a port that hears is bad where its checks fail or its hop limit is out of range. -/
theorem arrival_eq_bad (hp : h.port < 36) (hs : inService (s.port h.port) = true) (hm : mutedPort s h.port = false)
    (hbad : h.ok = false ∨ h.hop = 0 ∨ 16 < h.hop) : arrival s type h = .bad := by
  have hhears : (decide (36 ≤ h.port) || !inService (s.port h.port) || mutedPort s h.port) = false := by simp [hs, hm, hp]
  have hcheck : (!h.ok || decide (h.hop = 0 ∨ 16 < h.hop)) = true := by simpa using hbad
  unfold arrival
  rw [hhears, hcheck]; rfl

theorem arrival_ne_bad (hok : h.ok = true) (hlo : 1 ≤ h.hop) (hhi : h.hop ≤ 16) : arrival s type h ≠ .bad := by
  have hcheck : (!h.ok || decide (h.hop = 0 ∨ 16 < h.hop)) = false := by simp [hok]; omega
  unfold arrival
  rw [hcheck]
  (repeat' split) <;> simp_all

theorem receive_of_bad (f : State → State) (ha : arrival s type h = .bad) : receive s type h f = countMalformedMsg s h.port := by
  unfold receive; rw [ha]

theorem receive_of_seen (f : State → State) (ha : arrival s type h ≠ .bad) (hseen : seenBefore s type h = true) :
    receive s type h f = s := by
  unfold receive
  split
  · rfl
  · contradiction
  · rw [if_pos hseen]

/-- A mirror's write is received, or waits with its sender while a takeover move here reads the mirror set (R295). -/
theorem mirrorWrite_receives (h : MsgHdr) (leg party : Nat) (data : Bytes) (s : State) :
    (∃ f, mirrorWrite h leg party data s = receive s 0x0020 h f) ∨ arrival s 0x0020 h = .taken ∧ mirrorWrite h leg party data s = s := by
  unfold mirrorWrite
  dsimp only
  split
  · next hwait => exact .inr ⟨hwait.1, rfl⟩
  · exact .inl ⟨_, rfl⟩

/-- A collective's block is received, or waits with its sender while this member cannot go on (R289). -/
theorem reduceData_receives (h : MsgHdr) (back : Bool) (data : Bytes) (s : State) :
    (∃ f, reduceData h back data s = receive s 0x0040 h f) ∨ arrival s 0x0040 h = .taken ∧ reduceData h back data s = s := by
  unfold reduceData
  extract_lets n g from_
  split
  · next hwait => exact .inr ⟨hwait.1, rfl⟩
  · exact .inl ⟨_, rfl⟩

theorem receiveHere_receives (s : State) (type : Nat) (h : MsgHdr) (f : State → State) :
    ∃ g, receiveHere s type h f = receive s type h g := ⟨_, rfl⟩

theorem receiveRouted_receives (s : State) (type : Nat) (h : MsgHdr) (body : List Nat) (f : State → State) :
    ∃ g, receiveRouted s type h body f = receive s type h g := ⟨_, rfl⟩

/-- Every message row but ENTRY goes through the reception of R273; a write or a block that must wait with its sender is left alone
before that. -/
theorem exec_of_messageRow {i : Instr} (hrow : messageRow i = some (type, h)) (hw : namesWing i = true) :
    ∃ t, exec i s = .next t ∧ ((∃ f, t = receive s type h f) ∨ arrival s type h = .taken ∧ t = s) := by
  cases i with
  | ringBlock hd w ticket leg step data => cases hrow; exact ⟨_, if_pos (of_decide_eq_true hw), .inl (receiveHere_receives _ _ _ _)⟩
  | ringDone hd w ticket leg => cases hrow; exact ⟨_, if_pos (of_decide_eq_true hw), .inl (receiveHere_receives _ _ _ _)⟩
  | mirrorWrite hd leg party data => cases hrow; exact ⟨_, rfl, mirrorWrite_receives _ _ _ _ _⟩
  | reduceData hd back data => cases hrow; exact ⟨_, rfl, reduceData_receives _ _ _ _⟩
  | shardRequest hd root shard => cases hrow; exact ⟨_, rfl, .inl (receiveRouted_receives _ _ _ _ _)⟩
  | shardData hd shard paced digest => cases hrow; exact ⟨_, rfl, .inl (receiveRouted_receives _ _ _ _ _)⟩
  | notHeld hd shard => cases hrow; exact ⟨_, rfl, .inl (receiveRouted_receives _ _ _ _ _)⟩
  | mirrorAck | bcastData | bcastAck | remoteRead | remoteData => cases hrow; exact ⟨_, rfl, .inl (receiveHere_receives _ _ _ _)⟩
  | _ => cases hrow

theorem exec_of_bad {i : Instr} (hrow : messageRow i = some (type, h) ∨ ∃ b near, i = .entry h b near ∧ type = 1) (hw : namesWing i = true)
    (ha : arrival s type h = .bad) : exec i s = .next (countMalformedMsg s h.port) := by
  obtain hrow | ⟨b, near, rfl, rfl⟩ := hrow
  · obtain ⟨t, ht, ⟨f, rfl⟩ | ⟨htaken, -⟩⟩ := exec_of_messageRow hrow hw
    · rw [ht, receive_of_bad f ha]
    · exact absurd (ha.symm.trans htaken) (by decide)
  · exact congrArg Host.Outcome.next (show entry h b near s = _ by unfold entry; rw [ha])

theorem exec_of_seen {i : Instr} (hrow : messageRow i = some (type, h)) (hw : namesWing i = true) (ha : arrival s type h ≠ .bad)
    (hseen : seenBefore s type h = true) : exec i s = .next s := by
  obtain ⟨t, ht, ⟨f, rfl⟩ | ⟨-, rfl⟩⟩ := exec_of_messageRow (s := s) hrow hw
  · rw [ht, receive_of_seen f ha hseen]
  · exact ht

end

/-- Settles O53. -/
theorem messagesDiscarded : Obligations.MessagesDiscarded := by
  intro i type h s hrow hw hp hserv hmuted
  constructor
  · intro hbad peer hpeer n u
    have hx : exec i s = .next (if n = 16 then accuse u peer 1 else u) := by
      rw [exec_of_bad hrow hw (arrival_eq_bad hp hserv hmuted hbad), countMalformedMsg, hpeer]
    exact ⟨fun hn => hx.trans (congrArg _ (if_neg hn)), fun hn => hx.trans (congrArg _ (if_pos hn))⟩
  · intro htype hok hlo hhi hseen
    obtain hrow | ⟨b, near, -, rfl⟩ := hrow
    · exact exec_of_seen hrow hw (arrival_ne_bad hok hlo hhi) hseen
    · exact absurd rfl htype

end Sys2Proof.Machine
/-! ### Waylink ports (R266 to R276) -/

namespace Sys2Proof.Machine

open Sys2Proof Sys2Proof.Safety

/-! #### Reading ports where an operation leaves them alone -/

theorem port_of_rest {M : List Component} {s t : State} (h : rest M t = rest M s) (hM : Component.ports ∉ M) (q : Nat) : t.port q = s.port q :=
  congrArg (tget · q) (same_of_rest (c := .ports) h hM)

theorem eq_ports_of_rest {s t : State} (h : rest [.ports] t = rest [.ports] s) : t = { s with ports := t.ports } :=
  congrArg (fun u : State => { u with ports := t.ports }) (show { t with ports := default } = { s with ports := default } from h)

theorem onlyPorts_of_rest {s t : State} (h : rest [.fns, .ports, .keeper] t = rest [.fns, .ports, .keeper] s) : onlyPorts s t := by
  unfold onlyPorts
  exact congrArg (fun u : State => { u with ports := t.ports, keeper := t.keeper, fns := t.fns })
    (show { t with ports := default, keeper := default, fns := default } = { s with ports := default, keeper := default, fns := default } from h)

theorem eq_ports_fabric_of_rest {s t : State} (h : rest [.ports, .fabric] t = rest [.ports, .fabric] s) :
    t = { s with ports := t.ports, fabric := t.fabric } :=
  congrArg (fun u : State => { u with ports := t.ports, fabric := t.fabric })
    (show { t with ports := default, fabric := default } = { s with ports := default, fabric := default } from h)

theorem otherPorts_modPort (s : State) (p : Nat) (g : Port → Port) : otherPorts p s (s.modPort p g) := fun _ hq => State.modPort_ne _ _ hq

theorem settleRetrains_port (s : State) (q : Nat) : (settleRetrains s).port q = s.port q :=
  port_of_rest (settleRetrains_rest (List.Subset.refl _) s) (by decide) q

theorem notify_port (s : State) (type : Notice) (at_ : At) (body : List Nat) (q : Nat) : (notify s type at_ body).port q = s.port q :=
  port_of_rest (notify_rest (List.Subset.refl _) s type at_ body) (by decide) q

/-! #### Sending (R270, R271) -/

/-- A port with what it sends left out. -/
def outsideSending (x : Port) : Port :=
  { x with replay := [], wait := [], kept := [], nextMsg := 0, txNext := 0, credits := [], owed := [] }

theorem pumpFrames_outside (l : List TxFrame) (held : List Nat) (x : Port) : outsideSending (pumpFrames l held x) = outsideSending x := by
  induction l generalizing held x with
  | nil => rfl
  | cons f l ih =>
    unfold pumpFrames
    split
    · exact ih _ _
    · exact ih _ _

theorem pumpFrames_replay (l : List TxFrame) (held : List Nat) (x : Port) : x.replay <+: (pumpFrames l held x).replay := by
  induction l generalizing held x with
  | nil => exact List.prefix_rfl
  | cons f l ih =>
    unfold pumpFrames
    split
    · exact ih _ { x with wait := x.wait ++ [f] }
    · exact List.IsPrefix.trans (l₂ := x.replay ++ [{ f with seq := x.txNext, sends := 1 }]) (List.prefix_append _ _) (ih held { x with
        replay := x.replay ++ [{ f with seq := x.txNext, sends := 1 }], txNext := (x.txNext + 1) % 65536
        credits := tmod x.credits f.cls (· - 1), owed := terase x.owed f.cls })

theorem pump_outside (x : Port) : outsideSending (pump x) = outsideSending x := by
  unfold pump
  split
  · exact pumpFrames_outside _ _ { x with wait := [] }
  · rfl

theorem pump_replay (x : Port) : x.replay <+: (pump x).replay := by
  unfold pump
  split
  · exact pumpFrames_replay _ _ { x with wait := [] }
  · exact List.prefix_rfl

theorem pump_of_out {x : Port} (h : inService x = false) : pump x = x := by
  unfold pump; rw [h]; rfl

/-- A port's frames sent, or not where it is to send only IDLE frames. -/
theorem pumpPort_cases (s : State) (p : Nat) : pumpPort s p = s ∨ pumpPort s p = s.modPort p pump := by
  unfold pumpPort; split
  · exact .inl rfl
  · exact .inr rfl

theorem pumpPort_other (s : State) (p : Nat) : otherPorts p s (pumpPort s p) := by
  obtain h | h := pumpPort_cases s p
  · rw [h]; exact fun _ _ => rfl
  · rw [h]; exact otherPorts_modPort _ _ _

theorem pumpPort_outside (s : State) (p : Nat) : outsideSending ((pumpPort s p).port p) = outsideSending (s.port p) := by
  obtain h | h := pumpPort_cases s p
  · rw [h]
  · rw [h, State.modPort_self, pump_outside]

theorem pumpPort_replay (s : State) (p : Nat) : (s.port p).replay <+: ((pumpPort s p).port p).replay := by
  obtain h | h := pumpPort_cases s p
  · rw [h]
  · rw [h, State.modPort_self]; exact pump_replay _

theorem pumpPort_of_out {s : State} {p : Nat} (h : inService (s.port p) = false) : (pumpPort s p).port p = s.port p := by
  obtain hx | hx := pumpPort_cases s p
  · rw [hx]
  · rw [hx, State.modPort_self, pump_of_out h]

/-- A port changed, and what it may send then sent. -/
theorem pumpPort_modPort_other (s : State) (p : Nat) (g : Port → Port) : otherPorts p s (pumpPort (s.modPort p g) p) :=
  fun q hq => (pumpPort_other _ _ q hq).trans (otherPorts_modPort _ _ _ q hq)

theorem pumpPort_modPort_outside (s : State) (p : Nat) (g : Port → Port) :
    outsideSending ((pumpPort (s.modPort p g) p).port p) = outsideSending (g (s.port p)) := by
  rw [pumpPort_outside, State.modPort_self]

theorem pumpPort_modPort_replay (s : State) (p : Nat) (g : Port → Port) :
    (g (s.port p)).replay <+: ((pumpPort (s.modPort p g) p).port p).replay := by
  have h := pumpPort_replay (s.modPort p g) p
  rwa [State.modPort_self] at h

theorem sendOn_other (s : State) (p : Nat) (m : OutMsg) : otherPorts p s (sendOn s p m) := pumpPort_modPort_other _ _ _

theorem sendOn_outside (s : State) (p : Nat) (m : OutMsg) (q : Nat) : outsideSending ((sendOn s p m).port q) = outsideSending (s.port q) := by
  by_cases hq : q = p
  · subst hq; exact pumpPort_modPort_outside _ _ _
  · rw [sendOn_other s p m q hq]

theorem inService_of_outside {x y : Port} (h : outsideSending x = outsideSending y) : inService x = inService y := by
  have hst := congrArg Port.st h
  unfold inService
  rw [show x.st = y.st from hst]

/-! #### A port taken out of service (R268, R271, R276) -/

theorem inService_of_mem_trunk {s : State} {allowed peer q : Nat} (h : q ∈ trunk s allowed peer) : inService (s.port q) = true := by
  simp only [trunk, servicePorts, upTo, List.mem_filter] at h
  exact h.1.2

theorem mem_of_find?_orElse_head? {α : Type} {l : List α} {f : α → Bool} {a : α} (h : (l.find? f).orElse (fun _ => l.head?) = some a) :
    a ∈ l := by
  rcases hfind : l.find? f with _ | r
  · rw [hfind] at h; exact List.mem_of_mem_head? h
  · rw [hfind] at h; cases h; exact List.mem_of_find?_eq_some hfind

/-- A change of ports that leaves a port alone but for what it sends, and wholly while the port is out of service. -/
def SendsOnly (q : Nat) (s t : State) : Prop :=
  outsideSending (t.port q) = outsideSending (s.port q) ∧ (inService (s.port q) = false → t.port q = s.port q)

theorem sendsOnly_sendOn {s t : State} {q r : Nat} (h : SendsOnly q s t) (hr : inService (t.port r) = true) (m : OutMsg) :
    SendsOnly q s (sendOn t r m) := by
  obtain ⟨hout, hsame⟩ := h
  refine ⟨(sendOn_outside _ _ _ _).trans hout, fun hq => (sendOn_other _ _ _ q ?_).trans (hsame hq)⟩
  rintro rfl
  exact absurd (hr.symm.trans ((inService_of_outside hout).trans hq)) (by decide)

/-- What a lost port had not delivered changes only what ports in service send. -/
theorem resendKept_ports (s : State) (p : Nat) (peer : Option Nat) (l : List KeptMsg) (q : Nat) :
    SendsOnly q s (resendKept s p peer l) := by
  unfold resendKept
  split
  · exact ⟨rfl, fun _ => rfl⟩
  · refine List.foldlRecOn (motive := SendsOnly q s) _ _ ⟨rfl, fun _ => rfl⟩ fun t ht k _ => ?_
    dsimp only
    split
    next hr => exact sendsOnly_sendOn ht (inService_of_mem_trunk (List.mem_filter.mp (mem_of_find?_orElse_head? hr)).1) _
    next => exact ht

theorem dropPort_self (s : State) (p : Nat) {st : PortSt} (hst : inService (deadPort st (s.port p)) = false) :
    (dropPort s p st).port p = deadPort st (s.port p) := by
  have hself := State.modPort_self s p (deadPort st)
  exact ((resendKept_ports _ p _ _ p).2 (by rw [hself]; exact hst)).trans hself

theorem dropPort_other (s : State) {p q : Nat} (st : PortSt) (hq : q ≠ p) :
    outsideSending ((dropPort s p st).port q) = outsideSending (s.port q) := by
  have h := (resendKept_ports (s.modPort p (deadPort st)) p (s.port p).peer (s.port p).kept q).1
  rw [State.modPort_ne _ _ hq] at h
  exact h

theorem losePort_self (s : State) (p : Nat) : (losePort s p).port p = deadPort .down (s.port p) := by
  rw [losePort, settleRetrains_port, notify_port, dropPort_self _ _ rfl]

/-- A degraded port none of whose halves locks is lost (R268). -/
theorem degradePort_lost {s : State} {p locked : Nat} (h : keptHalf (s.port p) locked = none) : degradePort s p locked = losePort s p := by
  unfold degradePort; rw [h]

/-- A degraded port as it trains on the half it keeps (R268). -/
def halfPort (low : Bool) (x : Port) : Port := { trainPort x with narrow := true, lowHalf := low, lanes := 4 }

theorem degradePort_trains {s : State} {p locked : Nat} {low : Bool} (h : keptHalf (s.port p) locked = some low) :
    degradePort s p locked = notify (s.modPort p (halfPort low)) .portDegraded (atPort p) [p] := by
  unfold degradePort; rw [h]; rfl

theorem degradePort_halfPort {s : State} {p locked : Nat} {low : Bool} (h : keptHalf (s.port p) locked = some low) :
    (degradePort s p locked).port p = halfPort low (s.port p) := by
  rw [degradePort_trains h, notify_port, State.modPort_self]

/-! #### Frames received (R269 to R271) -/

theorem ackFrames_keeps (ack : Nat) (x : Port) :
    ackFrames ack x = { x with replay := (ackFrames ack x).replay, kept := (ackFrames ack x).kept } := by
  unfold ackFrames; split <;> rfl

/-- What any frame brings leaves the port outside what it sends alone. -/
theorem frameHeader_outside (f : Frame) (x : Port) : outsideSending (frameHeader f x) = outsideSending x := by
  unfold frameHeader takeCredits
  rw [ackFrames_keeps]
  rfl

theorem takeFrame_rx (f : Frame) (x : Port) : tget (takeFrame f x).rx f.cls =
    if f.last then [] else (if f.first then [] else tget x.rx f.cls) ++ [f.payload] := by
  unfold takeFrame
  dsimp only
  split
  · exact congrArg (Option.getD · default) (tlook_terase_self x.rx f.cls)
  · exact tget_tput_self _ _ _

theorem takeFrame_keeps (f : Frame) (x : Port) : (takeFrame f x).st = x.st ∧ (takeFrame f x).rxNext = (x.rxNext + 1) % 65536 := by
  unfold takeFrame
  dsimp only
  split <;> exact ⟨rfl, rfl⟩

theorem take_of_isPrefix {α : Type} {l r : List α} (h : l <+: r) : r.take l.length = l := (List.prefix_iff_eq_take.mp h).symm

end Sys2Proof.Machine
/-! ### The rows of a Waylink port (R267, R268, R271, R274) -/

namespace Sys2Proof.Machine

open Sys2Proof Sys2Proof.Safety

/-- What is left of a port when what it sends is left out. -/
theorem fields_of_outside {x y : Port} (h : outsideSending x = outsideSending y) :
    x.st = y.st ∧ x.retraining = y.retraining ∧ x.phase = y.phase ∧ x.peer = y.peer ∧ x.farPort = y.farPort ∧ x.rxNext = y.rxNext
      ∧ x.rx = y.rx ∧ x.discarded = y.discarded :=
  have field {α : Type} (f : Port → α) : f (outsideSending x) = f (outsideSending y) := congrArg f h
  ⟨field Port.st, field Port.retraining, field Port.phase, field Port.peer, field Port.farPort, field Port.rxNext, field Port.rx,
    field Port.discarded⟩

/-- What pumping after a change leaves of the fields that sending does not touch. -/
theorem pumpPort_modPort_fields (s : State) (p : Nat) (g : Port → Port) :
    let x := (pumpPort (s.modPort p g) p).port p
    let y := g (s.port p)
    x.st = y.st ∧ x.retraining = y.retraining ∧ x.phase = y.phase ∧ x.peer = y.peer ∧ x.farPort = y.farPort ∧ x.rxNext = y.rxNext
      ∧ x.rx = y.rx ∧ x.discarded = y.discarded :=
  fields_of_outside (pumpPort_modPort_outside s p g)

/-- What stays at the head of the replay buffer when what waits is sent behind it. -/
theorem pumpPort_modPort_take (s : State) (p : Nat) (g : Port → Port) {l : List TxFrame} (hl : (g (s.port p)).replay = l) :
    ((pumpPort (s.modPort p g) p).port p).replay.take l.length = l :=
  take_of_isPrefix (hl ▸ pumpPort_modPort_replay s p g)

theorem otherPorts_settle {p : Nat} {s t : State} (h : otherPorts p s t) : otherPorts p s (settleRetrains t) :=
  fun q hq => (settleRetrains_port t q).trans (h q hq)

theorem otherPorts_notify {p : Nat} {s t : State} (h : otherPorts p s t) (type : Notice) (at_ : At) (body : List Nat) :
    otherPorts p s (notify t type at_ body) :=
  fun q hq => (notify_port t type at_ body q).trans (h q hq)

section
variable {p : Nat} {s : State}

/-! #### Training (R267) -/

theorem trainingPhaseDone_done {lanes : Nat} (h : linkCompletes (.trainingPhaseDone p lanes) s = true) :
    ∃ t, exec (.trainingPhaseDone p lanes) s = .next t ∧ linkDone (.trainingPhaseDone p lanes) s t := by
  simp only [linkCompletes, Bool.and_eq_true, Bool.not_eq_true', decide_eq_true_eq] at h
  obtain ⟨⟨⟨hp, hst⟩, hret⟩, hphase⟩ := h
  have hgo : ¬ ((s.port p).st ≠ .training ∨ (s.port p).retraining = true) := by simp [hst, hret]
  have honly : onlyPorts s (trainingPhaseDone p lanes s) := onlyPorts_of_rest (trainingPhaseDone_rest (by decide) p lanes s)
  suffices hone : ((trainingPhaseDone p lanes s).port p).st = .training
      ∧ ((trainingPhaseDone p lanes s).port p).phase = (s.port p).phase + 1
      ∧ ((s.port p).phase = 3 → ((trainingPhaseDone p lanes s).port p).lanes = if (s.port p).narrow then 4 else lanes)
      ∧ otherPorts p s (trainingPhaseDone p lanes s) by
    obtain ⟨h1, h2, h3, h4⟩ := hone
    exact ⟨_, if_pos hp, h1, h2, h3, honly, h4⟩
  unfold trainingPhaseDone
  dsimp only
  rw [if_neg hgo]
  split
  next hearly =>
    rw [State.modPort_self]
    exact ⟨hst, rfl, fun h3 => by omega, otherPorts_modPort _ _ _⟩
  next hlate =>
    obtain ⟨h3, hw⟩ : (s.port p).phase = 3 ∧ (lanes = 8 ∨ lanes = 4) := by omega
    rw [if_pos ⟨h3, hw⟩]
    generalize (if (s.port p).narrow = true then 4 else lanes) = width
    split
    · rw [notify_port, State.modPort_self]
      exact ⟨hst, congrArg Nat.succ h3.symm, fun _ => rfl, otherPorts_notify (otherPorts_modPort _ _ _) _ _ _⟩
    · rw [State.modPort_self]
      exact ⟨hst, congrArg Nat.succ h3.symm, fun _ => rfl, otherPorts_modPort _ _ _⟩

theorem trainingPhaseOverrun_done (h : linkCompletes (.trainingPhaseOverrun p) s = true) :
    ∃ t, exec (.trainingPhaseOverrun p) s = .next t ∧ linkDone (.trainingPhaseOverrun p) s t := by
  simp only [linkCompletes, Bool.and_eq_true, Bool.not_eq_true', decide_eq_true_eq] at h
  obtain ⟨⟨hp, hst⟩, hret⟩ := h
  refine ⟨_, if_pos hp, ?_⟩
  have hself : (trainingPhaseOverrun p s).port p = { deadPort .down (s.port p) with retryAt := some (s.clock.count + 1000000) } := by
    rw [trainingPhaseOverrun, if_pos ⟨hst, by rw [hret]; rfl⟩, settleRetrains_port, State.modPort_self, dropPort_self _ _ rfl]
  unfold linkDone
  dsimp only
  rw [hself]
  exact ⟨rfl, rfl, rfl, rfl⟩

theorem trainingRetry_done (h : linkCompletes (.trainingRetry p) s = true) :
    ∃ t, exec (.trainingRetry p) s = .next t ∧ linkDone (.trainingRetry p) s t := by
  simp only [linkCompletes, Bool.and_eq_true, decide_eq_true_eq, Option.any_eq_true] at h
  obtain ⟨⟨hp, hst⟩, m, hm, hdue⟩ := h
  have ht : trainingRetry p s = s.modPort p trainPort := by
    unfold trainingRetry; rw [hm]; exact if_pos ⟨hst, hdue⟩
  refine ⟨_, if_pos hp, ?_⟩
  unfold linkDone
  dsimp only
  rw [ht, State.modPort_self]
  exact ⟨rfl, rfl, rfl, rfl, otherPorts_modPort _ _ _⟩

theorem hello_done {b : HelloBody} (h : linkCompletes (.hello p b) s = true) :
    ∃ t, exec (.hello p b) s = .next t ∧ linkDone (.hello p b) s t := by
  simp only [linkCompletes, Bool.and_eq_true, Bool.not_eq_true', decide_eq_true_eq] at h
  obtain ⟨⟨⟨hp, hst⟩, hret⟩, hphase⟩ := h
  refine ⟨_, if_pos hp, ?_⟩
  unfold linkDone helloFrame
  dsimp only
  rw [if_neg (by simp [hst, hret, hphase])]
  rcases holdWhy s b with _ | ⟨why, n⟩
  · dsimp only
    rw [settleRetrains_port]
    have hf := pumpPort_modPort_fields s p (fun x =>
      { x with st := if x.lanes = 4 then .degraded else .up, phase := 0, peer := some b.identity, farPort := b.port, rxNext := 0
               txNext := 0, replay := [], wait := x.replay ++ x.wait
               credits := ((List.range b.credits.length).zip b.credits).foldl (fun t c => tput t c.1 c.2) [] })
    obtain ⟨hfst, -, hfphase, hfpeer, hffar, hfrx, -⟩ := hf
    exact ⟨hfst, hfpeer, hffar, hfphase, hfrx, otherPorts_settle (pumpPort_modPort_other _ _ _)⟩
  · dsimp only
    rw [settleRetrains_port, notify_port, State.modPort_self]
    exact ⟨rfl, rfl, otherPorts_settle (otherPorts_notify (otherPorts_modPort _ _ _) _ _ _)⟩

/-! #### Degrading (R268) -/

theorem degradePort_onlyPorts {locked : Nat} {low : Bool} (h : keptHalf (s.port p) locked = some low) :
    onlyPorts s (degradePort s p locked) := by
  rw [degradePort_trains h]
  exact onlyPorts_of_rest ((notify_rest (by decide) _ _ _ _).trans (State.modPort_rest (by decide) _ _ _))

theorem degradePort_otherPorts {locked : Nat} {low : Bool} (h : keptHalf (s.port p) locked = some low) :
    otherPorts p s (degradePort s p locked) := by
  rw [degradePort_trains h]
  exact otherPorts_notify (otherPorts_modPort _ _ _) _ _ _

theorem laneLockLoss_done {lane locked : Nat} (h : linkCompletes (.laneLockLoss p lane locked) s = true) :
    ∃ t, exec (.laneLockLoss p lane locked) s = .next t ∧ linkDone (.laneLockLoss p lane locked) s t := by
  simp only [linkCompletes, Bool.and_assoc] at h
  obtain ⟨hp, hused⟩ := Bool.and_eq_true_iff.mp h
  have ht : laneLockLoss p lane locked s = degradePort s p (without locked (2 ^ lane)) := if_pos hused
  refine ⟨_, if_pos (of_decide_eq_true hp), ?_⟩
  unfold linkDone
  dsimp only
  rw [ht]
  rcases hk : keptHalf (s.port p) (without locked (2 ^ lane)) with _ | low
  · dsimp only
    rw [degradePort_lost hk, losePort_self]
    exact ⟨rfl, rfl⟩
  · dsimp only
    rw [degradePort_halfPort hk]
    exact ⟨rfl, rfl, rfl, rfl, degradePort_onlyPorts hk, degradePort_otherPorts hk⟩

/-- A port degraded counts what it counted, and trains or is down. -/
theorem degradePort_counts (s : State) (p locked : Nat) :
    ((degradePort s p locked).port p).uncorrected = (s.port p).uncorrected
      ∧ (((degradePort s p locked).port p).st = .training ∨ ((degradePort s p locked).port p).st = .down) := by
  rcases hk : keptHalf (s.port p) locked with _ | low
  · rw [degradePort_lost hk, losePort_self]; exact ⟨rfl, .inr rfl⟩
  · rw [degradePort_halfPort hk]; exact ⟨rfl, .inl rfl⟩

theorem uncorrectableCodeword_done {locked : Nat} (h : linkCompletes (.uncorrectableCodeword p locked) s = true) :
    ∃ t, exec (.uncorrectableCodeword p locked) s = .next t ∧ linkDone (.uncorrectableCodeword p locked) s t := by
  simp only [linkCompletes, Bool.and_eq_true, decide_eq_true_eq] at h
  obtain ⟨hp, hserv⟩ := h
  refine ⟨_, if_pos hp, ?_⟩
  unfold linkDone uncorrectableCodeword
  dsimp only
  rw [if_neg (by rw [hserv]; decide)]
  split
  next hmany =>
    obtain ⟨hcount, hst⟩ := degradePort_counts
      (s.modPort p (fun x => { x with uncorrected := (x.uncorrected + 1) % 2 ^ 64, uncorrectedAt := [] })) p locked
    rw [State.modPort_self] at hcount
    exact ⟨hcount, fun hfew => absurd hmany (by omega), fun _ => hst⟩
  next hfew =>
    rw [State.modPort_self]
    exact ⟨rfl, fun _ => ⟨rfl, rfl, otherPorts_modPort _ _ _⟩, fun hmany => absurd hmany hfew⟩

/-! #### Frames (R269 to R271) -/

/-- A frame's acknowledgement and credits change neither the port's state nor what it receives. -/
theorem frameHeader_fields (f : Frame) (x : Port) :
    (frameHeader f x).st = x.st ∧ (frameHeader f x).rxNext = x.rxNext ∧ (frameHeader f x).rx = x.rx ∧ (frameHeader f x).discarded = x.discarded := by
  obtain ⟨hst, -, -, -, -, hnext, hrx, hdisc⟩ := fields_of_outside (frameHeader_outside f x)
  exact ⟨hst, hnext, hrx, hdisc⟩

/-- What a DATA frame does to its port. -/
def dataTaken (muted : Bool) (f : Frame) (x : Port) : Port :=
  let x := frameHeader f x
  if f.seq ≠ x.rxNext then x
  else if muted then
    { x with rxNext := (x.rxNext + 1) % 65536, discarded := (x.discarded + 1) % 2 ^ 64, owed := tmod x.owed f.cls (· + 1) }
  else takeFrame f x

theorem dataFrame_eq {f : Frame} (hserv : inService (s.port p) = true) (hcrc : f.crcOk = true) :
    dataFrame p f s = pumpPort (s.modPort p (dataTaken (mutedPort s p) f)) p := by
  unfold dataFrame
  rw [if_neg (by rw [hserv, hcrc]; decide)]
  rfl

section
variable {muted : Bool} {f : Frame} {x : Port}

theorem dataTaken_of_wrong_number (h : f.seq ≠ x.rxNext) : dataTaken muted f x = frameHeader f x :=
  if_pos ((frameHeader_fields f x).2.1.symm ▸ h)

theorem dataTaken_of_muted (h : f.seq = x.rxNext) : dataTaken true f x = { frameHeader f x with
    rxNext := ((frameHeader f x).rxNext + 1) % 65536, discarded := ((frameHeader f x).discarded + 1) % 2 ^ 64
    owed := tmod (frameHeader f x).owed f.cls (· + 1) } :=
  if_neg (not_not_intro (h.trans (frameHeader_fields f x).2.1.symm))

theorem dataTaken_of_open (h : f.seq = x.rxNext) : dataTaken false f x = takeFrame f (frameHeader f x) :=
  if_neg (not_not_intro (h.trans (frameHeader_fields f x).2.1.symm))

theorem dataTaken_st : (dataTaken muted f x).st = x.st := by
  obtain ⟨hst, -⟩ := frameHeader_fields f x
  by_cases h : f.seq = x.rxNext
  · cases muted
    · rw [dataTaken_of_open h, (takeFrame_keeps _ _).1, hst]
    · rw [dataTaken_of_muted h]; exact hst
  · rw [dataTaken_of_wrong_number h, hst]

theorem dataTaken_rxNext (h : f.seq = x.rxNext) : (dataTaken muted f x).rxNext = (x.rxNext + 1) % 65536 := by
  obtain ⟨-, hnext, -⟩ := frameHeader_fields f x
  cases muted
  · rw [dataTaken_of_open h, (takeFrame_keeps _ _).2, hnext]
  · rw [dataTaken_of_muted h]; exact congrArg (fun n => (n + 1) % 65536) hnext

end

theorem dataFrame_done {f : Frame} (h : linkCompletes (.dataFrame p f) s = true) :
    ∃ t, exec (.dataFrame p f) s = .next t ∧ linkDone (.dataFrame p f) s t := by
  simp only [linkCompletes, Bool.and_eq_true, decide_eq_true_eq] at h
  obtain ⟨⟨hp, hserv⟩, hcrc⟩ := h
  obtain ⟨hst, -, -, -, -, hnext, hrx, hdisc⟩ := pumpPort_modPort_fields s p (dataTaken (mutedPort s p) f)
  obtain ⟨-, hhnext, hhrx, hhdisc⟩ := frameHeader_fields f (s.port p)
  have honly := eq_ports_of_rest (dataFrame_rest (by decide) p f s)
  refine ⟨_, if_pos hp, ?_⟩
  unfold linkDone
  dsimp only
  rw [dataFrame_eq hserv hcrc] at honly ⊢
  refine ⟨hst.trans dataTaken_st, honly, pumpPort_modPort_other _ _ _, fun hseq => ?_, fun hseq => ?_, fun hseq hm => ?_, fun hseq hm => ?_⟩
  · rw [hnext, hrx, dataTaken_of_wrong_number hseq]
    exact ⟨hhnext, hhrx⟩
  · rw [hnext, dataTaken_rxNext hseq]
  · rw [hdisc, hrx, hm, dataTaken_of_muted hseq, ← hhdisc, ← hhrx]
    exact ⟨rfl, rfl⟩
  · rw [hrx, hm, dataTaken_of_open hseq, takeFrame_rx, hhrx]

theorem idleFrame_done {f : Frame} (h : linkCompletes (.idleFrame p f) s = true) :
    ∃ t, exec (.idleFrame p f) s = .next t ∧ linkDone (.idleFrame p f) s t := by
  simp only [linkCompletes, Bool.and_eq_true, decide_eq_true_eq] at h
  obtain ⟨⟨hp, hserv⟩, hcrc⟩ := h
  obtain ⟨hst, -, -, -, -, hnext, hrx, -⟩ := pumpPort_modPort_fields s p (frameHeader f)
  obtain ⟨hhst, hhnext, hhrx, -⟩ := frameHeader_fields f (s.port p)
  have honly := eq_ports_of_rest (idleFrame_rest (List.mem_singleton_self _) p f s)
  have ht : idleFrame p f s = pumpPort (s.modPort p (frameHeader f)) p := if_neg (by rw [hserv, hcrc]; decide)
  refine ⟨_, if_pos hp, ?_⟩
  unfold linkDone
  dsimp only
  rw [ht] at honly ⊢
  exact ⟨hst.trans hhst, hnext.trans hhnext, hrx.trans hhrx, pumpPort_modPort_take _ _ _ rfl, honly, pumpPort_modPort_other _ _ _⟩

section
variable {x : Port} {f : TxFrame} {l : List TxFrame}

theorem resend_of_nil (h : x.replay = []) : resend x = x := by
  unfold resend; rw [h]

/-- A port whose oldest frame has gone out 8 times retrains. -/
theorem resend_of_many (h : x.replay = f :: l) (hmany : 8 ≤ f.sends) : resend x = { x with st := .training, retraining := true } := by
  unfold resend; rw [h]; exact if_pos hmany

theorem resend_of_few (h : x.replay = f :: l) (hfew : ¬ 8 ≤ f.sends) :
    resend x = { x with replay := x.replay.map (fun f => { f with sends := f.sends + 1 }) } := by
  unfold resend; rw [h]; exact if_neg hfew

end

theorem resend_rxNext (x : Port) : (resend x).rxNext = x.rxNext := by
  unfold resend
  split
  · rfl
  · split <;> rfl

/-- A port whose frames have been sent again meets `resent`, whatever it then sends behind them. -/
theorem resent_of_resend {x : Port} {t : State} (hst : (t.port p).st = (resend x).st) (hret : (t.port p).retraining = (resend x).retraining)
    (hrep : (resend x).replay <+: (t.port p).replay) (hstop : inService (resend x) = false → (t.port p).replay = (resend x).replay) :
    resent x t p := by
  unfold resent
  split
  next h => exact hst.trans (congrArg Port.st (resend_of_nil h))
  next f l h =>
    split
    next hmany =>
      rw [resend_of_many h hmany] at hst hret hstop
      exact ⟨hst, hret, hstop rfl⟩
    next hfew =>
      rw [resend_of_few h hfew] at hst hrep
      have htake := take_of_isPrefix hrep
      rw [List.length_map] at htake
      exact ⟨hst, htake⟩

theorem retryFrame_done {f : Frame} (h : linkCompletes (.retryFrame p f) s = true) :
    ∃ t, exec (.retryFrame p f) s = .next t ∧ linkDone (.retryFrame p f) s t := by
  simp only [linkCompletes, Bool.and_eq_true, decide_eq_true_eq] at h
  obtain ⟨⟨hp, hserv⟩, hcrc⟩ := h
  obtain ⟨hst, hret, -, -, -, hnext, -⟩ := pumpPort_modPort_fields s p (fun x => resend (frameHeader f x))
  obtain ⟨-, hhnext, -⟩ := frameHeader_fields f (s.port p)
  have honly := eq_ports_of_rest (retryFrame_rest (List.mem_singleton_self _) p f s)
  have ht : retryFrame p f s = pumpPort (s.modPort p (fun x => resend (frameHeader f x))) p := if_neg (by rw [hserv, hcrc]; decide)
  have hself := State.modPort_self s p (fun x => resend (frameHeader f x))
  refine ⟨_, if_pos hp, ?_⟩
  unfold linkDone
  dsimp only
  rw [ht] at honly ⊢
  refine ⟨resent_of_resend hst hret (pumpPort_modPort_replay s p (fun x => resend (frameHeader f x))) fun hout => ?_, honly,
    pumpPort_modPort_other _ _ _, hnext.trans ((resend_rxNext _).trans hhnext)⟩
  rw [pumpPort_of_out (by rw [hself]; exact hout), hself]

theorem ackTimeout_done (h : linkCompletes (.ackTimeout p) s = true) :
    ∃ t, exec (.ackTimeout p) s = .next t ∧ linkDone (.ackTimeout p) s t := by
  simp only [linkCompletes, Bool.and_eq_true, decide_eq_true_eq] at h
  obtain ⟨hp, hserv⟩ := h
  have ht : ackTimeout p s = s.modPort p resend := if_pos hserv
  have hself := State.modPort_self s p resend
  refine ⟨_, if_pos hp, ?_⟩
  unfold linkDone
  dsimp only
  rw [ht]
  refine ⟨resent_of_resend (by rw [hself]) (by rw [hself]) (by rw [hself]) (fun _ => by rw [hself]), rfl, otherPorts_modPort _ _ _⟩

/-! #### Retraining, and relayed messages given up (R271, R274) -/

theorem linkRetrainDone_done {ok : Bool} (h : linkCompletes (.linkRetrainDone p ok) s = true) :
    ∃ t, exec (.linkRetrainDone p ok) s = .next t ∧ linkDone (.linkRetrainDone p ok) s t := by
  simp only [linkCompletes, Bool.and_eq_true, decide_eq_true_eq] at h
  obtain ⟨⟨hp, hst⟩, hret⟩ := h
  have hgo : ¬ ((s.port p).st ≠ .training ∨ (!(s.port p).retraining) = true) := by simp [hst, hret]
  refine ⟨_, if_pos hp, ?_⟩
  unfold linkDone linkRetrainDone
  dsimp only
  rw [if_neg hgo]
  cases ok
  · refine ⟨fun h => absurd h (by decide), fun _ => ?_⟩
    rw [if_neg (by decide), losePort_self]
    exact ⟨rfl, rfl⟩
  · refine ⟨fun _ => ?_, fun h => absurd h (by decide)⟩
    rw [if_pos rfl, settleRetrains_port]
    obtain ⟨hfst, hfret, -⟩ := pumpPort_modPort_fields s p (fun x =>
      { x with st := if x.lanes = 4 then .degraded else .up, retraining := false, replay := x.replay.map (fun f => { f with sends := 1 }) })
    refine ⟨hfst, hfret, ?_, otherPorts_settle (pumpPort_modPort_other _ _ _)⟩
    rw [← List.length_map (as := (s.port p).replay) (fun f : TxFrame => { f with sends := 1 })]
    exact pumpPort_modPort_take _ _ _ rfl

@[simp] theorem modFabric_port (s : State) (g : Fabric → Fabric) (q : Nat) : (s.modFabric g).port q = s.port q := rfl

/-- What has waited too long leaves the port's queue, and the port's link alone. -/
theorem relayTimeout_ports (p : Nat) (s : State) :
    otherPorts p s (relayTimeout p s) ∧ ((relayTimeout p s).port p).replay = (s.port p).replay := by
  unfold relayTimeout
  simp only [otherPorts, modFabric_port, State.modPort_self, and_true]
  exact fun q hq => State.modPort_ne s _ hq

theorem relayTimeout_done (h : linkCompletes (.relayTimeout p) s = true) :
    ∃ t, exec (.relayTimeout p) s = .next t ∧ linkDone (.relayTimeout p) s t := by
  simp only [linkCompletes, decide_eq_true_eq] at h
  have honly := eq_ports_fabric_of_rest (relayTimeout_rest (List.Subset.refl _) p s)
  obtain ⟨hother, hreplay⟩ := relayTimeout_ports p s
  refine ⟨_, if_pos h, honly, hother, fun k => ?_, ?_, hreplay⟩
  · show k ∈ s.fabric.stuck.filter (fun k => !(decide (k.at_ + 1000 < s.clock.count))) ↔ _
    rw [List.mem_filter, Bool.not_eq_true', decide_eq_false_iff_not, Nat.not_lt]
  · exact Nat.le_trans (Nat.le_add_right _ _) (Nat.le_add_right _ _)

end

/-- Settles O13: each of the rows changes one port, and what follows it (what waits sent, a notice, a retrain settled) keeps that
change. -/
theorem linkRows : Obligations.LinkRows := by
  intro i s hi h
  cases i with
  | trainingPhaseDone => exact trainingPhaseDone_done h
  | trainingPhaseOverrun => exact trainingPhaseOverrun_done h
  | trainingRetry => exact trainingRetry_done h
  | hello => exact hello_done h
  | laneLockLoss => exact laneLockLoss_done h
  | uncorrectableCodeword => exact uncorrectableCodeword_done h
  | dataFrame => exact dataFrame_done h
  | retryFrame => exact retryFrame_done h
  | idleFrame => exact idleFrame_done h
  | ackTimeout => exact ackTimeout_done h
  | linkRetrainDone => exact linkRetrainDone_done h
  | relayTimeout => exact relayTimeout_done h
  | _ => cases hi

end Sys2Proof.Machine
/-! ### The fabric, collective and ring commands (Table 13.13) -/

namespace Sys2Proof.Machine

open Sys2Proof Sys2Proof.Safety

section
variable {h : CmdHdr} {p : Bytes} {host : HostRead} {s u : State}

/-! #### Queries -/

theorem ringStatus_done (hst : starts ringStatusCmd h p s = true) :
    moduleDone ringStatusCmd (.ringStatus h p) (taken ringStatusCmd h s) (kcp ringStatusCmd h p s) := by
  obtain ⟨k, hr, hn, -, hx, -⟩ := kcp_of_starts hst rfl
  rw [hx]
  exact answered_of_query hr hn rfl

theorem fabricStatus_done (hst : starts fabricStatusCmd h p s = true) :
    moduleDone fabricStatusCmd (.fabricStatus h p) (taken fabricStatusCmd h s) (kcp fabricStatusCmd h p s) := by
  obtain ⟨k, hr, hn, -, hx, -⟩ := kcp_of_starts hst rfl
  rw [hx]
  exact answered_of_query hr hn rfl

/-! #### fabric-set (R272, R358) -/

/-- Parameters replaced by those that a fabric-set gives (R358). -/
def paramsOf (n : FabricNext) (f : FabricParams) : FabricParams :=
  { interval := if n.interval = 0 then f.interval else n.interval, absenceM := if n.absenceM = 0 then f.absenceM else n.absenceM
    allow := n.allow.getD f.allow, next := none }

theorem applyParams_fab (s : State) (n : FabricNext) : (applyParams s n).led.fab = paramsOf n s.led.fab := by
  unfold applyParams
  dsimp only
  split
  · exact same_of_rest (c := .fab) (applyAllow_rest (List.Subset.refl _) _) (by decide)
  · rfl

/-- Parameters kept until their milepost. -/
def keepParams (n : FabricNext) (s : State) : State := s.modLed (fun l => { l with fab := { l.fab with next := some n } })

theorem keepParams_rest (n : FabricNext) (s : State) : rest [.fab] (keepParams n s) = rest [.fab] s :=
  rest_fab (by decide) s _

/-- What a fabric-set does: at once, or at the milepost that it names. -/
def fabricEffect (n : FabricNext) (s : State) : State := if n.at_ = 0 then applyParams s n else keepParams n s

theorem fabricSet_body {l : Option (List Nat)} (hread : allowRead u h p host = some l) (hbit : field p 5 1 < 2)
    (hwhen : field p 16 8 = 0 ∨ entryRefused u h.stamp (field p 16 8) = none) :
    (fabricSetCmd host).body u h p = .commit (fabricEffect (fabricAsked p l)) .ok [] := by
  unfold fabricSetCmd
  dsimp -zeta only
  extract_lets n replaces list
  have hlist : list = some (l.getD []) ∧ (if replaces then some (l.getD []) else none) = l := by
    unfold allowRead at hread
    by_cases hkeeps : field p 5 1 = 0
    · rw [if_pos hkeeps] at hread
      cases hread
      simp [list, replaces, hkeeps]
    · have hreplaces : field p 5 1 = 1 := by omega
      rw [if_neg hkeeps] at hread
      by_cases hempty : field p 6 2 = 0
      · rw [if_pos hempty] at hread
        cases hread
        simp [list, replaces, n, hreplaces, hempty]
      · rw [if_neg hempty] at hread
        obtain ⟨b, hb, rfl⟩ := Option.map_eq_some_iff.mp hread
        obtain ⟨hbytes, hlen⟩ := Option.filter_eq_some_iff.mp hb
        simp [list, replaces, n, hreplaces, hempty, hbytes, of_decide_eq_true hlen]
  obtain ⟨hlist, hallow⟩ := hlist
  rw [hlist]
  dsimp only
  rw [hallow]
  unfold fabricEffect fabricAsked
  by_cases hnow : field p 16 8 = 0
  · simp only [hnow, if_true]
  · simp only [hnow, if_false, hwhen.resolve_left hnow]
    rfl

theorem fabricSet_done (hst : starts (fabricSetCmd host) h p s = true)
    (hrules : moduleRules (.fabricSet h p host) (taken (fabricSetCmd host) h s) = true) :
    moduleDone (fabricSetCmd host) (.fabricSet h p host) (taken (fabricSetCmd host) h s) (kcp (fabricSetCmd host) h p s) := by
  obtain ⟨k, hr, hn, -, hx, -⟩ := kcp_of_starts hst rfl
  have hparse : fabricSetParse p = true := parse_of_starts hst
  simp only [fabricSetParse, Bool.and_eq_true, decide_eq_true_eq] at hparse
  obtain ⟨⟨-, hbit, -⟩, -⟩ := hparse
  simp only [moduleRules, Bool.and_eq_true, Bool.or_eq_true, decide_eq_true_eq] at hrules
  obtain ⟨hread, hwhen⟩ := hrules
  rw [hx]
  generalize taken (fabricSetCmd host) h s = u at *
  obtain ⟨l, hl⟩ := Option.isSome_iff_exists.mp hread
  have hb := fabricSet_body hl hbit hwhen
  have hbefore : rest [.version, .sessions, .fns] (committing (fabricSetCmd host) h u .ok []) = rest _ u :=
    committing_rest hr (List.Subset.refl _)
  have hfab := same_of_rest (c := .fab) hbefore (by decide)
  refine ⟨l, hl, ?_⟩
  by_cases hnow : field p 16 8 = 0
  · have heffect : fabricEffect (fabricAsked p l) = fun s => applyParams s (fabricAsked p l) := funext fun _ => if_pos hnow
    rw [heffect] at hb
    have hkept := applyParams_rest (List.Subset.refl _) (committing (fabricSetCmd host) h u .ok []) (fabricAsked p l)
    have hrest := kExecute_commit_rest (M := [.sessions, .stamped]) hr hn hb rfl (by decide)
    refine ⟨committed_of_effect hr hn hb rfl hkept (by decide), fun _ => ?_, fun hlater => absurd hnow hlater⟩
    exact (same_of_rest (c := .fab) hrest (by decide)).trans ((applyParams_fab _ _).trans (congrArg (paramsOf (fabricAsked p l)) hfab))
  · have heffect : fabricEffect (fabricAsked p l) = keepParams (fabricAsked p l) := funext fun _ => if_neg hnow
    rw [heffect] at hb
    have hkept := keepParams_rest (fabricAsked p l) (committing (fabricSetCmd host) h u .ok [])
    have hrest := kExecute_commit_rest (M := [.sessions, .stamped]) hr hn hb rfl (by decide)
    refine ⟨committed_of_effect hr hn hb rfl hkept (by decide), fun h0 => absurd h0 hnow, fun _ => ⟨?_, ?_⟩⟩
    · exact (same_of_rest (c := .fab) hrest (by decide)).trans
        (congrArg (fun f : FabricParams => { f with next := some (fabricAsked p l) }) hfab)
    · exact (same_of_rest (c := .ports) hrest (by decide)).trans
        ((same_of_rest (c := .ports) hkept (by decide)).trans (same_of_rest (c := .ports) hbefore (by decide)))

/-! #### collective-set, collective-post (R287, R289, R359) -/

/-- A group as a collective-set sets it. -/
def groupSet (p : Bytes) (g : Group) : Group := { (default : Group) with live := true, gen := g.gen + 1, members := groupMembers p }

theorem collectiveSet_body (hrules : moduleRules (.collectiveSet h p) u = true) : collectiveSetCmd.body u h p =
    .commit (fun s => s.modGroup (field p 0 4) (groupSet p)) .ok (leBytes 4 (field p 0 4) ++ leBytes 4 ((u.group (field p 0 4)).gen + 1)) := by
  simp only [moduleRules, Bool.and_eq_true] at hrules
  obtain ⟨⟨⟨hmember, hview⟩, hchain⟩, hpost⟩ := hrules
  unfold collectiveSetCmd
  dsimp only
  rw [if_neg (by rw [hmember]; decide), if_neg (by simpa using hview), if_neg (by rw [hchain]; decide),
    if_neg (by simpa using hpost)]
  rfl

theorem collectiveSet_done (hst : starts collectiveSetCmd h p s = true)
    (hrules : moduleRules (.collectiveSet h p) (taken collectiveSetCmd h s) = true) :
    moduleDone collectiveSetCmd (.collectiveSet h p) (taken collectiveSetCmd h s) (kcp collectiveSetCmd h p s) := by
  obtain ⟨k, hr, hn, -, hx, -⟩ := kcp_of_starts hst rfl
  rw [hx]
  generalize taken collectiveSetCmd h s = u at *
  have hb := collectiveSet_body hrules
  have hrest := kExecute_commit_rest (M := [.sessions, .stamped]) hr hn hb rfl (by decide)
  have hgroup (k : Nat) := group_of_rest (committing_rest (c := collectiveSetCmd) (h := h) (st := .ok)
    (b := leBytes 4 (field p 0 4) ++ leBytes 4 ((u.group (field p 0 4)).gen + 1)) hr (List.Subset.refl _)) (by decide) k
  have hown : (kExecute collectiveSetCmd k true u).group (field p 0 4) = groupSet p (u.group (field p 0 4)) := by
    rw [group_of_rest hrest (by decide), State.modGroup_self, hgroup]
  refine ⟨committed_of_effect (M := [.groups]) hr hn hb rfl (State.modGroup_rest (by decide) _ _ _) (by decide), ?_, ?_, ?_, ?_, fun j hj => ?_⟩
  · rw [hown]; rfl
  · rw [hown]; rfl
  · rw [hown]; rfl
  · rw [hown]; rfl
  · rw [group_of_rest hrest (by decide), State.modGroup_ne _ _ hj, hgroup]

/-- The COLLECTIVE entry of a post. -/
def postEntry (n : Nat) (g : Group) : TtEntry := { mp := g.start, cls := .collective, wing := some g.wing, arg := n, late := false }

/-- A group's post made, and its entry set (R289). -/
def postGroup (n : Nat) (g : Group) (s : State) : State := setEntry (s.modGroup n (fun _ => g)) (postEntry n g)

theorem postGroup_rest (n : Nat) (g : Group) (s : State) : rest [.tt, .groups] (postGroup n g s) = rest [.tt, .groups] s :=
  (setEntry_rest (by decide) _ _).trans (State.modGroup_rest (by decide) _ _ _)

theorem postGroup_self (n : Nat) (g : Group) (s : State) : (postGroup n g s).group n = g := State.modGroup_self s n _

theorem postGroup_ne {n j : Nat} (g : Group) (s : State) (hj : j ≠ n) : (postGroup n g s).group j = s.group j := State.modGroup_ne s _ hj

theorem postGroup_entry (n : Nat) (g : Group) (s : State) : postEntry n g ∈ (postGroup n g s).tt.entries :=
  List.mem_append_right _ (List.mem_singleton.mpr rfl)

theorem collectivePost_body (hrules : moduleRules (.collectivePost h p) u = true) : collectivePostCmd.body u h p =
    .long (postGroup (field p 0 4) (postedGroup h p (u.group (field p 0 4)))) .accepted [] none := by
  simp only [moduleRules, Bool.and_eq_true, decide_eq_true_eq] at hrules
  obtain ⟨⟨⟨⟨hwing, hpost⟩, hwhole⟩, hshape⟩, hentry⟩ := hrules
  unfold collectivePostCmd
  dsimp only
  generalize postedGroup h p (u.group (field p 0 4)) = g at *
  simp only [List.all_cons, List.all_nil, Bool.and_true, Bool.and_eq_true, decide_eq_true_eq] at hwhole
  obtain ⟨⟨hs1, hs2⟩, ⟨hd1, hd2⟩, hg1, hg2⟩ := hwhole
  rw [if_neg (by rw [hwing]; decide), if_neg (by simpa using hpost), if_neg (by simp [hs1, hd1, hg1]), if_neg (by simp [hs2, hd2, hg2]),
    if_neg (by rw [hshape]; decide), hentry]
  rfl

theorem collectivePost_done (hst : starts collectivePostCmd h p s = true)
    (hrules : moduleRules (.collectivePost h p) (taken collectivePostCmd h s) = true) :
    moduleDone collectivePostCmd (.collectivePost h p) (taken collectivePostCmd h s) (kcp collectivePostCmd h p s) := by
  obtain ⟨k, hr, hn, hl, hx, -⟩ := kcp_of_starts hst rfl
  rw [hx]
  generalize taken collectivePostCmd h s = u at *
  have hb := collectivePost_body hrules
  have hrest := kExecute_long_rest (M := [.sessions, .stamped]) hr hn (hl rfl) hb (by decide)
  have hbefore : rest [.version, .sessions, .longs, .fns] (accepting collectivePostCmd h u .accepted []) = rest _ u :=
    accepting_rest hr (List.Subset.refl _)
  have hown : (kExecute collectivePostCmd k true u).group (field p 0 4) = postedGroup h p (u.group (field p 0 4)) := by
    rw [group_of_rest hrest (by decide), postGroup_self]
  have hentry := postGroup_entry (field p 0 4) (postedGroup h p (u.group (field p 0 4))) (accepting collectivePostCmd h u .accepted [])
  rw [← same_of_rest (c := .tt) hrest (by decide)] at hentry
  refine ⟨accepted1_of_long hr hn (hl rfl) hb (postGroup_rest _ _ _) (by decide), hown, ?_, ⟨_, hentry, rfl, rfl, rfl⟩, fun j hj => ?_⟩
  · rw [hown]; rfl
  · rw [group_of_rest hrest (by decide), postGroup_ne _ _ hj, group_of_rest hbefore (by decide)]

end

/-! #### ring-set (R291, R295, R359) -/

/-- What a ring-set gives a ring, as against the state of its legs. -/
def descriptor (r : Ring) : Bool × Nat × Nat × List Leg := (r.live, r.gen, r.wing, r.legs)

/-- A change of rings that leaves every descriptor, and every ring but one. -/
def DescriptorsKept (n : Nat) (s t : State) : Prop := descriptor (t.ring n) = descriptor (s.ring n) ∧ ∀ k, k ≠ n → t.ring k = s.ring k

section
variable {n : Nat} {s t u : State}

theorem DescriptorsKept.trans (h : DescriptorsKept n s t) (h' : DescriptorsKept n t u) : DescriptorsKept n s u :=
  ⟨h'.1.trans h.1, fun k hk => (h'.2 k hk).trans (h.2 k hk)⟩

theorem ring_of_rest {M : List Component} (h : rest M t = rest M s) (hM : Component.rings ∉ M) (k : Nat) : t.ring k = s.ring k :=
  congrArg (tget · k) (same_of_rest (c := .rings) h hM)

theorem descriptorsKept_of_rest {M : List Component} (h : rest M t = rest M s) (hM : Component.rings ∉ M) : DescriptorsKept n s t :=
  ⟨congrArg descriptor (ring_of_rest h hM n), fun k _ => ring_of_rest h hM k⟩

theorem descriptorsKept_modRing {g : Ring → Ring} (hg : ∀ r, descriptor (g r) = descriptor r) : DescriptorsKept n s (s.modRing n g) :=
  ⟨by rw [State.modRing_self, hg], fun _ hk => State.modRing_ne _ _ hk⟩

theorem sendMirror_descriptors (i o off : Nat) : DescriptorsKept n s (sendMirror s n i o off) := by
  unfold sendMirror
  dsimp only
  split
  · exact descriptorsKept_of_rest (M := []) rfl (by decide)
  · refine (descriptorsKept_modRing ?_).trans (descriptorsKept_of_rest (sendTrunk_rest (List.mem_singleton_self _) _ _ _ _) (by decide))
    exact fun _ => rfl

theorem remirrorDone_descriptors (i : Nat) : DescriptorsKept n s (remirrorDone s n i) := by
  refine (descriptorsKept_modRing ?_).trans (descriptorsKept_of_rest (notify_rest (List.Subset.refl _) _ _ _ _) (by decide))
  exact fun _ => rfl

theorem startRemirror_descriptors (i : Nat) : DescriptorsKept n s (startRemirror n s i) := by
  have hrefl : DescriptorsKept n s s := descriptorsKept_of_rest (M := []) rfl (by decide)
  unfold startRemirror
  dsimp only
  split
  · exact hrefl
  · split
    · exact hrefl
    · split
      · split
        · exact remirrorDone_descriptors i
        · exact sendMirror_descriptors i _ 0
      · exact descriptorsKept_modRing fun _ => rfl

theorem startRemirrors_descriptors (s : State) (n : Nat) : DescriptorsKept n s (startRemirrors s n) := by
  unfold startRemirrors
  exact List.foldlRecOn (motive := DescriptorsKept n s) _ _ (descriptorsKept_of_rest (M := []) rfl (by decide))
    fun t ht i _ => ht.trans (startRemirror_descriptors i)

theorem setRing_self (n w : Nat) (legs : List Leg) (s : State) :
    descriptor ((setRing n w legs s).ring n) = (true, (s.ring n).gen + 1, w, legs) := by
  unfold setRing
  extract_lets old base r same mine r' gone
  have hr : descriptor r' = (true, (s.ring n).gen + 1, w, legs) := by
    unfold r'
    split <;> rfl
  rw [ring_of_rest (rest_foldl (M := [.objects]) _ _ _ fun s o => freeObj_rest (by decide) s o) (by decide), State.modRing_self, hr]

theorem setRing_ne {n k : Nat} (w : Nat) (legs : List Leg) (s : State) (hk : k ≠ n) : (setRing n w legs s).ring k = s.ring k := by
  unfold setRing
  dsimp only
  rw [ring_of_rest (rest_foldl (M := [.objects]) _ _ _ fun s o => freeObj_rest (by decide) s o) (by decide), State.modRing_ne _ _ hk]

theorem setRing_rest (n w : Nat) (legs : List Leg) (s : State) : rest [.objects, .rings] (setRing n w legs s) = rest [.objects, .rings] s := by
  unfold setRing
  dsimp only
  rw [rest_foldl _ _ _ fun s o => freeObj_rest (by decide) s o, State.modRing_rest (by decide)]

end

/-- A ring set, and the re-mirrors that it asks for begun (R291, R295). -/
def ringSetTo (n w : Nat) (legs : List Leg) (s : State) : State := startRemirrors (setRing n w legs s) n

theorem ringSetTo_rest (n w : Nat) (legs : List Leg) (s : State) :
    rest [.fns, .ports, .keeper, .rings, .objects] (ringSetTo n w legs s) = rest [.fns, .ports, .keeper, .rings, .objects] s :=
  (startRemirrors_rest (by decide) _ _).trans (rest_mono (setRing_rest n w legs s) (by decide))

theorem ringSetTo_self (n w : Nat) (legs : List Leg) (s : State) :
    descriptor ((ringSetTo n w legs s).ring n) = (true, (s.ring n).gen + 1, w, legs) :=
  (startRemirrors_descriptors _ n).1.trans (setRing_self n w legs s)

theorem ringSetTo_ne {n k : Nat} (w : Nat) (legs : List Leg) (s : State) (hk : k ≠ n) : (ringSetTo n w legs s).ring k = s.ring k :=
  ((startRemirrors_descriptors _ n).2 k hk).trans (setRing_ne w legs s hk)

section
variable {h : CmdHdr} {p : Bytes} {host : HostRead} {s u : State}

theorem ringSet_body {l : List Leg} (hl : legsRead u h p host = some l) (hrules : moduleRules (.ringSet h p host) u = true) :
    (ringSetCmd host).body u h p = .commit (ringSetTo (field p 0 4) (field p 8 1) l) .ok
      (leBytes 4 (field p 0 4) ++ leBytes 4 ((u.ring (field p 0 4)).gen + 1)) := by
  simp only [moduleRules, hl, Option.any_some, Bool.and_eq_true, Bool.not_eq_true'] at hrules
  obtain ⟨⟨⟨hmember, hview⟩, hcycle⟩, hused⟩ := hrules
  unfold legsRead at hl
  obtain ⟨b, hb, rfl⟩ := Option.map_eq_some_iff.mp hl
  obtain ⟨hbytes, hlen⟩ := Option.filter_eq_some_iff.mp hb
  unfold ringSetCmd
  dsimp only
  rw [hbytes]
  dsimp only
  rw [if_neg (not_not_intro (of_decide_eq_true hlen)), if_neg (by rw [hmember]; decide), if_neg (by simpa using hview),
    if_neg (by rw [hcycle]; decide), if_neg (by rw [hused]; decide)]
  rfl

theorem ringSet_done (hst : starts (ringSetCmd host) h p s = true)
    (hrules : moduleRules (.ringSet h p host) (taken (ringSetCmd host) h s) = true) :
    moduleDone (ringSetCmd host) (.ringSet h p host) (taken (ringSetCmd host) h s) (kcp (ringSetCmd host) h p s) := by
  obtain ⟨k, hr, hn, -, hx, -⟩ := kcp_of_starts hst rfl
  rw [hx]
  generalize taken (ringSetCmd host) h s = u at *
  obtain ⟨l, hl, -⟩ := (Option.any_eq_true _ _).mp (Bool.and_eq_true_iff.mp hrules).1
  have hb := ringSet_body hl hrules
  have hrest := kExecute_commit_rest (M := [.sessions, .stamped]) hr hn hb rfl (by decide)
  have hring (k : Nat) := ring_of_rest (committing_rest (c := ringSetCmd host) (h := h) (st := .ok)
    (b := leBytes 4 (field p 0 4) ++ leBytes 4 ((u.ring (field p 0 4)).gen + 1)) hr (List.Subset.refl _)) (by decide) k
  have hown : descriptor ((kExecute (ringSetCmd host) k true u).ring (field p 0 4)) =
      (true, (u.ring (field p 0 4)).gen + 1, field p 8 1, l) := by
    rw [ring_of_rest hrest (by decide), ringSetTo_self, hring]
  simp only [descriptor, Prod.mk.injEq] at hown
  obtain ⟨hlive, hgen, hwing, hlegs⟩ := hown
  refine ⟨l, hl, committed_of_effect hr hn hb rfl (ringSetTo_rest _ _ _ _) (by decide), hlive, hgen, hwing, hlegs, fun j hj => ?_⟩
  rw [ring_of_rest hrest (by decide), ringSetTo_ne _ _ _ hj, hring]

end

/-! #### port-retrain (R267, R268) -/

/-- One port of a retrain: what it had not delivered goes to the trunk, and it trains from phase 1. -/
def retrainPort (s : State) (p : Nat) : State := (dropPort s p .training).modPort p (fun x => { trainPort x with narrow := false })

/-- A port that trains from phase 1 for 8 lanes. -/
def Retrained (x : Port) : Prop := x.st = .training ∧ x.phase = 1 ∧ x.narrow = false

theorem retrainPort_self (s : State) (p : Nat) :
    (retrainPort s p).port p = { trainPort (deadPort .training (s.port p)) with narrow := false } := by
  unfold retrainPort
  rw [State.modPort_self, dropPort_self _ _ rfl]

theorem retrainPort_other (s : State) {p q : Nat} (hq : q ≠ p) : outsideSending ((retrainPort s p).port q) = outsideSending (s.port q) := by
  unfold retrainPort
  rw [State.modPort_ne _ _ hq]
  exact dropPort_other s .training hq

theorem retrainPort_corrected (s : State) (p q : Nat) : ((retrainPort s p).port q).corrected = (s.port q).corrected := by
  by_cases hq : q = p
  · subst hq; rw [retrainPort_self]; rfl
  · have h := congrArg Port.corrected (retrainPort_other s hq)
    exact h

theorem retrained_retrainPort {s : State} {p q : Nat} (h : Retrained (s.port q) ∨ q = p) : Retrained ((retrainPort s p).port q) := by
  by_cases hq : q = p
  · subst hq; rw [retrainPort_self]; exact ⟨rfl, rfl, rfl⟩
  · obtain ⟨hst, hphase, hnarrow⟩ := h.resolve_right hq
    have h := retrainPort_other s hq
    have field {α : Type} (f : Port → α) : f (outsideSending ((retrainPort s p).port q)) = f (outsideSending (s.port q)) := congrArg f h
    exact ⟨(field Port.st).trans hst, (field Port.phase).trans hphase, (field Port.narrow).trans hnarrow⟩

theorem retrained_foldl (l : List Nat) (s : State) {q : Nat} (h : Retrained (s.port q) ∨ q ∈ l) :
    Retrained ((l.foldl retrainPort s).port q) := by
  induction l generalizing s with
  | nil => exact h.resolve_right List.not_mem_nil
  | cons p l ih =>
    refine ih _ ?_
    by_cases hl : q ∈ l
    · exact .inr hl
    · exact .inl (retrained_retrainPort (h.imp_right fun hq => (List.mem_cons.mp hq).resolve_right hl))

theorem retrainPorts_eq (s : State) (mask : Nat) : retrainPorts s mask = (maskList 36 mask).foldl retrainPort s := rfl

theorem retrainPorts_rest (s : State) (mask : Nat) : rest [.ports] (retrainPorts s mask) = rest [.ports] s := by
  rw [retrainPorts_eq]
  exact rest_foldl _ _ _ fun s p => (State.modPort_rest (by decide) _ _ _).trans (dropPort_rest (by decide) _ _ _)

theorem retrainPorts_corrected (s : State) (mask q : Nat) : ((retrainPorts s mask).port q).corrected = (s.port q).corrected := by
  rw [retrainPorts_eq]
  exact foldl_keeps (fun v : State => (v.port q).corrected) (fun v p => retrainPort_corrected v p q) _ _

theorem retrained_retrainPorts (s : State) {mask q : Nat} (hlt : q < 36) (hq : mask.testBit q = true) :
    Retrained ((retrainPorts s mask).port q) := by
  rw [retrainPorts_eq]
  exact retrained_foldl _ s (.inr (mem_maskList.mpr ⟨hlt, hq⟩))

/-- A retrain taken up: its ports train, and its reply waits for them. -/
def retrain (mask : Nat) (ref : CmdRef) (s : State) : State :=
  (retrainPorts s mask).modFabric (fun f => { f with retrains := f.retrains ++ [{ ports := mask, ref := ref }] })

theorem retrain_rest (mask : Nat) (ref : CmdRef) (s : State) : rest [.ports, .fabric] (retrain mask ref s) = rest [.ports, .fabric] s :=
  (State.modFabric_rest (by decide) _ _).trans (rest_mono (retrainPorts_rest s mask) (by decide))

/-- A retrain of no port, with no other under way, ends at once. -/
theorem settleRetrains_retrain_none (s : State) (ref : CmdRef) (hup : s.keeper.up = true) (hnone : s.fabric.retrains = []) :
    ∃ w, rest [.keeper, .version, .fabric] w = rest [.keeper, .version, .fabric] s
      ∧ settleRetrains (retrain 0 ref s) = finishIn w ref .ok (portStates s) := by
  have hsettle : settleRetrains (retrain 0 ref s) =
      finish ((retrain 0 ref s).modFabric (fun f => { f with retrains := [] })) ref .ok (portStates s) := by
    unfold settleRetrains retrain retrainPorts State.modFabric
    simp [hup, hnone, maskList]
    rfl
  refine ⟨((retrain 0 ref s).modFabric (fun f => { f with retrains := [] })).bump, ?_, hsettle⟩
  rw [State.bump_rest (by decide), State.modFabric_rest (by decide)]
  exact State.modFabric_rest (by decide) _ _

section
variable {h : CmdHdr} {p : Bytes} {s u : State}

theorem portRetrain_body (hrules : moduleRules (.portRetrain h p) u = true) : portRetrainCmd.body u h p =
    .long (retrain (field p 0 8) (refOf h portRetrainCmd.code)) .accepted [] (if field p 0 8 = 0 then some settleRetrains else none) := by
  have hon : (maskList 36 (field p 0 8)).all (fun q => decide ((u.port q).st ≠ .off)) = true := hrules
  refine (if_neg ?_).trans rfl
  simpa using hon

theorem portRetrain_done (hst : starts portRetrainCmd h p s = true)
    (hrules : moduleRules (.portRetrain h p) (taken portRetrainCmd h s) = true) :
    moduleDone portRetrainCmd (.portRetrain h p) (taken portRetrainCmd h s) (kcp portRetrainCmd h p s) := by
  obtain ⟨k, hr, hn, hl, hx, -⟩ := kcp_of_starts hst rfl
  rw [hx]
  generalize taken portRetrainCmd h s = u at *
  have hb := portRetrain_body hrules
  have hbefore : rest [.version, .sessions, .longs, .fns] (accepting portRetrainCmd h u .accepted []) = rest _ u :=
    accepting_rest hr (List.Subset.refl _)
  refine ⟨fun hzero hnone => ?_, fun hsome => ?_⟩
  · rw [if_pos hzero, hzero] at hb
    have hup : (accepting portRetrainCmd h u .accepted []).keeper.up = true :=
      (congrArg Keeper.up (same_of_rest (c := .keeper) hbefore (by decide))).trans hr.up
    have hidle : (accepting portRetrainCmd h u .accepted []).fabric.retrains = [] :=
      (congrArg Fabric.retrains (same_of_rest (c := .fabric) hbefore (by decide))).trans hnone
    have hstates : portStates (accepting portRetrainCmd h u .accepted []) = portStates u := by
      unfold portStates; simp only [port_of_rest hbefore (by decide)]
    obtain ⟨w, hw, hdone⟩ := settleRetrains_retrain_none _ (refOf h portRetrainCmd.code) hup hidle
    rw [hstates] at hdone
    exact finished_of_long hr hn (hl rfl) hb hdone (sameWindow_of_rest hw (by decide) _)
  · rw [if_neg hsome] at hb
    have hrest := kExecute_long_rest (M := [.sessions, .stamped]) hr hn (hl rfl) hb (by decide)
    refine ⟨accepted1_of_long hr hn (hl rfl) hb (retrain_rest _ _ _) (by decide), fun q hlt hq => ?_⟩
    have hport : (kExecute portRetrainCmd k true u).port q = (retrainPorts (accepting portRetrainCmd h u .accepted []) (field p 0 8)).port q :=
      port_of_rest hrest (by decide) q
    obtain ⟨htrain, hphase, hnarrow⟩ := retrained_retrainPorts (accepting portRetrainCmd h u .accepted []) hlt hq
    rw [hport]
    refine ⟨htrain, hphase, hnarrow, ?_⟩
    rw [retrainPorts_corrected, port_of_rest hbefore (by decide)]

end

/-! #### mirror-area-set (R360) -/

/-- The mirror areas of some Loft channels given a size. -/
def setAreas (size : Nat) (l : List Nat) (s : State) : State := l.foldl (fun s c => s.modLoft c (fun x => { x with mirror := size })) s

theorem setAreas_rest (size : Nat) (l : List Nat) (s : State) : rest [.lofts] (setAreas size l s) = rest [.lofts] s :=
  rest_foldl _ _ _ fun s c => State.modLoft_rest (by decide) s c _

theorem setAreas_loft (size : Nat) (l : List Nat) (s : State) (k : Nat) :
    (setAreas size l s).loft k = if k ∈ l then { s.loft k with mirror := size } else s.loft k := by
  unfold setAreas
  induction l generalizing s with
  | nil => rfl
  | cons c l ih =>
    rw [List.foldl_cons, ih]
    by_cases hc : k = c
    · subst hc; simp
    · simp [hc, State.modLoft_ne _ _ hc]

section
variable {h : CmdHdr} {p : Bytes} {s u : State}

theorem mirrorAreaSet_body (hrules : moduleRules (.mirrorAreaSet h p) u = true) : mirrorAreaSetCmd.body u h p =
    .commit (setAreas (field p 8 8) (maskList 16 (field p 0 2))) .ok [] := by
  simp only [moduleRules, Bool.and_eq_true] at hrules
  obtain ⟨⟨hopen, hspace⟩, hheld⟩ := hrules
  refine (if_neg ?_).trans ((if_neg ?_).trans ((if_neg ?_).trans rfl))
  · simpa [imp_iff_not_or] using hopen
  · simpa [Nat.not_lt, ← not_and_or, imp_iff_not_or] using hspace
  · simpa using hheld

theorem mirrorAreaSet_done (hst : starts mirrorAreaSetCmd h p s = true)
    (hrules : moduleRules (.mirrorAreaSet h p) (taken mirrorAreaSetCmd h s) = true) :
    moduleDone mirrorAreaSetCmd (.mirrorAreaSet h p) (taken mirrorAreaSetCmd h s) (kcp mirrorAreaSetCmd h p s) := by
  obtain ⟨k, hr, hn, -, hx, -⟩ := kcp_of_starts hst rfl
  rw [hx]
  generalize taken mirrorAreaSetCmd h s = u at *
  have hb := mirrorAreaSet_body hrules
  have hrest := kExecute_commit_rest (M := [.sessions, .stamped]) hr hn hb rfl (by decide)
  have hbefore : rest [.version, .sessions, .fns] (committing mirrorAreaSetCmd h u .ok []) = rest _ u := committing_rest hr (List.Subset.refl _)
  refine ⟨committed_of_effect hr hn hb rfl (setAreas_rest _ _ _) (by decide), fun j => ?_⟩
  rw [loft_of_rest hrest (by decide), setAreas_loft, loft_of_rest hbefore (by decide)]
  simp only [mem_maskList]

end

/-- Settles O24. -/
theorem fabricCommands : Obligations.FabricCommands := by
  intro i c h p s hi hc hst hrules
  cases i with
  | fabricSet => cases hc; exact ⟨_, rfl, fabricSet_done hst hrules⟩
  | collectiveSet => cases hc; exact ⟨_, rfl, collectiveSet_done hst hrules⟩
  | collectivePost => cases hc; exact ⟨_, rfl, collectivePost_done hst hrules⟩
  | ringSet => cases hc; exact ⟨_, rfl, ringSet_done hst hrules⟩
  | ringStatus => cases hc; exact ⟨_, rfl, ringStatus_done hst⟩
  | fabricStatus => cases hc; exact ⟨_, rfl, fabricStatus_done hst⟩
  | portRetrain => cases hc; exact ⟨_, rfl, portRetrain_done hst hrules⟩
  | mirrorAreaSet => cases hc; exact ⟨_, rfl, mirrorAreaSet_done hst hrules⟩
  | _ => cases hi

end Sys2Proof.Machine
